-- ==== Sys2Proof/Word.lean ====
section
/-! DEFINITION. The word types of the block and their plainest arithmetic (R12, R15, R110). -/

namespace Sys2Proof

/-- One byte. -/
abbrev Byte := BitVec 8

/-- One 32-bit word: a register (R12), an engine word (R110). -/
abbrev Word := BitVec 32

/-- The byte `i` of a number, little-endian (R15). -/
abbrev byteOf (v i : Nat) : Byte := BitVec.ofNat 8 (v / 256 ^ i)

end Sys2Proof
end

