-- ==== Sys2Proof/Syntax.lean ====
section
/-! DEFINITION. The commands of the block: one constructor per row of the table of operations and events
(spec/opcode_table.json), with the operands an occurrence of the row carries. A docstring names the row's rule
and what each operand is. An operand is what reaches the block from outside it (a frame of the peer or of a bus,
a measured quantity, the result of a physical test) or which of several like things the row concerns. -/

namespace Sys2Proof

/-- A die slot (Table 0.1): 0 is the control die, 1 to 7 the satellites. -/
abbrev Slot := Fin 8
/-- A door or step channel D0 to D11 (R7). -/
abbrev DCh := Fin 12
/-- A door die DRV0 to DRV2 (R7). -/
abbrev Drv := Fin 3
/-- A load channel L0 to L23 (R7). -/
abbrev LCh := Fin 24
/-- A load die LSW0, LSW1. -/
abbrev Lsw := Fin 2
/-- A field die FIO0, FIO1. -/
abbrev Fio := Fin 2
/-- A message bus controller CAN0 to CAN3 (R334). -/
abbrev Ctl := Fin 4
/-- A message buffer of a controller (R337). -/
abbrev Buf := Fin 64
/-- An Ethernet port E0 to E3 (R358). -/
abbrev Port := Fin 4
/-- A task: 0 to 15 are CT0 to CT15, 16 to 23 are ET0 to ET7 (R144). -/
abbrev Task := Fin 24
/-- An engine lane: 0 A, 1 B, 2 C (R189). -/
abbrev Lane := Fin 3
/-- A telegram number (R361). -/
abbrev Tel := Fin 1024

/-- How a frame or an item arrives at its receiver (R21, R317). -/
inductive Rx where
  /-- Undamaged. -/
  | ok
  /-- With a bad CRC. -/
  | badCrc
  /-- With a code error. -/
  | codeErr
deriving DecidableEq, Repr

/-- The operand of an engine instruction: area [23:20] and offset [19:0] of its word (R113), and the literal word
that follows it where the area is 0 or the instruction always takes one. -/
structure Opnd where
  area : BitVec 4
  off : BitVec 20
  lit : Word
deriving DecidableEq, Repr

/-- What a boot step of Table 3.5 meets outside the digital state: the ROM and fuse checks, the self-tests and
the time the step took (R97). -/
structure BootObs where
  /-- Step 2: ROM checksum and fuse parity are right. -/
  romOk : Bool
  /-- Step 3: banks that failed MBIST. -/
  mbistFail : BitVec 5
  /-- Step 4: lanes that failed LBIST. -/
  lbistFail : BitVec 3
  /-- Step 8: slots whose `DIE_ID` has a `TYPE` that does not match the slot (R48). -/
  slotTypeBad : BitVec 8
  /-- Step 9: slots that refused their configuration, or whose `CFG_CHECK` differed afterwards (Table 3.9). -/
  configBad : BitVec 8
  /-- Step 11: power was lost while a revoke fuse was being blown, and the fuse read intact (R92). -/
  revokeLost : BitVec 4
  /-- Duration of the step in µs. -/
  us : Nat
deriving DecidableEq, Repr

/-- A CAN frame on a bus (R335, Table 12.1). -/
structure CanFrame where
  /-- Identifier, with a base identifier in [28:18]. -/
  id : BitVec 29
  ide : Bool
  rtr : Bool
  fdf : Bool
  brs : Bool
  esi : Bool
  dlc : BitVec 4
  data : List Byte
  /-- ns from its SOF to the end of its EOF (R338: `XTIME` is the time at the SOF). -/
  len : Nat
deriving DecidableEq, Repr

/-- The sender's part of a verb frame (Table 13.6): port, `SESS`, `CTR`, and the tag the client computed. -/
structure VerbHdr where
  port : Port
  sess : BitVec 8
  ctr : Word
  /-- The rest of the body after the row's own fields does not fit the format (wrong length): R384 step 2. -/
  badLen : Bool
  tag : List Byte
deriving DecidableEq, Repr

/-- The payload of a Rope HB frame (Table 14.2). -/
structure HbFrame where
  devTime : Nat
  grid : Nat
  mode : BitVec 8
  seat : BitVec 8
  flags : BitVec 16
  ccount : BitVec 16
  belayGen : Word
  lineage : BitVec 64
  imgGen : Word
  paramGen : Word
  setSeq : Word
deriving DecidableEq, Repr

/-- The registers of lane A's register file (R206, Table 4.1): the branch and return stacks entry by entry, the oldest 0. -/
inductive DbgReg where
  | cr | wa | wb | sf | ix | pc
  | br (i : Fin 16)
  | rs (i : Fin 8)
deriving DecidableEq, Repr

/-- The commands. -/
inductive Instr where
  -- Die links and the coherent cycle (chapter 1)
  /-- R18. The link of slot `n` reaches UP. -/
  | linkUp (n : Slot)
  /-- R18. The link of slot `n` falls to DOWN. -/
  | linkDown (n : Slot)
  /-- R18. The control die retrains the link of slot `n`. -/
  | linkRetrain (n : Slot)
  /-- R21. ABORT voids the frame in progress on link `n`; `toSat`: in the direction control to satellite. -/
  | frameAbort (n : Slot) (toSat : Bool)
  /-- R50. LRESET on the link of slot `n`. -/
  | lreset (n : Slot)
  /-- R24. SAMPLE is emitted for the next sample point. -/
  | sampleEmit
  /-- R23. The satellite of slot `n` latches its inputs. -/
  | sampleLatch (n : Slot)
  /-- R26. The next sample-grid point. -/
  | samplePoint
  /-- R20. The control die receives the frame at the head of link `n` as an INPUT frame. -/
  | input (n : Slot) (rx : Rx)
  /-- R34. P + 20 µs. -/
  | inputDeadline
  /-- R28. The satellite of slot `n` receives a STAGE frame. -/
  | stage (n : Slot) (rx : Rx)
  /-- R26. 5 µs after the STAGE to slot `n` ended without an ACK. -/
  | stageResend (n : Slot)
  /-- R28. The control die receives an ACK from slot `n`. -/
  | ack (n : Slot) (rx : Rx)
  /-- R31. The ACK deadline of slot `n`. -/
  | ackDeadline (n : Slot)
  /-- R29. 50 µs after its ACK without a COMMIT on slot `n`. -/
  | stageDiscard (n : Slot)
  /-- R27. 2,000 ns before the next commit-grid point. -/
  | commitEmit
  /-- R28. The satellite of slot `n` applies COMMIT at the equalised instant. -/
  | commitApply (n : Slot)
  /-- R23. The commit instant in the control die. -/
  | commitPoint
  /-- R31. The control die receives CONFIRM from slot `n`. -/
  | confirm (n : Slot) (rx : Rx)
  /-- R31. C + 5 µs, the CONFIRM deadline. -/
  | confirmDeadline
  /-- R30. C + 5 µs, the publish point. -/
  | publish
  /-- R21. A NAK arrives; `toSat`: at the satellite of slot `n`. -/
  | nak (n : Slot) (toSat : Bool) (rx : Rx)
  /-- R40. SYNC is sent on every admitted link. -/
  | syncSend
  /-- R40. The satellite of slot `n` receives SYNC. -/
  | sync (n : Slot) (rx : Rx)
  /-- R22. The satellite of slot `n` receives REG_WR. -/
  | regWr (n : Slot) (rx : Rx)
  /-- R22. The satellite of slot `n` receives REG_RD. -/
  | regRd (n : Slot) (rx : Rx)
  /-- R22. The control die receives REG_RSP from slot `n`. -/
  | regRsp (n : Slot) (rx : Rx)
  /-- R22. 20 µs without REG_RSP from slot `n`. -/
  | regAccessTimeout (n : Slot)
  /-- R147. The control die receives an EVENT frame from slot `n`. -/
  | event (n : Slot) (rx : Rx)
  /-- R35. The satellite of slot `n` receives RESYNC. -/
  | resync (n : Slot) (rx : Rx)
  /-- R240. The control die receives a TRACE frame of samples from slot `n`. -/
  | trace (n : Slot) (rx : Rx)
  /-- R249. The control die receives a TRACE frame with first byte 0xF0 from slot `n`. -/
  | profileFrame (n : Slot) (rx : Rx)
  /-- R461. The control die receives a TRACE frame with first byte 0xF1 from slot `n`. -/
  | ledgerStateFrame (n : Slot) (rx : Rx)
  /-- R24. The satellite of slot `n` receives PROBE. -/
  | probe (n : Slot) (rx : Rx)
  /-- R24. The control die receives ECHO from slot `n`; `rtt`: the measured round trip in ns. -/
  | echo (n : Slot) (rx : Rx) (rtt : Nat)
  /-- R35. The link of slot `n` is measured again. -/
  | latencyRemeasure (n : Slot)
  /-- R35. The measurements of slot `n` have failed for 60 s. -/
  | latencyExclude (n : Slot)
  /-- R24. 40 ms after the start of boot step 8 the link of slot `n` is not UP. -/
  | enumLinkTimeout (n : Slot)
  /-- R46. A write of 1 to `SNAP_REQ`. -/
  | snapReq
  /-- R46. The slowest domain delivers its field. -/
  | snapDone
  /-- R12. A write of `v` to the register at `addr`. -/
  | registerWrite (addr : Word) (v : Word)
  /-- R12. A read of the register at `addr`. -/
  | rcRead (addr : Word)
  -- Modes, resets and power (chapter 2)
  /-- R62. Power-on reset: VL valid after the always-on domain was unpowered; `seatB`: the `SEAT` land. -/
  | por (seatB : Bool)
  /-- R77. VL valid for 50 ms after a power-fail save. -/
  | pfail
  /-- R62. `RESET_N` low for 50 CLK_WDT cycles. -/
  | pin
  /-- R64. Watchdog expiry. -/
  | wdt
  /-- R64. The next 250 µs tick, with its housekeeping completed. -/
  | schedulerTick
  /-- R97. Completion of the present boot step. -/
  | bootStep (o : BootObs)
  /-- R96. The agent's copy into the Topo shadow; `complete`: it ended with its valid mark. -/
  | shadowCopy (complete : Bool)
  /-- R51. A MAINTENANCE session has been idle for `MAINT_IDLE_S`. -/
  | maintIdleTimeout
  /-- R69. The park checkpoint's valid mark is written. -/
  | parkEntry
  /-- R70. The `WAKE` land at its polarity for 100 µs. -/
  | wake
  /-- R70. A dominant level of 5 µs on the RXD of controller `c`. -/
  | canWake (c : Ctl)
  /-- R70. The always-on wake timer expires. -/
  | aonWake
  /-- R433. 1.5 ms after wake. -/
  | keepBanksReady
  /-- R73. VL, in 10 mV, has been below (or is back above) 10.8 V. -/
  | vlLow (vl : BitVec 16)
  /-- R74. VL below 9.6 V for 20 µs. -/
  | pfWarn
  /-- R74. 100 µs after the power-fail task's SAMPLE. -/
  | pfTaskDeadline
  /-- R157. The power-fail commit point. -/
  | pfCommit
  /-- R74. The save completes. -/
  | saved
  /-- R75. `SAVED` not asserted 2.0 ms after the crossing. -/
  | saveAborted
  /-- R417. The power-fail delta is sent, or 100 µs after the commit. -/
  | pfClaimWithdraw
  /-- R354. `SCOPED_RESET` bit `c`. -/
  | scopedResetCan (c : Ctl)
  /-- R470. `SCOPED_RESET` bit [4]. -/
  | scopedResetQp
  /-- R400. `SCOPED_RESET` bit [5]. -/
  | scopedResetRope
  /-- R50. `SCOPED_RESET` bit [7 + n]. -/
  | scopedResetLink (n : Slot)
  -- Logic engine instructions (chapter 4); `l`: the lane that executes it in UNBOUND (R203)
  /-- R118. -/
  | ld (l : Lane) (o : Opnd)
  /-- R118. -/
  | ldn (l : Lane) (o : Opnd)
  /-- R118. -/
  | and_ (l : Lane) (o : Opnd)
  /-- R118. -/
  | andn (l : Lane) (o : Opnd)
  /-- R118. -/
  | or_ (l : Lane) (o : Opnd)
  /-- R118. -/
  | orn (l : Lane) (o : Opnd)
  /-- R118. -/
  | xor_ (l : Lane) (o : Opnd)
  /-- R118. -/
  | ab (l : Lane)
  /-- R118. -/
  | ob (l : Lane)
  /-- R118. -/
  | be (l : Lane)
  /-- R118. -/
  | st (l : Lane) (o : Opnd)
  /-- R118. -/
  | stn (l : Lane) (o : Opnd)
  /-- R118. -/
  | set_ (l : Lane) (o : Opnd)
  /-- R118. -/
  | rst (l : Lane) (o : Opnd)
  /-- R120. -/
  | pe (l : Lane) (o : Opnd)
  /-- R120. -/
  | ne (l : Lane) (o : Opnd)
  /-- R123. -/
  | ton (l : Lane) (o : Opnd)
  /-- R123. -/
  | tof (l : Lane) (o : Opnd)
  /-- R123. -/
  | tp (l : Lane) (o : Opnd)
  /-- R129. Counter rows: `i` is the instance (offset [10:0]). -/
  | ctu (l : Lane) (i : BitVec 11)
  /-- R128. -/
  | ctuR (l : Lane) (i : BitVec 11)
  /-- R129. -/
  | ctd (l : Lane) (i : BitVec 11)
  /-- R128. -/
  | ctdL (l : Lane) (i : BitVec 11)
  /-- R129. -/
  | ctud (l : Lane) (i : BitVec 11)
  /-- R128. -/
  | ctudR (l : Lane) (i : BitVec 11)
  /-- R128. -/
  | ctudL (l : Lane) (i : BitVec 11)
  /-- R128. -/
  | ctudD (l : Lane) (i : BitVec 11)
  /-- R130. -/
  | lw (l : Lane) (o : Opnd)
  /-- R130. -/
  | lwk (l : Lane) (lit : Word)
  /-- R130. -/
  | sw (l : Lane) (o : Opnd)
  /-- R130. -/
  | lwx (l : Lane) (o : Opnd)
  /-- R130. -/
  | swx (l : Lane) (o : Opnd)
  /-- R130. -/
  | lix (l : Lane)
  /-- R131. -/
  | add (l : Lane) (o : Opnd)
  /-- R131. -/
  | sub (l : Lane) (o : Opnd)
  /-- R131. -/
  | mul (l : Lane) (o : Opnd)
  /-- R131. -/
  | div (l : Lane) (o : Opnd)
  /-- R131. -/
  | mod (l : Lane) (o : Opnd)
  /-- R132. -/
  | cmpEq (l : Lane) (o : Opnd)
  /-- R132. -/
  | cmpNe (l : Lane) (o : Opnd)
  /-- R132. -/
  | cmpLt (l : Lane) (o : Opnd)
  /-- R132. -/
  | cmpLe (l : Lane) (o : Opnd)
  /-- R132. -/
  | cmpGt (l : Lane) (o : Opnd)
  /-- R132. -/
  | cmpGe (l : Lane) (o : Opnd)
  /-- R133. -/
  | limit (l : Lane) (o : Opnd)
  /-- R134. -/
  | scl (l : Lane) (o : Opnd)
  /-- R134. -/
  | movb (l : Lane) (o : Opnd)
  /-- R135. -/
  | atadd (l : Lane) (o : Opnd)
  /-- R135. -/
  | atswp (l : Lane) (o : Opnd)
  /-- R137. `obj`: the exchange object (offset [19:10]). -/
  | xlock (l : Lane) (obj : BitVec 10)
  /-- R137. -/
  | xfree (l : Lane) (obj : BitVec 10)
  /-- R68. XREQ on the system object; the code is in WA. -/
  | xreqPark (l : Lane)
  /-- R342. XREQ on buffer `b` of controller `c`; the code is in WA. -/
  | xreqTransmit (l : Lane) (c : Ctl) (b : Buf)
  /-- R344. XREQ on buffer `b` of controller `c`; the code is in WA. -/
  | xreqCancel (l : Lane) (c : Ctl) (b : Buf)
  /-- R346. XREQ on the object of controller `c`; the code is in WA. -/
  | xreqRecover (l : Lane) (c : Ctl)
  /-- R354. XREQ on the object of controller `c`; the code is in WA. -/
  | xreqReset (l : Lane) (c : Ctl)
  /-- R139. `user`: the user number. -/
  | warn (l : Lane) (user : Byte)
  /-- R139. `stop`: offset bit [8]. -/
  | faultI (l : Lane) (user : Byte) (stop : Bool)
  /-- R140. -/
  | jmp (l : Lane) (target : BitVec 18)
  /-- R140. -/
  | jc (l : Lane) (target : BitVec 18)
  /-- R140. -/
  | jnc (l : Lane) (target : BitVec 18)
  /-- R140. -/
  | call (l : Lane) (target : BitVec 18)
  /-- R140. -/
  | ret (l : Lane)
  /-- R140. -/
  | endAct (l : Lane)
  -- Voter, tasks, online change (chapters 5 to 7)
  /-- R197. The excluded lane `l` is reloaded at a task boundary and released. -/
  | laneRejoin (l : Lane)
  /-- R199. A 10 s instant. `sound`: the voter flags as it should; else it is defective and flags that lane in that class, or no lane. -/
  | voterSelftest (sound : Bool) (flags : Option (Lane × Fin 12))
  /-- R147. The user timer of event task `t` (kind 8). -/
  | userTimerTrigger (t : Task)
  /-- R160. `DEADLINE_US` after the SAMPLE of event task `t`. -/
  | etAbandon (t : Task)
  /-- R165. The first commit point after a multiple of `CKPT_MS`. -/
  | checkpointCut
  /-- R439. The checkpoint copy ends, `ns` later: other work of the MRAM (R435) decides when. -/
  | checkpointComplete (ns : Nat)
  /-- R173. Verb WRITE_PARAM: `EXP_GEN`, point, entries (`TUN_ID`, value). -/
  | writeParam (h : VerbHdr) (expGen : Word) (point : BitVec 64) (entries : List (BitVec 16 × Word))
  /-- R174. The application point P. -/
  | paramApply
  /-- R178. Verb LOAD_PROGRAM: chunk offset, last flag, bytes. -/
  | loadProgram (h : VerbHdr) (offset : Word) (last : Bool) (chunk : List Byte)
  /-- R178. The checks of a loaded set end. -/
  | loadVerifyDone
  /-- R180. Verb SWITCH_PROGRAM. -/
  | switchProgram (h : VerbHdr) (point : BitVec 64)
  /-- R180. The switch point S. -/
  | programSwitch
  /-- R183. S + `PROB_S`. -/
  | probationEnd
  /-- R183. Verb REVERT. -/
  | revert (h : VerbHdr) (point : BitVec 64)
  /-- R183. The REVERT point. -/
  | revertApply
  /-- R184. 10 ms before a change point no acknowledgement has come. -/
  | peerNoAck
  -- Door dies (chapters 8 and 9)
  /-- R212. `Dk_FLT_N`: low for 100 ns (`low` = true) or high again. -/
  | gateFault (k : DCh) (low : Bool)
  /-- R213, R220. The last 382 bits of the three bitstreams (phase U, phase V, V_DC), newest first: the longest filter window. -/
  | currentLoopTick (k : DCh) (iu iv vdc : List Bool)
  /-- R220. -/
  | speedLoopTick (k : DCh)
  /-- R224. -/
  | profileTick (k : DCh)
  /-- R214. `Dk_EN` low for 10 ms at zero speed. -/
  | offsetWait (k : DCh)
  /-- R214. The bits of the two current streams under 4,096 samples of the filter of ratio 16, oldest first: 65,566 each. -/
  | offsetMeasured (k : DCh) (iu iv : List Bool)
  /-- R215. A used bitstream without a transition for 256 modulator clocks; `gone`: transitions are present again. -/
  | dsmLoss (k : DCh) (gone : Bool)
  /-- R216. A Hall code (C, B, A) stable for 2 µs. -/
  | hall (k : DCh) (code : BitVec 3)
  /-- R216. A quadrature state (B, A). -/
  | encoder (k : DCh) (code : BitVec 2)
  /-- R230. V_DC above `VDC_MAX` for 1 ms, or back below it. -/
  | dcHigh (k : DCh) (high : Bool)
  /-- R236. V_DC below `VDC_MIN` for 1 ms. -/
  | dcLow (k : DCh)
  /-- R236. V_DC above its threshold for 100 ms. -/
  | dcRecovery (k : DCh)
  /-- R219. Local input IN`i` has the raw level `raw`: a new level starts its debounce, the level it already has lets `DEB_US` pass. -/
  | localInputDebounce (k : DCh) (i : Fin 8) (raw : Bool)
  /-- R243. -/
  | forceEstimate (k : DCh)
  /-- R251. F_est above the bin limit for `T_DET_MS`. -/
  | obstacle (k : DCh)
  /-- R251. Speed below `DEFICIT_PCT` of the reference for `T_DEFICIT_MS`. -/
  | speedDeficit (k : DCh)
  /-- R230. -/
  | doorEval (k : DCh)
  /-- R232. -/
  | stepEval (k : DCh)
  /-- R218. Closed and lock switches active for `PLAUS_MS`. -/
  | homeConfirm (k : DCh)
  /-- R497. Plausibility timer expiry. -/
  | proofPlaus (k : DCh)
  /-- R230. Lock-movement timer expiry. -/
  | lockMoveTimeout (k : DCh)
  /-- R230. Stroke timer expiry. -/
  | strokeTimeout (k : DCh)
  /-- R232. Step force above `CONTACT_N` for 10 ms past E / 2. -/
  | stepContact (k : DCh)
  /-- R254. `T_WAIT_MS` has passed. -/
  | reverseWaitEnd (k : DCh)
  /-- R250. The 2,000 ms open hold of a test cycle ends. -/
  | testHoldEnd (k : DCh)
  /-- R235. 1 ms without an applied COMMIT. -/
  | doorSilence (d : Drv)
  /-- R228. End of the 250 µs holdoff of channel `k`. -/
  | doorEventFlush (k : DCh)
  /-- R240. A trace sample of a channel, and whether the link has room for it. -/
  | traceSample (k : DCh × Bool)
  /-- R238. A write of `SHADOW` in `DRV_MODE`. -/
  | drvModeWrite (d : Drv) (shadow : Bool)
  /-- R239. 3 × `DSM_OSR` modulator clocks after `SHADOW` is cleared. -/
  | shadowResume (k : DCh)
  /-- R238. Positions apart by more than 20 mm for 100 ms. -/
  | shadowDiverge (k : DCh)
  /-- R249. A REG_WR to `BASE_LOADED` of door die `d`. -/
  | baseLoaded (d : Drv)
  /-- R249. Within 1 s the profile of channel `k` is copied into MRAM. -/
  | profileStore (k : DCh)
  -- Interlock (chapter 9)
  /-- R258. -/
  | zsProven
  /-- R259. -/
  | zsDiscrepant
  /-- R259. -/
  | zsDiscrepantClear
  /-- R260. `right`: the side. -/
  | relDiscrepant (right : Bool)
  /-- R266. `half`: 0 `TE_HI`, 1 `TE_LO`, 2 `LOOP_HI`, 3 `LOOP_LO`. -/
  | teReadback (half : Fin 4)
  /-- R265. -/
  | ilStale
  -- Load dies (chapter 10)
  /-- R293. A write of `STBY` in `LSW_MODE`. -/
  | lswModeWrite (d : Lsw) (stby : Bool)
  /-- R273, R289. The measurements of the 10 µs evaluation of channel `x`: VF of its die in 10 mV, current in µA (negative: reverse), ΔT in K
  and T_j in °C + 40, output in 10 mV, in current limit, sense path at fault, clamp energy in µJ of an ended turn-off with whether its
  free-wheel excursion went below −2 V. -/
  | loadEval (x : LCh) (vf : BitVec 16) (ua : Int) (temps : Byte × Byte) (out : Int) (limit : Bool) (bad : Bool) (ended : Option (Nat × Bool))
  /-- R279. More than 50 µs in current limit. -/
  | loadShort (x : LCh)
  /-- R277. The 100 µs update. -/
  | wireModel (x : LCh)
  /-- R281. Reverse current above 10 % of I_R for 1 ms. -/
  | loadReverse (x : LCh)
  /-- R283. End of the inrush window; `regulating`: the channel, or a half of the pair, still regulates its current there. -/
  | inrushEnd (x : LCh) (regulating : Bool)
  /-- R274. `REARM_MS` after a trip. -/
  | rearm (x : LCh)
  /-- R287. Sense below `OL_MA` for `OL_MS`. -/
  | openOn (x : LCh)
  /-- R288. The output in 10 mV without and with the diagnostic source. -/
  | offStateCheck (x : LCh) (out1 out2 : Int)
  /-- R289. VF has been below the lower limit of the band for 50 µs; `vf`: VF there, in 10 mV. -/
  | bandDrop (d : Lsw) (vf : BitVec 16)
  /-- R289. VF has been at the return level for its time; `vf`: VF there, in 10 mV. -/
  | bandRise (d : Lsw) (vf : BitVec 16)
  /-- R290. The channel's turn-on slot after the restore point. -/
  | dipRestore (x : LCh)
  /-- R271. 10 ms after the sum of the pair exceeded 20 % of I_N; the currents of the halves there, in µA. -/
  | pairImbalance (x : LCh) (lo hi : Int)
  /-- R297. End of the 250 µs holdoff of channel `x`. -/
  | loadEventFlush (x : LCh)
  /-- R414. `PEER_RELEASE_IN` asserted. -/
  | peerReleaseIn
  /-- R292. `PEER_RELEASE_IN` negated. -/
  | peerReleaseInNegate
  -- Field dies (chapter 11)
  /-- R302. VI, in 10 mV, below 15.0 V for 100 µs. -/
  | viLow (f : Fio) (vi : BitVec 16)
  /-- R302. VI at or above 16.0 V for 10 ms. -/
  | viRecover (f : Fio) (vi : BitVec 16)
  /-- R302. VI below 12.0 V. -/
  | fieldSideStop (f : Fio) (vi : BitVec 16)
  /-- R302. VI rises again. -/
  | fieldSideRestart (f : Fio) (vi : BitVec 16)
  /-- R304, R307. The terminal of local input `c` has level `raw`, before `INV`: a change of it, or its debounce ends. -/
  | fieldInputDebounce (f : Fio) (c : Fin 32) (raw : Bool)
  /-- R308. No active edge on fast input `j` for `F_TIMEOUT_MS`. -/
  | ftmo (f : Fio) (j : Fin 8)
  /-- R311. Output `c` in current limit for 2 ms. -/
  | ovl (f : Fio) (c : Fin 16)
  /-- R311. The 100 ms retry of output `c`; `success`: the overload is gone. -/
  | ovlRetry (f : Fio) (c : Fin 16) (success : Bool)
  /-- R315. The field side receives an OUT item. -/
  | outItem (f : Fio) (rx : Rx)
  /-- R315. The field side receives an APPLY item. -/
  | applyItem (f : Fio) (rx : Rx)
  /-- R315. The field side receives a TICK item. -/
  | tickItem (f : Fio) (rx : Rx)
  /-- R316. The logic side receives ACKW. -/
  | ackw (f : Fio) (rx : Rx)
  /-- R317. The logic side receives an IN item: VI in 10 mV, and the output nodes that read 1. -/
  | inItem (f : Fio) (rx : Rx) (vi : BitVec 16) (rb : BitVec 16)
  /-- R318. 100 µs without a valid item; `field`: at the field side. -/
  | xloss (f : Fio) (field : Bool)
  /-- R318. Valid IN items for 100 µs. -/
  | crossingRestore (f : Fio)
  /-- R320. No heartbeat transition for 20 µs; `field`: at the field side. -/
  | heartbeatLoss (f : Fio) (field : Bool)
  /-- R321. `SILENCE_MS` without an applied COMMIT. -/
  | fioSilence (f : Fio)
  /-- R323. A write of `STBY` in `FIO_MODE`. -/
  | fioModeWrite (f : Fio) (stby : Bool)
  -- Message bus controllers (chapter 12)
  /-- R334. 11 consecutive recessive bits. -/
  | canJoin (c : Ctl)
  /-- R338. A frame is received to the end of its EOF; `own`: it is the controller's own (loop-back, R353). -/
  | canRxFrame (c : Ctl) (f : CanFrame) (own : Bool)
  /-- R339. -/
  | canRxTimeout (c : Ctl) (b : Buf)
  /-- R343. An SOF may begin. -/
  | canTxStart (c : Ctl)
  /-- R343. The frame on the bus was sent successfully. -/
  | canTxDone (c : Ctl)
  /-- R343. The frame on the bus lost arbitration (`none`) or met an error: `LAST_ERR`, in the data phase, and TEC, REC
  after it as ISO 11898-1 defines them. -/
  | canTxError (c : Ctl) (err : Option (Fin 7 × Bool)) (tec rec : Nat)
  /-- R346. 128 sequences of 11 recessive bits. -/
  | canRecovered (c : Ctl)
  /-- R347. -/
  | protocolException (c : Ctl)
  /-- R348. A reference message is received. -/
  | canRefMessage (c : Ctl) (f : CanFrame)
  /-- R348. -/
  | canRefSend (c : Ctl)
  /-- R349, R350. The window mark of window `w`; `busy`: the bus is not idle there. -/
  | canTtWindow (c : Ctl) (w : Fin 32) (busy : Bool)
  /-- R350. `CYCLE_LEN` + 1,024 units without a reference message. -/
  | canTtSyncLoss (c : Ctl)
  /-- R353. The 10 s loop-back test of a standby: received back, and a bus frame collided with it. -/
  | canLbTest (c : Ctl) (back collide : Bool)
  -- Network and verbs (chapter 13)
  /-- R359. Register 1 of the PHY of port `p` as polled, and whether both ends advertise 1,000 Mbit/s. -/
  | mdioPoll (p : Port) (v : BitVec 16) (gig : Bool)
  /-- R360. An ARP request for address `ip` on port `p`. -/
  | arpRequest (p : Port) (ip : Word)
  /-- R360. An ICMP echo request on port `p`. -/
  | icmpEcho (p : Port) (ip : Word)
  /-- R363. A Pd copy: comId, source, counter, payload. -/
  | pdReceive (p : Port) (comId srcIp counter : Word) (payload : List Byte)
  /-- R362. -/
  | pdPublish (i : Tel)
  /-- R364. -/
  | telTimeout (i : Tel)
  /-- R364. `b`: plane B. -/
  | planeLoss (i : Tel) (b : Bool)
  /-- R365. Container checks and walkers complete, after `wait` ns of waiting at the banks. -/
  | rximgDone (wait : Nat)
  /-- R374. Container `c`. -/
  | scStale (c : Fin 256)
  /-- R377. A Sync: two-step, its origin time, and its receipt in device time. -/
  | ptpSync (p : Port) (twoStep : Bool) (origin rxTime : Nat)
  /-- R376. The precise origin time of a two-step Sync. -/
  | ptpFollowUp (p : Port) (origin : Nat)
  /-- R376. -/
  | ptpDelayReq
  /-- R376. The master's receipt time of Delay_Req. -/
  | ptpDelayResp (p : Port) (rxTime : Nat)
  /-- R376. An Announce with its priority vector as one number, lower is better, and the low 4 bits of its logMessageInterval. -/
  | ptpAnnounce (p : Port) (msg : Nat × Fin 16)
  /-- R376. -/
  | ptpAnnounceTimeout
  /-- R377. -/
  | ptpLost
  /-- R381. Verb OPEN_SESSION: role, N_c. -/
  | openSession (h : VerbHdr) (role : Byte) (nc : List Byte)
  /-- R383. -/
  | closeSession (h : VerbHdr)
  /-- R384. Verb READ_OBJ: address, length. -/
  | readObj (h : VerbHdr) (addr : Word) (len : BitVec 16)
  /-- R419. -/
  | health (h : VerbHdr)
  /-- R458. Verb READ_CAIRN: area, first record, count. -/
  | readCairn (h : VerbHdr) (area : Byte) (first count : BitVec 16)
  /-- R457. -/
  | clearCairn (h : VerbHdr)
  /-- R463. Verb READ_LEDGER: door, first record, count. -/
  | readLedger (h : VerbHdr) (door : Byte) (first count : BitVec 16)
  /-- R53. -/
  | setModeEnter (h : VerbHdr)
  /-- R51. -/
  | setModeLeave (h : VerbHdr)
  /-- R389. -/
  | doorTestStart (h : VerbHdr) (ch : Byte)
  /-- R389. -/
  | doorTestAbort (h : VerbHdr) (ch : Byte)
  /-- R389. -/
  | learnProfileStart (h : VerbHdr) (ch : Byte)
  /-- R389. -/
  | learnProfileAbort (h : VerbHdr) (ch : Byte)
  /-- R388. Kind, number, value. -/
  | forceOutput (h : VerbHdr) (kind num value : Byte)
  /-- R346. -/
  | busoffRecover (h : VerbHdr) (c : Byte)
  /-- R385. -/
  | reset (h : VerbHdr)
  /-- R62. The first commit point after the RESET response. -/
  | verbReset
  /-- R386. Session `x`'s deferred verb is evaluated again. -/
  | deferResolve (x : Fin 4)
  /-- R386. -/
  | deferTimeout (x : Fin 4)
  /-- R383. -/
  | sessionIdle (x : Fin 4)
  /-- R381. -/
  | openLockoutEnd
  -- Duplex (chapter 14)
  /-- R395. -/
  | bootClaim
  /-- R411. -/
  | takeover
  /-- R395. -/
  | claimSettle
  /-- R411. `CLAIM_IN` rises. -/
  | claimInAssert
  /-- R396, R397. Seat B reads `CLAIM_A` asserted for 1 ms; `stuck`: 1 ms after the withdrawal the `CLAIM_B` land still reads asserted. -/
  | claimConflict (stuck : Bool)
  /-- R393. -/
  | claimAbandoned
  /-- R393. -/
  | claimLapse
  /-- R414. -/
  | peerReleaseEnd
  /-- R415. `CLAIM_IN` absent for 500 ms in the always-on domain. -/
  | claimGateClear
  /-- R400. The Rope link reaches UP; `lat`: its measured latency in ns. -/
  | ropeUp (lat : BitVec 12)
  /-- R400. -/
  | ropeDown
  /-- R398. Lane `lane` has lost symbol lock for 100 µs. -/
  | ropeDegraded (lane : Fin 2)
  /-- R398. -/
  | ropeRestore
  /-- R399. -/
  | hbSend
  /-- R401. -/
  | hb (rx : Rx) (f : HbFrame)
  /-- R400. -/
  | peerLost
  /-- R406. The payload of a whole delta (Table 14.4). -/
  | belayDelta (rx : Rx) (payload : List Byte)
  /-- R406. -/
  | belayReq (rx : Rx)
  /-- R406. One frame of a full set: generation, byte offset, bytes, and whether it is the last. -/
  | belayFull (rx : Rx) (gen : Word) (off : Nat) (bytes : List Byte) (last : Bool)
  /-- R419. -/
  | healthSend
  /-- R420. The 64 bytes of a health report. -/
  | healthReport (rx : Rx) (bytes : List Byte)
  /-- R184. A forwarded change: kind 0 WRITE_PARAM transaction, 1 set chunk, 2 switch point, 3 revert point, 4 overlay,
  5 program set; its point and bytes. -/
  | change (rx : Rx) (kind : Byte) (point : BitVec 64) (bytes : List Byte)
  /-- R184. The standby's point, or its verification result. -/
  | changeAck (rx : Rx) (point : BitVec 64) (result : Byte)
  /-- R69. The park commit number. -/
  | park (rx : Rx) (ccount : BitVec 16)
  /-- R409. Task, cycle number, byte mask. -/
  | cmpQuery (rx : Rx) (t : Task) (cycle : Word) (mask : BitVec 256)
  /-- R409. Task, verdict (disagrees), cycle number. -/
  | cmpVerdict (rx : Rx) (t : Task) (disagrees : Bool) (cycle : Word)
  /-- R409. -/
  | cmpVerdictTimeout
  /-- R399. The expected `SEQ`. -/
  | ropeNak (rx : Rx) (seq : BitVec 16)
  /-- R400. -/
  | ropeProbe (rx : Rx) (tag : Word)
  /-- R400. The measured round trip in ns. -/
  | ropeEcho (rx : Rx) (rtt : Nat)
  /-- R407. Channel, direction, adapted, 256 values as bytes. -/
  | profile (rx : Rx) (k : DCh) (dir adapted : Bool) (bytes : List Byte)
  /-- R409. -/
  | resyncAlarmClear
  /-- R421. `pass`: every word read back rightly. -/
  | selftestMarch (pass : Bool)
  /-- R421. Loop-back on disabled ports, traffic on enabled ones. -/
  | selftestEthernet (pass : Bool)
  /-- R421. The link of slot `n` is probed; `rtts`: the round trips of the probes that came back, in ns. -/
  | selftestLinkProbe (n : Slot) (rtts : List Nat)
  -- Memory, records, Query Port (chapters 15 and 16)
  /-- R429. Bank `b` writes back the word at `addr`; `overwritten`: it was written meanwhile. -/
  | eccWriteback (b : Fin 6) (addr : Word) (overwritten : Bool)
  /-- R429. -/
  | ceAlarmClear
  /-- R430. A pass ends: words corrected and words found uncorrectable. -/
  | scrub (ce ue : List Word)
  /-- R432. -/
  | fillDone (b : Fin 5)
  /-- R437. The block at `addr`: it showed a correction. -/
  | refresh (addr : Word) (corrected : Bool) (passEnd : Bool)
  /-- R446. -/
  | cairnWrite
  /-- R455. The bucket of `code`. -/
  | tokenRefill (code : BitVec 10)
  /-- R449. -/
  | opCountSave
  /-- R466. Whether the whole frame was held and its CRC right, address, length. -/
  | submitRead (whole : Bool) (crc : BitVec 16) (addr : Word) (len : BitVec 16)
  /-- R466. -/
  | submitWrite (whole : Bool) (crc : BitVec 16) (addr : Word) (len : BitVec 16) (data : List Byte)
  /-- R469. `whole`: `QP_CS_N` rises after the last `CRC` bit. -/
  | fetch (ticket : Byte) (whole : Bool)
  /-- R469. -/
  | qpAck (ticket : Byte) (crc : BitVec 16)
  /-- R465. -/
  | status
  /-- R470. -/
  | qpReset (magic : BitVec 24) (crc : BitVec 16)
  /-- R470. -/
  | qpResetDone
  -- Clocks, loop-backs, test access (chapter 17)
  /-- R481. -/
  | refclkLoss
  /-- R60. PLL number as a bit of `PLL_LOCK`. -/
  | pllUnlock (pll : Fin 8)
  /-- R482. -/
  | xtalFail
  /-- R476. The rise time in µs. -/
  | vhuMeasured (us : Nat)
  /-- R490. Depth of `LB_CTRL` and `INST`. -/
  | lbDieLink (depth : BitVec 2) (num : Byte)
  /-- R490. -/
  | lbRope (depth : BitVec 2)
  /-- R490. -/
  | lbEthernet (depth : BitVec 2) (num : Byte)
  /-- R490. -/
  | lbXspi (depth : BitVec 2)
  /-- R490. -/
  | lbQueryPort (depth : BitVec 2)
  /-- R490. -/
  | lbDoorDrive (depth : BitVec 2) (num : Byte)
  /-- R490. -/
  | lbDoorInputs (depth : BitVec 2) (num : Byte)
  /-- R490. -/
  | lbLoadChannel (depth : BitVec 2) (num : Byte)
  /-- R490. -/
  | lbFieldIo (depth : BitVec 2) (num arg : Byte)
  /-- R490. The test ends with its error count. -/
  | loopbackDone (pass : Bool) (errors : BitVec 16)
  /-- R492. Values shifted into the cells, and values captured at the lands. -/
  | extest (cells capture : List Byte)
  /-- R491. Values shifted into the cells, and values captured at the lands. -/
  | samplePreload (cells capture : List Byte)
  /-- R491. -/
  | idcode
  /-- R492. -/
  | clamp
  /-- R492. -/
  | highz
  /-- R62. -/
  | sysreset
  /-- R206. -/
  | dbgAttach
  /-- R206. -/
  | dbgHalt
  /-- R206. -/
  | dbgStep
  /-- R206. -/
  | dbgResume
  /-- R206. Read (`none`) or write a register of lane A. -/
  | dbgRegAccess (r : DbgReg) (wr : Option Word)
  /-- R206. Read (`none`) or write a word of memory. -/
  | dbgMemAccess (addr : Word) (wr : Option Word)
  /-- R206. Entry `i` of the debug write buffer. -/
  | dbgBufferRead (i : Fin 64)
  /-- R491. -/
  | fuseRead
  /-- R493. `field`: 0 to 3 key slots, 4 and 5 maintenance secrets; `value`: 32 bytes; `readBack`: the verify agrees; `vlOk`: VL within Table 17.2. -/
  | fuseProg (field : Fin 6) (value : List Byte) (readBack vlOk : Bool)
  /-- R491. Banks that failed. -/
  | mbistRun (fail : BitVec 5)
  /-- R491. Lanes that failed. -/
  | lbistRun (fail : BitVec 3)
  /-- R491. -/
  | scanTest
  /-- R491. -/
  | bypass
  -- Rows at the table's end
  /-- R62. The supply of the satellite in slot `n` returns. -/
  | diePowerUp (n : Slot)
  /-- R63. -/
  | resetNRelease
  /-- R311. -/
  | outputOvertemp (f : Fio) (c : Fin 16)
  /-- R311. -/
  | outputCooled (f : Fio) (c : Fin 16)
  /-- R302. -/
  | heartbeatRestore (f : Fio)
  /-- R306. -/
  | fieldEventFlush (f : Fio) (c : Fin 32)
  /-- R345. `LAST_ERR`, in the data phase, and TEC, REC after it. -/
  | canRxError (c : Ctl) (err : Fin 7) (dataPhase : Bool) (tec rec : Nat)
  /-- R360. -/
  | frameDiscarded (p : Port)
  /-- R379. -/
  | mdMalformed (p : Port)
  /-- R466. -/
  | qpUnknownCommand (cmd : Byte)
  /-- R475. `VIO` or (`eth`) `VIO_ETH` comes within or leaves its operating range. -/
  | ioSupplyValid (eth valid : Bool)
  /-- R491. -/
  | testLogicReset
deriving DecidableEq, Repr

end Sys2Proof
end

