-- ==== Sys2Proof/Decode.lean ====
section
/-! DEFINITION. The commands a word spells by the bits of spec/opcode_table.json. The table gives no row any bits: its rows are
commands and events of a block, not encoded words, so that no word spells one. -/

namespace Sys2Proof

/-- The command that a word of `nbits` bits spells by the table's bits: none. -/
def decodeTableWord (_nbits _w : Nat) : Option Instr := none

end Sys2Proof
end

