-- ==== Sys2Proof/Machine/Sparse.lean ====
section
/-! DEFINITION. Finite maps from addresses to values in one canonical form: addresses strictly rising and no entry
equal to what an unlisted address reads as. The memories, the register file and every table of the state that is
indexed by a number are such maps. -/

namespace Sys2Proof.Machine

/-- The value at `k`; `d` is what an unlisted address reads as. -/
def mget {α : Type} (d : α) : List (Nat × α) → Nat → α
  | [], _ => d
  | (a, v) :: t, k => if a = k then v else mget d t k

/-- Puts an entry before `t` unless it equals what an unlisted address reads as. -/
def mcons {α : Type} [DecidableEq α] (d : α) (k : Nat) (v : α) (t : List (Nat × α)) : List (Nat × α) :=
  if v = d then t else (k, v) :: t

/-- The map without any entry at `k`. -/
def mdel {α : Type} (k : Nat) : List (Nat × α) → List (Nat × α)
  | [] => []
  | (a, v) :: t => if a = k then mdel k t else (a, v) :: mdel k t

/-- The map with `v` at `k`: in its place among rising addresses, and no other entry at `k`. -/
def mset {α : Type} [DecidableEq α] (d : α) : List (Nat × α) → Nat → α → List (Nat × α)
  | [], k, v => mcons d k v []
  | (a, w) :: t, k, v =>
    if k < a then mcons d k v ((a, w) :: mdel k t)
    else if k = a then mcons d k v (mdel k t)
    else (a, w) :: mset d t k v

/-- Every address of the map lies above `lo`, they rise strictly, and no entry is the unlisted value. -/
def mokFrom {α : Type} [DecidableEq α] (d : α) : Nat → List (Nat × α) → Bool
  | _, [] => true
  | lo, (a, v) :: t => decide (lo ≤ a) && (decide (v ≠ d) && mokFrom d (a + 1) t)

/-- The canonical form. -/
def mok {α : Type} [DecidableEq α] (d : α) (m : List (Nat × α)) : Bool := mokFrom d 0 m

/-- The map without the entries of `[lo, lo + n)`: each of these addresses reads as an unlisted one. -/
def mclear {α : Type} (lo n : Nat) (m : List (Nat × α)) : List (Nat × α) :=
  m.filter fun p => decide (p.1 < lo) || decide (lo + n ≤ p.1)

/-- The `n` values from address `a` on. -/
def mslice {α : Type} (d : α) (m : List (Nat × α)) (a : Nat) : Nat → List α
  | 0 => []
  | n + 1 => mget d m a :: mslice d m (a + 1) n

/-- The map with the values `vs` from address `a` on. -/
def mput {α : Type} [DecidableEq α] (d : α) (m : List (Nat × α)) (a : Nat) : List α → List (Nat × α)
  | [] => m
  | v :: vs => mput d (mset d m a v) (a + 1) vs

end Sys2Proof.Machine
end

