-- ==== Sys2Proof/Machine/Parts.lean ====
section
/-! DEFINITION. The parts of the machine's state, chapter by chapter: plain data. A field's docstring names the rule
that gives it and its width; a field that holds a table is a sparse map (Sparse.lean) from its index. Times named
`mono` are nanoseconds since power-up; times named `dev` are device time (R39). -/

namespace Sys2Proof.Machine

/-- Bytes by address, in the canonical form of Sparse.lean. -/
abbrev Bytes := List (Nat × Byte)

/-- Numbers by index, in the canonical form of Sparse.lean, 0 where unlisted. -/
abbrev Nums := List (Nat × Nat)

/-- The two clocks. -/
structure Time where
  /-- Nanoseconds since power-up, never stepped: hardware timers count from it (R42, R44). -/
  mono : Nat := 0
  /-- R39, 64 bit. Device time in ns. -/
  dev : Nat := 0
  /-- R25. Index of the next sample-grid point not yet taken. -/
  gs : Nat := 0
  /-- R25. Index of the next commit-grid point not yet taken (the point lies at 12.5 µs + gc × 25 µs). -/
  gc : Nat := 0
  /-- R24, R27. COMMIT has been emitted for point `gc`. -/
  emitted : Bool := false
  /-- R26. SAMPLE has been emitted for point `gs`. -/
  sampled : Bool := false
  /-- R31. Mask of the slots to which COMMIT was emitted for the commit point in hand. -/
  sentTo : Nat := 0
  /-- R31. Mask of the slots whose CONFIRM for the last commit point is in. -/
  confirmed : Nat := 0
  /-- R31. The confirm deadline of the last commit point is still ahead. -/
  confirmDue : Bool := false
  /-- R30. The publish point of the last commit point is still ahead. -/
  publishDue : Bool := false
  /-- R40. `mono` of the last SYNC. -/
  lastSync : Nat := 0
  /-- R39, R377. Phase error still to be slewed, ns, and the ns since the last step of it. -/
  slew : Int := 0
  slewAcc : Nat := 0
deriving DecidableEq, Repr

/-- The fuses (R6, R91, R493). -/
structure Fuses where
  /-- R6. Suffix L: the debug port is fused shut. -/
  sufL : Bool := false
  /-- R91. SHA-256 of the public key of key slots 0 to 3; empty: unprogrammed. -/
  keyHash : List (List Byte) := [[], [], [], []]
  /-- R91, 4 bit. Key slots whose revoke fuse is blown. -/
  revoked : Nat := 0
  /-- R493. Maintenance secrets 0 and 1, 32 bytes each; empty: unprogrammed; of another length: programmed, with a read-back that differed. -/
  secret : List (List Byte) := [[], []]
  /-- R493. Production lock. -/
  prodLock : Bool := false
  /-- Table 17.12. Trims (64 bytes), serial number (8 bytes) and MAC base (6 bytes). -/
  trims : List Byte := List.replicate 64 0
  serial : List Byte := List.replicate 8 0
  macBase : List Byte := List.replicate 6 0
  /-- R431. Spare columns mapped in banks B0 to B4. -/
  spares : List Nat := [0, 0, 0, 0, 0]
deriving DecidableEq, Repr

/-- R80. The SFDP space of the flash of the board after reset: header with two parameter headers, a Basic Flash Parameter Table of 8 MiB
and an xSPI Profile 1.0 table. -/
def sfdpBoard : Bytes :=
  [(0, 0x53), (1, 0x46), (2, 0x44), (3, 0x50), (4, 8), (5, 1), (6, 1),
    (8, 0), (9, 8), (10, 1), (11, 20), (12, 0x30), (13, 0), (14, 0),
    (16, 5), (17, 0), (18, 1), (19, 5), (20, 0x80), (21, 0), (22, 0), (0x37, 3),
    (0x80, 0), (0x81, 0xEE), (0x90, 0), (0x91, 0x0A)]

/-- What the ordering code, the package and the board fix (R1, R80). -/
structure Board where
  /-- R1. Door dies, 0 to 3. -/
  nDrv : Nat := 3
  /-- R1. Load dies, 0 to 2. -/
  nLsw : Nat := 2
  /-- R1. Field dies, 0 to 2. -/
  nFio : Nat := 2
  /-- Table 1.11, 8 bit each. Silicon stepping of the die of each slot. -/
  steps : List Nat := [0, 0, 0, 0, 0, 0, 0, 0]
  /-- Table 2.11. The `SEAT` land: seat B. -/
  seatB : Bool := false
  /-- R6, R91, R493. -/
  fuses : Fuses := {}
  /-- R80. The Topo flash, 8 MiB; an unlisted byte reads 0xFF (erased). -/
  flash : Bytes := []
  /-- R80, R81. The SFDP space of the flash; an unlisted byte reads 0xFF. -/
  sfdp : Bytes := sfdpBoard
deriving DecidableEq, Repr

/-- A Topo record (R87). -/
structure Rec where
  ty : Nat
  inst : Nat
  data : List Byte
deriving DecidableEq, Repr

/-- The verified image of this boot (R84, R95). -/
structure Image where
  /-- Table 3.2. `IMG_GEN`. -/
  gen : Nat
  /-- Table 3.2. `LINEAGE`. -/
  lineage : Nat
  /-- Table 3.2. `REQ_SLOTS`. -/
  req : Nat
  /-- Table 3.2. `KEY_IDX`. -/
  keyIdx : Nat
  /-- Table 3.2. `HFLAGS`. -/
  hflags : Nat
  /-- R90. The 24 protection entries as (base, limit, attr). -/
  prot : List (Nat × Nat × Nat)
  /-- Table 3.2. `IMG_HASH`. -/
  hash : List Byte
deriving DecidableEq, Repr

/-- The flash interface, as the boot ROM drives it and what it has discovered (R81, R82). -/
structure FlashBus where
  /-- R82. The ROM drives the flash lands. -/
  driven : Bool := false
  /-- R81. The bus runs in 8D-8D-8D; else in 1S-1S-1S. -/
  octal : Bool := false
  /-- R108. 0: every required table was found; 1: no SFDP signature; 2: the SFDP is unsupported. -/
  fault : Nat := 0
  /-- R81. Density in bytes. -/
  density : Nat := 0
  /-- R81, 8 bit. The 4-byte addressing method of the Basic Flash Parameter Table. -/
  addr4 : Nat := 0
  /-- R81, 8 bit. The 8D-8D-8D read command, and its dummy cycles at 100 MHz, 5 bit. -/
  readCmd : Nat := 0
  dummies : Nat := 0
  /-- R81. 8D-8D-8D is entered by the command sequence table. -/
  bySequence : Bool := false
deriving DecidableEq, Repr

/-- The boot ROM (R97). -/
structure Boot where
  /-- The step of Table 3.5 that runs, 1 to 12; 0: the ROM does not run. -/
  step : Nat := 0
  /-- R62. Cold boot. -/
  cold : Bool := false
  /-- R71. The boot follows a PARK wake. -/
  wake : Bool := false
  /-- R71. A scrub of the data area has found an uncorrectable error in this boot. -/
  dataUe : Bool := false
  /-- Table 15.3. Channels whose profile area in B2 lost a block in this boot: it is reloaded from MRAM. -/
  profUe : Nat := 0
  /-- R97. Time of the boot so far, µs. -/
  us : Nat := 0
  /-- `mono` at which boot step 8 started (R24). -/
  enumAt : Nat := 0
  /-- R55. Lanes that failed LBIST. -/
  lbist : Nat := 0
  /-- R81, R82. -/
  flash : FlashBus := {}
  /-- R82, R84. The container of this boot as read, for which the source is not read again. -/
  cont : List Byte := []
  /-- R98. The records of the image, in image order. -/
  topo : List Rec := []
  /-- R95. The verified image; `none`: none has verified. -/
  image : Option Image := none
  /-- R67. The module has received a belay set since reset. -/
  belaySeen : Bool := false
  /-- R96. `mono` of the first SAMPLE; 0 before it. -/
  firstSample : Nat := 0
  /-- R121, R167. Mask of the tasks that have not yet run an activation since boot. -/
  firstScan : Nat := 0
  /-- R67. Slots left running untouched at enumeration. -/
  untouched : Nat := 0
  /-- R462. Door dies whose next INPUT opens a record with `RESUMED` for each door not `LOCKED`. -/
  resume : Nat := 0
deriving DecidableEq, Repr

/-- A mode change that waits for the next commit point (R51). -/
structure ModeReq where
  /-- The mode entered, Table 2.1. -/
  mode : Nat
  /-- The trigger recorded in `MODE_CHANGE`. -/
  trig : Nat
  /-- Table 2.6. `SAFE_REASON`, `DETAIL`. -/
  reason : Nat := 0
  detail : Nat := 0
deriving DecidableEq, Repr

/-- Power and the always-on domain (R62 to R77, R433, R449). -/
structure Power where
  /-- The always-on domain is powered. -/
  aon : Bool := true
  /-- R74. `mono` of the VL crossing while a save runs. -/
  crossAt : Option Nat := none
  /-- R74. The power-fail task has sampled and not ended or been abandoned. -/
  taskRun : Bool := false
  /-- R77. A non-atomic activation was running at the warning. -/
  nonAtomic : Bool := false
  /-- R157. The power-fail commit has been made. -/
  committed : Bool := false
  /-- R77. The module holds in reset after a save. -/
  hold : Bool := false
  /-- R414. Held in reset by `PEER_RELEASE_IN`. -/
  peerHold : Bool := false
  /-- R417. The claim withdrawal of an active module is due. -/
  claimDue : Bool := false
  /-- R69. 0 none, 1 accepted (activations run out), 2 the checkpoint is written, 3 the park commit is fixed, 4 parked. -/
  park : Nat := 0
  /-- R69. The requesting activation has committed: no activation samples any more. -/
  parkStop : Bool := false
  /-- R69, 16 bit. The park commit number. -/
  parkNum : Nat := 0
  /-- R69. The task whose activation requested PARK, and that activation's cycle number. -/
  parkTask : Nat := 31
  parkCyc : Nat := 0
  /-- R72. `mono` at park entry. -/
  parkAt : Nat := 0
  /-- R433. `mono` of the wake event while the Keep banks are not yet usable. -/
  wakeAt : Option Nat := none
  /-- R64. `mono` of the last watchdog restart. -/
  wdtAt : Nat := 0
  /-- R449, 48 bit. Operating count resumed at the cold boot, units of 1/65,536 s. -/
  opBase : Nat := 0
  /-- R449. Nanoseconds counted since then with VL above 9.6 V. -/
  opNs : Nat := 0
  /-- R449. VL above 9.6 V. -/
  vlOk : Bool := true
  /-- R449. Seconds of the count at the last write to the MRAM headers. -/
  opSaved : Nat := 0
deriving DecidableEq, Repr

/-- A Cairn record as raised (R445, R449 to R452). -/
structure CRec where
  sev : Nat
  slot : Nat
  code : Nat
  task : Nat
  opSec : Nat
  frac : Nat
  suppr : Nat
  cyc : Nat
  data : List Byte
deriving DecidableEq, Repr

/-- The recorder (R445 to R457). -/
structure Cairn where
  /-- R456. Up to 256 admitted records, oldest first. -/
  queue : List CRec := []
  /-- R455. Tokens taken from each code's bucket. -/
  spent : Nums := []
  /-- R455. Suppressed records of each code, saturating at 255. -/
  suppr : Nums := []
  /-- R455. `mono` from which the next token of each code counts. -/
  since : Nums := []
deriving DecidableEq, Repr

/-- The open ledger record of a door (R459 to R462). -/
structure LRec where
  isOpen : Bool := false
  /-- State last reported, Table 8.8, and the 40-bit local time of its entry. -/
  state : Nat := 0xFF
  at_ : Nat := 0
  opSec : Nat := 0
  /-- Sums in ns over the visits: RELEASED, UNLOCKING, OPENING, dwell, closing, LOCKING. -/
  tWait : Nat := 0
  tUnlock : Nat := 0
  tOpen : Nat := 0
  tDwell : Nat := 0
  tClose : Nat := 0
  tLock : Nat := 0
  fPeak : Nat := 0
  obst : Nat := 0
  flags : Nat := 0
  energy : Nat := 0
  vdcMin : Nat := 0xFFFF
  stepAct : Nat := 0
deriving DecidableEq, Repr

/-- A die-link frame (Table 1.2); its `LEN` is the length of the payload. -/
structure Frame where
  typ : Nat
  resent : Bool := false
  /-- 16 bit. -/
  seq : Nat := 0
  /-- 16 bit. -/
  ccount : Nat := 0
  payload : List Byte
  /-- 32 bit. The `CRC` that stands behind the payload. -/
  crc : Nat := 0
deriving DecidableEq, Repr

/-- A register access waiting for a link (R22). -/
structure RegAcc where
  /-- 0 agent, 1 Query Port, 2 debug, 3 Rope, 4 the control die itself. -/
  req : Nat
  write : Bool
  off : Nat
  data : Nat
deriving DecidableEq, Repr

/-- One die link, both ends (R17 to R36). -/
structure Link where
  /-- Frames on their way to the satellite, oldest first. -/
  down : List Frame := []
  /-- Frames on their way to the control die, oldest first. -/
  up : List Frame := []
  /-- R21, 16 bit each. Next `SEQ` the control die sends and expects. -/
  ctlTx : Nat := 0
  ctlRx : Nat := 0
  /-- R21, 16 bit each. Next `SEQ` the satellite sends and expects. -/
  satTx : Nat := 0
  satRx : Nat := 0
  /-- R21. The last 4 frames each end sent, newest first, each with whether it has been NAKed. -/
  ctlKept : List (Frame × Bool) := []
  satKept : List (Frame × Bool) := []
  /-- R21. The control die, or the satellite, has sent a NAK for the `SEQ` it expects. -/
  ctlNaked : Bool := false
  satNaked : Bool := false
  /-- R24. Round trips of the present measurement, ns. -/
  rtts : List Nat := []
  /-- R24. Tag of the last PROBE sent, and a measurement is running. -/
  probeTag : Nat := 0
  measuring : Bool := false
  /-- R35. `mono` since which measurements have failed. -/
  failSince : Option Nat := none
  /-- R28. Target commit number of the STAGE or RESYNC in flight, and the `mono` at which it ended. -/
  stageNum : Option Nat := none
  stageAt : Nat := 0
  /-- R26. The STAGE in flight has been resent. -/
  stageResent : Bool := false
  /-- R35. The frame in flight is a RESYNC. -/
  resync : Bool := false
  /-- R28. The commit number acknowledged for the next commit. -/
  acked : Option Nat := none
  /-- R31. An ACK named another commit number. -/
  ackWrong : Bool := false
  /-- R155. The complete output set last staged to the die. -/
  sentOut : Bytes := []
  /-- R33. Tasks that have not yet run their first activation since the die's miss. -/
  missPend : Nat := 0
  /-- R35. The die's inputs stay invalid until a SAMPLE after its readmission. -/
  inputsBad : Bool := true
  /-- R36. `mono` of each orphaning of the last 60 s, newest first. -/
  orphanAt : List Nat := []
  /-- R50. LRESET makes the die miss the next commit. -/
  lresetMiss : Bool := false
  /-- R22. Register accesses waiting, the one outstanding first. -/
  regQ : List RegAcc := []
  /-- R22. `mono` at which the outstanding REG frame was sent; `none`: nothing outstanding. -/
  regAt : Option Nat := none
  /-- R34. An INPUT frame for the sample point in hand has arrived. -/
  inputIn : Bool := false
  /-- R26. The die was told to sample at the point in hand. -/
  inputDue : Bool := false
  /-- R23. SAMPLE is on its way to the die. -/
  latchDue : Bool := false
  /-- R20. The INPUT block of the last SAMPLE. -/
  input : List Byte := []
  /-- R37. The last valid INPUT block. -/
  lastOk : List Byte := []
  /-- R23. COMMIT is on its way to the die. -/
  commitDue : Bool := false
  /-- R240. Next place in the trace ring of each channel of a door die, in samples. -/
  traceNext : Nums := []
  /-- R265. A STAGE with the pairs off is due to this field die, whether or not its set changes. -/
  pairsDue : Bool := false
  /-- R249. Channels of a door die whose profile waits for its copy in MRAM, one bit per local channel. -/
  profDue : Nat := 0
  /-- R249. The stored profiles go back to the door die after its readmission. -/
  profWait : Bool := false
deriving DecidableEq, Repr

/-- A satellite die as its link sees it (R22 to R32, R98). -/
structure Sat where
  /-- R62. Its supply is present. -/
  powered : Bool := true
  /-- R98. The records loaded into it. -/
  cfg : List Rec := []
  /-- R28, 16 bit. Commit counter. -/
  ccount : Nat := 0
  /-- R28. Accepted staged set: target commit number, whether a RESYNC brought it, the output set as it stands after it, `mono` of
  the ACK. -/
  staged : Option (Nat × Bool × Bytes × Nat) := none
  /-- The output set applied, by offset. -/
  applied : Bytes := []
  /-- R27. `mono` of the last applied COMMIT. -/
  lastCommit : Nat := 0
  /-- A COMMIT has been applied since power-up (R235, R321 count from the last applied one). -/
  everCommit : Bool := false
  /-- R40. Local time: `SYNC` value plus L, and the `mono` at which it was set. -/
  localBase : Nat := 0
  localAt : Nat := 0
  /-- R23. The input block latched at the last SAMPLE. -/
  latched : List Byte := []
  /-- R18, R228. EVENT payloads held while the link is DOWN, oldest first. -/
  evHeld : List (List Byte) := []
  /-- R461. Ledger frames held while the link is DOWN, oldest first. -/
  ledHeld : List (List Byte) := []
deriving DecidableEq, Repr

/-- Engine flags (R116). -/
structure Sf where
  z : Bool := false
  n : Bool := false
  v : Bool := false
  c : Bool := false
  e : Bool := false
deriving DecidableEq, Repr

/-- A task's register context in one lane (Table 4.1). -/
structure Ctx where
  /-- 1 bit. Current result. -/
  cr : Bool := false
  /-- 16 entries of 2 bits: deferred `CR`, and whether the deferred operator is AND; newest first. -/
  br : List (Bool × Bool) := []
  /-- 8 entries of 18 bits, newest first. -/
  rs : List Nat := []
  /-- 32 bit. -/
  wa : Word := 0
  /-- 32 bit. -/
  wb : Word := 0
  /-- 5 bit. -/
  sf : Sf := {}
  /-- 16 bit. -/
  ix : BitVec 16 := 0
  /-- 18 bit. -/
  pc : Nat := 0
deriving DecidableEq, Repr

/-- A voted or unvoted memory write of one byte under a bit mask (R163, R192). -/
structure MemWr where
  addr : Nat
  data : Byte
  mask : Byte
deriving DecidableEq, Repr

/-- An activation from its SAMPLE to its END (R145 to R161). -/
structure Act where
  /-- R145, 32 bit. Task cycle number. -/
  cyc : Nat
  /-- R41. Sample-grid index of its SAMPLE. -/
  g : Nat
  /-- `mono` of its SAMPLE. -/
  at_ : Nat
  /-- R26. Slots whose INPUT frame it still waits for. -/
  wait : Nat
  /-- R365. It still waits for the network receive image. -/
  waitNet : Bool
  /-- R151. Its inputs are in. -/
  ready : Bool
  /-- R195. Its first instruction has executed. -/
  started : Bool := false
  /-- R158. It passed a sample point of its task. -/
  late : Bool := false
  /-- R109. The register contexts of lanes A, B and C. -/
  ctx : List Ctx := [{}, {}, {}]
  /-- Table 4.4. The S area as filled for it. -/
  sArea : Bytes
  /-- R164. Non-atomic. -/
  nonAtomic : Bool := false
  /-- R137. Objects it holds locked. -/
  locks : List Nat := []
  /-- R128. Counter instances whose latches it has set. -/
  latches : List Nat := []
  /-- R342 to R354. Requests made to exchange objects, oldest first: object, code, and the words of the object. -/
  reqs : List (Nat × Nat × List Nat) := []
  /-- R136, R342. Words written to locked exchange objects, plus 1, by object × 1024 + word. -/
  xw : Nums := []
  /-- R74. It is the power-fail task's. -/
  pf : Bool := false
  /-- R151, R256. INPUT blocks of its SAMPLE by slot, of the dies valid for it. -/
  blocks : List (Nat × List Byte) := []
  /-- R256. `NET_REL_L`, `NET_REL_R` and `NET_PROFILE` as valid at its sample point. -/
  sigs : List (Option Nat) := []
  /-- R266. Committed values of the four halves at the last commit point at least 62.5 µs before its SAMPLE. -/
  halves : Nat := 0
  /-- R68. Until its inputs are in, the conditions of PARK as found at its sample point, one bit each; then `PARK_RESULT` of a request. -/
  park : Nat := 0
  /-- R174. Its SAMPLE is its task's first at or after the point of a native change. -/
  parChg : Bool := false
  /-- R180, R183. Its SAMPLE lies at or after a switch or REVERT point that its task has yet to take up. -/
  swap : Bool := false
deriving DecidableEq, Repr

/-- An undo journal entry (R163). -/
structure JEnt where
  task : Nat
  /-- 64-byte block of the data area, 0 to 4,095. -/
  blk : Nat
  /-- The block before the first write. -/
  old : List Byte
  /-- 512 bit. Bits the activation has written. -/
  mask : Nat
deriving DecidableEq, Repr

/-- A checkpoint copy in progress (R165). -/
structure Ckpt where
  slot : Nat
  /-- Grid index of the cut. -/
  gc : Nat
  /-- Blocks still to copy, one bit per block. -/
  blks : Nat
  /-- Blocks preserved with their content at the cut. -/
  hold : List (Nat × List Byte)
  /-- R438. `CK_FLAGS`. -/
  flags : Nat
  /-- R438. Published telegram counters at the cut. -/
  pubs : List (Nat × Nat)
  parGen : Nat
  carried : Nat
deriving DecidableEq, Repr

/-- An activation that has ended and whose changes wait (R155). -/
structure Ended where
  task : Nat
  cyc : Nat
  /-- Grid index of its SAMPLE. -/
  g : Nat
  /-- R355. Requests to exchange objects: object, code, words. -/
  reqs : List (Nat × Nat × List Nat) := []
  /-- R155. Q bytes it changed. -/
  chg : List (Nat × Byte) := []
  /-- R155. Its changes are released: they go with the next commit. -/
  out : Bool := false
deriving DecidableEq, Repr

/-- A task's program in the program store (R170, R180). -/
structure Prog where
  /-- Word index in the store. -/
  base : Nat := 0
  words : Nat := 0
  gen : Nat := 0
  /-- R177. `IID_TABLE`: identifier, area, kind, instance. -/
  iids : List (Nat × Nat × Nat × Nat) := []
deriving DecidableEq, Repr

/-- The engine, the scheduler and the voter (R109 to R209). -/
structure Engine where
  /-- R146, R203. Task running in lanes A, B, C; outside UNBOUND only the first counts. -/
  run : List (Option Nat) := [none, none, none]
  /-- Activations by task. -/
  acts : List (Nat × Option Act) := []
  /-- R148. Tasks with a pending event activation. -/
  pend : Nat := 0
  /-- R158. Tasks whose next activation follows a skip. -/
  afterSkip : Nat := 0
  /-- R371. Ns of container checks still to run, and `mono` since which the lanes run them (`none`: an event task has preempted them). -/
  scLeft : Nat := 0
  scAt : Option Nat := none
  /-- R496. The status part of the S area as last published, by offset. -/
  sPub : Bytes := []
  /-- R151. `PREV_TIME` by task. -/
  prevTime : Nums := []
  /-- R145. Executed activations of event tasks. -/
  evCount : Nums := []
  /-- R451. Cycle number of each task's most recently published activation, plus 1; 0: none. -/
  pubCyc : Nums := []
  /-- R155. Activations that have ended and whose changes are not committed yet, oldest first. -/
  ended : List Ended := []
  /-- R155. Q bytes as released to the STAGE frames. -/
  qOut : Bytes := []
  /-- R30. Activations committed at the last commit point, not yet published: task, cycle number. -/
  pubDue : List (Nat × Nat) := []
  /-- R137. Holder of each locked object, plus 1. -/
  lockOf : Nums := []
  /-- R174. Tasks that have not yet run an activation since the last native change. -/
  parPend : Nat := 0
  /-- R163. Undo journal, newest first, at most 1,024 entries. -/
  journal : List JEnt := []
  /-- R165. Dirty maps of the four checkpoint slots, one bit per block. -/
  dirty : List Nat := [0, 0, 0, 0]
  /-- R165. -/
  ckpt : Option Ckpt := none
  /-- R166. A cut is due at the next commit point that allows it. -/
  cutDue : Bool := false
  /-- R166. The cut due has been deferred and recorded. -/
  cutDeferred : Bool := false
  /-- R155. Value last staged for each Q byte. -/
  qStaged : Bytes := []
  /-- R170. Programs by task, as running. -/
  prog : List (Nat × Prog) := []
  /-- R180. Programs by task that replace them at the switch. -/
  next : List (Nat × Prog) := []
  /-- R183. Programs by task that a REVERT returns to. -/
  prev : List (Nat × Prog) := []
  /-- R180. Tasks that still run the program of before the last switch. -/
  switchPend : Nat := 0
  /-- R180, R183. The programs that the tasks with `switchPend` take. -/
  goal : List (Nat × Prog) := []
  /-- R181. Tasks that have run the carry-over of the set in probation. -/
  carried : Nat := 0
  /-- R183. Tasks whose switch back runs the reverse carry-over. -/
  backPend : Nat := 0
  /-- R195. The lanes are frozen by a stopping outcome. -/
  frozen : Bool := false
  /-- R192. Unvoted writes of an excluded lane, newest first, at most 4 entries per lane. -/
  sbuf : List (List (List MemWr)) := [[], [], []]
  /-- R204. In UNBOUND, `mono` at which each lane has finished what it has executed, and at which it last wrote bank B0, plus 1. -/
  laneAt : List Nat := [0, 0, 0]
  wroteAt : List Nat := [0, 0, 0]
  /-- R199. A self-test waits for a write event of its step, the lane and class a defective voter flags with it. -/
  vtest : Option (Option (Option (Nat × Nat))) := none
  /-- R197. Excluded lanes that have passed a task boundary. -/
  boundary : Nat := 0
  /-- R198. Lanes to be retired at the next task boundary. -/
  retire : Nat := 0
  /-- R198. Device time of each lane's last minority event, plus 1. -/
  lastMin : List Nat := [0, 0, 0]
  /-- R206. Debug has attached and lane A is out of the vote. -/
  dbgOut : Bool := false
  /-- R207. Lane A halts at its release. -/
  dbgWait : Bool := false
  /-- R206. Debug write buffer, oldest first, 64 entries: address, data. -/
  dbgBuf : List (Nat × Word) := []
  /-- R168. Engine clocks (5 ns) used in the present second. -/
  busy : Nat := 0
  /-- R168. Second of device time to which `busy` belongs. -/
  busySec : Nat := 0
deriving DecidableEq, Repr

/-- A native transaction (R173, R174). -/
structure Txn where
  /-- P as a sample-grid index. -/
  point : Nat
  entries : List (Nat × Nat)
  /-- Session whose response waits; `none`: forwarded by the peer. -/
  sess : Option Nat
  /-- R440. Ring record in the overlay. -/
  ring : Nat
  /-- R184. The peer has acknowledged the point. -/
  acked : Bool
deriving DecidableEq, Repr

/-- Online change (R171 to R188). -/
structure Change where
  /-- R174. Pending native transaction. -/
  txn : Option Txn := none
  /-- R440. Next ring record. -/
  ring : Nat := 0
  /-- R178. Slot being loaded, and the bytes received, by offset. -/
  load : Option (Nat × List Byte) := none
  /-- R178. Session whose response waits for the checks. -/
  loadSess : Option Nat := none
  /-- R178. The whole set is in: its checks run. -/
  verify : Bool := false
  /-- R180. Armed switch point. -/
  switchAt : Option Nat := none
  /-- R180. Session whose response waits. -/
  switchSess : Option Nat := none
  /-- R183. Armed REVERT point. -/
  revertAt : Option Nat := none
  revertSess : Option Nat := none
  /-- R183. Grid index at which probation ends. -/
  probEnd : Option Nat := none
  /-- R184. The peer has acknowledged the switch or REVERT point. -/
  acked : Bool := false
  /-- R184. The peer's verification result of the loaded set. -/
  peerVerified : Bool := false
  /-- R184. At a standby: its `VERIFIED` set is one the active module forwarded, and could still withdraw. -/
  fromPeer : Bool := false
deriving DecidableEq, Repr

/-- A frame as a message buffer holds it (Table 12.1). -/
structure CanMsg where
  /-- Word 1, `XID`. -/
  xid : Nat
  /-- Word 2 [6:0]: `DLC`, `FDF`, `BRS`, `ESI`. -/
  fmt : Nat
  /-- Data words 3 to 18. -/
  data : List Nat
  /-- Words 19, 20, `XTIME`: device time at the SOF. -/
  time : Nat
deriving DecidableEq, Repr

/-- A message buffer (R337 to R344). -/
structure CBuf where
  /-- R338. Main slot: the last frame stored while the buffer was not held. -/
  main : Option CanMsg := none
  /-- R338. Shadow slot. -/
  shadow : Option CanMsg := none
  /-- R338. Held for the owning task's activation. -/
  held : Bool := false
  /-- R339. Device time of the newest stored frame since configuration or the last scoped reset. -/
  newest : Option Nat := none
  /-- R339. The age limit has passed. -/
  aged : Bool := false
  /-- Table 4.14, R338. `NEW`, `LOST`. -/
  isNew : Bool := false
  lost : Bool := false
  /-- R338, R355. The 32 words of the object as frozen at the owning task's SAMPLE (without `MINE`). -/
  froz : List Nat := []
  /-- R342. Content of a transmit buffer. -/
  tx : CanMsg := { xid := 0, fmt := 0, data := [], time := 0 }
  /-- R342. Content that waits for the frame on the bus to end, and whether a new `TRANSMIT` waits with it. -/
  wait : Option (CanMsg × Bool) := none
  /-- R343. `TX_PEND`, `TX_DONE`, `TX_FAIL`, `CANCELLED`, `TOO_LATE`, attempts made. -/
  pend : Bool := false
  done : Bool := false
  fail : Bool := false
  cancelled : Bool := false
  tooLate : Bool := false
  tries : Nat := 0
  /-- R344. A cancel is deferred. -/
  cancelDef : Bool := false
  /-- Table 12.1, 4 bit. `XTXRES`. -/
  res : Nat := 0
  /-- R344. Device time at which the last frame completed. -/
  doneAt : Option Nat := none
deriving DecidableEq, Repr

/-- A controller (R334 to R353). -/
structure CCtl where
  /-- R334. It has joined its bus. -/
  joined : Bool := false
  /-- R343. The frame it sends now: the buffer (64: reference message, 65: test frame). -/
  bus : Option Nat := none
  /-- R349. The frame on the bus was started in an exclusive window. -/
  exclusive : Bool := false
  /-- R348. `mono` of the sample point of the SOF of the last reference message, and of the SOF of the own one on the bus. -/
  refAt : Nat := 0
  refSof : Nat := 0
  /-- R350. `mono` from which the reference messages are missed. -/
  lossAt : Nat := 0
  /-- R350. Consecutive reference messages received, up to 2. -/
  refs : Nat := 0
  /-- R350. Time-triggered transmission has stopped until a scoped reset (S3). -/
  stopped : Bool := false
  /-- R349. Buffers that have stored a frame in the present window. -/
  rxWin : Nat := 0
  /-- R352. Listen-only begins once the frame on the bus has ended. -/
  listenWait : Bool := false
  /-- R355. Words 0 to 4 of the controller object as last frozen, by task. -/
  froz : List (Nat × List Nat) := []
deriving DecidableEq, Repr

/-- The committed image (R30): outputs as applied, the Q area, and the input images of the last SAMPLE. -/
structure CImage where
  /-- Output set applied on each die, by slot. -/
  outs : List (Nat × Bytes) := []
  /-- Q area. -/
  q : Bytes := []
  /-- Input images at their places in engine storage. -/
  inputs : Bytes := []
  /-- R468. Commit counter of the publish point. -/
  ccount : Nat := 0
deriving DecidableEq, Repr

end Sys2Proof.Machine
end

