-- ==== Sys2Proof/Machine/DoorParts.lean ====
section
/-! DEFINITION. State of the door dies (chapters 8 and 9): one `Door` per channel D0 to D11 and one `DoorDie` per die.
Positions are in 0.01 mm (R217), reference speeds in µm/s, currents in mA, forces in N, instants in `mono` ns. -/

namespace Sys2Proof.Machine

/-- A door or step channel (R210 to R255). -/
structure Door where
  /-- Table 8.8. -/
  state : Nat := 0xFF
  /-- Table 8.9. -/
  cause : Nat := 0
  /-- R219, 8 bit. Debounced local inputs. -/
  loc : Nat := 0
  /-- R219, 8 bit. Raw levels of the local inputs. -/
  raw : Nat := 0
  /-- Table 8.5. Debounce timers by input: the instant since which the raw level differs from the debounced one. -/
  debAt : List (Nat × Option Nat) := []
  /-- R210. `Dk_DSM_CLK` runs; false: it is held low. -/
  dsmClk : Bool := false
  /-- Table 8.11. Inputs that rose since the last evaluation. -/
  rise : Nat := 0
  /-- R218, R229. Instant since which IN0 and IN1 have both been 1. -/
  both : Option Nat := none
  /-- R218. -/
  posValid : Bool := false
  /-- R217. Position at count 0, and the feedback counts since. -/
  ofs : Int := 0
  cnt : Int := 0
  /-- R216. Raw Hall code (C, B, A) and quadrature state (B, A). -/
  hall : Nat := 0
  enc : Nat := 0
  /-- Table 8.14, 16 bit. Encoder count. -/
  encCnt : Nat := 0
  /-- R216. Consecutive Hall edges off the encoder angle by more than 60°. -/
  encOff : Nat := 0
  /-- R216. Electrical angle in 1/65,536 turn, at the last Hall edge or encoder count. -/
  ang : Nat := 0
  /-- R216. Instant of the last Hall edge, from which the angle is interpolated. -/
  hallAt : Nat := 0
  /-- R217. Positions at the last 500 µs instants, newest first, at most 9. -/
  hist : List Int := []
  /-- `Dk_EN`. -/
  en : Bool := false
  /-- The six gate commands switch (R211); false: all low. -/
  gates : Bool := false
  /-- R211. Switch-on pulses (high, low) of phases U, V, W in the present carrier period, in CLK_PWM cycles. -/
  pwm : List (Nat × Nat) := []
  /-- Drive request: 0 off, 1 profile to the target, 2 stop and hold, 3 stop and then off. -/
  drv : Nat := 0
  /-- R224. Target position. -/
  target : Int := 0
  /-- Reference speed, and the planned position of this millisecond. -/
  vRef : Int := 0
  plan : Int := 0
  /-- Reference speed with the position correction. -/
  vCmd : Rat := 0
  /-- R251. Instant since which the reference speed has been constant. -/
  constAt : Nat := 0
  /-- R214. Measured offsets, and whether one has been measured since configuration. -/
  offU : Int := 0
  offV : Int := 0
  offValid : Bool := false
  offBad : Bool := false
  /-- R214. Instant since which `Dk_EN` is low at zero speed, and start of the measurement. -/
  lowAt : Option Nat := none
  offAt : Option Nat := none
  /-- R212. `Dk_FLT_N` is low. -/
  flt : Bool := false
  /-- R215. A used bitstream shows no transition. -/
  dsm : Bool := false
  /-- Table 8.4. V_DC above `VDC_MAX`; below `VDC_MIN`. -/
  dcHigh : Bool := false
  dcLow : Bool := false
  /-- V_DC, 10 mV. -/
  vdc : Nat := 0
  /-- Table 8.4. Consecutive samples above 1.25 × `I_MAX`. -/
  ovc : Nat := 0
  iq : Int := 0
  id : Int := 0
  /-- R243. Sum and number of the q currents of the last 500 µs, and their mean. -/
  iqSum : Int := 0
  iqN : Nat := 0
  iqMean : Rat := 0
  iqRef : Rat := 0
  /-- R220. Integrators: speed, d current, q current; and the voltage commands in mV. -/
  wi : Rat := 0
  di : Rat := 0
  qi : Rat := 0
  vd : Rat := 0
  vq : Rat := 0
  /-- R227, 8 bit. `CMD_SEQ` last acted on. -/
  acted : Nat := 0
  /-- R254. -/
  attempt : Nat := 0
  waitStep : Bool := false
  maskConf : Bool := false
  contact : Bool := false
  diverge : Bool := false
  passive : Bool := false
  /-- Table 8.11. An open is pending. -/
  pendOpen : Bool := false
  /-- R234. The profile in force. -/
  prof : Nat := 0
  /-- R230. `NUDGE` of the closing in progress. -/
  nudge : Bool := false
  /-- Instant of entry to the state, moved on by every pause; and the start of a pause. -/
  entAt : Nat := 0
  pauseAt : Option Nat := none
  /-- Instant of the last evaluation (R230), profile tick (R224), speed-loop tick and force estimate. -/
  evalAt : Nat := 0
  profAt : Nat := 0
  speedAt : Nat := 0
  forceAtT : Nat := 0
  /-- R254. Phase: 0 none, 1 stop, 2 reverse, 3 wait. -/
  react : Nat := 0
  revTarget : Int := 0
  waitAt : Nat := 0
  /-- R255. State a stopped step goes on to. -/
  thenState : Nat := 0
  /-- R251. Instants since which the force is above its limit, the speed in deficit, the contact force reached. -/
  forceAt : Option Nat := none
  defAt : Option Nat := none
  contAt : Option Nat := none
  /-- R243. F_est. -/
  force : Rat := 0
  /-- R497. -/
  plausAt : Option Nat := none
  /-- R231. The abort action waits for standstill. -/
  aborting : Bool := false
  /-- R231. `MAINT` at the last evaluation. -/
  maintWas : Bool := false
  /-- R245, R250. 0 none, 1 test cycle, 2 learning run. -/
  run : Nat := 0
  /-- Present goal: 1 open, 2 hold, 3 close. -/
  goal : Nat := 0
  holdAt : Nat := 0
  cycles : Nat := 0
  /-- R245. Sum and count per direction × 256 + bin of the present cycle; means of each cycle at cycle × 512 + that. -/
  cur : List (Nat × (Rat × Nat)) := []
  means : List (Nat × Rat) := []
  /-- R244. Baseline and adapted values, 0.1 N, at direction × 256 + bin. -/
  base : List (Nat × Int) := []
  adap : List (Nat × Int) := []
  /-- R244. A reference is in force: a learned profile, or that of record 0x0406. -/
  ref : Bool := false
  /-- R244. The profile has been learned. -/
  learned : Bool := false
  /-- R248. The drift record of this power cycle has been made. -/
  driftRec : Bool := false
  /-- R247. State from which the stroke started and whether it still qualifies; sums and counts per bin. -/
  strokeFrom : Nat := 0xFF
  strokeOk : Bool := false
  stroke : List (Nat × (Rat × Nat)) := []
  /-- R249. The profile window as written, at d × 256 + b. -/
  window : List (Nat × Int) := []
  winSet : Bool := false
  /-- R228. Instant of the last EVENT frame; the latest merged event; `SAFE_SEEN` bits 1 to 4. -/
  evAt : Option Nat := none
  evPend : Option Nat := none
  safe : Nat := 0
  /-- R238. -/
  divAt : Option Nat := none
  /-- R239. Instant at which `SHADOW` was cleared, while the resumption waits. -/
  resumeAt : Option Nat := none
  /-- R239. `SHADOW` has been cleared, and no COMMIT has been applied since. -/
  awaits : Bool := false
  /-- R240. Samples of the trace frame being filled, and the divider. -/
  trace : List Byte := []
  traceDiv : Nat := 0
  /-- R461. Peak force, energy in µJ and lowest V_DC of the present state. -/
  fPeak : Nat := 0
  energy : Nat := 0
  vdcMin : Nat := 0xFFFF
  /-- R461. Frames held while the link is DOWN, oldest first, at most 32; and whether some were merged. -/
  ledHeld : List (List Byte) := []
  ledGap : Bool := false
deriving DecidableEq, Repr

/-- A door die. -/
structure DoorDie where
  /-- Table 8.7, 16 bit. EVENT frames sent. -/
  evCount : Nat := 0
deriving DecidableEq, Repr

end Sys2Proof.Machine
end

