-- ==== Sys2Proof/Config.lean ====
section
/-! DEFINITION. What the spec leaves open: free values. A free value is an opaque constant without a body applied to
the counter `State.free` (a fresh value each time) or to the operands it depends on; nothing can evaluate it. -/

namespace Sys2Proof.Config

/-- A fresh number where the spec leaves a value open; a use narrows it to its width. -/
opaque freeNat : Nat → Nat

end Sys2Proof.Config
end

