-- ==== Sys2Proof/Machine/Bits.lean ====
section
/-! DEFINITION. Byte order, two's-complement numbers and the check codes: CRC-32 (R20), CRC-32C (R85), CRC-16 (R419)
and CRC-8 (R314). Everything is structural recursion over numbers and lists. -/

namespace Sys2Proof.Machine

/-- The `n` low bytes of `v`, least significant first (R15). -/
def leBytes : Nat → Nat → List Byte
  | 0, _ => []
  | n + 1, v => BitVec.ofNat 8 v :: leBytes n (v / 256)

/-- The `n` low bytes of `v`, most significant first (R15: network payloads). -/
def beBytes (n v : Nat) : List Byte := (leBytes n v).reverse

/-- The number a little-endian byte string holds. -/
def leNat : List Byte → Nat
  | [] => 0
  | b :: t => b.toNat + 256 * leNat t

/-- The number a big-endian byte string holds. -/
def beNat (l : List Byte) : Nat := leNat l.reverse

/-- The `n` bytes at offset `off`; short where the string ends. -/
def sub_ (l : List Byte) (off n : Nat) : List Byte := (l.drop off).take n

/-- The little-endian number of `n` bytes at offset `off`. -/
def leAt (l : List Byte) (off n : Nat) : Nat := leNat (sub_ l off n)

/-- The big-endian number of `n` bytes at offset `off`. -/
def beAt (l : List Byte) (off n : Nat) : Nat := beNat (sub_ l off n)

/-- `v` as a two's-complement number of `w` bits. -/
def sgn (w v : Nat) : Int :=
  let m := v % 2 ^ w
  if m < 2 ^ (w - 1) then (m : Int) else (m : Int) - (2 ^ w : Nat)

/-- The `w`-bit two's-complement encoding of `i`, wrapping. -/
def unsgn (w : Nat) (i : Int) : Nat := (i % (2 ^ w : Nat)).toNat

/-- The `w`-bit two's-complement encoding of `i`, saturating. -/
def unsgnSat (w : Nat) (i : Int) : Nat :=
  unsgn w (max (-(2 ^ (w - 1) : Nat)) (min i ((2 ^ (w - 1) : Nat) - 1)))

/-- `v`, saturating at the largest number of `w` bits. -/
def clip (w v : Nat) : Nat := min v (2 ^ w - 1)

/-- Bit `i` of `v`. -/
abbrev bit (v i : Nat) : Bool := v.testBit i

/-- `b` as 0 or 1. -/
def b2n (b : Bool) : Nat := if b then 1 else 0

/-- `v` with bit `i` set to `b`. -/
def putBit (v i : Nat) (b : Bool) : Nat := (v - v / 2 ^ i % 2 * 2 ^ i) + b2n b * 2 ^ i

/-- The field `[lo + w - 1 : lo]` of `v`. -/
def fieldOf (v lo w : Nat) : Nat := v / 2 ^ lo % 2 ^ w

/-- `v` with the field `[lo + w - 1 : lo]` replaced by `x`. -/
def putField (v lo w x : Nat) : Nat := (v - fieldOf v lo w * 2 ^ lo) + x % 2 ^ w * 2 ^ lo

/-- One right-shifting step of a reflected CRC register with polynomial `p`, repeated. -/
def crcRefl (p : Nat) : Nat → Nat → Nat
  | 0, c => c
  | n + 1, c => crcRefl p n (if c % 2 = 1 then (c / 2) ^^^ p else c / 2)

/-- One left-shifting step of a CRC register of `w` bits with polynomial `p`, repeated. -/
def crcFwd (w p : Nat) : Nat → Nat → Nat
  | 0, c => c
  | n + 1, c => crcFwd w p n (if c.testBit (w - 1) then (c * 2 % 2 ^ w) ^^^ p else c * 2 % 2 ^ w)

/-- CRC-32C (R85). -/
def crc32c (l : List Byte) : Nat :=
  l.foldl (fun c b => crcRefl 0x82F63B78 8 (c ^^^ b.toNat)) 0xFFFFFFFF ^^^ 0xFFFFFFFF

/-- The CRC-32 of die-link frames (R20). DEDUCED: reflected, as IEEE 802.3 sends it. -/
def crc32 (l : List Byte) : Nat :=
  l.foldl (fun c b => crcRefl 0xEDB88320 8 (c ^^^ b.toNat)) 0xFFFFFFFF ^^^ 0xFFFFFFFF

/-- The CRC-16 of R419. -/
def crc16 (l : List Byte) : Nat :=
  l.foldl (fun c b => crcFwd 16 0x1021 8 (c ^^^ (b.toNat * 256))) 0xFFFF

/-- The CRC-8 of R314. -/
def crc8 (l : List Byte) : Nat :=
  l.foldl (fun c b => crcFwd 8 0x2F 8 (c ^^^ b.toNat)) 0xFF ^^^ 0xFF

end Sys2Proof.Machine
end

