-- ==== Sys2Proof/Machine/DupParts.lean ====
section
/-! DEFINITION. State of duplex operation (chapter 14): the claim, the Rope link, the belay set, output comparison and
health. Instants in `mono` ns unless a docstring says device time. -/

namespace Sys2Proof.Machine

/-- Duplex operation. -/
structure Dup where
  /-- R394. `CLAIM_IN` at the land, and the instant since which it has read absent. -/
  claimIn : Bool := false
  absentAt : Nat := 0
  /-- R395. The count of the boot rule begins here: the end of boot step 6, or an abandoned claim (R393). -/
  ruleAt : Nat := 0
  /-- R397. `mono` of the last assertion of `CLAIM_IN`. -/
  claimInAt : Nat := 0
  /-- R393. After an abandoned claim: the only rule that may claim again (takeover or boot), and the instant its count starts afresh. -/
  retry : Option (Bool × Nat) := none
  /-- R393. Own claim line, and the assertion of a claim in progress: instant and takeover. -/
  claimOut : Bool := false
  claim : Option (Nat × Bool) := none
  /-- R411. The settle time is over: slots that have still to acknowledge their RESYNC; the claim commit is due. -/
  prep : Option Nat := none
  /-- R411. `mono` of the claim commit; R412: it has not yet been measured. -/
  claimCommit : Option Nat := none
  /-- R411. Instant at which the failed module's last COMMIT is taken to lie. -/
  lostAt : Nat := 0
  /-- R411. The peer has been present, or has claimed, since this module's reset. -/
  peerSeen : Bool := false
  /-- R393. `mono` of the last COMMIT emitted. -/
  commitAt : Nat := 0
  /-- R414. `mono` at which `PEER_RELEASE_OUT` rose. -/
  relAt : Option Nat := none
  /-- R414. The release pulse is due at the publish point of the claim commit. -/
  relDue : Bool := false
  /-- R400. Last valid HB and its arrival. -/
  hb : Option HbFrame := none
  hbAt : Nat := 0
  /-- R401. The next HB is the first after an `UP`. -/
  firstHb : Bool := false
  /-- R402. `IMAGE_DIFF` is recorded in this episode. -/
  diffRec : Bool := false
  /-- R399. Next `SEQ` sent; the last 16 frames sent (type, `SEQ`, payload), newest first, and those resent. -/
  txSeq : Nat := 0
  kept : List (Nat × Nat × List Byte) := []
  resent : List Nat := []
  /-- R399. Next `SEQ` expected. -/
  rxSeq : Nat := 0
  /-- R399. The frame expected has been answered with NAK once. -/
  naked : Bool := false
  /-- R400. Tag of the last PROBE and round trips of the measurement. -/
  tag : Nat := 0
  rtts : List Nat := []
  measuring : Bool := false
  /-- R398. Lanes that have lost symbol lock. -/
  badLanes : Nat := 0
  /-- Table 14.3. The set: as last sent (active) or complete (standby), and its generation. -/
  set : Bytes := []
  /-- R406. The set is stale. -/
  stale : Bool := true
  /-- R406. Full set under way: generation, next byte offset, bytes received. -/
  full : Option (Nat × Nat × Bytes) := none
  /-- R404. The data ranges as the commit unit captured them when it closed the STAGE set of the last commit. -/
  ranges : List Byte := []
  /-- R405. `mono` at which the last delta has gone out. -/
  txUntil : Nat := 0
  /-- R405. Tasks committed since the previous delta: task, cycle number. -/
  manifest : List (Nat × Nat) := []
  /-- R406. A BELAY_REQ waits for its answer; `mono` of its receipt. -/
  reqAt : Option Nat := none
  /-- R408. Own intended output sets of the last 4 cycles of each task: cycle number, 256 bytes. -/
  own : List (Nat × List (Nat × List Byte)) := []
  /-- R408. Consecutive differing activations by task. -/
  diffs : Nums := []
  /-- R409. Query under way: task, cycle number, `mono` of its sending. -/
  query : Option (Nat × Nat × Nat) := none
  /-- R409. Queries received: task, mask, cycle number. -/
  asked : List (Nat × Nat × Nat) := []
  /-- R409. A resynchronisation waits for a full set. -/
  resyncWait : Bool := false
  /-- R409. Data ranges wait for the next sample-grid point; they belong to a resynchronisation. -/
  applyDue : Bool := false
  /-- R409. Device times of the resynchronisations of the last 3,600 s, newest first. -/
  resyncAt : List Nat := []
  /-- R418. Tasks whose first activation after a takeover is still ahead. -/
  firstAfter : Nat := 0
  /-- R418. Last event code, events since boot. -/
  evCode : Nat := 0
  evCount : Nat := 0
  /-- R402. Own and peer's parameter generation and `SET_SEQ` for which the overlay or the set was last sent. -/
  syncSent : Option (Nat × Nat × Nat × Nat) := none
  /-- R419. Persistent discrepancies since boot. -/
  cmpDisc : Nat := 0
  /-- R399, R419. Device times of the last HB and of the last report sent. -/
  hbTx : Nat := 0
  hrTx : Nat := 0
  /-- R419. Reports sent; arrival of the last valid peer report. -/
  hrSeq : Nat := 0
  hrAt : Option Nat := none
  /-- R421. `ST_FAIL`. -/
  stFail : Nat := 0
  /-- R421. Failed self-tests of single parts: links of slots 1 to 7, controllers at 8 to 11, load dies at 12 and 13. -/
  stBad : Nat := 0
  /-- R421. `mono` since which each field output differs from the active module's committed value. -/
  rbDiff : List (Nat × Nat) := []
deriving DecidableEq, Repr

end Sys2Proof.Machine
end

