-- ==== Sys2Proof/Machine/FieldParts.lean ====
section
/-! DEFINITION. State of the field dies (chapter 11): one `Field` per die. Voltages in 10 mV, instants in `mono` ns. -/

namespace Sys2Proof.Machine

/-- A fast input (R307 to R309). -/
structure Fast where
  /-- R307. Level after the glitch filter, and the instant since which the raw level has differed from it. -/
  level : Bool := false
  chgAt : Option Nat := none
  /-- R307. Instants of the active edges not yet counted, newest first, and of the last `CNT_CLR`. -/
  edges : List Nat := []
  clrAt : Nat := 0
  /-- R307, 32 bit. -/
  count : Nat := 0
  /-- R308. Instant from which t_since counts, and whether that is an active edge. -/
  sinceAt : Nat := 0
  edge : Bool := false
  /-- R308. Complete periods in ns, newest first, at most 64. -/
  periods : List Nat := []
  /-- R309. -/
  gap : Bool := false
  /-- R308. -/
  ftmo : Bool := false
  /-- R308. Value of the last latch, mHz. -/
  freq : Nat := 0
deriving DecidableEq, Repr

/-- R314. An OUT item as held by the field side. -/
structure OutItem where
  target : Nat
  stby : Bool
  resync : Bool
  out : Nat
  clr : Nat
deriving DecidableEq, Repr

/-- A field die. -/
structure Field where
  /-- R302. VI as last measured; instants since which it is below 15.0 V, and at 16.0 V; the field side has stopped; it has restarted and
  waits for a RESYNC; outputs are off for low supply. -/
  vi : Nat := 0
  lowAt : Option Nat := none
  okAt : Option Nat := none
  stopped : Bool := false
  bare : Bool := false
  viLow : Bool := false
  /-- R304, 32 bit. Raw levels before `INV`, and by input the instant of the raw change that the debounce counts from. -/
  raw : Nat := 0
  debAt : List (Nat × Option Nat) := []
  /-- R304, 32 bit. Debounced levels, and those of the last latch on the logic side. -/
  di : Nat := 0
  ldi : Nat := 0
  /-- R312, 16 bit. Read-back of the last latch. -/
  rb : Nat := 0
  /-- R311, 16 bit. Outputs off in overload; of these, those too hot, and those whose applied 0 has been seen. -/
  ovl : Nat := 0
  hot : Nat := 0
  rearm : Nat := 0
  /-- R311. Instant of the next retry, by output. -/
  retryAt : Nums := []
  /-- R314, R315. OUT held by the field side; its commit number; a set has been applied since its (re)start. -/
  held : Option OutItem := none
  fnum : Option Nat := none
  hasSet : Bool := false
  /-- R315, 16 bit. Set applied at the field side, and the last applied `CNT_CLR`. -/
  fdo : Nat := 0
  fclr : Nat := 0
  /-- R314, R316. Commit number of the APPLY due at the coming commit point. -/
  applyNum : Option Nat := none
  /-- R315. ACKW on its way to the logic side: the field commit number. -/
  ackw : Option (Option Nat) := none
  /-- R317, 8 bit each. `SEQ` of OUT and IN: last sent, last received. -/
  outTx : Nat := 0
  outRx : Nat := 0
  inTx : Nat := 0
  inRx : Nat := 0
  /-- R318. The crossing is lost at the field side; instants of the last valid IN, and of the last valid APPLY or TICK; while the crossing
  is lost, the instant since which every IN has been valid. -/
  fieldLoss : Bool := false
  inAt : Nat := 0
  applyTickAt : Nat := 0
  goodAt : Option Nat := none
  /-- R320. The heartbeat to the field side is lost. -/
  hbLost : Bool := false
  /-- R321. -/
  safeAct : Bool := false
  /-- R321. Instant of the last applied COMMIT, and whether one has been applied. -/
  applyAt : Nat := 0
  everApply : Bool := false
  /-- R324. Outputs stay off until a COMMIT or RESYNC is applied after `FIO_REL`. -/
  relWait : Bool := false
  fast : List Fast := [{}, {}, {}, {}, {}, {}, {}, {}]
  /-- R306. Inputs whose rising, falling edge sends `EDGE`. -/
  evRise : Nat := 0
  evFall : Nat := 0
  /-- R306. Instant of each input's last `EDGE` frame, and merged edges: (input, level, local time). -/
  evAt : Nums := []
  evPend : List (Nat × Bool × Nat) := []
  /-- R23, R317. An INPUT frame for the SAMPLE in hand is due. -/
  sampleDue : Bool := false
  /-- Table 11.6, 16 bit. EVENT frames sent, and events that wait for the link: (event, index). -/
  evCount : Nat := 0
  evHeld : List (Nat × Nat) := []
deriving DecidableEq, Repr

end Sys2Proof.Machine
end

