-- ==== Sys2Proof/Machine/LoadParts.lean ====
section
/-! DEFINITION. State of the load dies (chapter 10): one `Load` per channel L0 to L23 and one `LoadDie` per die. Currents
in µA, voltages in 10 mV, instants in `mono` ns. -/

namespace Sys2Proof.Machine

/-- A load channel. -/
structure Load where
  /-- Table 10.2. -/
  state : Nat := 0xFF
  /-- Table 10.13. -/
  cause : Nat := 0
  /-- Last measured current (negative: reverse), ΔT in K, T_j in °C + 40, output voltage. -/
  ua : Int := 0
  dt : Nat := 0
  tj : Nat := 0
  out : Int := 0
  /-- R286. The sense path has failed its self-check. -/
  senseBad : Bool := false
  /-- R279. The limiter regulates. -/
  limit : Bool := false
  limAt : Option Nat := none
  /-- R281. Instant since which the reverse current is above 10 % of I_R. -/
  revAt : Option Nat := none
  /-- R286. Currents of the last 1 ms, newest first. -/
  hist : List Int := []
  /-- R277. Sum and number of the currents of the present 100 µs, and Q. -/
  qSum : Int := 0
  qN : Nat := 0
  q : Rat := 0
  /-- Table 10.12. `DIAG`. -/
  openOn : Bool := false
  openOff : Bool := false
  shortVf : Bool := false
  reverse : Bool := false
  peerDriven : Bool := false
  rearmWait : Bool := false
  bandWait : Bool := false
  winExt : Bool := false
  /-- R274, R292. Trip latch: its cause, and the instant of the trip until the next turn-on. -/
  latch : Option Nat := none
  tripAt : Option Nat := none
  /-- R283, R284. Start and end of the inrush window. -/
  winStart : Nat := 0
  winEnd : Option Nat := none
  /-- Instant of the last turn-off. -/
  offAt : Nat := 0
  /-- R280. A thermal restart waits in `DEFERRED` or `DIP_OFF`. -/
  restart : Bool := false
  /-- R287. -/
  openAt : Option Nat := none
  /-- R288. Instant from which the period of the off-state check counts, and the results of the last check: output driven, open. -/
  chkAt : Nat := 0
  chkHigh : Bool := false
  chkOpen : Bool := false
  /-- R282. Consecutive turn-offs with an excursion below −2 V. -/
  fwCount : Nat := 0
  /-- R290. Turn-on slot after the restore point. -/
  slotAt : Option Nat := none
  /-- R271. Instant since which the sum is above 20 %; the check after configuration has been made. -/
  pairAt : Option Nat := none
  pairDone : Bool := false
  /-- R297. Instant of the last EVENT frame and the latest merged event. -/
  evAt : Option Nat := none
  evPend : Option Nat := none
deriving DecidableEq, Repr

/-- A load die. -/
structure LoadDie where
  /-- Table 10.12, 16 bit. EVENT frames sent. -/
  evCount : Nat := 0
  /-- R297. Die-wide events that wait for the link. -/
  evHeld : List Nat := []
  /-- R289. Instants since which VF is below the lower limit of `FULL`, `NO_OL` and `HOLD`, and at the return level of the band above. -/
  lowAt : List (Option Nat) := [none, none, none]
  riseAt : Option Nat := none
deriving DecidableEq, Repr

end Sys2Proof.Machine
end

