-- ==== Sys2Proof/Machine/MemParts.lean ====
section
/-! DEFINITION. State of memory error handling (chapter 15), of the Query Port (chapter 16) and of the clocks, loop-backs and
the test access port (chapter 17). -/

namespace Sys2Proof.Machine

/-- Memory error handling (R429, R430) and the zero-fill of banks (R432). -/
structure MemErr where
  /-- R432. `mono` at which the zero-fill under way began. -/
  fillAt : Nat := 0
  /-- R429. Corrected words that wait for their write-back. -/
  wb : List Nat := []
  /-- R429. Device times of the corrections of the last 3,600 s, newest first. -/
  ceAt : List Nat := []
  /-- R419. Corrections since boot. -/
  ceCount : Nat := 0
  /-- Table 15.3. Uncorrectable words not written since: addresses of B3 and of MRAM. -/
  bad : List Nat := []
  /-- Table 15.3. Uncorrectable 64-byte blocks of B4, until a device reset. -/
  badB4 : List Nat := []
deriving DecidableEq, Repr

/-- A ticket of the Query Port (R466 to R469). -/
structure QTick where
  num : Nat
  write : Bool
  addr : Nat
  len : Nat
  /-- Data to write; then data read. -/
  data : List Byte
  /-- `RESULT`; `none`: not served. -/
  res : Option Nat := none
  ccount : Nat := 0
  cyc : Nat := 0
  /-- R469. A FETCH has clocked out the last `CRC` bit. -/
  rep : Bool := false
  /-- R468. Words done of a request that is under way over a die link. -/
  done : Option Nat := none
deriving DecidableEq, Repr

/-- The Query Port (R464 to R470). -/
structure Qp where
  /-- Live tickets, oldest first. -/
  ticks : List QTick := []
  /-- R467. Submissions accepted since the last reset of the port. -/
  issued : Nat := 0
  /-- R466. `LAST_REJECTED`. -/
  rejected : Bool := false
  /-- R470. A scoped reset runs. -/
  resetDue : Bool := false
  /-- R465. Bytes that `QP_MISO` carried in the last transaction. -/
  miso : List Byte := []
deriving DecidableEq, Repr

/-- A READ_OBJ that is under way over a die link (R384). -/
structure ReadJob where
  addr : Nat
  len : Nat
  data : List Byte
deriving DecidableEq, Repr

/-- A loop-back test that runs (R490). -/
structure Lb where
  iface : Nat
  depth : Nat
  num : Nat
  quiet : Bool
deriving DecidableEq, Repr

/-- The test access port, debug and the lands (R206, R475, R491, R492). -/
structure Tap where
  /-- R491. The selected instruction, Table 17.11. -/
  ir : Nat := 0x02
  /-- R492. The control die is held in reset by a test instruction. -/
  held : Bool := false
  /-- What the selected data register holds for shifting out. -/
  tdo : List Byte := []
  /-- R492. Values preloaded into the cells of the boundary-scan chain. -/
  cells : List Byte := []
  /-- R206. Task and context in which lane A stands under debug. -/
  task : Nat := 31
  ctx : Ctx := {}
  /-- R206. The activation in which lane A was halted, as it stood. -/
  act : Option Act := none
  /-- R104. Memory accesses that wait for the lock, oldest first: address, and the word of a write. -/
  wait : List (Nat × Option Word) := []
  /-- R206. `mono` since which a resumed lane A has not been followed. -/
  ranFrom : Nat := 0
  /-- R490. -/
  lb : Option Lb := none
  /-- R475. VIO and VIO_ETH are within their operating range. -/
  vio : Bool := true
  vioEth : Bool := true
  /-- R62, R63. `RESET_N` is held low. -/
  pinLow : Bool := false
deriving DecidableEq, Repr

end Sys2Proof.Machine
end

