-- ==== Sys2Proof/Machine/NetParts.lean ====
section
/-! DEFINITION. State of the train network and the maintenance verbs (chapter 13), of the interlock unit (chapter 9) and of
the runs and forces that verbs hold in command blocks (R388, R389). Instants in `mono` ns. -/

namespace Sys2Proof.Machine

/-- A copy of a telegram (R363). -/
structure TelCopy where
  counter : Nat
  payload : List Byte
  at_ : Nat
deriving DecidableEq, Repr

/-- A telegram (R361 to R364, R375). -/
structure Tel_ where
  /-- Newest new copy. -/
  copy : Option TelCopy := none
  /-- R363. The next accepted copy is new whatever its counter. -/
  fresh : Bool := true
  /-- R364. Last accepted copy of planes A and B. -/
  planeA : Option Nat := none
  planeB : Option Nat := none
  /-- R38, R364. Copy frozen at the last sample point of a rebuild, and whether it was valid there. -/
  frozen : Option TelCopy := none
  valid : Bool := false
  /-- R375. Publications still to carry `INIT`; last sent `SSC`. -/
  initLeft : Nat := 0
  ssc : Nat := 0
  /-- R362. Device time of the last publication, plus 1. -/
  lastPub : Nat := 0
deriving DecidableEq, Repr

/-- A safety container of a subscription (R370 to R374). -/
structure Sc where
  /-- Last accepted `SSC` and the arrival of the copy that first carried it. -/
  ssc : Nat := 0
  sscAt : Nat := 0
  valid : Bool := false
  /-- R38. Its validity as decided at the sample point of the last rebuild. -/
  atP : Bool := false
  /-- R371. Arrival of the copy last checked, plus 1; 0: none. -/
  checked : Nat := 0
  /-- R373. It must resynchronise; copies of the run so far and the last one's `SSC`. -/
  resync : Bool := true
  run : Nat := 0
  runSsc : Nat := 0
deriving DecidableEq, Repr

/-- R386. A verb that may be deferred. -/
inductive Waiting where
  /-- CLEAR_CAIRN. -/
  | clearCairn
  /-- A start of DOOR_TEST, or with `learn` of LEARN_PROFILE, on a channel. -/
  | run (learn : Bool) (k : Nat)
deriving DecidableEq, Repr

/-- A maintenance session (R381 to R386). -/
structure Sess where
  role : Nat
  /-- K_s. -/
  key : List Byte
  /-- R382. L. -/
  last : Nat := 0
  /-- R382. Stored reply frame. -/
  reply : List Byte := []
  /-- R383. Last new request. -/
  idleAt : Nat
  /-- R386. The deferred verb, and since when. -/
  deferred : Option (Waiting × Nat) := none
  /-- R457, R458. READ_CAIRN is being served, until the next commit point (DESIGN CHOICE). -/
  reading : Bool := false
  /-- R380. Port of the last request. -/
  port : Nat := 2
  /-- R382. `CTR` + 1 of the request of each verb whose reply is still to come. -/
  waiting : Nums := []
  /-- R382. It closes once the replies still to come are sent. -/
  closing : Bool := false
deriving DecidableEq, Repr

/-- A frame handed to a port or to the Rope for sending: `chan` 0 to 3 ports E0 to E3, 4 the Rope; `kind`: 1 Pd, 2 verb
reply, 3 Me, 4 ARP reply, 5 ICMP echo reply, 6 Delay_Req, 7 a register write by MDIO (register, value); on the Rope the frame type of
Table 14.1. A publication carries its destination and its IEEE 802.1Q tag (0: untagged). -/
structure Sent where
  chan : Nat
  kind : Nat
  data : List Byte
  dest : Nat := 0
  tag : Nat := 0
deriving DecidableEq, Repr

/-- A run held in a command block for a verb (R389): phase 0 to be staged, 1 held, 2 the closing `CMD` 0. -/
structure Hold where
  cmd : Nat
  seq : Nat
  phase : Nat
  /-- State of the channel at the start. -/
  from_ : Nat
  /-- Session whose reply `DONE` waits for the commit, with the verb code. -/
  sess : Option (Nat × Nat)
deriving DecidableEq, Repr

/-- The network side. -/
structure Net where
  tels : List (Nat × Tel_) := []
  scs : List (Nat × Sc) := []
  /-- R368. Last valid value of each signal-map entry, plus 1; 0: none since boot. -/
  holdVals : Nums := []
  /-- R365. A rebuild is under way since sample point `pAt`; the walkers start, or have started, at `walkAt`. -/
  building : Bool := false
  pAt : Nat := 0
  walkAt : Nat := 0
  /-- R359. By port, the last poll, and the consecutive polls that returned 0xFFFF. -/
  mdioAt : Nums := []
  mdioBad : Nums := []
  /-- R360. Instants of the ICMP replies of the last second, by port, newest first. -/
  icmpAt : List (Nat × List Nat) := []
  /-- R376. Priority vector of the best Announce, its instant, and the announce interval in ns. -/
  best : Option Nat := none
  annAt : Nat := 0
  annNs : Nat := 1000000000
  /-- R377. Consecutive Syncs within and beyond 1 µs; last Sync; a two-step Sync that waits for its Follow_Up. -/
  inLock : Nat := 0
  outLock : Nat := 0
  syncAt : Nat := 0
  twoStep : Option (Nat × Nat) := none
  /-- R376. Last Sync (origin, receipt) and the sending time of the last Delay_Req, in device time. -/
  t12 : Nat × Nat := (0, 0)
  dreqAt : Option Nat := none
  sess : List (Nat × Option Sess) := []
  /-- R381. Instants of failed OPEN_SESSIONs, newest first; end of the lockout. -/
  failAt : List Nat := []
  lockEnd : Nat := 0
  /-- R51, R383. Idle time of the session that entered MAINTENANCE counts from here, and which session that is. -/
  maintIdle : Nat := 0
  maintSess : Option Nat := none
  /-- Frames handed over for sending, oldest first. -/
  sent : List Sent := []
  /-- R388. Forces: 1 + value by load channel, and by field output at 64 + number. -/
  forces : Nums := []
  /-- R389. Runs by channel. -/
  holds : List (Nat × Option Hold) := []
  /-- R62. Session whose RESET waits for the commit point. -/
  resetDue : Bool := false
  /-- R53, R51, R388. Replies that wait for the next commit point: session, verb. -/
  atCommit : List (Nat × Nat) := []
deriving DecidableEq, Repr

/-- The interlock unit (R256 to R267). Instants of sampled time are device time. -/
structure Il where
  /-- R258. Sampled time since which both inputs have been valid and below `V_ZS`. -/
  lowAt : Option Nat := none
  /-- R259. Sampled time since which the inputs are in discrepancy, and since which both show motion. -/
  discAt : Option Nat := none
  moveAt : Option Nat := none
  /-- R260. Sampled time since which the sources of the left, right side differ; recorded in this episode. -/
  relAt : List (Option Nat) := [none, none]
  relRec : List Bool := [false, false]
  /-- R261. Number of the last evaluation; the rejection of this episode is recorded. -/
  profLast : Option Nat := none
  profRej : Bool := false
  /-- R266 (case). Sampled time of the last evaluation that found a traction half invalid, or mismatching after that. -/
  doubtAt : Option Nat := none
  /-- R266. Sampled time since which each half mismatches. -/
  rbAt : List (Option Nat) := [none, none, none, none]
  /-- R266. Committed values of the four halves at the last 4 commit points: device time and value, newest first. -/
  pairs : List (Nat × Nat) := []
  /-- R265. Device time of the last drop; of the last completed evaluation. -/
  dropAt : Option Nat := none
  evalAt : Option Nat := none
  /-- R258. Sampled time of the last evaluation. -/
  sampT : Nat := 0
  /-- R264. Values staged for the traction-enable and door-loop pairs. -/
  te : Bool := false
  loop : Bool := false
  /-- R265. The pairs-off STAGE waits for one in flight, by slot. -/
  offDue : Nat := 0
deriving DecidableEq, Repr

end Sys2Proof.Machine
end

