-- ==== Sys2Proof/Machine/Regs.lean ====
section
/-! DEFINITION. The registers of the block, one field constant per field of the spec's register maps, under the
spec's names `<REGISTER>_<FIELD>`, and one table of every register with its access types and reset values (Tables
1.12, 1.13, 2.11, 3.8, 5.4, 6.7, 7.4, 8.14, 9.5, 10.15, 11.8, 12.5, 13.10, 14.11, 15.7, 16.7, 17.13). Satellite
registers stand at their addresses in the object map (Table 1.9): `d` is the die within its type. -/

namespace Sys2Proof.Machine

/-- A field of a register: address, most and least significant bit. -/
structure Fld where
  addr : Nat
  hi : Nat
  lo : Nat
deriving DecidableEq, Repr

/-- Access types (Table 0.3). -/
inductive Acc where
  | ro | rw | w1c | wo | rc
deriving DecidableEq, Repr

/-- One field of a register map row: bits, access, reset value, and whether a device reset keeps it ("Retained",
and what the table ties to a fuse, a strap or the die). -/
structure FieldRow where
  hi : Nat
  lo : Nat
  acc : Acc
  reset : Nat
  kept : Bool
deriving DecidableEq, Repr

/-- A register, or an array of registers in one or two dimensions. -/
structure RegRow where
  base : Nat
  n1 : Nat
  st1 : Nat
  n2 : Nat
  st2 : Nat
  fields : List FieldRow
deriving DecidableEq, Repr


namespace Reg

-- Table 1.12
def LINK_STAT_UP (n : Nat) : Fld := ⟨0x40020800 + n * 0x10, 0, 0⟩
def LINK_STAT_ADMITTED (n : Nat) : Fld := ⟨0x40020800 + n * 0x10, 1, 1⟩
def LINK_STAT_ORPHAN (n : Nat) : Fld := ⟨0x40020800 + n * 0x10, 2, 2⟩
def LINK_STAT_EXCLUDED (n : Nat) : Fld := ⟨0x40020800 + n * 0x10, 3, 3⟩
def LINK_STAT_APPLIED (n : Nat) : Fld := ⟨0x40020800 + n * 0x10, 4, 4⟩
def LINK_STAT_MISS_60S (n : Nat) : Fld := ⟨0x40020800 + n * 0x10, 15, 12⟩
def LINK_STAT_DIE_CCOUNT (n : Nat) : Fld := ⟨0x40020800 + n * 0x10, 31, 16⟩
def LINK_ERR_CRC_ERRORS (n : Nat) : Fld := ⟨0x40020804 + n * 0x10, 15, 0⟩
def LINK_ERR_DROPS (n : Nat) : Fld := ⟨0x40020804 + n * 0x10, 31, 16⟩
def LINK_LAT_LAT_NS (n : Nat) : Fld := ⟨0x40020808 + n * 0x10, 11, 0⟩
def LINK_LAT_HOLD_NS (n : Nat) : Fld := ⟨0x40020808 + n * 0x10, 27, 16⟩
def LINK_MISS_MISSED_COMMITS (n : Nat) : Fld := ⟨0x4002080C + n * 0x10, 15, 0⟩
def LINK_MISS_MISSED_INPUTS (n : Nat) : Fld := ⟨0x4002080C + n * 0x10, 31, 16⟩
-- Table 1.13
def COMMIT_NUM_CCOUNT : Fld := ⟨0x40020880, 15, 0⟩
def COMMIT_FLAGS_DIE_MISS : Fld := ⟨0x40020884, 0, 0⟩
def COMMIT_FLAGS_INPUT_MISS : Fld := ⟨0x40020884, 1, 1⟩
def COMMIT_FLAGS_DIE_EXCLUDED : Fld := ⟨0x40020884, 2, 2⟩
def COMMIT_FLAGS_LINK_DROP : Fld := ⟨0x40020884, 3, 3⟩
def DEVTIME_LO_NS_LO : Fld := ⟨0x40020900, 31, 0⟩
def DEVTIME_HI_NS_HI : Fld := ⟨0x40020904, 31, 0⟩
def GRID_LO_POINT_LO : Fld := ⟨0x40020908, 31, 0⟩
def GRID_HI_POINT_HI : Fld := ⟨0x4002090C, 31, 0⟩
def SNAP_CTRL_SNAP_REQ : Fld := ⟨0x40020940, 0, 0⟩
def SNAP_CTRL_SNAP_BUSY : Fld := ⟨0x40020940, 1, 1⟩
def SNAP_CTRL_SNAP_SEQ : Fld := ⟨0x40020940, 31, 16⟩
-- Table 2.11
def MODE_STAT_MODE : Fld := ⟨0x40000004, 2, 0⟩
def MODE_STAT_LANE : Fld := ⟨0x40000004, 5, 4⟩
def MODE_STAT_DUPLEX : Fld := ⟨0x40000004, 8, 8⟩
def MODE_STAT_SEAT : Fld := ⟨0x40000004, 9, 9⟩
def MODE_STAT_CLAIM_OUT : Fld := ⟨0x40000004, 10, 10⟩
def MODE_STAT_CLAIM_IN : Fld := ⟨0x40000004, 11, 11⟩
def MODE_STAT_DEBUG_UNBOUND : Fld := ⟨0x40000004, 12, 12⟩
def MODE_STAT_DEBUG_FUSED : Fld := ⟨0x40000004, 13, 13⟩
def MODE_STAT_MODE_SEQ : Fld := ⟨0x40000004, 23, 16⟩
def SAFE_REASON_REASON : Fld := ⟨0x40000008, 7, 0⟩
def SAFE_REASON_DETAIL : Fld := ⟨0x40000008, 31, 16⟩
def RESET_CAUSE_CAUSE : Fld := ⟨0x4000000C, 6, 0⟩
def RESET_CAUSE_PREV_MODE : Fld := ⟨0x4000000C, 10, 8⟩
def SCOPED_RESET_BITS : Fld := ⟨0x40000010, 31, 0⟩
def PF_STAT_VL_LOW : Fld := ⟨0x40000014, 0, 0⟩
def PF_STAT_PF_WARN : Fld := ⟨0x40000014, 1, 1⟩
def PF_STAT_SAVED : Fld := ⟨0x40000014, 2, 2⟩
def PF_STAT_SAVE_NONATOMIC : Fld := ⟨0x40000014, 3, 3⟩
def PF_STAT_SAVE_ABORTED : Fld := ⟨0x40000014, 4, 4⟩
def PF_STAT_SAVE_US : Fld := ⟨0x40000014, 31, 16⟩
def PARK_STAT_PARK_RESULT : Fld := ⟨0x40000018, 3, 0⟩
def PARK_STAT_WAKE_SRC : Fld := ⟨0x40000018, 11, 8⟩
-- Table 3.8
def BOOT_STAT_FAIL_CODE : Fld := ⟨0x40000100, 7, 0⟩
def BOOT_STAT_FAIL_STEP : Fld := ⟨0x40000100, 11, 8⟩
def BOOT_STAT_COLD : Fld := ⟨0x40000100, 12, 12⟩
def BOOT_STAT_IMG_SLOT : Fld := ⟨0x40000100, 13, 13⟩
def BOOT_STAT_FROM_SHADOW : Fld := ⟨0x40000100, 14, 14⟩
def BOOT_STAT_FALLBACK : Fld := ⟨0x40000100, 15, 15⟩
def BOOT_STAT_KEY_IDX : Fld := ⟨0x40000100, 17, 16⟩
def BOOT_STAT_DONE : Fld := ⟨0x40000100, 18, 18⟩
def BOOT_STAT_BOOT_LOOPS : Fld := ⟨0x40000100, 25, 24⟩
def BOOT_DETAIL_DETAIL : Fld := ⟨0x40000104, 31, 0⟩
def IMG_GEN_GEN : Fld := ⟨0x40000108, 31, 0⟩
def LINEAGE_LO_LIN_LO : Fld := ⟨0x4000010C, 31, 0⟩
def LINEAGE_HI_LIN_HI : Fld := ⟨0x40000110, 31, 0⟩
def BOOT_TIME_BOOT_MS : Fld := ⟨0x40000114, 15, 0⟩
def PREC_STAT_PREC_CASE : Fld := ⟨0x40000118, 2, 0⟩
def PREC_STAT_OVERLAY_APPLIED : Fld := ⟨0x40000118, 3, 3⟩
def PREC_STAT_SLOT_PROG_USED : Fld := ⟨0x40000118, 4, 4⟩
def PREC_STAT_CKPT_RESTORED : Fld := ⟨0x40000118, 5, 5⟩
def SHADOW_STAT_VALID : Fld := ⟨0x4000011C, 0, 0⟩
def SHADOW_STAT_WRITING : Fld := ⟨0x4000011C, 1, 1⟩
def PROT_STAT_PROT_LOCK : Fld := ⟨0x40000180, 0, 0⟩
def PROT_STAT_VIOL_COUNT : Fld := ⟨0x40000180, 31, 16⟩
def WIN_BASE_BASE (q : Nat) (w : Nat) : Fld := ⟨0x40000200 + q * 0x80 + w * 0x10, 31, 0⟩
def WIN_LIMIT_LIMIT (q : Nat) (w : Nat) : Fld := ⟨0x40000204 + q * 0x80 + w * 0x10, 31, 0⟩
def WIN_ATTR_ATTR (q : Nat) (w : Nat) : Fld := ⟨0x40000208 + q * 0x80 + w * 0x10, 2, 0⟩
-- Table 5.4
def SCHED_STAT_RUNNING : Fld := ⟨0x40020000, 4, 0⟩
def SCHED_STAT_LOAD_PCT : Fld := ⟨0x40020000, 15, 8⟩
def SCHED_FLAGS_OVERRUN : Fld := ⟨0x40020004, 0, 0⟩
def SCHED_FLAGS_BUDGET : Fld := ⟨0x40020004, 1, 1⟩
def SCHED_FLAGS_ET_MERGED : Fld := ⟨0x40020004, 2, 2⟩
def SCHED_FLAGS_ET_ABANDON : Fld := ⟨0x40020004, 3, 3⟩
def SCHED_FLAGS_JOURNAL_OVF : Fld := ⟨0x40020004, 4, 4⟩
def SCHED_FLAGS_CKPT_ABANDON : Fld := ⟨0x40020004, 5, 5⟩
def SCHED_FLAGS_CKPT_DEFERRED : Fld := ⟨0x40020004, 6, 6⟩
def OVR_CFG_OVR_LIMIT : Fld := ⟨0x40020008, 7, 0⟩
def TASK_STAT_ENABLED (t : Nat) : Fld := ⟨0x40020100 + t * 0x20, 0, 0⟩
def TASK_STAT_FORMAT (t : Nat) : Fld := ⟨0x40020100 + t * 0x20, 1, 1⟩
def TASK_STAT_ACTIVE_RUN (t : Nat) : Fld := ⟨0x40020100 + t * 0x20, 2, 2⟩
def TASK_STAT_PENDING (t : Nat) : Fld := ⟨0x40020100 + t * 0x20, 3, 3⟩
def TASK_STAT_SAFETY (t : Nat) : Fld := ⟨0x40020100 + t * 0x20, 4, 4⟩
def TASK_STAT_OVR_RUN (t : Nat) : Fld := ⟨0x40020100 + t * 0x20, 15, 8⟩
def TASK_CYC_CYCLE (t : Nat) : Fld := ⟨0x40020104 + t * 0x20, 31, 0⟩
def TASK_SKIP_SKIPS (t : Nat) : Fld := ⟨0x40020108 + t * 0x20, 15, 0⟩
def TASK_SKIP_MERGED (t : Nat) : Fld := ⟨0x40020108 + t * 0x20, 31, 16⟩
def TASK_EXEC_LAST_US (t : Nat) : Fld := ⟨0x4002010C + t * 0x20, 15, 0⟩
def TASK_EXEC_MAX_US (t : Nat) : Fld := ⟨0x4002010C + t * 0x20, 31, 16⟩
def TASK_BUD_BUDGET_HITS (t : Nat) : Fld := ⟨0x40020110 + t * 0x20, 15, 0⟩
def CKPT_STAT_LAST_SLOT : Fld := ⟨0x40020600, 1, 0⟩
def CKPT_STAT_BUSY : Fld := ⟨0x40020600, 2, 2⟩
def CKPT_STAT_NONATOMIC_RUN : Fld := ⟨0x40020600, 3, 3⟩
def CKPT_STAT_JOURNAL_PEAK : Fld := ⟨0x40020600, 26, 16⟩
def CKPT_SEQ_SEQ : Fld := ⟨0x40020604, 31, 0⟩
def CKPT_GRID_LO_GC_LO : Fld := ⟨0x40020608, 31, 0⟩
def CKPT_GRID_HI_GC_HI : Fld := ⟨0x4002060C, 31, 0⟩
def CKPT_CNT_WRITTEN : Fld := ⟨0x40020610, 15, 0⟩
def CKPT_CNT_FAILED : Fld := ⟨0x40020610, 31, 16⟩
def JOURNAL_STAT_IN_USE : Fld := ⟨0x40020614, 10, 0⟩
def JOURNAL_STAT_OVERFLOWS : Fld := ⟨0x40020614, 31, 16⟩
-- Table 6.7
def CHG_STAT_NATIVE_PEND : Fld := ⟨0x40020700, 0, 0⟩
def CHG_STAT_SWAP_STATE : Fld := ⟨0x40020700, 2, 1⟩
def CHG_STAT_PROBATION : Fld := ⟨0x40020700, 3, 3⟩
def CHG_STAT_SLOT_USED : Fld := ⟨0x40020700, 4, 4⟩
def CHG_STAT_ACT_SLOT : Fld := ⟨0x40020700, 5, 5⟩
def CHG_STAT_SLOT0_STATE : Fld := ⟨0x40020700, 10, 8⟩
def CHG_STAT_SLOT1_STATE : Fld := ⟨0x40020700, 14, 12⟩
def PARAM_GEN_GEN : Fld := ⟨0x40020704, 31, 0⟩
def NATIVE_RES_RESULT : Fld := ⟨0x40020708, 7, 0⟩
def NATIVE_RES_ENTRY : Fld := ⟨0x40020708, 15, 8⟩
def NATIVE_RES_DETAIL : Fld := ⟨0x40020708, 23, 16⟩
def SWAP_RES_RESULT : Fld := ⟨0x4002070C, 7, 0⟩
def SWAP_RES_TASK : Fld := ⟨0x4002070C, 15, 8⟩
def SWAP_RES_REASON : Fld := ⟨0x4002070C, 23, 16⟩
def P_LO_P_LO : Fld := ⟨0x40020710, 31, 0⟩
def P_HI_P_HI : Fld := ⟨0x40020714, 31, 0⟩
def S_LO_S_LO : Fld := ⟨0x40020718, 31, 0⟩
def S_HI_S_HI : Fld := ⟨0x4002071C, 31, 0⟩
def PROB_LEFT_SECONDS : Fld := ⟨0x40020720, 31, 0⟩
-- Table 7.4
def VOTE_STAT_LANE : Fld := ⟨0x40010000, 1, 0⟩
def VOTE_STAT_LIVE : Fld := ⟨0x40010000, 4, 2⟩
def VOTE_STAT_VOTING : Fld := ⟨0x40010000, 7, 5⟩
def VOTE_STAT_EXCLUDED : Fld := ⟨0x40010000, 10, 8⟩
def VOTE_STAT_LAST_CLASS : Fld := ⟨0x40010000, 19, 16⟩
def VOTE_FLAGS_MINORITY : Fld := ⟨0x40010004, 0, 0⟩
def VOTE_FLAGS_REJOIN : Fld := ⟨0x40010004, 1, 1⟩
def VOTE_FLAGS_RETIRED : Fld := ⟨0x40010004, 2, 2⟩
def VOTE_FLAGS_VTEST_VOID : Fld := ⟨0x40010004, 3, 3⟩
def RETIRE_CFG_RETIRE_WIN_S : Fld := ⟨0x40010008, 31, 0⟩
def LANE_EVT_MIN_EVENTS (l : Nat) : Fld := ⟨0x40010010 + l * 0x10, 15, 0⟩
def LANE_EVT_REJOINS (l : Nat) : Fld := ⟨0x40010010 + l * 0x10, 31, 16⟩
def LANE_T_LO_T_LO (l : Nat) : Fld := ⟨0x40010014 + l * 0x10, 31, 0⟩
def LANE_T_HI_T_HI (l : Nat) : Fld := ⟨0x40010018 + l * 0x10, 31, 0⟩
def LANE_WHERE_EVT_PC (l : Nat) : Fld := ⟨0x4001001C + l * 0x10, 17, 0⟩
def LANE_WHERE_EVT_CLASS (l : Nat) : Fld := ⟨0x4001001C + l * 0x10, 21, 18⟩
def LANE_WHERE_EVT_TASK (l : Nat) : Fld := ⟨0x4001001C + l * 0x10, 26, 22⟩
def VTEST_STAT_PASSED : Fld := ⟨0x40010040, 15, 0⟩
def VTEST_STAT_NEXT_STEP : Fld := ⟨0x40010040, 21, 16⟩
def VTEST_VOIDS_VOIDED : Fld := ⟨0x40010044, 15, 0⟩
def VTEST_T_LO_VT_LO : Fld := ⟨0x40010048, 31, 0⟩
def VTEST_T_HI_VT_HI : Fld := ⟨0x4001004C, 31, 0⟩
def DEBUG_STAT_ATTACHED : Fld := ⟨0x40010050, 0, 0⟩
def DEBUG_STAT_HALTED : Fld := ⟨0x40010050, 1, 1⟩
def DEBUG_STAT_SOLE_LANE : Fld := ⟨0x40010050, 2, 2⟩
def DEBUG_STAT_DBG_WR_FILL : Fld := ⟨0x40010050, 14, 8⟩
def UNB_MAP0_MAP_0_15 : Fld := ⟨0x40010060, 31, 0⟩
def UNB_MAP1_MAP_16_23 : Fld := ⟨0x40010064, 15, 0⟩
-- Table 8.14
def DRV_CFG_CHECK_CHECK (d : Nat) : Fld := ⟨0x41000004 + d * 0x1000000, 31, 0⟩
def DRV_STAT_CONFIGURED (d : Nat) : Fld := ⟨0x41000008 + d * 0x1000000, 0, 0⟩
def DRV_STAT_SILENT (d : Nat) : Fld := ⟨0x41000008 + d * 0x1000000, 1, 1⟩
def DRV_STAT_SHADOW (d : Nat) : Fld := ⟨0x41000008 + d * 0x1000000, 2, 2⟩
def DRV_STAT_CCOUNT (d : Nat) : Fld := ⟨0x41000008 + d * 0x1000000, 31, 16⟩
def DRV_FLAGS_SILENCE_TRIP (d : Nat) : Fld := ⟨0x4100000C + d * 0x1000000, 0, 0⟩
def DRV_FLAGS_FAULT_SEEN (d : Nat) : Fld := ⟨0x4100000C + d * 0x1000000, 1, 1⟩
def DRV_FLAGS_MASK_CONFLICT (d : Nat) : Fld := ⟨0x4100000C + d * 0x1000000, 2, 2⟩
def DRV_FLAGS_SHADOW_DIVERGE (d : Nat) : Fld := ⟨0x4100000C + d * 0x1000000, 3, 3⟩
def DRV_FLAGS_TRACE_OVF (d : Nat) : Fld := ⟨0x4100000C + d * 0x1000000, 4, 4⟩
def DRV_SILENCE_MAX_GAP_US (d : Nat) : Fld := ⟨0x41000010 + d * 0x1000000, 31, 0⟩
def DRV_MODE_SHADOW (d : Nat) : Fld := ⟨0x41000014 + d * 0x1000000, 0, 0⟩
def DRV_CH_STAT_STATE (d : Nat) (c : Nat) : Fld := ⟨0x41000100 + d * 0x1000000 + c * 0x40, 7, 0⟩
def DRV_CH_STAT_CAUSE (d : Nat) (c : Nat) : Fld := ⟨0x41000100 + d * 0x1000000 + c * 0x40, 15, 8⟩
def DRV_CH_STAT_LOCAL (d : Nat) (c : Nat) : Fld := ⟨0x41000100 + d * 0x1000000 + c * 0x40, 23, 16⟩
def DRV_CH_STAT_PROOF (d : Nat) (c : Nat) : Fld := ⟨0x41000100 + d * 0x1000000 + c * 0x40, 31, 24⟩
def DRV_CH_POS_POS (d : Nat) (c : Nat) : Fld := ⟨0x41000104 + d * 0x1000000 + c * 0x40, 15, 0⟩
def DRV_CH_POS_SPEED (d : Nat) (c : Nat) : Fld := ⟨0x41000104 + d * 0x1000000 + c * 0x40, 31, 16⟩
def DRV_CH_CUR_IQ (d : Nat) (c : Nat) : Fld := ⟨0x41000108 + d * 0x1000000 + c * 0x40, 15, 0⟩
def DRV_CH_CUR_ID (d : Nat) (c : Nat) : Fld := ⟨0x41000108 + d * 0x1000000 + c * 0x40, 31, 16⟩
def DRV_CH_VDC_VDC (d : Nat) (c : Nat) : Fld := ⟨0x4100010C + d * 0x1000000 + c * 0x40, 15, 0⟩
def DRV_CH_FLT_FAULTS (d : Nat) (c : Nat) : Fld := ⟨0x41000110 + d * 0x1000000 + c * 0x40, 8, 0⟩
def DRV_CH_FLT_DC_LOW_SEEN (d : Nat) (c : Nat) : Fld := ⟨0x41000110 + d * 0x1000000 + c * 0x40, 9, 9⟩
def DRV_CH_CNT_STROKES (d : Nat) (c : Nat) : Fld := ⟨0x41000114 + d * 0x1000000 + c * 0x40, 15, 0⟩
def DRV_CH_CNT_OBSTACLES (d : Nat) (c : Nat) : Fld := ⟨0x41000114 + d * 0x1000000 + c * 0x40, 31, 16⟩
def DRV_CH_SHADOW0_SH_STATE (d : Nat) (c : Nat) : Fld := ⟨0x41000118 + d * 0x1000000 + c * 0x40, 7, 0⟩
def DRV_CH_SHADOW0_SH_CAUSE (d : Nat) (c : Nat) : Fld := ⟨0x41000118 + d * 0x1000000 + c * 0x40, 15, 8⟩
def DRV_CH_SHADOW0_SH_ATTEMPT (d : Nat) (c : Nat) : Fld := ⟨0x41000118 + d * 0x1000000 + c * 0x40, 23, 16⟩
def DRV_CH_SHADOW0_SH_SEQ (d : Nat) (c : Nat) : Fld := ⟨0x41000118 + d * 0x1000000 + c * 0x40, 31, 24⟩
def DRV_CH_SHADOW1_SH_POS (d : Nat) (c : Nat) : Fld := ⟨0x4100011C + d * 0x1000000 + c * 0x40, 15, 0⟩
def DRV_CH_SHADOW1_SH_IQREF (d : Nat) (c : Nat) : Fld := ⟨0x4100011C + d * 0x1000000 + c * 0x40, 31, 16⟩
def DRV_CH_FB_HALL_RAW (d : Nat) (c : Nat) : Fld := ⟨0x41000120 + d * 0x1000000 + c * 0x40, 2, 0⟩
def DRV_CH_FB_ENC_RAW (d : Nat) (c : Nat) : Fld := ⟨0x41000120 + d * 0x1000000 + c * 0x40, 4, 3⟩
def DRV_CH_FB_ENC_CNT (d : Nat) (c : Nat) : Fld := ⟨0x41000120 + d * 0x1000000 + c * 0x40, 31, 16⟩
-- Table 9.5
def IL_STAT_ZS_PROVEN : Fld := ⟨0x40020A00, 0, 0⟩
def IL_STAT_ZS_A_LOW : Fld := ⟨0x40020A00, 1, 1⟩
def IL_STAT_ZS_B_LOW : Fld := ⟨0x40020A00, 2, 2⟩
def IL_STAT_ZS_DISCREPANT : Fld := ⟨0x40020A00, 3, 3⟩
def IL_STAT_REL_L_NET : Fld := ⟨0x40020A00, 4, 4⟩
def IL_STAT_REL_L_HW : Fld := ⟨0x40020A00, 5, 5⟩
def IL_STAT_REL_R_NET : Fld := ⟨0x40020A00, 6, 6⟩
def IL_STAT_REL_R_HW : Fld := ⟨0x40020A00, 7, 7⟩
def IL_STAT_TE_GRANT : Fld := ⟨0x40020A00, 8, 8⟩
def IL_STAT_LOOP_GRANT : Fld := ⟨0x40020A00, 9, 9⟩
def IL_STAT_TE_RB_FAULT : Fld := ⟨0x40020A00, 10, 10⟩
def IL_STAT_BYPASS : Fld := ⟨0x40020A00, 11, 11⟩
def IL_STAT_PROF_OK : Fld := ⟨0x40020A00, 12, 12⟩
def IL_STAT_IL_STALE : Fld := ⟨0x40020A00, 13, 13⟩
def IL_STAT_FAST_DROP : Fld := ⟨0x40020A00, 14, 14⟩
def IL_STAT_LOOP_RB_FAULT : Fld := ⟨0x40020A00, 15, 15⟩
def IL_STAT_PROFILE : Fld := ⟨0x40020A00, 19, 16⟩
def IL_SPEED_SPEED_A : Fld := ⟨0x40020A04, 15, 0⟩
def IL_SPEED_SPEED_B : Fld := ⟨0x40020A04, 31, 16⟩
def IL_DOORS_REL_GRANT : Fld := ⟨0x40020A08, 11, 0⟩
def IL_DOORS_SECURE : Fld := ⟨0x40020A08, 27, 16⟩
def PROF_STAT_LEARNED : Fld := ⟨0x40020A0C, 11, 0⟩
def PROF_STAT_DRIFT : Fld := ⟨0x40020A0C, 27, 16⟩
def IL_FLAGS_ZS_DISC_SEEN : Fld := ⟨0x40020A10, 0, 0⟩
def IL_FLAGS_REL_DISC_SEEN : Fld := ⟨0x40020A10, 1, 1⟩
def IL_FLAGS_RB_SEEN : Fld := ⟨0x40020A10, 2, 2⟩
def IL_FLAGS_BYPASS_SEEN : Fld := ⟨0x40020A10, 3, 3⟩
def IL_FLAGS_STALE_SEEN : Fld := ⟨0x40020A10, 4, 4⟩
def IL_FLAGS_FAST_SEEN : Fld := ⟨0x40020A10, 5, 5⟩
def IL_FLAGS_PROF_REJ_SEEN : Fld := ⟨0x40020A10, 6, 6⟩
def IL_RB_RB_NOW : Fld := ⟨0x40020A14, 3, 0⟩
def IL_RB_CMT_NOW : Fld := ⟨0x40020A14, 7, 4⟩
def IL_RB_RB_MISMATCH : Fld := ⟨0x40020A14, 31, 16⟩
def IL_EVAL_CYCLE : Fld := ⟨0x40020A18, 31, 0⟩
def LEARN_STAT_CHANNEL : Fld := ⟨0x40020A1C, 3, 0⟩
def LEARN_STAT_CYCLE_NO : Fld := ⟨0x40020A1C, 6, 4⟩
def LEARN_STAT_BUSY : Fld := ⟨0x40020A1C, 7, 7⟩
def LEARN_STAT_RESULT : Fld := ⟨0x40020A1C, 15, 8⟩
def LEARN_STAT_BIN : Fld := ⟨0x40020A1C, 23, 16⟩
-- Table 10.15
def LSW_CFG_CHECK_CHECK (d : Nat) : Fld := ⟨0x44000004 + d * 0x1000000, 31, 0⟩
def LSW_STAT_CONFIGURED (d : Nat) : Fld := ⟨0x44000008 + d * 0x1000000, 0, 0⟩
def LSW_STAT_BAND (d : Nat) : Fld := ⟨0x44000008 + d * 0x1000000, 2, 1⟩
def LSW_STAT_RELEASED (d : Nat) : Fld := ⟨0x44000008 + d * 0x1000000, 3, 3⟩
def LSW_STAT_ON_LRC (d : Nat) : Fld := ⟨0x44000008 + d * 0x1000000, 4, 4⟩
def LSW_STAT_STBY (d : Nat) : Fld := ⟨0x44000008 + d * 0x1000000, 5, 5⟩
def LSW_STAT_CCOUNT (d : Nat) : Fld := ⟨0x44000008 + d * 0x1000000, 31, 16⟩
def LSW_FLAGS_BAND_DROP (d : Nat) : Fld := ⟨0x4400000C + d * 0x1000000, 0, 0⟩
def LSW_FLAGS_RELEASE_SEEN (d : Nat) : Fld := ⟨0x4400000C + d * 0x1000000, 1, 1⟩
def LSW_FLAGS_LRC_SEEN (d : Nat) : Fld := ⟨0x4400000C + d * 0x1000000, 2, 2⟩
def LSW_FLAGS_TRIP_SEEN (d : Nat) : Fld := ⟨0x4400000C + d * 0x1000000, 3, 3⟩
def LSW_VF_VF (d : Nat) : Fld := ⟨0x44000010 + d * 0x1000000, 15, 0⟩
def LSW_VFMIN_VF_MIN (d : Nat) : Fld := ⟨0x44000014 + d * 0x1000000, 15, 0⟩
def LSW_TEMP_CASE_T (d : Nat) : Fld := ⟨0x44000018 + d * 0x1000000, 7, 0⟩
def LSW_MODE_STBY (d : Nat) : Fld := ⟨0x4400001C + d * 0x1000000, 0, 0⟩
def LSW_CH_STAT_STATE (d : Nat) (c : Nat) : Fld := ⟨0x44000100 + d * 0x1000000 + c * 0x20, 7, 0⟩
def LSW_CH_STAT_CAUSE (d : Nat) (c : Nat) : Fld := ⟨0x44000100 + d * 0x1000000 + c * 0x20, 15, 8⟩
def LSW_CH_STAT_DIAG (d : Nat) (c : Nat) : Fld := ⟨0x44000100 + d * 0x1000000 + c * 0x20, 23, 16⟩
def LSW_CH_STAT_DT_K (d : Nat) (c : Nat) : Fld := ⟨0x44000100 + d * 0x1000000 + c * 0x20, 31, 24⟩
def LSW_CH_SENSE_CODE (d : Nat) (c : Nat) : Fld := ⟨0x44000104 + d * 0x1000000 + c * 0x20, 11, 0⟩
def LSW_CH_SENSE_LOW (d : Nat) (c : Nat) : Fld := ⟨0x44000104 + d * 0x1000000 + c * 0x20, 12, 12⟩
def LSW_CH_MODEL_Q_FRAC (d : Nat) (c : Nat) : Fld := ⟨0x44000108 + d * 0x1000000 + c * 0x20, 15, 0⟩
def LSW_CH_MODEL_TJ (d : Nat) (c : Nat) : Fld := ⟨0x44000108 + d * 0x1000000 + c * 0x20, 23, 16⟩
def LSW_CH_FLT_CAUSES (d : Nat) (c : Nat) : Fld := ⟨0x4400010C + d * 0x1000000 + c * 0x20, 10, 0⟩
def LSW_CH_FLT_DIAGS (d : Nat) (c : Nat) : Fld := ⟨0x4400010C + d * 0x1000000 + c * 0x20, 14, 11⟩
def LSW_CH_CNT_TRIPS (d : Nat) (c : Nat) : Fld := ⟨0x44000110 + d * 0x1000000 + c * 0x20, 15, 0⟩
def LSW_CH_CNT_RESTARTS (d : Nat) (c : Nat) : Fld := ⟨0x44000110 + d * 0x1000000 + c * 0x20, 31, 16⟩
def LSW_CH_PEAK_PEAK (d : Nat) (c : Nat) : Fld := ⟨0x44000114 + d * 0x1000000 + c * 0x20, 11, 0⟩
def LSW_CH_WIN_WIN_LEFT_MS (d : Nat) (c : Nat) : Fld := ⟨0x44000118 + d * 0x1000000 + c * 0x20, 15, 0⟩
-- Table 11.8
def FIO_CFG_CHECK_CHECK (d : Nat) : Fld := ⟨0x46000004 + d * 0x1000000, 31, 0⟩
def FIO_STAT_CONFIGURED (d : Nat) : Fld := ⟨0x46000008 + d * 0x1000000, 0, 0⟩
def FIO_STAT_MODE_C (d : Nat) : Fld := ⟨0x46000008 + d * 0x1000000, 1, 1⟩
def FIO_STAT_XLOSS (d : Nat) : Fld := ⟨0x46000008 + d * 0x1000000, 2, 2⟩
def FIO_STAT_VI_LOW (d : Nat) : Fld := ⟨0x46000008 + d * 0x1000000, 3, 3⟩
def FIO_STAT_SAFE_ACT (d : Nat) : Fld := ⟨0x46000008 + d * 0x1000000, 4, 4⟩
def FIO_STAT_RELEASED (d : Nat) : Fld := ⟨0x46000008 + d * 0x1000000, 5, 5⟩
def FIO_STAT_STBY (d : Nat) : Fld := ⟨0x46000008 + d * 0x1000000, 6, 6⟩
def FIO_STAT_CCOUNT (d : Nat) : Fld := ⟨0x46000008 + d * 0x1000000, 31, 16⟩
def FIO_FLAGS_XLOSS_SEEN (d : Nat) : Fld := ⟨0x4600000C + d * 0x1000000, 0, 0⟩
def FIO_FLAGS_SAFE_SEEN (d : Nat) : Fld := ⟨0x4600000C + d * 0x1000000, 1, 1⟩
def FIO_FLAGS_VI_LOW_SEEN (d : Nat) : Fld := ⟨0x4600000C + d * 0x1000000, 2, 2⟩
def FIO_FLAGS_OVL_SEEN (d : Nat) : Fld := ⟨0x4600000C + d * 0x1000000, 3, 3⟩
def FIO_FLAGS_RELEASE_SEEN (d : Nat) : Fld := ⟨0x4600000C + d * 0x1000000, 4, 4⟩
def FIO_XERR_CRC_ERR (d : Nat) : Fld := ⟨0x46000010 + d * 0x1000000, 15, 0⟩
def FIO_XERR_SEQ_ERR (d : Nat) : Fld := ⟨0x46000010 + d * 0x1000000, 31, 16⟩
def FIO_MODE_STBY (d : Nat) : Fld := ⟨0x46000014 + d * 0x1000000, 0, 0⟩
def FIO_VI_VI (d : Nat) : Fld := ⟨0x46000018 + d * 0x1000000, 15, 0⟩
def FIO_SILENCE_SILENCE_MS (d : Nat) : Fld := ⟨0x4600001C + d * 0x1000000, 15, 0⟩
def FIO_SILENCE_SAFE_COUNT (d : Nat) : Fld := ⟨0x4600001C + d * 0x1000000, 31, 16⟩
def FIO_DI_NOW_DI (d : Nat) : Fld := ⟨0x46000020 + d * 0x1000000, 31, 0⟩
def FIO_DO_NOW_DO (d : Nat) : Fld := ⟨0x46000024 + d * 0x1000000, 15, 0⟩
def FIO_DO_NOW_RB (d : Nat) : Fld := ⟨0x46000024 + d * 0x1000000, 31, 16⟩
def FIO_DO_OVL_OVL (d : Nat) : Fld := ⟨0x46000028 + d * 0x1000000, 15, 0⟩
def FIO_DO_OVL_OVL_HIST (d : Nat) : Fld := ⟨0x46000028 + d * 0x1000000, 31, 16⟩
def FIO_FAST_CNT_COUNT (d : Nat) (j : Nat) : Fld := ⟨0x46000100 + d * 0x1000000 + j * 0x10, 31, 0⟩
def FIO_FAST_FREQ_FREQ (d : Nat) (j : Nat) : Fld := ⟨0x46000104 + d * 0x1000000 + j * 0x10, 31, 0⟩
def FIO_FAST_PER_T_AVG_NS (d : Nat) (j : Nat) : Fld := ⟨0x46000108 + d * 0x1000000 + j * 0x10, 31, 0⟩
def FIO_FAST_STAT_GAP (d : Nat) (j : Nat) : Fld := ⟨0x4600010C + d * 0x1000000 + j * 0x10, 0, 0⟩
def FIO_FAST_STAT_FTMO (d : Nat) (j : Nat) : Fld := ⟨0x4600010C + d * 0x1000000 + j * 0x10, 1, 1⟩
def FIO_FAST_STAT_PERIODS (d : Nat) (j : Nat) : Fld := ⟨0x4600010C + d * 0x1000000 + j * 0x10, 15, 8⟩
-- Table 12.5
def CAN_STAT_ERR_STATE (c : Nat) : Fld := ⟨0x40030000 + c * 0x1000, 1, 0⟩
def CAN_STAT_RECOVERING (c : Nat) : Fld := ⟨0x40030000 + c * 0x1000, 2, 2⟩
def CAN_STAT_LISTEN (c : Nat) : Fld := ⟨0x40030000 + c * 0x1000, 3, 3⟩
def CAN_STAT_LOOP (c : Nat) : Fld := ⟨0x40030000 + c * 0x1000, 5, 4⟩
def CAN_STAT_TT_SYNC (c : Nat) : Fld := ⟨0x40030000 + c * 0x1000, 7, 6⟩
def CAN_STAT_TT_ERR (c : Nat) : Fld := ⟨0x40030000 + c * 0x1000, 9, 8⟩
def CAN_STAT_TT_MASTER (c : Nat) : Fld := ⟨0x40030000 + c * 0x1000, 10, 10⟩
def CAN_STAT_TEC (c : Nat) : Fld := ⟨0x40030000 + c * 0x1000, 23, 16⟩
def CAN_STAT_REC (c : Nat) : Fld := ⟨0x40030000 + c * 0x1000, 31, 24⟩
def CAN_FLAGS_BUSOFF_SEEN (c : Nat) : Fld := ⟨0x40030004 + c * 0x1000, 0, 0⟩
def CAN_FLAGS_PASSIVE_SEEN (c : Nat) : Fld := ⟨0x40030004 + c * 0x1000, 1, 1⟩
def CAN_FLAGS_RX_LOST (c : Nat) : Fld := ⟨0x40030004 + c * 0x1000, 2, 2⟩
def CAN_FLAGS_CANCEL_LATE (c : Nat) : Fld := ⟨0x40030004 + c * 0x1000, 3, 3⟩
def CAN_FLAGS_TT_ERR_SEEN (c : Nat) : Fld := ⟨0x40030004 + c * 0x1000, 4, 4⟩
def CAN_FLAGS_PX_SEEN (c : Nat) : Fld := ⟨0x40030004 + c * 0x1000, 5, 5⟩
def CAN_FLAGS_LB_FAIL (c : Nat) : Fld := ⟨0x40030004 + c * 0x1000, 6, 6⟩
def CAN_CNT_RX_FRAMES (c : Nat) : Fld := ⟨0x40030008 + c * 0x1000, 15, 0⟩
def CAN_CNT_TX_FRAMES (c : Nat) : Fld := ⟨0x40030008 + c * 0x1000, 31, 16⟩
def CAN_ERRCNT_ERR_FRAMES (c : Nat) : Fld := ⟨0x4003000C + c * 0x1000, 15, 0⟩
def CAN_ERRCNT_BUSOFF_COUNT (c : Nat) : Fld := ⟨0x4003000C + c * 0x1000, 31, 16⟩
def CAN_LEC_LAST_ERR (c : Nat) : Fld := ⟨0x40030010 + c * 0x1000, 2, 0⟩
def CAN_LEC_DATA_PHASE (c : Nat) : Fld := ⟨0x40030010 + c * 0x1000, 3, 3⟩
def CAN_LEC_TDC_VAL (c : Nat) : Fld := ⟨0x40030010 + c * 0x1000, 23, 16⟩
def CAN_TT_CYCLE (c : Nat) : Fld := ⟨0x40030014 + c * 0x1000, 5, 0⟩
def CAN_TT_WINDOW (c : Nat) : Fld := ⟨0x40030014 + c * 0x1000, 10, 6⟩
def CAN_TT_CYC_TIME (c : Nat) : Fld := ⟨0x40030014 + c * 0x1000, 31, 16⟩
def CAN_TTERR_RXCHK_MISS (c : Nat) : Fld := ⟨0x40030018 + c * 0x1000, 15, 0⟩
def CAN_TTERR_REF_MISS (c : Nat) : Fld := ⟨0x40030018 + c * 0x1000, 31, 16⟩
def CAN_MISC_NOMATCH (c : Nat) : Fld := ⟨0x4003001C + c * 0x1000, 15, 0⟩
def CAN_MISC_LB_COLLIDE (c : Nat) : Fld := ⟨0x4003001C + c * 0x1000, 31, 16⟩
def BUF_STAT_TX (c : Nat) (b : Nat) : Fld := ⟨0x40030100 + c * 0x1000 + b * 0x8, 0, 0⟩
def BUF_STAT_MAIN_FULL (c : Nat) (b : Nat) : Fld := ⟨0x40030100 + c * 0x1000 + b * 0x8, 1, 1⟩
def BUF_STAT_HELD (c : Nat) (b : Nat) : Fld := ⟨0x40030100 + c * 0x1000 + b * 0x8, 2, 2⟩
def BUF_STAT_SHADOW_FULL (c : Nat) (b : Nat) : Fld := ⟨0x40030100 + c * 0x1000 + b * 0x8, 3, 3⟩
def BUF_STAT_TX_PEND (c : Nat) (b : Nat) : Fld := ⟨0x40030100 + c * 0x1000 + b * 0x8, 4, 4⟩
def BUF_STAT_CANCEL_DEF (c : Nat) (b : Nat) : Fld := ⟨0x40030100 + c * 0x1000 + b * 0x8, 5, 5⟩
def BUF_STAT_LOST_CNT (c : Nat) (b : Nat) : Fld := ⟨0x40030100 + c * 0x1000 + b * 0x8, 15, 8⟩
def BUF_STAT_FCOUNT (c : Nat) (b : Nat) : Fld := ⟨0x40030100 + c * 0x1000 + b * 0x8, 31, 16⟩
def BUF_ID_ID (c : Nat) (b : Nat) : Fld := ⟨0x40030104 + c * 0x1000 + b * 0x8, 31, 0⟩
-- Table 13.10
def NET_STAT_PTP_LOCKED : Fld := ⟨0x40040000, 0, 0⟩
def NET_STAT_PTP_HOLDOVER : Fld := ⟨0x40040000, 1, 1⟩
def NET_STAT_PTP_PORT : Fld := ⟨0x40040000, 2, 2⟩
def NET_STAT_OPEN_LOCKOUT : Fld := ⟨0x40040000, 3, 3⟩
def NET_STAT_SESS_OPEN : Fld := ⟨0x40040000, 7, 4⟩
def NET_FLAGS_TMO_SEEN : Fld := ⟨0x40040004, 0, 0⟩
def NET_FLAGS_SC_REJ_SEEN : Fld := ⟨0x40040004, 1, 1⟩
def NET_FLAGS_PLANE_SEEN : Fld := ⟨0x40040004, 2, 2⟩
def NET_FLAGS_AUTH_SEEN : Fld := ⟨0x40040004, 3, 3⟩
def NET_FLAGS_REFUSE_SEEN : Fld := ⟨0x40040004, 4, 4⟩
def NET_FLAGS_PTP_LOST_SEEN : Fld := ⟨0x40040004, 5, 5⟩
def PTP_OFS_OFFSET_NS : Fld := ⟨0x40040008, 31, 0⟩
def PTP_DELAY_PATH_NS : Fld := ⟨0x4004000C, 31, 0⟩
def RXIMG_RXIMG_US : Fld := ⟨0x40040010, 15, 0⟩
def RXIMG_RXIMG_MAX : Fld := ⟨0x40040010, 31, 16⟩
def VERB_CNT_ACCEPTED : Fld := ⟨0x40040014, 15, 0⟩
def VERB_CNT_REFUSED : Fld := ⟨0x40040014, 31, 16⟩
def AUTH_CNT_AUTH_FAIL : Fld := ⟨0x40040018, 15, 0⟩
def AUTH_CNT_DEFERRED : Fld := ⟨0x40040018, 31, 16⟩
def PORT_STAT_LINK (p : Nat) : Fld := ⟨0x40040100 + p * 0x20, 0, 0⟩
def PORT_STAT_GIG (p : Nat) : Fld := ⟨0x40040100 + p * 0x20, 1, 1⟩
def PORT_STAT_MDIO_ERR (p : Nat) : Fld := ⟨0x40040100 + p * 0x20, 2, 2⟩
def PORT_STAT_PHY_ADDR (p : Nat) : Fld := ⟨0x40040100 + p * 0x20, 7, 3⟩
def PORT_RX_RX_FRAMES (p : Nat) : Fld := ⟨0x40040104 + p * 0x20, 31, 0⟩
def PORT_TX_TX_FRAMES (p : Nat) : Fld := ⟨0x40040108 + p * 0x20, 31, 0⟩
def PORT_ERR_RX_ERR (p : Nat) : Fld := ⟨0x4004010C + p * 0x20, 15, 0⟩
def PORT_ERR_DROPPED (p : Nat) : Fld := ⟨0x4004010C + p * 0x20, 31, 16⟩
def TEL_STAT_VALID (i : Nat) : Fld := ⟨0x40041000 + i * 0x8, 0, 0⟩
def TEL_STAT_PLANE_A_OK (i : Nat) : Fld := ⟨0x40041000 + i * 0x8, 1, 1⟩
def TEL_STAT_PLANE_B_OK (i : Nat) : Fld := ⟨0x40041000 + i * 0x8, 2, 2⟩
def TEL_STAT_SC_VALID (i : Nat) : Fld := ⟨0x40041000 + i * 0x8, 3, 3⟩
def TEL_STAT_SC_REASON (i : Nat) : Fld := ⟨0x40041000 + i * 0x8, 6, 4⟩
def TEL_STAT_DUP (i : Nat) : Fld := ⟨0x40041000 + i * 0x8, 15, 7⟩
def TEL_STAT_TMO_COUNT (i : Nat) : Fld := ⟨0x40041000 + i * 0x8, 31, 16⟩
def TEL_SEQ_SEQ (i : Nat) : Fld := ⟨0x40041004 + i * 0x8, 31, 0⟩
-- Table 14.11
def DUP_STAT_PRESENT : Fld := ⟨0x40050000, 0, 0⟩
def DUP_STAT_PEER_HEALTHY : Fld := ⟨0x40050000, 1, 1⟩
def DUP_STAT_PEER_READY : Fld := ⟨0x40050000, 2, 2⟩
def DUP_STAT_ROPE_UP : Fld := ⟨0x40050000, 3, 3⟩
def DUP_STAT_ROPE_DEGRADED : Fld := ⟨0x40050000, 4, 4⟩
def DUP_STAT_TIME_SYNC : Fld := ⟨0x40050000, 5, 5⟩
def DUP_STAT_BELAY_OK : Fld := ⟨0x40050000, 6, 6⟩
def DUP_STAT_IMAGE_SAME : Fld := ⟨0x40050000, 7, 7⟩
def DUP_STAT_CLAIM_A_LAND : Fld := ⟨0x40050000, 8, 8⟩
def DUP_STAT_CLAIM_B_LAND : Fld := ⟨0x40050000, 9, 9⟩
def DUP_STAT_REL_OUT : Fld := ⟨0x40050000, 10, 10⟩
def DUP_STAT_REL_IN : Fld := ⟨0x40050000, 11, 11⟩
def DUP_STAT_CLAIM_GATED : Fld := ⟨0x40050000, 12, 12⟩
def DUP_STAT_CHANGE_SYNC : Fld := ⟨0x40050000, 13, 13⟩
def DUP_STAT_PEER_MODE : Fld := ⟨0x40050000, 18, 16⟩
def DUP_FLAGS_PEER_LOST_SEEN : Fld := ⟨0x40050004, 0, 0⟩
def DUP_FLAGS_ROPE_DOWN_SEEN : Fld := ⟨0x40050004, 1, 1⟩
def DUP_FLAGS_CMP_SEEN : Fld := ⟨0x40050004, 2, 2⟩
def DUP_FLAGS_RESYNC_SEEN : Fld := ⟨0x40050004, 3, 3⟩
def DUP_FLAGS_CMP_ALARM : Fld := ⟨0x40050004, 4, 4⟩
def DUP_FLAGS_TAKEOVER_SEEN : Fld := ⟨0x40050004, 5, 5⟩
def DUP_FLAGS_DECLINED_SEEN : Fld := ⟨0x40050004, 6, 6⟩
def DUP_FLAGS_TAKEOVER_OWN : Fld := ⟨0x40050004, 7, 7⟩
def DUP_FLAGS_CLAIM_CONFLICT_SEEN : Fld := ⟨0x40050004, 8, 8⟩
def ROPE_ERR_CRC_ERRORS : Fld := ⟨0x40050008, 15, 0⟩
def ROPE_ERR_DROPS : Fld := ⟨0x40050008, 31, 16⟩
def ROPE_LAT_LAT_NS : Fld := ⟨0x4005000C, 11, 0⟩
def ROPE_LAT_LANE_LOCK : Fld := ⟨0x4005000C, 17, 16⟩
def BELAY_GEN_GEN : Fld := ⟨0x40050010, 31, 0⟩
def BELAY_SIZE_BYTES : Fld := ⟨0x40050014, 16, 0⟩
def BELAY_AGE_AGE_US : Fld := ⟨0x40050018, 31, 0⟩
def CMP_STAT_LAST_TASK : Fld := ⟨0x4005001C, 4, 0⟩
def CMP_STAT_N_CMP : Fld := ⟨0x4005001C, 15, 8⟩
def CMP_STAT_RESYNC_HOUR : Fld := ⟨0x4005001C, 23, 16⟩
def CMP_CNT_DISCREPANCIES : Fld := ⟨0x40050020, 15, 0⟩
def CMP_CNT_RESYNCS : Fld := ⟨0x40050020, 31, 16⟩
def TKO_STAT_TAKEOVERS : Fld := ⟨0x40050024, 15, 0⟩
def TKO_STAT_LAST_TKO_US : Fld := ⟨0x40050024, 31, 16⟩
def HANDOVER_LAST_CAUSE : Fld := ⟨0x40050028, 7, 0⟩
def HANDOVER_DECLINED : Fld := ⟨0x40050028, 15, 8⟩
def PEER_HEALTH_WORD (i : Nat) : Fld := ⟨0x40050040 + i * 0x4, 31, 0⟩
def OWN_HEALTH_WORD (i : Nat) : Fld := ⟨0x40050080 + i * 0x4, 31, 0⟩
-- Table 15.7
def MEM_STAT_FILL_BUSY : Fld := ⟨0x40090000, 4, 0⟩
def MEM_STAT_KEEP_WAIT : Fld := ⟨0x40090000, 5, 5⟩
def MEM_STAT_SCRUB_BUSY : Fld := ⟨0x40090000, 6, 6⟩
def MEM_STAT_REFRESH_BUSY : Fld := ⟨0x40090000, 7, 7⟩
def MEM_STAT_MBIST_PASS : Fld := ⟨0x40090000, 12, 8⟩
def MEM_FLAGS_CE_SEEN : Fld := ⟨0x40090004, 0, 0⟩
def MEM_FLAGS_UE_SEEN : Fld := ⟨0x40090004, 1, 1⟩
def MEM_FLAGS_CE_ALARM : Fld := ⟨0x40090004, 2, 2⟩
def MEM_FLAGS_SLOT_LOST : Fld := ⟨0x40090004, 3, 3⟩
def MEM_FLAGS_OVERLAY_LOST : Fld := ⟨0x40090004, 4, 4⟩
def ECC_CNT_CE (b : Nat) : Fld := ⟨0x40090010 + b * 0x8, 15, 0⟩
def ECC_CNT_UE (b : Nat) : Fld := ⟨0x40090010 + b * 0x8, 31, 16⟩
def ECC_ADDR_ADDR (b : Nat) : Fld := ⟨0x40090014 + b * 0x8, 31, 0⟩
def SCRUB_STAT_SCRUB_PASSES : Fld := ⟨0x40090040, 15, 0⟩
def SCRUB_STAT_REFRESH_PASSES : Fld := ⟨0x40090040, 31, 16⟩
def MEM_CFG_CKPT_MS : Fld := ⟨0x40090044, 15, 0⟩
def MEM_CFG_SCRUB_S : Fld := ⟨0x40090044, 31, 16⟩
def MEM_CFG2_CE_ALARM_LIM : Fld := ⟨0x40090048, 15, 0⟩
def MEM_CFG2_REFRESH_D : Fld := ⟨0x40090048, 31, 16⟩
def ARB_MAX_WAIT (b : Nat) : Fld := ⟨0x40090050 + b * 0x4, 7, 0⟩
def SPARE_USED0_B0 : Fld := ⟨0x40090070, 7, 0⟩
def SPARE_USED0_B1 : Fld := ⟨0x40090070, 15, 8⟩
def SPARE_USED0_B2 : Fld := ⟨0x40090070, 23, 16⟩
def SPARE_USED0_B3 : Fld := ⟨0x40090070, 31, 24⟩
def SPARE_USED1_B4 : Fld := ⟨0x40090074, 7, 0⟩
def PARK_SIG_SIG : Fld := ⟨0x40090080, 31, 0⟩
def PARK_MARK_MARK : Fld := ⟨0x40090084, 0, 0⟩
-- Table 16.7
def CAIRN_STAT_FILL : Fld := ⟨0x40060000, 13, 0⟩
def CAIRN_STAT_FULL : Fld := ⟨0x40060000, 14, 14⟩
def CAIRN_STAT_CLEARING : Fld := ⟨0x40060000, 15, 15⟩
def CAIRN_STAT_LW_NEXT : Fld := ⟨0x40060000, 21, 16⟩
def CAIRN_FLAGS_SUPPR_SEEN : Fld := ⟨0x40060004, 0, 0⟩
def CAIRN_FLAGS_QUEUE_OVF : Fld := ⟨0x40060004, 1, 1⟩
def CAIRN_FLAGS_DISCARD_SEEN : Fld := ⟨0x40060004, 2, 2⟩
def CAIRN_CNT_WRITTEN : Fld := ⟨0x40060008, 15, 0⟩
def CAIRN_CNT_SUPPRESSED : Fld := ⟨0x40060008, 31, 16⟩
def CAIRN_LOST_DISCARDED : Fld := ⟨0x4006000C, 15, 0⟩
def CAIRN_LOST_QUEUE_DROP : Fld := ⟨0x4006000C, 31, 16⟩
def OP_SEC_SECONDS : Fld := ⟨0x40060010, 31, 0⟩
def OP_FRAC_FRAC : Fld := ⟨0x40060014, 15, 0⟩
def PWR_CYC_COUNT : Fld := ⟨0x40060018, 23, 0⟩
def PWR_CYC_PC_SAT : Fld := ⟨0x40060018, 24, 24⟩
def LDG_STAT_NEWEST (k : Nat) : Fld := ⟨0x40060100 + k * 0x20, 11, 0⟩
def LDG_STAT_EMPTY (k : Nat) : Fld := ⟨0x40060100 + k * 0x20, 12, 12⟩
def LDG_STAT_OPEN (k : Nat) : Fld := ⟨0x40060100 + k * 0x20, 13, 13⟩
def LT_CYCLES_CYCLES (k : Nat) : Fld := ⟨0x40060104 + k * 0x20, 31, 0⟩
def LT_OBST_OBSTACLES (k : Nat) : Fld := ⟨0x40060108 + k * 0x20, 31, 0⟩
def LT_HALTS_HALTS (k : Nat) : Fld := ⟨0x4006010C + k * 0x20, 31, 0⟩
def LT_ENERGY_KJ (k : Nat) : Fld := ⟨0x40060110 + k * 0x20, 31, 0⟩
def QP_STAT_NEXT_TICKET : Fld := ⟨0x40070000, 7, 0⟩
def QP_STAT_LIVE : Fld := ⟨0x40070000, 12, 8⟩
def QP_STAT_RESET_SEEN : Fld := ⟨0x40070000, 13, 13⟩
def QP_STAT_CS_ACTIVE : Fld := ⟨0x40070000, 14, 14⟩
def QP_CNT_SUBMITS : Fld := ⟨0x40070004, 15, 0⟩
def QP_CNT_FRAME_ERR : Fld := ⟨0x40070004, 31, 16⟩
def QP_CNT2_FETCHES : Fld := ⟨0x40070008, 15, 0⟩
def QP_CNT2_EXPIRED_READS : Fld := ⟨0x40070008, 31, 16⟩
-- Table 17.13
def CLK_STAT_PLL_LOCK : Fld := ⟨0x40080000, 7, 0⟩
def CLK_STAT_REFCLK_OK : Fld := ⟨0x40080000, 8, 8⟩
def CLK_STAT_XTAL_OK : Fld := ⟨0x40080000, 9, 9⟩
def CLK_STAT_ON_RC : Fld := ⟨0x40080000, 10, 10⟩
def CLK_FLAGS_PLL_UNLOCK_SEEN : Fld := ⟨0x40080004, 0, 0⟩
def CLK_FLAGS_XTAL_FAIL : Fld := ⟨0x40080004, 1, 1⟩
def CLK_FLAGS_REFCLK_LOSS_SEEN : Fld := ⟨0x40080004, 2, 2⟩
def SUPPLY_VL_10MV : Fld := ⟨0x40080010, 15, 0⟩
def SUPPLY_VHU_10MV : Fld := ⟨0x40080010, 31, 16⟩
def SUPPLY2_VIO_10MV : Fld := ⟨0x40080014, 15, 0⟩
def SUPPLY2_VIOE_10MV : Fld := ⟨0x40080014, 31, 16⟩
def VHU_CAP_CAP_UF : Fld := ⟨0x40080018, 11, 0⟩
def VHU_CAP_VHU_WEAK : Fld := ⟨0x40080018, 12, 12⟩
def VHU_CAP_MEASURED : Fld := ⟨0x40080018, 13, 13⟩
def THERM_T_CTL : Fld := ⟨0x40080020, 7, 0⟩
def THERM_T_CTL_MAX : Fld := ⟨0x40080020, 15, 8⟩
def THERM_T_LID : Fld := ⟨0x40080020, 23, 16⟩
def LB_CTRL_IFACE : Fld := ⟨0x40080030, 3, 0⟩
def LB_CTRL_DEPTH : Fld := ⟨0x40080030, 5, 4⟩
def LB_CTRL_INST : Fld := ⟨0x40080030, 15, 8⟩
def LB_CTRL_ARG : Fld := ⟨0x40080030, 23, 16⟩
def LB_CTRL_START : Fld := ⟨0x40080030, 31, 31⟩
def LB_STAT_BUSY : Fld := ⟨0x40080034, 0, 0⟩
def LB_STAT_RESULT : Fld := ⟨0x40080034, 3, 1⟩
def LB_STAT_LB_IFACE : Fld := ⟨0x40080034, 7, 4⟩
def LB_STAT_LB_DEPTH : Fld := ⟨0x40080034, 9, 8⟩
def LB_STAT_ERRORS : Fld := ⟨0x40080034, 31, 16⟩
def QP_PAD_QP_PAD_ERR : Fld := ⟨0x40080038, 15, 0⟩
def FUSE_STAT_PROD_LOCK : Fld := ⟨0x40080040, 0, 0⟩
def FUSE_STAT_KEY_PROG : Fld := ⟨0x40080040, 4, 1⟩
def FUSE_STAT_KEY_REVOKED : Fld := ⟨0x40080040, 8, 5⟩
def FUSE_STAT_MK_PROG : Fld := ⟨0x40080040, 10, 9⟩
def FUSE_STAT_FUSE_RESULT : Fld := ⟨0x40080040, 13, 11⟩
def JTAG_ID_IDCODE : Fld := ⟨0x40080044, 31, 0⟩

end Reg

/-- The registers of Table 1.12. -/
def regs1_12 : List RegRow := [
  ⟨0x40020810, 7, 0x10, 1, 0x100000000, [⟨0, 0, .ro, 0, false⟩, ⟨1, 1, .ro, 0, false⟩, ⟨2, 2, .ro, 0, false⟩, ⟨3, 3, .ro, 0, false⟩, ⟨4, 4, .ro, 0, false⟩, ⟨15, 12, .ro, 0, false⟩, ⟨31, 16, .ro, 0, false⟩]⟩,
  ⟨0x40020814, 7, 0x10, 1, 0x100000000, [⟨15, 0, .rc, 0, false⟩, ⟨31, 16, .rc, 0, false⟩]⟩,
  ⟨0x40020818, 7, 0x10, 1, 0x100000000, [⟨11, 0, .ro, 0, false⟩, ⟨27, 16, .ro, 0, false⟩]⟩,
  ⟨0x4002081C, 7, 0x10, 1, 0x100000000, [⟨15, 0, .rc, 0, false⟩, ⟨31, 16, .rc, 0, false⟩]⟩]

/-- The registers of Table 1.13. -/
def regs1_13 : List RegRow := [
  ⟨0x40020880, 1, 0x100000000, 1, 0x100000000, [⟨15, 0, .ro, 0, false⟩]⟩,
  ⟨0x40020884, 1, 0x100000000, 1, 0x100000000, [⟨0, 0, .w1c, 0, false⟩, ⟨1, 1, .w1c, 0, false⟩, ⟨2, 2, .w1c, 0, false⟩, ⟨3, 3, .w1c, 0, false⟩]⟩,
  ⟨0x40020900, 1, 0x100000000, 1, 0x100000000, [⟨31, 0, .ro, 0, false⟩]⟩,
  ⟨0x40020904, 1, 0x100000000, 1, 0x100000000, [⟨31, 0, .ro, 0, false⟩]⟩,
  ⟨0x40020908, 1, 0x100000000, 1, 0x100000000, [⟨31, 0, .ro, 0, false⟩]⟩,
  ⟨0x4002090C, 1, 0x100000000, 1, 0x100000000, [⟨31, 0, .ro, 0, false⟩]⟩,
  ⟨0x40020940, 1, 0x100000000, 1, 0x100000000, [⟨0, 0, .wo, 0, false⟩, ⟨1, 1, .ro, 0, false⟩, ⟨31, 16, .ro, 0, false⟩]⟩]

/-- The registers of Table 2.11. -/
def regs2_11 : List RegRow := [
  ⟨0x40000004, 1, 0x100000000, 1, 0x100000000, [⟨2, 0, .ro, 0x0, false⟩, ⟨5, 4, .ro, 0, false⟩, ⟨8, 8, .ro, 0, false⟩, ⟨9, 9, .ro, 0, true⟩, ⟨10, 10, .ro, 0, false⟩, ⟨11, 11, .ro, 0, false⟩, ⟨12, 12, .ro, 0, false⟩, ⟨13, 13, .ro, 0, true⟩, ⟨23, 16, .ro, 0, false⟩]⟩,
  ⟨0x40000008, 1, 0x100000000, 1, 0x100000000, [⟨7, 0, .ro, 0, false⟩, ⟨31, 16, .ro, 0, false⟩]⟩,
  ⟨0x4000000C, 1, 0x100000000, 1, 0x100000000, [⟨6, 0, .ro, 0, true⟩, ⟨10, 8, .ro, 0, true⟩]⟩,
  ⟨0x40000010, 1, 0x100000000, 1, 0x100000000, [⟨31, 0, .wo, 0, false⟩]⟩,
  ⟨0x40000014, 1, 0x100000000, 1, 0x100000000, [⟨0, 0, .ro, 0, false⟩, ⟨1, 1, .ro, 0, false⟩, ⟨2, 2, .ro, 0, true⟩, ⟨3, 3, .ro, 0, true⟩, ⟨4, 4, .ro, 0, true⟩, ⟨31, 16, .ro, 0, true⟩]⟩,
  ⟨0x40000018, 1, 0x100000000, 1, 0x100000000, [⟨3, 0, .ro, 0, false⟩, ⟨11, 8, .ro, 0, false⟩]⟩]

/-- The registers of Table 3.8. -/
def regs3_8 : List RegRow := [
  ⟨0x40000100, 1, 0x100000000, 1, 0x100000000, [⟨7, 0, .ro, 0, false⟩, ⟨11, 8, .ro, 0, false⟩, ⟨12, 12, .ro, 0, false⟩, ⟨13, 13, .ro, 0, false⟩, ⟨14, 14, .ro, 0, false⟩, ⟨15, 15, .ro, 0, false⟩, ⟨17, 16, .ro, 0, false⟩, ⟨18, 18, .ro, 0, false⟩, ⟨25, 24, .ro, 0, true⟩]⟩,
  ⟨0x40000104, 1, 0x100000000, 1, 0x100000000, [⟨31, 0, .ro, 0, false⟩]⟩,
  ⟨0x40000108, 1, 0x100000000, 1, 0x100000000, [⟨31, 0, .ro, 0, false⟩]⟩,
  ⟨0x4000010C, 1, 0x100000000, 1, 0x100000000, [⟨31, 0, .ro, 0, false⟩]⟩,
  ⟨0x40000110, 1, 0x100000000, 1, 0x100000000, [⟨31, 0, .ro, 0, false⟩]⟩,
  ⟨0x40000114, 1, 0x100000000, 1, 0x100000000, [⟨15, 0, .ro, 0, false⟩]⟩,
  ⟨0x40000118, 1, 0x100000000, 1, 0x100000000, [⟨2, 0, .ro, 0, false⟩, ⟨3, 3, .ro, 0, false⟩, ⟨4, 4, .ro, 0, false⟩, ⟨5, 5, .ro, 0, false⟩]⟩,
  ⟨0x4000011C, 1, 0x100000000, 1, 0x100000000, [⟨0, 0, .ro, 0, false⟩, ⟨1, 1, .ro, 0, false⟩]⟩,
  ⟨0x40000180, 1, 0x100000000, 1, 0x100000000, [⟨0, 0, .ro, 0, false⟩, ⟨31, 16, .rc, 0, false⟩]⟩,
  ⟨0x40000200, 4, 0x80, 8, 0x10, [⟨31, 0, .ro, 0, false⟩]⟩,
  ⟨0x40000204, 4, 0x80, 8, 0x10, [⟨31, 0, .ro, 0, false⟩]⟩,
  ⟨0x40000208, 4, 0x80, 8, 0x10, [⟨2, 0, .ro, 0, false⟩]⟩]

/-- The registers of Table 5.4. -/
def regs5_4 : List RegRow := [
  ⟨0x40020000, 1, 0x100000000, 1, 0x100000000, [⟨4, 0, .ro, 0x1F, false⟩, ⟨15, 8, .ro, 0, false⟩]⟩,
  ⟨0x40020004, 1, 0x100000000, 1, 0x100000000, [⟨0, 0, .w1c, 0, false⟩, ⟨1, 1, .w1c, 0, false⟩, ⟨2, 2, .w1c, 0, false⟩, ⟨3, 3, .w1c, 0, false⟩, ⟨4, 4, .w1c, 0, false⟩, ⟨5, 5, .w1c, 0, false⟩, ⟨6, 6, .w1c, 0, false⟩]⟩,
  ⟨0x40020008, 1, 0x100000000, 1, 0x100000000, [⟨7, 0, .ro, 0, false⟩]⟩,
  ⟨0x40020100, 24, 0x20, 1, 0x100000000, [⟨0, 0, .ro, 0, false⟩, ⟨1, 1, .ro, 0, false⟩, ⟨2, 2, .ro, 0, false⟩, ⟨3, 3, .ro, 0, false⟩, ⟨4, 4, .ro, 0, false⟩, ⟨15, 8, .ro, 0, false⟩]⟩,
  ⟨0x40020104, 24, 0x20, 1, 0x100000000, [⟨31, 0, .ro, 0, false⟩]⟩,
  ⟨0x40020108, 24, 0x20, 1, 0x100000000, [⟨15, 0, .ro, 0, false⟩, ⟨31, 16, .ro, 0, false⟩]⟩,
  ⟨0x4002010C, 24, 0x20, 1, 0x100000000, [⟨15, 0, .ro, 0, false⟩, ⟨31, 16, .ro, 0, false⟩]⟩,
  ⟨0x40020110, 24, 0x20, 1, 0x100000000, [⟨15, 0, .rc, 0, false⟩]⟩,
  ⟨0x40020114, 24, 0x20, 3, 4, []⟩,
  ⟨0x40020600, 1, 0x100000000, 1, 0x100000000, [⟨1, 0, .ro, 0, false⟩, ⟨2, 2, .ro, 0, false⟩, ⟨3, 3, .ro, 0, false⟩, ⟨26, 16, .ro, 0, false⟩]⟩,
  ⟨0x40020604, 1, 0x100000000, 1, 0x100000000, [⟨31, 0, .ro, 0, false⟩]⟩,
  ⟨0x40020608, 1, 0x100000000, 1, 0x100000000, [⟨31, 0, .ro, 0, false⟩]⟩,
  ⟨0x4002060C, 1, 0x100000000, 1, 0x100000000, [⟨31, 0, .ro, 0, false⟩]⟩,
  ⟨0x40020610, 1, 0x100000000, 1, 0x100000000, [⟨15, 0, .ro, 0, false⟩, ⟨31, 16, .rc, 0, false⟩]⟩,
  ⟨0x40020614, 1, 0x100000000, 1, 0x100000000, [⟨10, 0, .ro, 0, false⟩, ⟨31, 16, .rc, 0, false⟩]⟩]

/-- The registers of Table 6.7. -/
def regs6_7 : List RegRow := [
  ⟨0x40020700, 1, 0x100000000, 1, 0x100000000, [⟨0, 0, .ro, 0, false⟩, ⟨2, 1, .ro, 0, false⟩, ⟨3, 3, .ro, 0, false⟩, ⟨4, 4, .ro, 0, false⟩, ⟨5, 5, .ro, 0, false⟩, ⟨10, 8, .ro, 0, false⟩, ⟨14, 12, .ro, 0, false⟩]⟩,
  ⟨0x40020704, 1, 0x100000000, 1, 0x100000000, [⟨31, 0, .ro, 0, false⟩]⟩,
  ⟨0x40020708, 1, 0x100000000, 1, 0x100000000, [⟨7, 0, .ro, 0, false⟩, ⟨15, 8, .ro, 0, false⟩, ⟨23, 16, .ro, 0, false⟩]⟩,
  ⟨0x4002070C, 1, 0x100000000, 1, 0x100000000, [⟨7, 0, .ro, 0, false⟩, ⟨15, 8, .ro, 0, false⟩, ⟨23, 16, .ro, 0, false⟩]⟩,
  ⟨0x40020710, 1, 0x100000000, 1, 0x100000000, [⟨31, 0, .ro, 0, false⟩]⟩,
  ⟨0x40020714, 1, 0x100000000, 1, 0x100000000, [⟨31, 0, .ro, 0, false⟩]⟩,
  ⟨0x40020718, 1, 0x100000000, 1, 0x100000000, [⟨31, 0, .ro, 0, false⟩]⟩,
  ⟨0x4002071C, 1, 0x100000000, 1, 0x100000000, [⟨31, 0, .ro, 0, false⟩]⟩,
  ⟨0x40020720, 1, 0x100000000, 1, 0x100000000, [⟨31, 0, .ro, 0, false⟩]⟩]

/-- The registers of Table 7.4. -/
def regs7_4 : List RegRow := [
  ⟨0x40010000, 1, 0x100000000, 1, 0x100000000, [⟨1, 0, .ro, 0, false⟩, ⟨4, 2, .ro, 0x7, false⟩, ⟨7, 5, .ro, 0x7, false⟩, ⟨10, 8, .ro, 0, false⟩, ⟨19, 16, .ro, 0, false⟩]⟩,
  ⟨0x40010004, 1, 0x100000000, 1, 0x100000000, [⟨0, 0, .w1c, 0, false⟩, ⟨1, 1, .w1c, 0, false⟩, ⟨2, 2, .w1c, 0, false⟩, ⟨3, 3, .w1c, 0, false⟩]⟩,
  ⟨0x40010008, 1, 0x100000000, 1, 0x100000000, [⟨31, 0, .ro, 3600, false⟩]⟩,
  ⟨0x40010010, 3, 0x10, 1, 0x100000000, [⟨15, 0, .ro, 0, false⟩, ⟨31, 16, .ro, 0, false⟩]⟩,
  ⟨0x40010014, 3, 0x10, 1, 0x100000000, [⟨31, 0, .ro, 0, false⟩]⟩,
  ⟨0x40010018, 3, 0x10, 1, 0x100000000, [⟨31, 0, .ro, 0, false⟩]⟩,
  ⟨0x4001001C, 3, 0x10, 1, 0x100000000, [⟨17, 0, .ro, 0, false⟩, ⟨21, 18, .ro, 0, false⟩, ⟨26, 22, .ro, 0, false⟩]⟩,
  ⟨0x40010040, 1, 0x100000000, 1, 0x100000000, [⟨15, 0, .ro, 0, false⟩, ⟨21, 16, .ro, 0, false⟩]⟩,
  ⟨0x40010044, 1, 0x100000000, 1, 0x100000000, [⟨15, 0, .rc, 0, false⟩]⟩,
  ⟨0x40010048, 1, 0x100000000, 1, 0x100000000, [⟨31, 0, .ro, 0, false⟩]⟩,
  ⟨0x4001004C, 1, 0x100000000, 1, 0x100000000, [⟨31, 0, .ro, 0, false⟩]⟩,
  ⟨0x40010050, 1, 0x100000000, 1, 0x100000000, [⟨0, 0, .ro, 0, false⟩, ⟨1, 1, .ro, 0, false⟩, ⟨2, 2, .ro, 0, false⟩, ⟨14, 8, .ro, 0, false⟩]⟩,
  ⟨0x40010060, 1, 0x100000000, 1, 0x100000000, [⟨31, 0, .ro, 0, false⟩]⟩,
  ⟨0x40010064, 1, 0x100000000, 1, 0x100000000, [⟨15, 0, .ro, 0, false⟩]⟩]

/-- The registers of Table 8.14. -/
def regs8_14 : List RegRow := [
  ⟨0x41000004, 3, 0x1000000, 1, 0x100000000, [⟨31, 0, .ro, 0, false⟩]⟩,
  ⟨0x41000008, 3, 0x1000000, 1, 0x100000000, [⟨0, 0, .ro, 0, false⟩, ⟨1, 1, .ro, 0, false⟩, ⟨2, 2, .ro, 0, false⟩, ⟨31, 16, .ro, 0, false⟩]⟩,
  ⟨0x4100000C, 3, 0x1000000, 1, 0x100000000, [⟨0, 0, .w1c, 0, false⟩, ⟨1, 1, .w1c, 0, false⟩, ⟨2, 2, .w1c, 0, false⟩, ⟨3, 3, .w1c, 0, false⟩, ⟨4, 4, .w1c, 0, false⟩]⟩,
  ⟨0x41000010, 3, 0x1000000, 1, 0x100000000, [⟨31, 0, .ro, 0, false⟩]⟩,
  ⟨0x41000014, 3, 0x1000000, 1, 0x100000000, [⟨0, 0, .rw, 0, false⟩]⟩,
  ⟨0x41000100, 3, 0x1000000, 4, 0x40, [⟨7, 0, .ro, 0xFF, false⟩, ⟨15, 8, .ro, 0, false⟩, ⟨23, 16, .ro, 0, false⟩, ⟨31, 24, .ro, 0, false⟩]⟩,
  ⟨0x41000104, 3, 0x1000000, 4, 0x40, [⟨15, 0, .ro, 0, false⟩, ⟨31, 16, .ro, 0, false⟩]⟩,
  ⟨0x41000108, 3, 0x1000000, 4, 0x40, [⟨15, 0, .ro, 0, false⟩, ⟨31, 16, .ro, 0, false⟩]⟩,
  ⟨0x4100010C, 3, 0x1000000, 4, 0x40, [⟨15, 0, .ro, 0, false⟩]⟩,
  ⟨0x41000110, 3, 0x1000000, 4, 0x40, [⟨8, 0, .w1c, 0, false⟩, ⟨9, 9, .w1c, 0, false⟩]⟩,
  ⟨0x41000114, 3, 0x1000000, 4, 0x40, [⟨15, 0, .ro, 0, false⟩, ⟨31, 16, .ro, 0, false⟩]⟩,
  ⟨0x41000118, 3, 0x1000000, 4, 0x40, [⟨7, 0, .rw, 0, false⟩, ⟨15, 8, .rw, 0, false⟩, ⟨23, 16, .rw, 0, false⟩, ⟨31, 24, .rw, 0, false⟩]⟩,
  ⟨0x4100011C, 3, 0x1000000, 4, 0x40, [⟨15, 0, .rw, 0, false⟩, ⟨31, 16, .rw, 0, false⟩]⟩,
  ⟨0x41000120, 3, 0x1000000, 4, 0x40, [⟨2, 0, .ro, 0, false⟩, ⟨4, 3, .ro, 0, false⟩, ⟨31, 16, .ro, 0, false⟩]⟩]

/-- The registers of Table 9.5. -/
def regs9_5 : List RegRow := [
  ⟨0x40020A00, 1, 0x100000000, 1, 0x100000000, [⟨0, 0, .ro, 0, false⟩, ⟨1, 1, .ro, 0, false⟩, ⟨2, 2, .ro, 0, false⟩, ⟨3, 3, .ro, 0, false⟩, ⟨4, 4, .ro, 0, false⟩, ⟨5, 5, .ro, 0, false⟩, ⟨6, 6, .ro, 0, false⟩, ⟨7, 7, .ro, 0, false⟩, ⟨8, 8, .ro, 0, false⟩, ⟨9, 9, .ro, 0, false⟩, ⟨10, 10, .ro, 0, false⟩, ⟨11, 11, .ro, 0, false⟩, ⟨12, 12, .ro, 0, false⟩, ⟨13, 13, .ro, 0, false⟩, ⟨14, 14, .ro, 0, false⟩, ⟨15, 15, .ro, 0, false⟩, ⟨19, 16, .ro, 0, false⟩]⟩,
  ⟨0x40020A04, 1, 0x100000000, 1, 0x100000000, [⟨15, 0, .ro, 0, false⟩, ⟨31, 16, .ro, 0, false⟩]⟩,
  ⟨0x40020A08, 1, 0x100000000, 1, 0x100000000, [⟨11, 0, .ro, 0, false⟩, ⟨27, 16, .ro, 0, false⟩]⟩,
  ⟨0x40020A0C, 1, 0x100000000, 1, 0x100000000, [⟨11, 0, .ro, 0, false⟩, ⟨27, 16, .ro, 0, false⟩]⟩,
  ⟨0x40020A10, 1, 0x100000000, 1, 0x100000000, [⟨0, 0, .w1c, 0, false⟩, ⟨1, 1, .w1c, 0, false⟩, ⟨2, 2, .w1c, 0, false⟩, ⟨3, 3, .w1c, 0, false⟩, ⟨4, 4, .w1c, 0, false⟩, ⟨5, 5, .w1c, 0, false⟩, ⟨6, 6, .w1c, 0, false⟩]⟩,
  ⟨0x40020A14, 1, 0x100000000, 1, 0x100000000, [⟨3, 0, .ro, 0, false⟩, ⟨7, 4, .ro, 0, false⟩, ⟨31, 16, .rc, 0, false⟩]⟩,
  ⟨0x40020A18, 1, 0x100000000, 1, 0x100000000, [⟨31, 0, .ro, 0, false⟩]⟩,
  ⟨0x40020A1C, 1, 0x100000000, 1, 0x100000000, [⟨3, 0, .ro, 0, false⟩, ⟨6, 4, .ro, 0, false⟩, ⟨7, 7, .ro, 0, false⟩, ⟨15, 8, .ro, 0, false⟩, ⟨23, 16, .ro, 0, false⟩]⟩]

/-- The registers of Table 10.15. -/
def regs10_15 : List RegRow := [
  ⟨0x44000004, 2, 0x1000000, 1, 0x100000000, [⟨31, 0, .ro, 0, false⟩]⟩,
  ⟨0x44000008, 2, 0x1000000, 1, 0x100000000, [⟨0, 0, .ro, 0, false⟩, ⟨2, 1, .ro, 3, false⟩, ⟨3, 3, .ro, 0, false⟩, ⟨4, 4, .ro, 0, false⟩, ⟨5, 5, .ro, 0, false⟩, ⟨31, 16, .ro, 0, false⟩]⟩,
  ⟨0x4400000C, 2, 0x1000000, 1, 0x100000000, [⟨0, 0, .w1c, 0, false⟩, ⟨1, 1, .w1c, 0, false⟩, ⟨2, 2, .w1c, 0, false⟩, ⟨3, 3, .w1c, 0, false⟩]⟩,
  ⟨0x44000010, 2, 0x1000000, 1, 0x100000000, [⟨15, 0, .ro, 0, false⟩]⟩,
  ⟨0x44000014, 2, 0x1000000, 1, 0x100000000, [⟨15, 0, .rc, 0xFFFF, false⟩]⟩,
  ⟨0x44000018, 2, 0x1000000, 1, 0x100000000, [⟨7, 0, .ro, 0, false⟩]⟩,
  ⟨0x4400001C, 2, 0x1000000, 1, 0x100000000, [⟨0, 0, .rw, 0, false⟩]⟩,
  ⟨0x44000100, 2, 0x1000000, 12, 0x20, [⟨7, 0, .ro, 0xFF, false⟩, ⟨15, 8, .ro, 0, false⟩, ⟨23, 16, .ro, 0, false⟩, ⟨31, 24, .ro, 0, false⟩]⟩,
  ⟨0x44000104, 2, 0x1000000, 12, 0x20, [⟨11, 0, .ro, 0, false⟩, ⟨12, 12, .ro, 0, false⟩]⟩,
  ⟨0x44000108, 2, 0x1000000, 12, 0x20, [⟨15, 0, .ro, 0, false⟩, ⟨23, 16, .ro, 0, false⟩]⟩,
  ⟨0x4400010C, 2, 0x1000000, 12, 0x20, [⟨10, 0, .w1c, 0, false⟩, ⟨14, 11, .w1c, 0, false⟩]⟩,
  ⟨0x44000110, 2, 0x1000000, 12, 0x20, [⟨15, 0, .ro, 0, false⟩, ⟨31, 16, .ro, 0, false⟩]⟩,
  ⟨0x44000114, 2, 0x1000000, 12, 0x20, [⟨11, 0, .rc, 0, false⟩]⟩,
  ⟨0x44000118, 2, 0x1000000, 12, 0x20, [⟨15, 0, .ro, 0, false⟩]⟩]

/-- The registers of Table 11.8. -/
def regs11_8 : List RegRow := [
  ⟨0x46000004, 2, 0x1000000, 1, 0x100000000, [⟨31, 0, .ro, 0, false⟩]⟩,
  ⟨0x46000008, 2, 0x1000000, 1, 0x100000000, [⟨0, 0, .ro, 0, false⟩, ⟨1, 1, .ro, 0, false⟩, ⟨2, 2, .ro, 0, false⟩, ⟨3, 3, .ro, 0, false⟩, ⟨4, 4, .ro, 0, false⟩, ⟨5, 5, .ro, 0, false⟩, ⟨6, 6, .ro, 0, false⟩, ⟨31, 16, .ro, 0, false⟩]⟩,
  ⟨0x4600000C, 2, 0x1000000, 1, 0x100000000, [⟨0, 0, .w1c, 0, false⟩, ⟨1, 1, .w1c, 0, false⟩, ⟨2, 2, .w1c, 0, false⟩, ⟨3, 3, .w1c, 0, false⟩, ⟨4, 4, .w1c, 0, false⟩]⟩,
  ⟨0x46000010, 2, 0x1000000, 1, 0x100000000, [⟨15, 0, .rc, 0, false⟩, ⟨31, 16, .rc, 0, false⟩]⟩,
  ⟨0x46000014, 2, 0x1000000, 1, 0x100000000, [⟨0, 0, .rw, 0, false⟩]⟩,
  ⟨0x46000018, 2, 0x1000000, 1, 0x100000000, [⟨15, 0, .ro, 0, false⟩]⟩,
  ⟨0x4600001C, 2, 0x1000000, 1, 0x100000000, [⟨15, 0, .ro, 50, false⟩, ⟨31, 16, .ro, 0, false⟩]⟩,
  ⟨0x46000020, 2, 0x1000000, 1, 0x100000000, [⟨31, 0, .ro, 0, false⟩]⟩,
  ⟨0x46000024, 2, 0x1000000, 1, 0x100000000, [⟨15, 0, .ro, 0, false⟩, ⟨31, 16, .ro, 0, false⟩]⟩,
  ⟨0x46000028, 2, 0x1000000, 1, 0x100000000, [⟨15, 0, .ro, 0, false⟩, ⟨31, 16, .w1c, 0, false⟩]⟩,
  ⟨0x46000100, 2, 0x1000000, 8, 0x10, [⟨31, 0, .ro, 0, false⟩]⟩,
  ⟨0x46000104, 2, 0x1000000, 8, 0x10, [⟨31, 0, .ro, 0, false⟩]⟩,
  ⟨0x46000108, 2, 0x1000000, 8, 0x10, [⟨31, 0, .ro, 0, false⟩]⟩,
  ⟨0x4600010C, 2, 0x1000000, 8, 0x10, [⟨0, 0, .ro, 0, false⟩, ⟨1, 1, .ro, 0, false⟩, ⟨15, 8, .ro, 0, false⟩]⟩]

/-- The registers of Table 12.5. -/
def regs12_5 : List RegRow := [
  ⟨0x40030000, 4, 0x1000, 1, 0x100000000, [⟨1, 0, .ro, 0, false⟩, ⟨2, 2, .ro, 0, false⟩, ⟨3, 3, .ro, 0, false⟩, ⟨5, 4, .ro, 0, false⟩, ⟨7, 6, .ro, 0, false⟩, ⟨9, 8, .ro, 0, false⟩, ⟨10, 10, .ro, 0, false⟩, ⟨23, 16, .ro, 0, false⟩, ⟨31, 24, .ro, 0, false⟩]⟩,
  ⟨0x40030004, 4, 0x1000, 1, 0x100000000, [⟨0, 0, .w1c, 0, false⟩, ⟨1, 1, .w1c, 0, false⟩, ⟨2, 2, .w1c, 0, false⟩, ⟨3, 3, .w1c, 0, false⟩, ⟨4, 4, .w1c, 0, false⟩, ⟨5, 5, .w1c, 0, false⟩, ⟨6, 6, .w1c, 0, false⟩]⟩,
  ⟨0x40030008, 4, 0x1000, 1, 0x100000000, [⟨15, 0, .ro, 0, false⟩, ⟨31, 16, .ro, 0, false⟩]⟩,
  ⟨0x4003000C, 4, 0x1000, 1, 0x100000000, [⟨15, 0, .rc, 0, false⟩, ⟨31, 16, .ro, 0, false⟩]⟩,
  ⟨0x40030010, 4, 0x1000, 1, 0x100000000, [⟨2, 0, .ro, 0, false⟩, ⟨3, 3, .ro, 0, false⟩, ⟨23, 16, .ro, 0, false⟩]⟩,
  ⟨0x40030014, 4, 0x1000, 1, 0x100000000, [⟨5, 0, .ro, 0, false⟩, ⟨10, 6, .ro, 0, false⟩, ⟨31, 16, .ro, 0, false⟩]⟩,
  ⟨0x40030018, 4, 0x1000, 1, 0x100000000, [⟨15, 0, .rc, 0, false⟩, ⟨31, 16, .rc, 0, false⟩]⟩,
  ⟨0x4003001C, 4, 0x1000, 1, 0x100000000, [⟨15, 0, .rc, 0, false⟩, ⟨31, 16, .rc, 0, false⟩]⟩,
  ⟨0x40030100, 4, 0x1000, 64, 0x8, [⟨0, 0, .ro, 0, false⟩, ⟨1, 1, .ro, 0, false⟩, ⟨2, 2, .ro, 0, false⟩, ⟨3, 3, .ro, 0, false⟩, ⟨4, 4, .ro, 0, false⟩, ⟨5, 5, .ro, 0, false⟩, ⟨15, 8, .rc, 0, false⟩, ⟨31, 16, .ro, 0, false⟩]⟩,
  ⟨0x40030104, 4, 0x1000, 64, 0x8, [⟨31, 0, .ro, 0, false⟩]⟩]

/-- The registers of Table 13.10. -/
def regs13_10 : List RegRow := [
  ⟨0x40040000, 1, 0x100000000, 1, 0x100000000, [⟨0, 0, .ro, 0, false⟩, ⟨1, 1, .ro, 0, false⟩, ⟨2, 2, .ro, 0, false⟩, ⟨3, 3, .ro, 0, false⟩, ⟨7, 4, .ro, 0, false⟩]⟩,
  ⟨0x40040004, 1, 0x100000000, 1, 0x100000000, [⟨0, 0, .w1c, 0, false⟩, ⟨1, 1, .w1c, 0, false⟩, ⟨2, 2, .w1c, 0, false⟩, ⟨3, 3, .w1c, 0, false⟩, ⟨4, 4, .w1c, 0, false⟩, ⟨5, 5, .w1c, 0, false⟩]⟩,
  ⟨0x40040008, 1, 0x100000000, 1, 0x100000000, [⟨31, 0, .ro, 0, false⟩]⟩,
  ⟨0x4004000C, 1, 0x100000000, 1, 0x100000000, [⟨31, 0, .ro, 0, false⟩]⟩,
  ⟨0x40040010, 1, 0x100000000, 1, 0x100000000, [⟨15, 0, .ro, 0, false⟩, ⟨31, 16, .ro, 0, false⟩]⟩,
  ⟨0x40040014, 1, 0x100000000, 1, 0x100000000, [⟨15, 0, .ro, 0, false⟩, ⟨31, 16, .rc, 0, false⟩]⟩,
  ⟨0x40040018, 1, 0x100000000, 1, 0x100000000, [⟨15, 0, .rc, 0, false⟩, ⟨31, 16, .ro, 0, false⟩]⟩,
  ⟨0x40040100, 4, 0x20, 1, 0x100000000, [⟨0, 0, .ro, 0, false⟩, ⟨1, 1, .ro, 0, false⟩, ⟨2, 2, .ro, 0, false⟩, ⟨7, 3, .ro, 0, false⟩]⟩,
  ⟨0x40040104, 4, 0x20, 1, 0x100000000, [⟨31, 0, .ro, 0, false⟩]⟩,
  ⟨0x40040108, 4, 0x20, 1, 0x100000000, [⟨31, 0, .ro, 0, false⟩]⟩,
  ⟨0x4004010C, 4, 0x20, 1, 0x100000000, [⟨15, 0, .rc, 0, false⟩, ⟨31, 16, .rc, 0, false⟩]⟩,
  ⟨0x40041000, 1024, 0x8, 1, 0x100000000, [⟨0, 0, .ro, 0, false⟩, ⟨1, 1, .ro, 0, false⟩, ⟨2, 2, .ro, 0, false⟩, ⟨3, 3, .ro, 0, false⟩, ⟨6, 4, .ro, 0, false⟩, ⟨15, 7, .rc, 0, false⟩, ⟨31, 16, .ro, 0, false⟩]⟩,
  ⟨0x40041004, 1024, 0x8, 1, 0x100000000, [⟨31, 0, .ro, 0, false⟩]⟩]

/-- The registers of Table 14.11. -/
def regs14_11 : List RegRow := [
  ⟨0x40050000, 1, 0x100000000, 1, 0x100000000, [⟨0, 0, .ro, 0, false⟩, ⟨1, 1, .ro, 0, false⟩, ⟨2, 2, .ro, 0, false⟩, ⟨3, 3, .ro, 0, false⟩, ⟨4, 4, .ro, 0, false⟩, ⟨5, 5, .ro, 0, false⟩, ⟨6, 6, .ro, 0, false⟩, ⟨7, 7, .ro, 0, false⟩, ⟨8, 8, .ro, 0, false⟩, ⟨9, 9, .ro, 0, false⟩, ⟨10, 10, .ro, 0, false⟩, ⟨11, 11, .ro, 0, false⟩, ⟨12, 12, .ro, 0, true⟩, ⟨13, 13, .ro, 0, false⟩, ⟨18, 16, .ro, 0, false⟩]⟩,
  ⟨0x40050004, 1, 0x100000000, 1, 0x100000000, [⟨0, 0, .w1c, 0, false⟩, ⟨1, 1, .w1c, 0, false⟩, ⟨2, 2, .w1c, 0, false⟩, ⟨3, 3, .w1c, 0, false⟩, ⟨4, 4, .ro, 0, false⟩, ⟨5, 5, .w1c, 0, false⟩, ⟨6, 6, .w1c, 0, false⟩, ⟨7, 7, .w1c, 0, false⟩, ⟨8, 8, .w1c, 0, false⟩]⟩,
  ⟨0x40050008, 1, 0x100000000, 1, 0x100000000, [⟨15, 0, .rc, 0, false⟩, ⟨31, 16, .rc, 0, false⟩]⟩,
  ⟨0x4005000C, 1, 0x100000000, 1, 0x100000000, [⟨11, 0, .ro, 0, false⟩, ⟨17, 16, .ro, 0, false⟩]⟩,
  ⟨0x40050010, 1, 0x100000000, 1, 0x100000000, [⟨31, 0, .ro, 0, false⟩]⟩,
  ⟨0x40050014, 1, 0x100000000, 1, 0x100000000, [⟨16, 0, .ro, 0, false⟩]⟩,
  ⟨0x40050018, 1, 0x100000000, 1, 0x100000000, [⟨31, 0, .ro, 0, false⟩]⟩,
  ⟨0x4005001C, 1, 0x100000000, 1, 0x100000000, [⟨4, 0, .ro, 0, false⟩, ⟨15, 8, .ro, 5, false⟩, ⟨23, 16, .ro, 0, false⟩]⟩,
  ⟨0x40050020, 1, 0x100000000, 1, 0x100000000, [⟨15, 0, .rc, 0, false⟩, ⟨31, 16, .ro, 0, false⟩]⟩,
  ⟨0x40050024, 1, 0x100000000, 1, 0x100000000, [⟨15, 0, .ro, 0, true⟩, ⟨31, 16, .ro, 0, true⟩]⟩,
  ⟨0x40050028, 1, 0x100000000, 1, 0x100000000, [⟨7, 0, .ro, 0, false⟩, ⟨15, 8, .rc, 0, false⟩]⟩,
  ⟨0x40050040, 16, 0x4, 1, 0x100000000, [⟨31, 0, .ro, 0, false⟩]⟩,
  ⟨0x40050080, 16, 0x4, 1, 0x100000000, [⟨31, 0, .ro, 0, false⟩]⟩]

/-- The registers of Table 15.7. -/
def regs15_7 : List RegRow := [
  ⟨0x40090000, 1, 0x100000000, 1, 0x100000000, [⟨4, 0, .ro, 0, false⟩, ⟨5, 5, .ro, 0, false⟩, ⟨6, 6, .ro, 0, false⟩, ⟨7, 7, .ro, 0, false⟩, ⟨12, 8, .ro, 0, false⟩]⟩,
  ⟨0x40090004, 1, 0x100000000, 1, 0x100000000, [⟨0, 0, .w1c, 0, false⟩, ⟨1, 1, .w1c, 0, false⟩, ⟨2, 2, .ro, 0, false⟩, ⟨3, 3, .w1c, 0, false⟩, ⟨4, 4, .w1c, 0, false⟩]⟩,
  ⟨0x40090010, 6, 0x8, 1, 0x100000000, [⟨15, 0, .rc, 0, false⟩, ⟨31, 16, .rc, 0, false⟩]⟩,
  ⟨0x40090014, 6, 0x8, 1, 0x100000000, [⟨31, 0, .ro, 0, false⟩]⟩,
  ⟨0x40090040, 1, 0x100000000, 1, 0x100000000, [⟨15, 0, .ro, 0, false⟩, ⟨31, 16, .ro, 0, false⟩]⟩,
  ⟨0x40090044, 1, 0x100000000, 1, 0x100000000, [⟨15, 0, .ro, 20, false⟩, ⟨31, 16, .ro, 600, false⟩]⟩,
  ⟨0x40090048, 1, 0x100000000, 1, 0x100000000, [⟨15, 0, .ro, 100, false⟩, ⟨31, 16, .ro, 90, false⟩]⟩,
  ⟨0x40090050, 5, 0x4, 1, 0x100000000, [⟨7, 0, .rc, 0, false⟩]⟩,
  ⟨0x40090070, 1, 0x100000000, 1, 0x100000000, [⟨7, 0, .ro, 0, true⟩, ⟨15, 8, .ro, 0, true⟩, ⟨23, 16, .ro, 0, true⟩, ⟨31, 24, .ro, 0, true⟩]⟩,
  ⟨0x40090074, 1, 0x100000000, 1, 0x100000000, [⟨7, 0, .ro, 0, true⟩]⟩,
  ⟨0x40090080, 1, 0x100000000, 1, 0x100000000, [⟨31, 0, .ro, 0, true⟩]⟩,
  ⟨0x40090084, 1, 0x100000000, 1, 0x100000000, [⟨0, 0, .ro, 0, false⟩]⟩]

/-- The registers of Table 16.7. -/
def regs16_7 : List RegRow := [
  ⟨0x40060000, 1, 0x100000000, 1, 0x100000000, [⟨13, 0, .ro, 0, false⟩, ⟨14, 14, .ro, 0, false⟩, ⟨15, 15, .ro, 0, false⟩, ⟨21, 16, .ro, 0, false⟩]⟩,
  ⟨0x40060004, 1, 0x100000000, 1, 0x100000000, [⟨0, 0, .w1c, 0, false⟩, ⟨1, 1, .w1c, 0, false⟩, ⟨2, 2, .w1c, 0, false⟩]⟩,
  ⟨0x40060008, 1, 0x100000000, 1, 0x100000000, [⟨15, 0, .ro, 0, false⟩, ⟨31, 16, .rc, 0, false⟩]⟩,
  ⟨0x4006000C, 1, 0x100000000, 1, 0x100000000, [⟨15, 0, .rc, 0, false⟩, ⟨31, 16, .rc, 0, false⟩]⟩,
  ⟨0x40060010, 1, 0x100000000, 1, 0x100000000, [⟨31, 0, .ro, 0, true⟩]⟩,
  ⟨0x40060014, 1, 0x100000000, 1, 0x100000000, [⟨15, 0, .ro, 0, false⟩]⟩,
  ⟨0x40060018, 1, 0x100000000, 1, 0x100000000, [⟨23, 0, .ro, 0, true⟩, ⟨24, 24, .ro, 0, true⟩]⟩,
  ⟨0x40060100, 12, 0x20, 1, 0x100000000, [⟨11, 0, .ro, 0, false⟩, ⟨12, 12, .ro, 1, false⟩, ⟨13, 13, .ro, 0, false⟩]⟩,
  ⟨0x40060104, 12, 0x20, 1, 0x100000000, [⟨31, 0, .ro, 0, true⟩]⟩,
  ⟨0x40060108, 12, 0x20, 1, 0x100000000, [⟨31, 0, .ro, 0, true⟩]⟩,
  ⟨0x4006010C, 12, 0x20, 1, 0x100000000, [⟨31, 0, .ro, 0, true⟩]⟩,
  ⟨0x40060110, 12, 0x20, 1, 0x100000000, [⟨31, 0, .ro, 0, true⟩]⟩,
  ⟨0x40070000, 1, 0x100000000, 1, 0x100000000, [⟨7, 0, .ro, 0, false⟩, ⟨12, 8, .ro, 0, false⟩, ⟨13, 13, .ro, 1, false⟩, ⟨14, 14, .ro, 0, false⟩]⟩,
  ⟨0x40070004, 1, 0x100000000, 1, 0x100000000, [⟨15, 0, .ro, 0, false⟩, ⟨31, 16, .rc, 0, false⟩]⟩,
  ⟨0x40070008, 1, 0x100000000, 1, 0x100000000, [⟨15, 0, .ro, 0, false⟩, ⟨31, 16, .rc, 0, false⟩]⟩]

/-- The registers of Table 17.13. -/
def regs17_13 : List RegRow := [
  ⟨0x40080000, 1, 0x100000000, 1, 0x100000000, [⟨7, 0, .ro, 0, false⟩, ⟨8, 8, .ro, 0, false⟩, ⟨9, 9, .ro, 0, false⟩, ⟨10, 10, .ro, 0, true⟩]⟩,
  ⟨0x40080004, 1, 0x100000000, 1, 0x100000000, [⟨0, 0, .w1c, 0, false⟩, ⟨1, 1, .w1c, 0, true⟩, ⟨2, 2, .w1c, 0, false⟩]⟩,
  ⟨0x40080010, 1, 0x100000000, 1, 0x100000000, [⟨15, 0, .ro, 0, false⟩, ⟨31, 16, .ro, 0, false⟩]⟩,
  ⟨0x40080014, 1, 0x100000000, 1, 0x100000000, [⟨15, 0, .ro, 0, false⟩, ⟨31, 16, .ro, 0, false⟩]⟩,
  ⟨0x40080018, 1, 0x100000000, 1, 0x100000000, [⟨11, 0, .ro, 0, true⟩, ⟨12, 12, .ro, 0, true⟩, ⟨13, 13, .ro, 0, false⟩]⟩,
  ⟨0x40080020, 1, 0x100000000, 1, 0x100000000, [⟨7, 0, .ro, 0, false⟩, ⟨15, 8, .ro, 0, false⟩, ⟨23, 16, .ro, 0, false⟩]⟩,
  ⟨0x40080030, 1, 0x100000000, 1, 0x100000000, [⟨3, 0, .rw, 0, false⟩, ⟨5, 4, .rw, 0, false⟩, ⟨15, 8, .rw, 0, false⟩, ⟨23, 16, .rw, 0, false⟩, ⟨31, 31, .wo, 0, false⟩]⟩,
  ⟨0x40080034, 1, 0x100000000, 1, 0x100000000, [⟨0, 0, .ro, 0, false⟩, ⟨3, 1, .ro, 0, false⟩, ⟨7, 4, .ro, 0, false⟩, ⟨9, 8, .ro, 0, false⟩, ⟨31, 16, .ro, 0, false⟩]⟩,
  ⟨0x40080038, 1, 0x100000000, 1, 0x100000000, [⟨15, 0, .rc, 0, false⟩]⟩,
  ⟨0x40080040, 1, 0x100000000, 1, 0x100000000, [⟨0, 0, .ro, 0, true⟩, ⟨4, 1, .ro, 0, true⟩, ⟨8, 5, .ro, 0, true⟩, ⟨10, 9, .ro, 0, true⟩, ⟨13, 11, .ro, 0, false⟩]⟩,
  ⟨0x40080044, 1, 0x100000000, 1, 0x100000000, [⟨31, 0, .ro, 0, true⟩]⟩]

/-- Every register row of the control die. -/
def ctlRows : List RegRow :=
  regs1_12 ++ regs1_13 ++ regs2_11 ++ regs3_8 ++ regs5_4 ++ regs6_7 ++ regs7_4 ++ regs9_5 ++ regs12_5 ++ regs13_10 ++ regs14_11 ++ regs15_7 ++ regs16_7 ++ regs17_13

/-- Every register row of the satellites. -/
def satRows : List RegRow := regs8_14 ++ regs10_15 ++ regs11_8

/-- The row a register address belongs to: its dimensions taken apart. -/
def RegRow.hit (r : RegRow) (a : Nat) : Bool :=
  decide (r.base ≤ a) &&
    (decide ((a - r.base) / r.st1 < r.n1) && (decide ((a - r.base) % r.st1 / r.st2 < r.n2) &&
      decide ((a - r.base) % r.st1 % r.st2 = 0)))

/-- The fields of the control-die register at `a`; `none` where no table places a register (R47). -/
def ctlFields (a : Nat) : Option (List FieldRow) := (ctlRows.find? fun r => r.hit a).map (·.fields)

/-- The fields of the satellite register at `a`. -/
def satFields (a : Nat) : Option (List FieldRow) := (satRows.find? fun r => r.hit a).map (·.fields)

end Sys2Proof.Machine
end

