-- ==== Sys2Proof/Machine/RegInit.lean ====
section
/-! DEFINITION. The register file at a reset (R12, R14, R62): the reset values of the register tables, the retained fields, and what
the tables tie to a fuse, the strap or the die. -/

namespace Sys2Proof.Machine

/-- A field's value put into a register map. -/
def fldPut (m : Nums) (f : Fld) (v : Nat) : Nums := mset 0 m f.addr (putField (mget 0 m f.addr) f.lo (f.hi + 1 - f.lo) v)

/-- The reset value of a register. -/
def resetValue (fs : List FieldRow) : Nat := fs.foldl (fun v f => v + f.reset * 2 ^ f.lo) 0

/-- The bits of a register that keep their value through a device reset. -/
def keptBits (fs : List FieldRow) : Nat :=
  (fs.filter fun f => f.kept).foldl (fun m f => m + (2 ^ (f.hi + 1 - f.lo) - 1) * 2 ^ f.lo) 0

/-- The addresses of a row. -/
def RegRow.addrs (r : RegRow) : List Nat :=
  ((List.range r.n1).map fun i => (List.range r.n2).map fun j => r.base + i * r.st1 + j * r.st2).flatten

/-- The reset values of a table put into a map. -/
def resetRows (rows : List RegRow) (m : Nums) : Nums :=
  rows.foldl (fun m r => if resetValue r.fields = 0 then m else r.addrs.foldl (fun m a => mset 0 m a (mget 0 m a ||| resetValue r.fields)) m) m

/-- Table 1.9. The registers of the satellites, which a device reset does not touch (R62). -/
def satPart (m : Nums) : Nums := m.filter fun p => decide (0x41000000 ≤ p.1)

/-- The map with only the retained fields of the control die, and the satellites. -/
def keptPart (m : Nums) : Nums :=
  m.filterMap fun p =>
    if 0x41000000 ≤ p.1 then some p
    else
      match ctlFields p.1 with
      | some fs => if p.2 &&& keptBits fs = 0 then none else some (p.1, p.2 &&& keptBits fs)
      | none => none

/-- R91, R431, R491, R493. Fields that show fuses, the strap and the die. -/
def boardRegs (b : Board) (m : Nums) : Nums :=
  let f := b.fuses
  let mask (p : Nat → Bool) (n : Nat) : Nat := ((List.range n).map fun i => b2n (p i) * 2 ^ i).sum
  [(Reg.MODE_STAT_SEAT, b2n b.seatB), (Reg.MODE_STAT_DEBUG_FUSED, b2n f.sufL), (Reg.FUSE_STAT_PROD_LOCK, b2n f.prodLock),
    (Reg.FUSE_STAT_KEY_PROG, mask (fun i => !(f.keyHash.getD i []).isEmpty) 4), (Reg.FUSE_STAT_KEY_REVOKED, f.revoked),
    (Reg.FUSE_STAT_MK_PROG, mask (fun i => !(f.secret.getD i []).isEmpty) 2),
    (Reg.JTAG_ID_IDCODE, 0x0D80876B + b.steps.getD 0 0 % 16 * 2 ^ 28), (Reg.SPARE_USED0_B0, f.spares.getD 0 0), (Reg.SPARE_USED0_B1, f.spares.getD 1 0),
    (Reg.SPARE_USED0_B2, f.spares.getD 2 0), (Reg.SPARE_USED0_B3, f.spares.getD 3 0), (Reg.SPARE_USED1_B4, f.spares.getD 4 0)].foldl
    (fun m p => fldPut m p.1 p.2) m

/-- R62. The register file after a device reset; after `POR` the retained fields read 0. -/
def resetRegs (b : Board) (por : Bool) (m : Nums) : Nums := boardRegs b (resetRows ctlRows (if por then satPart m else keptPart m))

end Sys2Proof.Machine
end

