-- ==== Sys2Proof/Machine/State.lean ====
section
/-! DEFINITION. The machine's state, as plain data, and the state right after reset. -/

namespace Sys2Proof.Machine

/-- Reasons a command stops with a fault. No command of this block faults: every effect the spec leaves open is a free
value, a marked choice or a refusal. -/
inductive Fault where
  /-- Raised by no command (safe). -/
  | none_
deriving DecidableEq, Repr

/-- Reasons a command is refused. -/
inductive Refusal where
  /-- Raised by an arm of `exec` whose meaning is not written yet (safe). -/
  | notModelled (mnemonic : String)
  /-- Raised by an engine instruction whose operand program verification refuses (R115, R142), so that no program that
  runs holds it: the spec gives it no effect (safe). -/
  | illFormed
deriving DecidableEq, Repr

/-- The state of the block. -/
structure State where
  /-- Commands waiting, first in, first out. -/
  pending : List Instr
  /-- Counter of the free values taken so far: the model's own field. -/
  free : Nat
  time : Time
  board : Board
  /-- Every register of Tables 1.12 to 17.13 by address, as a 32-bit number. -/
  regs : Nums
  /-- R46. Live values of the stored snapshot fields, by register address. -/
  live : Nums
  /-- R46. Values captured by a request under way, by register address. -/
  capt : Nums
  /-- R425. Banks B0 to B4; an unlisted byte reads 0. -/
  sram : Bytes
  /-- R434. MRAM; an unlisted byte reads 0. -/
  mram : Bytes
  boot : Boot
  power : Power
  modeReq : Option ModeReq
  cairn : Cairn
  ledger : List (Nat × LRec)
  links : List (Nat × Link)
  sats : List (Nat × Sat)
  eng : Engine
  chg : Change
  /-- R334. Controllers CAN0 to CAN3. -/
  ctls : List (Nat × CCtl)
  /-- R337. Message buffers, at controller × 64 + buffer. -/
  bufs : List (Nat × CBuf)
  /-- R30. -/
  cimg : CImage
  /-- R30. The image that the next publish point switches to. -/
  cnext : CImage
  /-- R210. Channels D0 to D11. -/
  doors : List (Nat × Door)
  ddies : List (Nat × DoorDie)
  /-- R270. Channels L0 to L23. -/
  loads : List (Nat × Load)
  ldies : List (Nat × LoadDie)
  /-- R300. Field dies FIO0, FIO1. -/
  fields : List (Nat × Field)
  net : Net
  /-- R256. -/
  il : Il
  /-- R392 to R421. -/
  dup : Dup
  /-- R429. -/
  mem : MemErr
  /-- R464. -/
  qp : Qp
  /-- R384. READ_OBJ requests under way over a die link, by session. -/
  reads : List (Nat × Option ReadJob)
  /-- R206, R475, R491. -/
  tap : Tap
deriving DecidableEq, Repr

/-- R51, R453. The record `MODE_CHANGE` of a change from `old` into BOOT that the boot ROM queues, raised at the operating count `op`; trigger 1
stands for a reset. -/
def bootRecord (old trig op : Nat) : CRec :=
  { sev := 0, slot := 0, code := 0x010, task := 31, opSec := op / 65536, frac := op % 65536, suppr := 0, cyc := 0
    data := leBytes 1 old ++ leBytes 1 0 ++ leBytes 1 trig }

/-- R62. The module right after `POR`: in BOOT at step 1, every satellite powered and unconfigured. -/
def State.reset : State where
  pending := []
  free := 0
  time := {}
  board := {}
  regs := fldPut (resetRegs {} true (resetRows satRows [])) Reg.RESET_CAUSE_CAUSE 1
  live := []
  capt := []
  sram := []
  mram := []
  boot := { step := 1, cold := true }
  power := {}
  modeReq := none
  cairn := { queue := [bootRecord 0 1 0] }
  ledger := []
  links := []
  sats := []
  eng := {}
  chg := {}
  ctls := []
  bufs := []
  cimg := {}
  cnext := {}
  doors := []
  ddies := []
  loads := []
  ldies := []
  fields := []
  net := {}
  il := {}
  dup := {}
  mem := {}
  qp := {}
  reads := []
  tap := {}

end Sys2Proof.Machine
end

