-- ==== Sys2Proof/Machine/Ops.lean ====
section
/-! DEFINITION. The named operations every meaning is written from: registers and their fields, time, memory, links and
satellites as indexed parts, the records of the Topo image, and the Cairn recorder. -/

namespace Sys2Proof.Machine

/-! ### Modes and lane states -/

/-- Table 2.1. -/
abbrev mBoot : Nat := 0
abbrev mStandby : Nat := 1
abbrev mActive : Nat := 2
abbrev mMaint : Nat := 3
abbrev mPark : Nat := 4
abbrev mSafe : Nat := 5

/-- Table 2.3. Lane states. -/
abbrev laneTmr : Nat := 0
abbrev lane2oo2 : Nat := 1
abbrev laneUnbound : Nat := 2

/-! ### Registers -/

/-- The value of a register field. -/
def State.fget (s : State) (f : Fld) : Nat := fieldOf (mget 0 s.regs f.addr) f.lo (f.hi + 1 - f.lo)

/-- Sets a register field; the value wraps to the field's width. -/
def State.fset (s : State) (f : Fld) (v : Nat) : State :=
  { s with regs := mset 0 s.regs f.addr (putField (mget 0 s.regs f.addr) f.lo (f.hi + 1 - f.lo) v) }

/-- A one-bit field as a truth value. -/
def State.fbit (s : State) (f : Fld) : Bool := decide (s.fget f ≠ 0)

/-- Sets a one-bit field. -/
def State.fput (s : State) (f : Fld) (b : Bool) : State := s.fset f (b2n b)

/-- Sets a one-bit field to 1. -/
def State.fon (s : State) (f : Fld) : State := s.fset f 1

/-- A saturating count in a field: adds `n`. -/
def State.fsat (s : State) (f : Fld) (n : Nat := 1) : State :=
  s.fset f (min (s.fget f + n) (2 ^ (f.hi + 1 - f.lo) - 1))

/-- A modular count in a field: adds `n`. -/
def State.fmod (s : State) (f : Fld) (n : Nat := 1) : State := s.fset f (s.fget f + n)

/-- Raises a field to `n` if it lies below. -/
def State.fmax (s : State) (f : Fld) (n : Nat) : State :=
  s.fset f (max (s.fget f) (min n (2 ^ (f.hi + 1 - f.lo) - 1)))

/-- R46. The live value behind a stored snapshot field. -/
def State.lget (s : State) (f : Fld) : Nat := fieldOf (mget 0 s.live f.addr) f.lo (f.hi + 1 - f.lo)

/-- R46. Sets the live value behind a snapshot field. -/
def State.lset (s : State) (f : Fld) (v : Nat) : State :=
  { s with live := mset 0 s.live f.addr (putField (mget 0 s.live f.addr) f.lo (f.hi + 1 - f.lo) v) }

/-- R46. A saturating count of a snapshot field: adds 1 to the live value. -/
def State.lsat (s : State) (f : Fld) : State := s.lset f (min (s.lget f + 1) (2 ^ (f.hi + 1 - f.lo) - 1))

/-- R46. A modular count of a snapshot field: adds 1 to the live value. -/
def State.lmod (s : State) (f : Fld) : State := s.lset f (s.lget f + 1)

/-- The operating mode (Table 2.1). -/
def State.mode (s : State) : Nat := s.fget Reg.MODE_STAT_MODE

/-- The lane state (Table 2.3). -/
def State.laneState (s : State) : Nat := s.fget Reg.MODE_STAT_LANE

/-- R208. The lane state stands in `MODE_STAT` and in `VOTE_STAT`. -/
def State.setLaneState (s : State) (v : Nat) : State :=
  (s.fset Reg.MODE_STAT_LANE v).fset Reg.VOTE_STAT_LANE v

/-- The module is ACTIVE or in MAINTENANCE. -/
def State.driving (s : State) : Bool := s.mode == mActive || s.mode == mMaint

/-- Tasks run in STANDBY, ACTIVE and MAINTENANCE (Table 2.1). -/
def State.running (s : State) : Bool := s.mode == mStandby || s.driving

/-! ### Time -/

/-- R39, R377. The correction of device time over `dt` ns, at most 100 ppm, and the state of the slewing after it. -/
def Time.slewBy (t : Time) (dt : Nat) : Int × Time :=
  let acc := t.slewAcc + dt
  let c : Int := max (-((acc / 10000 : Nat) : Int)) (min ((acc / 10000 : Nat) : Int) t.slew)
  (c, { t with slew := t.slew - c, slewAcc := acc % 10000 })

/-- R39, R449. Both clocks move on by `dt` ns, device time with its discipline, and the operating count while VL is above
9.6 V. -/
def State.advance (s : State) (dt : Nat) : State :=
  let (c, t) := s.time.slewBy dt
  { s with
    time := { t with mono := t.mono + dt, dev := ((t.dev + dt : Nat) + c).toNat }
    power := { s.power with opNs := s.power.opNs + (if s.power.vlOk then dt else 0) } }

/-- R39, R377. Time moves to the instant `t` of device time if that lies ahead: the oscillator runs for as long as the slewed device
time takes to get there. What the correction of that interval and that of the whole distance differ by is still to be slewed. -/
def State.toDev (s : State) (t : Nat) : State :=
  if t ≤ s.time.dev then s
  else
    let dist := t - s.time.dev
    let s := s.advance ((dist : Int) - (s.time.slewBy dist).1).toNat
    { s with time := { s.time with slew := s.time.slew + ((s.time.dev : Int) - t), dev := t } }

/-- Time moves to the instant `t` of `mono` if that lies ahead. -/
def State.toMono (s : State) (t : Nat) : State := s.advance (t - s.time.mono)

/-- R449. The operating count, 48 bit, in units of 1/65,536 s: it advances by 2 at each CLK_AON cycle and `OP_SEC`
saturates. -/
def State.opCount (s : State) : Nat :=
  min (s.power.opBase + s.power.opNs * 32768 / 1000000000 * 2) (2 ^ 48 - 2)

/-- R449. `OP_SEC`. -/
def State.opSec (s : State) : Nat := s.opCount / 65536

/-- R25. The sample-grid point of index `g`, in ns. -/
def samplePt (g : Nat) : Nat := g * 25000

/-- R25. The commit-grid point of index `k`, in ns. -/
def commitPt (k : Nat) : Nat := 12500 + k * 25000

/-- R72, R401. Realigns the grid indices to the device time: the next points at or after it. -/
def State.regrid (s : State) : State :=
  { s with time := { s.time with
      gs := (s.time.dev + 24999) / 25000
      gc := (s.time.dev + 12499) / 25000
      emitted := false, sampled := false } }

/-! ### Free values -/

/-- A fresh free value of `w` bits. -/
def State.takeFree (s : State) (w : Nat) : Nat × State :=
  (Config.freeNat s.free % 2 ^ w, { s with free := s.free + 1 })

/-! ### Memory -/

/-- One byte of the SRAM banks. -/
def State.rd (s : State) (a : Nat) : Byte := mget 0 s.sram a

/-- Writes one byte of the SRAM banks. -/
def State.wr (s : State) (a : Nat) (b : Byte) : State := { s with sram := mset 0 s.sram a b }

/-- The little-endian number of `n` bytes at `a`. -/
def State.rdN (s : State) (a n : Nat) : Nat := leNat (mslice 0 s.sram a n)

/-- Writes the `n` low bytes of `v` at `a`. -/
def State.wrN (s : State) (a n v : Nat) : State := { s with sram := mput 0 s.sram a (leBytes n v) }

/-- The little-endian number of `n` MRAM bytes at `a`. -/
def State.mrN (s : State) (a n : Nat) : Nat := leNat (mslice 0 s.mram a n)

/-- Writes the `n` low bytes of `v` into MRAM at `a`. -/
def State.mwN (s : State) (a n v : Nat) : State := { s with mram := mput 0 s.mram a (leBytes n v) }

/-- Writes bytes into MRAM at `a`. -/
def State.mwBytes (s : State) (a : Nat) (l : List Byte) : State := { s with mram := mput 0 s.mram a l }

/-- Table 4.3, Table 5.2. Places in bank B0. -/
abbrev qBase : Nat := 0x10000
abbrev mBase : Nat := 0x20000
abbrev tBase : Nat := 0x4F800
abbrev cBase : Nat := 0x57800
abbrev eBase : Nat := 0x5F800
abbrev kBase : Nat := 0x60000
abbrev sBase : Nat := 0x70000
abbrev seedBase : Nat := 0x74000
abbrev ownBase : Nat := 0x78000
abbrev imgsBase : Nat := 0xA8000
abbrev progBase : Nat := 0x100000
/-- Table 15.4. The system headers. -/
abbrev hdrBase : Nat := 0x1034C000

/-! ### Dies, links and satellites -/

/-- R1, R2. The slots the build fits. -/
def State.fitted (s : State) (n : Nat) : Bool :=
  n == 0 || (decide (1 ≤ n) && decide (n ≤ s.board.nDrv)) || (decide (4 ≤ n) && decide (n < 4 + s.board.nLsw))
    || (decide (6 ≤ n) && decide (n < 6 + s.board.nFio))

/-- The satellite of slot `n`. -/
def State.sat (s : State) (n : Nat) : Sat := mget {} s.sats n

/-- R2, R3, R62. A die sits in slot `n` and its supply is present: only such a die receives, answers or does anything. -/
def State.present (s : State) (n : Nat) : Bool := s.fitted n && (s.sat n).powered

/-- Table 1.11. `TYPE` of the die of a slot. -/
def dieType (n : Nat) : Nat := if n = 0 then 1 else if n ≤ 3 then 2 else if n ≤ 5 then 3 else 4

/-- R49. The link of slot `n`. -/
def State.link (s : State) (n : Nat) : Link := mget {} s.links n

/-- Sets the link of slot `n`. -/
def State.setLink (s : State) (n : Nat) (l : Link) : State := { s with links := mset {} s.links n l }

/-- Sets the satellite of slot `n`. -/
def State.setSat (s : State) (n : Nat) (x : Sat) : State := { s with sats := mset {} s.sats n x }

/-- The link of slot `n` is `UP`. -/
def State.linkIsUp (s : State) (n : Nat) : Bool := s.fbit (Reg.LINK_STAT_UP n)

/-- The die of slot `n` receives COMMIT. -/
def State.admitted (s : State) (n : Nat) : Bool := s.fbit (Reg.LINK_STAT_ADMITTED n)

/-- The satellite slots. -/
def satSlots : List Nat := [1, 2, 3, 4, 5, 6, 7]

/-- Applies an operation for each number of a list in turn. -/
def State.each (s : State) (l : List Nat) (f : State → Nat → State) : State := l.foldl f s

/-! ### The Topo image -/

/-- The record of type `ty` and instance `inst`. -/
def State.topo? (s : State) (ty inst : Nat) : Option Rec :=
  s.boot.topo.find? fun r => r.ty == ty && r.inst == inst

/-- The field of `n` bytes at `off` of a record, or `d` where the record is missing. -/
def State.topoN (s : State) (ty inst off n d : Nat) : Nat :=
  match s.topo? ty inst with
  | some r => leAt r.data off n
  | none => d

/-- The entries of a list record with entries of `size` bytes (R169). -/
def State.entries (s : State) (ty inst size : Nat) : List (List Byte) :=
  match s.topo? ty inst with
  | some r => (List.range (leAt r.data 0 4)).map fun i => sub_ r.data (4 + i * size) size
  | none => []

/-- Record 0x0101. `SAFETY`. -/
def State.safetyDeclared (s : State) : Bool := s.topoN 0x0101 0 0 1 0 == 1

/-- Record 0x0101. `DUPLEX`. -/
def State.duplexCfg (s : State) : Bool := s.topoN 0x0101 0 1 1 0 == 1

/-! ### Tasks -/

/-- R144. Task `t` is defined and enabled. -/
def State.taskOn (s : State) (t : Nat) : Bool := s.fbit (Reg.TASK_STAT_ENABLED t)

/-- R144. The 24 tasks. -/
def taskNums : List Nat := List.range 24

/-- The activation of task `t` in progress. -/
def State.act (s : State) (t : Nat) : Option Act := mget none s.eng.acts t

/-- Sets the activation of task `t`. -/
def State.setAct (s : State) (t : Nat) (a : Option Act) : State :=
  { s with eng := { s.eng with acts := mset none s.eng.acts t a } }

/-- R451. The reference task. -/
def State.refTask (s : State) : Option Nat := (List.range 16).find? fun t => s.taskOn t

/-- R451. The reference cycle. -/
def State.refCycle (s : State) : Nat :=
  match s.refTask with
  | some t => mget 0 s.eng.pubCyc t - 1
  | none => 0

/-! ### The Cairn recorder -/

/-- Table 16.2. Cairn codes. -/
abbrev cMODE_CHANGE : Nat := 0x010
abbrev cSAFE_ENTRY : Nat := 0x011
abbrev cPOWER_FAIL : Nat := 0x012
abbrev cKEY_REVOKED : Nat := 0x013
abbrev cTOPO_FALLBACK : Nat := 0x014
abbrev cTOPO_FROM_SHADOW : Nat := 0x015
abbrev cPREC_CASE : Nat := 0x016
abbrev cPROT_VIOLATION : Nat := 0x017
abbrev cDIE_RECONFIG : Nat := 0x018
abbrev cCAIRN_FULL : Nat := 0x019
abbrev cCAIRN_CLEARED : Nat := 0x01A
abbrev cDIE_MISS : Nat := 0x040
abbrev cINPUT_MISS : Nat := 0x041
abbrev cDIE_EXCLUDED : Nat := 0x042
abbrev cLINK_DROP : Nat := 0x043
abbrev cTASK_OVERRUN : Nat := 0x060
abbrev cTASK_BUDGET : Nat := 0x061
abbrev cET_ABANDON : Nat := 0x062
abbrev cJOURNAL_OVF : Nat := 0x063
abbrev cCKPT_DEFERRED : Nat := 0x064
abbrev cCKPT_ABANDON : Nat := 0x065
abbrev cPROG_ERR : Nat := 0x066
abbrev cPROG_VERIFY : Nat := 0x067
abbrev cXLOCK_LEAK : Nat := 0x068
abbrev cCHG_APPLIED : Nat := 0x069
abbrev cCHG_REFUSED : Nat := 0x06A
abbrev cLANE_MINORITY : Nat := 0x080
abbrev cLANE_REJOIN : Nat := 0x081
abbrev cLANE_RETIRED : Nat := 0x082
abbrev cNO_PROFILE : Nat := 0x0A0
abbrev cLEARN_RESULT : Nat := 0x0A1
abbrev cPROFILE_DRIFT : Nat := 0x0A2
abbrev cPROFILE_DISCARDED : Nat := 0x0A3
abbrev cZS_DISCREPANT : Nat := 0x0A4
abbrev cREL_DISCREPANT : Nat := 0x0A5
abbrev cPROFILE_REJECTED : Nat := 0x0A6
abbrev cIL_FAST_DROP : Nat := 0x0A7
abbrev cIL_STALE : Nat := 0x0A8
abbrev cTE_READBACK : Nat := 0x0A9
abbrev cLOOP_READBACK : Nat := 0x0AA
abbrev cLOOP_BYPASS : Nat := 0x0AB
abbrev cLOAD_TRIP : Nat := 0x0C0
abbrev cLOAD_THERMAL : Nat := 0x0C1
abbrev cLOAD_DIAG : Nat := 0x0C2
abbrev cLOAD_BAND : Nat := 0x0C3
abbrev cCAN_PASSIVE : Nat := 0x0E0
abbrev cCAN_BUSOFF : Nat := 0x0E1
abbrev cCAN_RECOVERED : Nat := 0x0E2
abbrev cCAN_TT_ERR : Nat := 0x0E3
abbrev cTEL_TIMEOUT : Nat := 0x100
abbrev cPLANE_LOSS : Nat := 0x101
abbrev cSC_REJECT : Nat := 0x102
abbrev cPTP_LOST : Nat := 0x103
abbrev cAUTH_FAIL : Nat := 0x104
abbrev cVERB_REFUSED : Nat := 0x105
abbrev cPEER_LOST : Nat := 0x120
abbrev cPEER_PRESENT : Nat := 0x121
abbrev cROPE_DEGRADED : Nat := 0x122
abbrev cIMAGE_DIFF : Nat := 0x123
abbrev cCMP_DISCREPANT : Nat := 0x124
abbrev cBELAY_RESYNC : Nat := 0x125
abbrev cRESYNC_ALARM : Nat := 0x126
abbrev cHANDOVER_DECLINED : Nat := 0x127
abbrev cTAKEOVER_OWN : Nat := 0x128
abbrev cCLAIM_CONFLICT_SEEN : Nat := 0x129
abbrev cSELFTEST_FAIL : Nat := 0x12A
abbrev cTAKEOVER : Nat := 0x12B
abbrev cCLAIM_ABANDONED : Nat := 0x12C
abbrev cECC_CE : Nat := 0x140
abbrev cECC_UE : Nat := 0x141
abbrev cECC_CE_ALARM : Nat := 0x142
abbrev cSLOT_LOST : Nat := 0x143
abbrev cOVERLAY_LOST : Nat := 0x144
abbrev cUSER : Nat := 0x300

/-- R454. Severity of a code other than a program record: 0 info, 1 warning, 2 fault, 3 fatal. -/
def severity (code : Nat) : Nat :=
  if code = cSAFE_ENTRY ∨ code = cPOWER_FAIL then 3
  else if code ∈ [cDIE_EXCLUDED, cLANE_RETIRED, cZS_DISCREPANT, cTE_READBACK, cLOOP_READBACK, cLOAD_TRIP, cCAN_BUSOFF,
      cCLAIM_CONFLICT_SEEN, cSELFTEST_FAIL, cECC_UE, cSLOT_LOST, cOVERLAY_LOST, cCAIRN_FULL] then 2
  else if code ∈ [cMODE_CHANGE, cKEY_REVOKED, cPREC_CASE, cDIE_RECONFIG, cCAIRN_CLEARED, cCHG_APPLIED, cLANE_REJOIN,
      cLEARN_RESULT, cCAN_RECOVERED, cPEER_PRESENT, cTAKEOVER] then 0
  else 1

/-- R453. A code that Table 16.2 defines. -/
def codeDefined (c : Nat) : Bool :=
  [(0x010, 11), (0x040, 4), (0x060, 11), (0x080, 3), (0x0A0, 12), (0x0C0, 4), (0x0E0, 4), (0x100, 6), (0x120, 13),
    (0x140, 5), (0x300, 256)].any fun p => decide (p.1 ≤ c) && decide (c < p.1 + p.2)

/-- R455. The codes without a bucket. -/
def unlimited (code : Nat) : Bool :=
  [cMODE_CHANGE, cSAFE_ENTRY, cPOWER_FAIL, cKEY_REVOKED, cLANE_RETIRED, cCAIRN_FULL, cCAIRN_CLEARED, cTAKEOVER].contains
    code

/-- R472. `BURST` and `REFILL_S` of a code. -/
def State.rateOf (s : State) (code : Nat) : Nat × Nat :=
  match (s.entries 0x0B02 0 8).find? fun e => leAt e 0 2 == code with
  | some e => (leAt e 2 1, leAt e 4 4)
  | none => (4, 60)

/-- R456. An admitted record enters the queue; a full queue drops it, or for a fatal record the newest non-fatal one. -/
def State.enqueueRec (s : State) (r : CRec) : State :=
  let q := s.cairn.queue
  if q.length < 256 then { s with cairn := { s.cairn with queue := q ++ [r] } }
  else
    let s := (s.fsat Reg.CAIRN_LOST_QUEUE_DROP).fon Reg.CAIRN_FLAGS_QUEUE_OVF
    if r.sev = 3 then
      match q.reverse.find? fun x => x.sev != 3 with
      | some v => { s with cairn := { s.cairn with queue := (q.reverse.erase v).reverse ++ [r] } }
      | none => s
    else s

/-- R449 to R456. Raises a record with an explicit severity and cycle number. -/
def State.recordAs (s : State) (sev code slot task cyc : Nat) (data : List Byte) : State :=
  let r : CRec := { sev, slot, code, task, opSec := s.opSec, frac := s.opCount % 65536, suppr := 0, cyc,
                    data := data.take 12 }
  if unlimited code then s.enqueueRec r
  else
    let spent := mget 0 s.cairn.spent code
    if spent < (s.rateOf code).1 then
      let c := s.cairn
      let since := if spent = 0 then mset 0 c.since code s.time.mono else c.since
      let s' := { s with cairn := { c with spent := mset 0 c.spent code (spent + 1), suppr := mset 0 c.suppr code 0, since } }
      s'.enqueueRec { r with suppr := mget 0 c.suppr code }
    else
      let c := s.cairn
      let s' := { s with cairn := { c with suppr := mset 0 c.suppr code (min 255 (mget 0 c.suppr code + 1)) } }
      (s'.fsat Reg.CAIRN_CNT_SUPPRESSED).fon Reg.CAIRN_FLAGS_SUPPR_SEEN

/-- R451. The cycle number stamped on a record: the activation's where a task raised it, else the reference cycle. -/
def State.stampCycle (s : State) (task : Nat) : Nat :=
  if task < 24 then
    match s.act task with
    | some a => a.cyc
    | none => s.fget (Reg.TASK_CYC_CYCLE task)
  else s.refCycle

/-- Raises a record of the source slot `slot` and the task `task` (31: none). -/
def State.recordFrom (s : State) (code slot task : Nat) (data : List Byte) : State :=
  s.recordAs (severity code) code slot task (s.stampCycle task) data

/-- Raises a record of the control die without a task. -/
def State.record (s : State) (code : Nat) (data : List Byte) : State := s.recordFrom code 0 31 data

/-! ### Loop-backs -/

/-- R489. A disruptive loop-back of interface `iface` runs on its instance `num`. -/
def State.loopsIn (s : State) (iface num : Nat) : Bool :=
  match s.tap.lb with
  | some l => l.iface == iface && l.num == num && !l.quiet
  | none => false

/-! ### Keep banks -/

/-- R432. An address of the Keep banks B0 and B2. -/
def keepBank (a : Nat) : Bool := decide (a < 0x200000) || (decide (0x800000 ≤ a) && decide (a < 0xA00000))

/-! ### Mode changes -/

/-- R51. The mode changes now: `MODE`, `MODE_SEQ` and the record `MODE_CHANGE` with old mode, new mode and trigger. -/
def State.setMode (s : State) (m trig : Nat) : State :=
  let old := s.mode
  ((s.fset Reg.MODE_STAT_MODE m).fmod Reg.MODE_STAT_MODE_SEQ).record cMODE_CHANGE (leBytes 1 old ++ leBytes 1 m ++ leBytes 1 trig)

/-- R453. The record `SAFE_ENTRY`: reason, detail and, after a voter stop, the last class and the `PC`. -/
def State.recordSafe (s : State) (reason detail : Nat) (stop : Option (Nat × Nat)) : State :=
  s.record cSAFE_ENTRY (leBytes 1 reason ++ leBytes 2 detail ++
    (match stop with | some (cls, pc) => leBytes 1 cls ++ leBytes 4 pc | none => []))

/-- R392, R393, R475. The own claim line and where it is reported: at the land, deasserted while VIO is out of range. A fallen claim ends `PEER_RELEASE_OUT` with it (R394). -/
def State.setClaim (s : State) (b : Bool) : State :=
  let s := s.fput Reg.MODE_STAT_CLAIM_OUT (b && s.tap.vio)
  let s := if s.board.seatB then s.fput Reg.DUP_STAT_CLAIM_B_LAND (b && s.tap.vio) else s.fput Reg.DUP_STAT_CLAIM_A_LAND (b && s.tap.vio)
  let s := { s with dup := { s.dup with claimOut := b } }
  if b then s
  else { (s.fset Reg.DUP_STAT_REL_OUT 0) with dup := { s.dup with claim := none, prep := none, relAt := none, relDue := false } }

/-- R51, R52, R69. A PARK entry under way is given up: the module parks from ACTIVE, or from STANDBY at its peer's word, alone. -/
def State.parkCancel (s : State) : State := { s with power := { s.power with park := 0, parkStop := false } }

/-- R60, R393. `SAFE_REASON` and the mode SAFE, at this instant; a claim falls. -/
def State.nowSafe (s : State) (reason detail trig : Nat) : State :=
  (((s.setMode mSafe trig).fset Reg.SAFE_REASON_REASON reason).fset Reg.SAFE_REASON_DETAIL detail).setClaim false

end Sys2Proof.Machine
end

