-- ==== Sys2Proof/Machine/LinkOps.lean ====
section
/-! DEFINITION. Sending on the die links (R20, R21), the local time of a satellite (R40), and the records a satellite has
been loaded with (R98). -/

namespace Sys2Proof.Machine

/-- Table 1.2. The header of a frame, with `LEN` as the length of its payload. -/
def Frame.header (f : Frame) : List Byte :=
  leBytes 1 f.typ ++ leBytes 1 (b2n f.resent) ++ leBytes 2 f.seq ++ leBytes 2 f.payload.length ++ leBytes 2 f.ccount

/-- Table 1.2. The frame as it stands between SFD and EFD. -/
def Frame.wire (f : Frame) : List Byte := f.header ++ f.payload ++ leBytes 4 f.crc

/-- R20. The frame with the CRC over its header and payload. -/
def Frame.seal (f : Frame) : Frame := { f with crc := crc32 (f.header ++ f.payload) }

/-- R20, R21. `LEN` lies in its range, and the CRC is that of header and payload. -/
def Frame.whole (f : Frame) : Bool := decide (f.payload.length ≤ 1024) && f.crc == crc32 (f.header ++ f.payload)

/-- R21. The frame as it is resent: its `SEQ` stays and `RESENT` is set, so that its CRC is formed afresh. -/
def Frame.again (f : Frame) : Frame := { f with resent := true }.seal

/-- R20, R21. The satellite of slot `n` sends a frame while the link is `UP`. -/
def State.satSend (s : State) (n typ : Nat) (payload : List Byte) : State :=
  if s.linkIsUp n && s.present n then
    let l := s.link n
    let f : Frame := { typ, seq := l.satTx, ccount := (s.sat n).ccount, payload : Frame }.seal
    s.setLink n { l with up := l.up ++ [f], satTx := (l.satTx + 1) % 65536, satKept := ((f, false) :: l.satKept).take 4 }
  else s

/-- R20, R21. The control die sends a frame on the link of slot `n` while it is `UP`; its `CCOUNT` is 0. -/
def State.ctlSend (s : State) (n typ : Nat) (payload : List Byte) : State :=
  if s.linkIsUp n then
    let l := s.link n
    let f : Frame := { typ, seq := l.ctlTx, payload : Frame }.seal
    s.setLink n { l with down := l.down ++ [f], ctlTx := (l.ctlTx + 1) % 65536, ctlKept := ((f, false) :: l.ctlKept).take 4 }
  else s

/-- R40. Local time of the satellite in slot `n`. -/
def State.localTime (s : State) (n : Nat) : Nat := (s.sat n).localBase + (s.time.mono - (s.sat n).localAt)

/-- R98. A record loaded into the satellite of slot `n`. -/
def State.dieRec (s : State) (n ty inst : Nat) : Option Rec := (s.sat n).cfg.find? fun r => r.ty == ty && r.inst == inst

/-- R98. The field of `size` bytes at `off` of a record loaded into slot `n`, or `d` where it holds none. -/
def State.dieN (s : State) (n ty inst off size d : Nat) : Nat :=
  match s.dieRec n ty inst with
  | some r => leAt r.data off size
  | none => d

/-- R28, R31. The CONFIRM frame: its `CCOUNT` carries the counter. -/
def State.sendConfirm (s : State) (n : Nat) : State := s.satSend n 0x0E []

/-- R28. Table 8.14, 10.15, 11.8. The commit counter of the die of slot `n` in its own registers. -/
def State.ccountView (s : State) (n : Nat) : State :=
  let v := (s.sat n).ccount
  if n ≤ 3 then s.fset (Reg.DRV_STAT_CCOUNT (n - 1)) v
  else if n ≤ 5 then s.fset (Reg.LSW_STAT_CCOUNT (n - 4)) v
  else s.fset (Reg.FIO_STAT_CCOUNT (n - 6)) v

/-- R28, R29, R35. The satellite of slot `n` applies COMMIT: a staged set for this commit number is applied and its counter
advances. -/
def State.satApply (s : State) (n : Nat) : State :=
  let x := s.sat n
  let next := (x.ccount + 1) % 65536
  let applied :=
    match x.staged with
    | some (t, _, b, _) => if t = next then b else x.applied
    | none => x.applied
  (s.setSat n { x with ccount := next, staged := none, applied, lastCommit := s.time.mono, everCommit := true }).ccountView n

/-- R28, R314. The output set of slot `n` after the coming COMMIT: the applied set merged with a staged set. -/
def State.comingSet (s : State) (n : Nat) : Bytes :=
  let x := s.sat n
  match x.staged with
  | some (_, _, b, _) => b
  | none => x.applied

/-! ### Staging -/

/-- R225, R294, R328. Length of the output block of slot `n`. -/
def outLen (n : Nat) : Nat := if n ≤ 3 then 64 else if n ≤ 5 then 12 else 4

/-- The changed bytes of an output set as runs of (offset, length, data). DESIGN CHOICE: 2-byte offset and length. -/
def stageRuns (old new : Bytes) : Nat → Nat → List Byte
  | _, 0 => []
  | o, n + 1 =>
    let v := mget 0 new o
    (if v = mget 0 old o then [] else leBytes 2 o ++ leBytes 2 1 ++ [v]) ++ stageRuns old new (o + 1) n

/-- Table 1.4. A STAGE of `len` payload bytes sent now can end, and be acknowledged over two latencies of at most 2,000 ns
(R17), before the next COMMIT is emitted. One that cannot waits for the commit point (DEDUCED: it names the next commit
number, R28, and COMMIT goes out at every commit point, R27). -/
def State.stageFits (s : State) (len : Nat) : Bool :=
  !s.time.emitted &&
    (decide (commitPt s.time.gc < s.time.dev) || decide (s.time.dev + 8 * (len + 14) + 6128 ≤ commitPt s.time.gc))

/-- R28, R265. Payload of the STAGE that brings the output set of slot `n` to `out`; a due drop of the pairs names the output bytes in
any case. -/
def State.stageLoad (s : State) (n : Nat) (out : Bytes) : List Byte :=
  let old := (s.link n).sentOut
  let old := if (s.link n).pairsDue then mput 0 old 0 ((mslice 0 out 0 2).map (~~~ ·)) else old
  leBytes 2 ((s.fget Reg.COMMIT_NUM_CCOUNT + 1) % 65536) ++ stageRuns old out 0 (outLen n)

/-- R28, R155, R265. Sends a STAGE to slot `n` that brings its output set to `out`, unless one is in flight, nothing differs and no drop
of the pairs is due, or it cannot be in time for the next commit point. -/
def State.stageTo (s : State) (n : Nat) (out : Bytes) : State :=
  let l := s.link n
  let p := s.stageLoad n out
  if l.stageNum.isSome || (out == l.sentOut && !l.pairsDue) || !s.stageFits p.length then s
  else
    let t := (s.fget Reg.COMMIT_NUM_CCOUNT + 1) % 65536
    let s := s.ctlSend n 0x02 p
    s.setLink n { s.link n with
      stageNum := some t, stageAt := s.time.mono + 8 * (p.length + 14), stageResent := false, resync := false, acked := none
      ackWrong := false, sentOut := out, pairsDue := false }

/-- R56, R61. Value of local output `c` of slot `n` in its programmed safe state, where the last staged value is `last`. -/
def State.osafeBit (s : State) (n c : Nat) (last : Bool) : Bool :=
  let v := s.topoN 0x0604 (n - 6) (4 * c + 1) 1 0
  if v = 2 then last else v == 1

/-- R264. The outputs of the four halves of the pairs; 0xFF: none. -/
def State.pairOuts (s : State) : List Nat :=
  [s.topoN 0x0401 0 3 1 0xFF, s.topoN 0x0401 0 4 1 0xFF, s.topoN 0x0401 0 5 1 0xFF, s.topoN 0x0401 0 6 1 0xFF]

/-- R61. The safe set of slot `n`, from the set last staged to it. -/
def State.safeOut (s : State) (n : Nat) : Bytes :=
  let last := (s.link n).sentOut
  if n ≤ 3 then
    [0, 1, 2, 3].foldl (fun b c =>
      if s.topoN 0x0301 (4 * (n - 1) + c) 0 1 0 = 0 then b
      else
        let ctrl := putBit (mget 0 b (16 * c + 2)).toNat 2 false
        let ctrl := if (s.topo? 0x0401 0).isSome then putBit ctrl 0 false else ctrl
        mset 0 (mset 0 b (16 * c + 2) (BitVec.ofNat 8 ctrl)) (16 * c + 5) 1) last
  else if n ≤ 5 then
    (List.range 12).foldl (fun b c => if bit (s.topoN 0x0501 (12 * (n - 4) + c) 9 1 0x30) 1 then mset 0 b c 0 else b) last
  else
    let w := leNat (mslice 0 last 0 2)
    let v := (List.range 16).foldl (fun v c =>
      v + b2n (!s.pairOuts.contains (16 * (n - 6) + c) && s.osafeBit n c (bit w c)) * 2 ^ c) 0
    mput 0 last 0 (leBytes 2 v)

/-- R61, R156. Stages the safe set to every admitted die. -/
def State.stageSafe (s : State) : State :=
  s.each (satSlots.filter fun n => s.admitted n) fun s n => s.stageTo n (s.safeOut n)

end Sys2Proof.Machine
end

