-- ==== Sys2Proof/Machine/DoorBase.lean ====
section
/-! DEFINITION. Door channels: records 0x03xx and 0x04xx as loaded into the die, the applied command block (Table 8.6), the
registers and the input block (Tables 8.7, 8.14), events (R228), ledger frames (R461), and the change of state. -/

namespace Sys2Proof.Machine

/-! ### Codes -/

/-- Table 8.8. Door states. -/
abbrev dLocked : Nat := 0
abbrev dReleased : Nat := 1
abbrev dUnlocking : Nat := 2
abbrev dOpening : Nat := 3
abbrev dOpen : Nat := 4
abbrev dClosing : Nat := 5
abbrev dReversing : Nat := 6
abbrev dLocking : Nat := 7
abbrev dHalted : Nat := 8
abbrev dIsolated : Nat := 9
abbrev dFault : Nat := 10
/-- Table 8.8. Step states. -/
abbrev tStowed : Nat := 0x10
abbrev tDeploying : Nat := 0x11
abbrev tDeployed : Nat := 0x12
abbrev tStowing : Nat := 0x13
abbrev tHalted : Nat := 0x14
abbrev tIsolated : Nat := 0x15
abbrev tFault : Nat := 0x16
/-- Table 8.8. Channel off. -/
abbrev chOff : Nat := 0xFF

/-- Table 8.9. Causes. -/
abbrev zGateFault : Nat := 1
abbrev zOvercurrent : Nat := 2
abbrev zDcHigh : Nat := 3
abbrev zHall : Nat := 4
abbrev zEncoder : Nat := 5
abbrev zDsmLoss : Nat := 6
abbrev zDsmOffset : Nat := 7
abbrev zProofPlaus : Nat := 8
abbrev zObstacleLimit : Nat := 0x10
abbrev zTimeout : Nat := 0x11
abbrev zEgress : Nat := 0x12
abbrev zStopCmd : Nat := 0x13
abbrev zPosUnknown : Nat := 0x14
abbrev zAbort : Nat := 0x15
abbrev zObstacle : Nat := 0x20
abbrev zPushbutton : Nat := 0x21

/-- Table 8.10. Events. -/
abbrev vStateChange : Nat := 1
abbrev vPushbutton : Nat := 2
abbrev vEgress : Nat := 3
abbrev vIsolation : Nat := 4
abbrev vObstacle : Nat := 5
abbrev vFault : Nat := 6
abbrev vProofLost : Nat := 7
abbrev vMaskConflict : Nat := 8
abbrev vWaitStep : Nat := 9
abbrev vCmdRefused : Nat := 10
abbrev vContact : Nat := 11
abbrev vShadowDiverge : Nat := 12

/-- The motion states of doors and steps; `REVERSING` is named beside them where a rule means it too (R243). -/
def inMotion (st : Nat) : Bool :=
  [dUnlocking, dOpening, dClosing, dLocking, tDeploying, tStowing].contains st

/-! ### Channels and records -/

/-- R210. Slot of the die of channel `k`. -/
def chSlot (k : Nat) : Nat := 1 + k / 4

/-- The channel. -/
def State.door (s : State) (k : Nat) : Door := mget {} s.doors k

/-- Table 8.15. A field of the drive record of channel `k`. -/
def State.drvN (s : State) (k off n d : Nat) : Nat := s.dieN (chSlot k) 0x0301 k off n d

/-- R210. `ROLE`: 0 off, 1 door leaf, 2 step. -/
def State.role (s : State) (k : Nat) : Nat := s.drvN k 0 1 0

/-- The channel is a door leaf. -/
def State.isDoor (s : State) (k : Nat) : Bool := s.role k == 1

/-- Tables 8.16, 8.17. A field of the geometry record of a door, or of the step record. -/
def State.geoN (s : State) (k doorOff stepOff : Nat) : Nat :=
  if s.isDoor k then s.dieN (chSlot k) 0x0302 k doorOff 2 0 else s.dieN (chSlot k) 0x0303 k stepOff 2 0

/-- `LOCK_ZONE` in 0.01 mm. -/
def State.lockZone (s : State) (k : Nat) : Int := (s.geoN k 2 16 * 10 : Nat)

/-- `PLAUS_MS` in ns. -/
def State.plausNs (s : State) (k : Nat) : Nat := s.geoN k 20 12 * 1000000

/-- `ACC` in mm/s². -/
def State.accel (s : State) (k : Nat) : Nat := s.geoN k 12 6

/-- R244. Travel X of the force reference in 0.01 mm: `STROKE` or `EXT_MAX`. -/
def State.travel (s : State) (k : Nat) : Nat := s.geoN k 0 0 * 10

/-- Tables 9.7, 9.9. A field of the obstacle record, with its default. -/
def State.obsN (s : State) (k doorOff stepOff n dd ds : Nat) : Nat :=
  if s.isDoor k then s.dieN (chSlot k) 0x0402 k doorOff n dd else s.dieN (chSlot k) 0x0404 k stepOff n ds

/-- `N_MAX`. -/
def State.nMax (s : State) (k : Nat) : Nat := s.obsN k 10 3 1 3 3

/-- Table 8.18. `POL`, `USE`, and `DEB_US` of an input. -/
def State.inPol (s : State) (k : Nat) : Nat := s.dieN (chSlot k) 0x0304 k 0 1 0
def State.inUse (s : State) (k : Nat) : Nat := s.dieN (chSlot k) 0x0304 k 1 1 (if s.isDoor k then 0xFF else 0x9B)
def State.inDeb (s : State) (k i : Nat) : Nat :=
  s.dieN (chSlot k) 0x0304 k (4 + 2 * i) 2 (([5000, 5000, 20000, 50000, 1000, 1000, 30000, 10000] : List Nat).getD i 0)

/-- R234, Table 9.10. A field of a platform profile; 0 where the number has no record. -/
def State.profN (s : State) (k p off n : Nat) : Nat := s.dieN (chSlot k) 0x0405 p off n 0

/-- The die of channel `k` is powered, configured and drives this channel (R210). -/
def State.chOn (s : State) (k : Nat) : Bool :=
  s.present (chSlot k) && s.fbit (Reg.DRV_STAT_CONFIGURED (k / 4)) && s.role k != 0

/-- R238. The die of channel `k` is in shadow mode. -/
def State.chShadow (s : State) (k : Nat) : Bool := s.fbit (Reg.DRV_MODE_SHADOW (k / 4))

/-! ### The command block -/

/-- Table 8.6. Byte `i` of the applied command block of channel `k`. -/
def State.cmdB (s : State) (k i : Nat) : Nat := (mget 0 (s.sat (chSlot k)).applied (16 * (k % 4) + i)).toNat

/-- Table 8.6. Bit `i` of `CTRL`: 0 `RELEASE`, 1 `DRIVE_OK`, 2 `MAINT`, 3 `AUTO_OPEN`, 4 `PB_ENABLE`, 5 `STEP_CLEAR`,
6 `DOOR_CLEAR`, 7 `NUDGE`. -/
def State.ctrl (s : State) (k i : Nat) : Bool := bit (s.cmdB k 2) i

/-- `SPEED_PCT`: values outside 10 to 100 act as 100. -/
def State.speedPct (s : State) (k : Nat) : Nat :=
  let v := s.cmdB k 4
  if 10 ≤ v ∧ v ≤ 100 then v else 100

/-! ### Position, speed and proof -/

/-- R216. Feedback counts per mechanical revolution. -/
def State.countsPerRev (s : State) (k : Nat) : Nat :=
  if s.drvN k 3 1 0 = 0 then 6 * s.drvN k 2 1 4 else s.drvN k 36 2 0

/-- R217. Position in 0.01 mm. -/
def State.pos (s : State) (k : Nat) : Int :=
  let d := s.door k
  d.ofs + d.cnt * (s.drvN k 28 2 0 : Nat) / (s.countsPerRev k : Nat)

/-- R217. Measured speed in mm/s: the mean of the last 4 differences over 500 µs each. -/
def Door.speed (d : Door) : Int := (d.hist.getD 0 0 - d.hist.getD 4 (d.hist.getD 0 0)) * 5

/-- R243. Acceleration in mm/s²: the speed now and 2 ms before. -/
def Door.accel (d : Door) : Int :=
  let p0 := d.hist.getD 0 0
  let p4 := d.hist.getD 4 p0
  let p8 := d.hist.getD 8 p4
  (p0 - 2 * p4 + p8) * 2500

/-- Table 8.7. Position within `LOCK_ZONE` of 0 with `POS_VALID`. -/
def State.inZone (s : State) (k : Nat) : Bool :=
  (s.door k).posValid && decide (-(s.lockZone k) ≤ s.pos k) && decide (s.pos k ≤ s.lockZone k)

/-- Table 8.7. `CLOSED_LOCKED`. -/
def State.closedLocked (s : State) (k : Nat) : Bool := bit (s.door k).loc 0 && bit (s.door k).loc 1 && s.inZone k

/-- Table 8.7. `PROOF`. -/
def State.proof (s : State) (k : Nat) : Nat :=
  let d := s.door k
  b2n (bit d.loc 1) + 2 * b2n (bit d.loc 0) + 4 * b2n (s.inZone k) + 8 * b2n (s.closedLocked k) + 16 * b2n d.posValid +
    32 * b2n d.en + 64 * b2n d.passive + 128 * b2n d.waitStep

/-! ### Registers and input block -/

/-- Table 8.14. The registers of channel `k` show its state. -/
def State.doorView (s : State) (k : Nat) : State :=
  let d := s.door k
  let n := k / 4
  let c := k % 4
  let s := s.fset (Reg.DRV_CH_STAT_STATE n c) d.state
  let s := s.fset (Reg.DRV_CH_STAT_CAUSE n c) d.cause
  let s := s.fset (Reg.DRV_CH_STAT_LOCAL n c) d.loc
  let s := s.fset (Reg.DRV_CH_STAT_PROOF n c) (s.proof k)
  let s := s.fset (Reg.DRV_CH_POS_POS n c) (unsgnSat 16 (s.pos k / 10))
  let s := s.fset (Reg.DRV_CH_POS_SPEED n c) (unsgnSat 16 d.speed)
  let s := s.fset (Reg.DRV_CH_CUR_IQ n c) (unsgnSat 16 (d.iq / 2))
  let s := s.fset (Reg.DRV_CH_CUR_ID n c) (unsgnSat 16 (d.id / 2))
  let s := s.fset (Reg.DRV_CH_VDC_VDC n c) d.vdc
  let s := s.fset (Reg.DRV_CH_FB_HALL_RAW n c) d.hall
  let s := s.fset (Reg.DRV_CH_FB_ENC_RAW n c) d.enc
  s.fset (Reg.DRV_CH_FB_ENC_CNT n c) d.encCnt

/-- Sets a channel and its registers. -/
def State.setDoor (s : State) (k : Nat) (d : Door) : State := ({ s with doors := mset {} s.doors k d }).doorView k

/-- Updates a channel. -/
def State.modDoor (s : State) (k : Nat) (f : Door → Door) : State := s.setDoor k (f (s.door k))

/-- Elapsed ns in the present state, without pauses. -/
def Door.inState (d : Door) (now : Nat) : Nat := d.pauseAt.getD now - d.entAt

/-- Table 8.7. The 32 bytes of a channel. -/
def State.chanBlock (s : State) (k : Nat) : List Byte :=
  let d := s.door k
  let one (v : Nat) : List Byte := leBytes 1 v
  one d.state ++ one d.cause ++ one d.loc ++ one (s.proof k) ++
    leBytes 2 (unsgnSat 16 (s.pos k / 10)) ++ leBytes 2 (unsgnSat 16 d.speed) ++ leBytes 2 (unsgnSat 16 (d.iq / 2)) ++
    leBytes 2 d.vdc ++ leBytes 2 (unsgnSat 16 d.force.floor) ++ one d.attempt ++ one d.acted ++
    leBytes 2 (if inMotion d.state then clip 16 (d.inState s.time.mono / 1000000) else 0) ++
    one (b2n d.dcLow + 2 * b2n d.maskConf + 4 * b2n d.contact + 8 * b2n d.diverge) ++ List.replicate 13 0

/-- Table 8.7. The input block of door die `n`, 136 bytes. -/
def State.doorInput (s : State) (n : Nat) : List Byte :=
  let ks := [4 * n, 4 * n + 1, 4 * n + 2, 4 * n + 3]
  let anyFault := ks.any fun k => (s.door k).state == dFault || (s.door k).state == tFault
  let anyLow := ks.any fun k => (s.door k).dcLow
  leBytes 1 (b2n (s.fbit (Reg.DRV_MODE_SHADOW n)) + 2 * b2n anyFault + 4 * b2n anyLow) ++ [0] ++
    leBytes 2 (mget {} s.ddies n).evCount ++ List.replicate 4 0 ++ (ks.map s.chanBlock).flatten

/-! ### Events -/

/-- R228. The bit of `SAFE_SEEN` that an event sets. -/
def safeBit (ev : Nat) : Nat := if ev = vProofLost then 2 else if ev = vEgress then 4 else if ev = vFault then 8 else 0

/-- R228. Sends the EVENT frame of channel `k` now: code, then `STATE`, `CAUSE`, `POS`, `LOCAL`, `SAFE_SEEN`. -/
def State.sendDoorEvent (s : State) (k ev : Nat) : State :=
  let d := s.door k
  let payload := leBytes 2 (ev + k * 256) ++ leBytes 1 d.state ++ leBytes 1 d.cause ++
    leBytes 2 (unsgnSat 16 (s.pos k / 10)) ++ leBytes 1 d.loc ++ leBytes 1 (b2n (s.closedLocked k) + d.safe)
  let dd := mget {} s.ddies (k / 4)
  let s := { s with ddies := mset {} s.ddies (k / 4) { dd with evCount := (dd.evCount + 1) % 65536 } }
  let s := s.satSend (chSlot k) 0x09 payload
  s.modDoor k fun d => { d with evAt := some s.time.mono, evPend := none, safe := 0 }

/-- R228. The holdoff of 250 µs is over and the link is `UP`: an EVENT frame may go out. -/
def State.mayEvent (s : State) (k : Nat) : Bool :=
  s.linkIsUp (chSlot k) && (match (s.door k).evAt with | none => true | some t => decide (t + 250000 ≤ s.time.mono))

/-- R210, R228, R236. Event `ev` of channel `k`: sent at once, or merged into the next frame. -/
def State.doorEvent (s : State) (k ev : Nat) : State :=
  if s.role k = 0 then s
  else
    let s := s.modDoor k fun d => { d with safe := d.safe ||| safeBit ev, evPend := some ev }
    if s.mayEvent k then s.sendDoorEvent k ev else s

/-! ### State changes -/

/-- R461. A ledger frame: sent while the link is `UP`, else queued, 32 deep; a full queue merges into the last. -/
def State.ledgerFrame (s : State) (k st : Nat) : State :=
  let d := s.door k
  let f := leBytes 1 0xF1 ++ leBytes 1 k ++ leBytes 1 st ++ leBytes 5 (s.localTime (chSlot k)) ++ leBytes 2 (clip 16 d.fPeak) ++
    leBytes 2 (clip 16 (d.energy / 100000)) ++ leBytes 2 d.vdcMin
  let s := s.modDoor k fun d => { d with fPeak := 0, energy := 0, vdcMin := 0xFFFF }
  if s.linkIsUp (chSlot k) then s.satSend (chSlot k) 0x0B f
  else if d.ledHeld.length < 32 then s.modDoor k fun d => { d with ledHeld := d.ledHeld ++ [f] }
  else s.modDoor k fun d => { d with ledHeld := d.ledHeld.dropLast ++ [f], ledGap := true }

/-- R228. States whose entry does not set `SAFE_SEEN` bit 4. -/
def quietState (st : Nat) : Bool := [dLocked, dIsolated, tStowed, tIsolated].contains st

/-- R247. The states a stroke that starts in `from_` passes and ends in; any other breaks it. -/
def onWay (from_ st : Nat) : Bool :=
  if from_ = dOpen then [dClosing, dLocking, dLocked].contains st
  else if from_ = dLocked then [dReleased, dUnlocking, dOpening, dOpen].contains st
  else if from_ = tStowed then [tDeploying, tDeployed].contains st
  else from_ == tDeployed && [tStowing, tStowed].contains st

/-- The channel enters state `st` with cause `cause`: timers restart, the counters of `CH_CNT` count, event `STATE_CHANGE`
and, for a door, a ledger frame. -/
def State.enter (s : State) (k st cause : Nat) : State :=
  let old := (s.door k).state
  let n := k / 4
  let c := k % 4
  let s := s.modDoor k fun d =>
    { d with
      strokeOk := d.strokeOk && onWay d.strokeFrom st, attempt := if st = tStowed then 0 else d.attempt
      state := st, cause, entAt := s.time.mono, pauseAt := d.pauseAt.map fun _ => s.time.mono, plausAt := d.plausAt
      safe := if quietState st then d.safe else d.safe ||| 16
      waitStep := if st = dReleased then d.waitStep else false
      maskConf := if st = dLocked then d.maskConf else false
      contact := if st = tDeployed then d.contact else false
      pendOpen := if st = dReleased then d.pendOpen else false
      forceAt := none, defAt := none, contAt := none
      react := if st = dReversing then d.react else 0
      force := if inMotion st || st == dReversing then d.force else 0 }
  let s := if (st = dLocked ∨ st = tStowed) ∧ inMotion old then s.fsat (Reg.DRV_CH_CNT_STROKES n c) else s
  let s := if st = dReversing then s.fsat (Reg.DRV_CH_CNT_OBSTACLES n c) else s
  let s := if st = old then s else s.doorEvent k vStateChange
  if s.isDoor k && decide (st ≠ old) then s.ledgerFrame k st else s

/-- R249. A TRACE frame with one direction of the profile: `adapted` chooses the values. -/
def State.sendProfile (s : State) (k dir : Nat) (adapted : Bool) : State :=
  let d := s.door k
  let m := if adapted then d.adap else d.base
  s.satSend (chSlot k) 0x0B (leBytes 1 0xF0 ++ leBytes 1 k ++ leBytes 1 dir ++ leBytes 1 (b2n adapted) ++
    ((List.range 256).map fun b => leBytes 2 (unsgn 16 (mget 0 m (dir * 256 + b)))).flatten)

/-- The drive request of a channel: 0 takes `Dk_EN` and the gate commands low at once. -/
def State.drive (s : State) (k r : Nat) : State :=
  s.modDoor k fun d =>
    if r = 0 then { d with drv := 0, en := false, gates := false, vRef := 0, vCmd := 0, iqRef := 0, wi := 0, di := 0, qi := 0 }
    else { d with drv := r }

/-- Profile to a target position. -/
def State.driveTo (s : State) (k : Nat) (x : Int) : State :=
  s.modDoor k fun d => { d with drv := 1, target := x, plan := if d.vRef = 0 then s.pos k else d.plan }

/-- R254, R245, R250. Ends a test cycle or learning run with a result of `LEARN_STAT`. -/
def State.endRun (s : State) (k result bin : Nat) : State :=
  let d := s.door k
  let s := s.modDoor k fun d => { d with run := 0, goal := 0, cycles := 0, cur := [], means := [] }
  if d.run = 2 then
    let s := ((s.fset Reg.LEARN_STAT_BUSY 0).fset Reg.LEARN_STAT_RESULT result).fset Reg.LEARN_STAT_BIN bin
    s.recordFrom cLEARN_RESULT (chSlot k) 31 (leBytes 1 k ++ leBytes 1 result ++ leBytes 2 bin)
  else s

/-- Table 8.4, R218, R236. The channel enters FAULT: gates low, event `FAULT`, sticky bits; a cause from `HALL` to
`DSM_LOSS` clears `POS_VALID`. -/
def State.fault (s : State) (k cause : Nat) : State :=
  if !s.chOn k || s.chShadow k then s
  else
    let s := s.fset (Reg.DRV_CH_FLT_FAULTS (k / 4) (k % 4)) (s.fget (Reg.DRV_CH_FLT_FAULTS (k / 4) (k % 4)) ||| 2 ^ (cause - 1))
    let f := if s.isDoor k then dFault else tFault
    let s := if 4 ≤ cause ∧ cause ≤ 6 then s.modDoor k fun d => { d with posValid := false } else s
    if (s.door k).state = f then s
    else
      let s := s.fon (Reg.DRV_FLAGS_FAULT_SEEN (k / 4))
      let s := if (s.door k).run = 0 then s else s.endRun k 4 0
      let s := (s.drive k 0).modDoor k fun d => { d with aborting := false }
      (s.enter k f cause).doorEvent k vFault

end Sys2Proof.Machine
end

