-- ==== Sys2Proof/Machine/DoorMotion.lean ====
section
/-! DEFINITION. Measurement, control loops and profile of the door channels (R211 to R225), the force estimate (R243,
R244) and the limits of R252, R253. The formulas are those of Table 8.2 in exact rational arithmetic; π, the sine and
square roots are rational approximations (DESIGN CHOICE). -/

namespace Sys2Proof.Machine

/-! ### Arithmetic -/

/-- π to 15 digits. -/
def piQ : Rat := 3141592653589793 / 1000000000000000

/-- One bit of the square root: `b` from high to low. -/
def isqrtGo (n : Nat) : Nat → Nat → Nat
  | 0, r => r
  | b + 1, r => isqrtGo n b (if (r + 2 ^ b) * (r + 2 ^ b) ≤ n then r + 2 ^ b else r)

/-- The integer part of the square root of a number below 2^128. -/
def isqrt (n : Nat) : Nat := isqrtGo n 64 0

/-- The sine of a quarter turn's part `x` in [0, 1/4] turn, as a Taylor polynomial. -/
def sinQuarter (x : Rat) : Rat :=
  let y := 2 * piQ * x
  let z := y * y
  y * (1 - z / 6 * (1 - z / 20 * (1 - z / 42 * (1 - z / 72 * (1 - z / 110)))))

/-- The sine of an angle in 1/65,536 turn. -/
def sinA (a : Int) : Rat :=
  let n := (a % 65536).toNat
  let q := n / 16384
  let x : Rat := (n % 16384 : Nat) / 65536
  match q with
  | 0 => sinQuarter x
  | 1 => sinQuarter (1 / 4 - x)
  | 2 => -sinQuarter x
  | _ => -sinQuarter (1 / 4 - x)

/-- The cosine of an angle in 1/65,536 turn. -/
def cosA (a : Int) : Rat := sinA (a + 16384)

/-- `x` held within ± `m`. -/
def within (m x : Rat) : Rat := if x > m then m else if x < -m then -m else x

/-- The number nearest to a rational, halves upwards. -/
def nearest (x : Rat) : Int := (x + 1 / 2).floor

/-! ### The filters (R213, R214) -/

/-- Sum of the numbers up to `n`. -/
def tri (n : Nat) : Nat := n * (n + 1) / 2

/-- R213. Weight of bit `j` in the window of a sinc3 filter of ratio `m`: three running sums over `m` bits, one after the other. -/
def sincW (m j : Nat) : Nat := tri (j + 1) + 3 * tri (j + 1 - 2 * m) - 3 * tri (j + 1 - m)

/-- R213. The filter's sum over its window of 3 `m` − 2 bits, from 0 (no ones) to `m`³ (ones alone). -/
def sincSum (m : Nat) (bits : List Bool) : Nat :=
  (bits.zip (List.range (3 * m - 2))).foldl (fun a p => if p.1 then a + sincW m p.2 else a) 0

/-- R213. A density as a current: 50 % is 0, its ends are ± `I_FS`, here and in the result in mA, to the nearest. -/
def densityCurrent (density : Rat) (ifs : Nat) : Int := nearest ((2 * density - 1) * (ifs : Nat))

/-- R214. Sum over `n` samples of the filter of ratio 16, one every 16 bits. -/
def sincTotal : Nat → List Bool → Nat → Nat
  | 0, _, a => a
  | n + 1, bits, a => sincTotal n (bits.drop 16) (a + sincSum 16 bits)

/-! ### Constants of a channel (Table 8.2) -/

/-- R220. f_cl in Hz: `F_PWM` up to 20 kHz, else half of it. -/
def State.fcl (s : State) (k : Nat) : Rat :=
  let f := s.drvN k 4 2 160 * 100
  if f ≤ 20000 then (f : Rat) else (f : Rat) / 2

/-- Travel per radian in m. -/
def State.rad (s : State) (k : Nat) : Rat := (s.drvN k 28 2 0 : Nat) / 100000 / (2 * piQ)

/-- Torque constant in N·m/A. -/
def State.ktN (s : State) (k : Nat) : Rat := (s.drvN k 24 2 0 : Nat) / 10000

/-- Mass in kg. -/
def State.massKg (s : State) (k : Nat) : Rat := (s.geoN k 4 2 : Nat) / 10

/-- R243. J_M / r² in kg, added to the mass: m_eff. -/
def State.mEff (s : State) (k : Nat) : Rat :=
  s.massKg k + (s.drvN k 26 2 0 : Nat) / 10000000 / (s.rad k * s.rad k)

/-- R243. Drive force per ampere: η · K_t / r. -/
def State.newtonPerA (s : State) (k : Nat) : Rat := (s.drvN k 30 1 80 : Nat) / 100 * s.ktN k / s.rad k

/-- Table 8.2. Current loop: Kp_i in V/A and Ki_i in V/(A·s). -/
def State.kpI (s : State) (k : Nat) : Rat := 2 * piQ * (s.drvN k 32 2 1000 : Nat) * ((s.drvN k 22 2 0 : Nat) / 1000000)
def State.kiI (s : State) (k : Nat) : Rat := 2 * piQ * (s.drvN k 32 2 1000 : Nat) * ((s.drvN k 20 2 0 : Nat) / 1000)

/-- Table 8.2. Speed loop: Kp_w in A·s/rad and Ki_w in A/rad. -/
def State.kpW (s : State) (k : Nat) : Rat :=
  let j : Rat := (s.drvN k 26 2 0 : Nat) / 10000000 + s.massKg k * s.rad k * s.rad k
  2 * piQ * (s.drvN k 34 2 40 : Nat) * j / s.ktN k
def State.kiW (s : State) (k : Nat) : Rat := s.kpW k * (2 * piQ * (s.drvN k 34 2 40 : Nat)) / 4

/-- Table 8.2. Position loop, 1/s. -/
def State.kpX (s : State) (k : Nat) : Rat := 2 * piQ * (s.drvN k 34 2 40 : Nat) / 5

/-- Table 8.15. `I_MAX` and `I_FS` in mA, `VDC_MIN` and `VDC_MAX` in 10 mV, `V_FS` in 10 mV. -/
def State.iMax (s : State) (k : Nat) : Nat := s.drvN k 12 2 1000 * 10
def State.iFs (s : State) (k : Nat) : Nat := s.drvN k 10 2 2500 * 10
def State.vdcLo (s : State) (k : Nat) : Nat := s.drvN k 16 2 720 * 10
def State.vdcHi (s : State) (k : Nat) : Nat := s.drvN k 18 2 1100 * 10
def State.vFs (s : State) (k : Nat) : Nat := s.drvN k 14 2 1500 * 10

/-- Table 8.15. `DIR`: +1 where open is positive rotation, else −1. -/
def State.dirSign (s : State) (k : Nat) : Int := if s.drvN k 9 1 0 = 0 then 1 else -1

/-- The motor is brushed DC (R225). -/
def State.brushed (s : State) (k : Nat) : Bool := s.drvN k 1 1 0 == 1

/-- R236, Table 8.4. The state and its timers are frozen: passive, `DC_LOW`, or shadow mode. -/
def State.frozenCh (s : State) (k : Nat) : Bool := (s.door k).passive || (s.door k).dcLow || s.chShadow k

/-- R239. The channel waits for its filters after shadow mode. -/
def State.resuming (s : State) (k : Nat) : Bool := (s.door k).resumeAt.isSome

/-- R226. Drive permission: `DRIVE_OK`, and not `SAFE_HOLD`. -/
def State.driveOk (s : State) (k : Nat) : Bool := s.ctrl k 1 && !bit (s.cmdB k 5) 0

/-- The channel stands: measured and reference speeds are zero. -/
def Door.standing (d : Door) : Bool := d.speed == 0 && d.vRef == 0

/-- R214, R226, R230. `Dk_EN` follows the drive request: no drive without measured offset, permission or while frozen;
without permission and after a stop that ends in "off" it falls once the channel stands. -/
def State.enable (s : State) (k : Nat) : State :=
  let d := s.door k
  let want :=
    d.drv ≠ 0 ∧ d.offValid ∧ d.offAt.isNone ∧ !s.frozenCh k ∧ !s.resuming k ∧ !d.flt ∧
      (s.driveOk k ∨ (d.en ∧ !d.standing)) ∧ (d.drv ≠ 3 ∨ (d.en ∧ !d.standing))
  if want then s.modDoor k fun d => { d with en := true, gates := true, lowAt := none }
  else if d.en then
    s.modDoor k fun d => { d with en := false, gates := false, vRef := 0, vCmd := 0, iqRef := 0, wi := 0, di := 0, qi := 0,
                                  drv := if d.drv = 3 then 0 else d.drv }
  else s

/-- R216. The electrical angle now: with Hall sensors only it is interpolated from the measured speed, by at most 60°. -/
def State.elAngle (s : State) (k : Nat) : Int :=
  let d := s.door k
  if s.drvN k 3 1 0 = 0 then
    let turn : Int := s.dirSign k * (s.drvN k 2 1 4 : Nat) * 65536 * d.speed * 100 * ((s.time.mono - d.hallAt : Nat) : Int) /
      ((s.drvN k 28 2 1 : Nat) * 1000000000)
    (d.ang : Nat) + max (-10922) (min 10922 turn)
  else (d.ang : Nat)

/-! ### Measurement -/

/-- R213. Oversampling ratio of the filters of channel `k`. -/
def State.osr (s : State) (k : Nat) : Nat := 2 ^ (4 + s.drvN k 8 1 2)

/-- R213. A phase current in mA from the bits of its stream. -/
def State.bitCurrent (s : State) (k : Nat) (bits : List Bool) : Int :=
  let m := s.osr k
  densityCurrent ((sincSum m bits : Nat) / (m * m * m : Nat)) (s.iFs k)

/-- R213. V_DC in 10 mV from the bits of its stream. The spec states no value for a density below 50 %: a free one. -/
def State.bitVolts (s : State) (k : Nat) (bits : List Bool) : Nat × State :=
  let m := s.osr k
  let x : Rat := 2 * ((sincSum m bits : Nat) / (m * m * m : Nat)) - 1
  if x < 0 then s.takeFree 16 else (clip 16 (nearest (x * (s.vFs k : Nat))).toNat, s)

/-- R214. An offset in mA: the mean of 4,096 samples. -/
def State.bitOffset (s : State) (k : Nat) (bits : List Bool) : Int :=
  densityCurrent ((sincTotal 4096 bits 0 : Nat) / (4096 * 4096 : Nat)) (s.iFs k)

/-! ### Current loop -/

/-- R211. Pulses of one phase: `duty` of the period of `n` CLK_PWM cycles, dead time before each rising edge, no pulse
shorter than 2 × `DEAD_NS`. -/
def pulses (n dead min_ : Nat) (duty : Rat) : Nat × Nat :=
  let hi := (duty * n).floor.toNat
  let cut (x : Nat) : Nat := if x < min_ then 0 else x
  (cut (hi - dead), cut (n - hi - dead))

/-- R211. Space-vector modulation of a voltage vector in d–q coordinates at angle `a`, or the H bridge of R225. -/
def State.modulate (s : State) (k : Nat) (vd vq : Rat) (a : Int) (vdc : Rat) : List (Nat × Nat) :=
  let n := 1600000 / (s.drvN k 4 2 160)
  let deadNs := s.drvN k 6 2 500
  let dead := (deadNs * 100 + 624) / 625
  let min_ := (2 * deadNs * 100 + 624) / 625
  if vdc ≤ 0 then [(0, 0), (0, 0), (0, 0)]
  else if s.brushed k then
    let u := 1 / 2 + vq / vdc / 2
    [pulses n dead min_ u, pulses n dead min_ (1 - u), (0, 0)]
  else
    let ph (sh : Int) : Rat := vd * cosA (a - sh) - vq * sinA (a - sh)
    let u := ph 0
    let v := ph 21845
    let w := ph 43691
    let mx := max u (max v w)
    let mn := min u (min v w)
    [u, v, w].map fun x => pulses n dead min_ (1 / 2 + (x - (mx + mn) / 2) / vdc)

/-- R220 to R225. One period of the current loop with measured phase currents in mA and V_DC in 10 mV. -/
def State.currentLoop (s : State) (k : Nat) (iu0 iv0 : Int) (vdc : Nat) : State :=
  let d := s.door k
  let sg := s.dirSign k
  let iu := iu0 - d.offU
  let iv := iv0 - d.offV
  let iw := -(iu + iv)
  let brushed := s.brushed k
  let worst := if brushed then iu.natAbs else max iu.natAbs (max iv.natAbs iw.natAbs)
  let ovc := if 4 * worst > 5 * s.iMax k then d.ovc + 1 else 0
  -- amplitude-invariant transform to d–q coordinates
  let a : Int := s.elAngle k
  let q : Rat := if brushed then iu
    else -(2 / 3 : Rat) * (iu * sinA a + iv * sinA (a - 21845) + iw * sinA (a - 43691))
  let dd : Rat := if brushed then 0
    else (2 / 3 : Rat) * (iu * cosA a + iv * cosA (a - 21845) + iw * cosA (a - 43691))
  let iq : Int := sg * q.floor
  let id : Int := dd.floor
  let d := { d with ovc, iq, id, iqSum := d.iqSum + iq, iqN := d.iqN + 1, vdc,
                    vdcMin := if inMotion d.state then min d.vdcMin vdc else d.vdcMin }
  let d :=
    if !d.en then { d with vd := 0, vq := 0, pwm := [] }
    else
      let t := 1 / s.fcl k
      let eq : Rat := d.iqRef - (iq : Rat)
      let ed : Rat := -(id : Rat)
      let vq := s.kpI k * eq + d.qi
      let vd := if brushed then 0 else s.kpI k * ed + d.di
      let lim : Rat := (vdc * 10 : Nat)
      -- the vector is limited to V_DC / √3
      let limited := decide (3 * (vd * vd + vq * vq) > lim * lim)
      let mag : Rat := isqrt ((3 * (vd * vd + vq * vq)).floor.toNat)
      let f : Rat := if limited ∧ mag > 0 then lim / mag else 1
      let vd' := vd * f
      let vq' := vq * f
      let uj := (3 * (vd' * id + vq' * iq) / 2 / s.fcl k).floor
      { d with
        vd := vd', vq := vq'
        qi := if limited then d.qi else d.qi + s.kiI k * eq * t
        di := if limited ∨ brushed then d.di else d.di + s.kiI k * ed * t
        energy := if inMotion d.state then ((d.energy : Int) + uj).toNat else d.energy
        pwm := s.modulate k vd' (sg * vq') a lim }
  let s := s.setDoor k d
  if 2 ≤ ovc then s.fault k zOvercurrent else s

/-! ### Speed loop and profile -/

/-- The direction of the present profile: +1 towards open or deployed, −1 towards closed or stowed (R243). -/
def State.profDir (s : State) (k : Nat) : Int :=
  let d := s.door k
  match d.state with
  | 2 => 1 | 3 => 1 | 5 => -1 | 7 => -1 | 0x11 => 1 | 0x13 => -1
  | 6 => if d.react = 1 then -1 else 1
  | _ => if 0 ≤ d.target - s.pos k then 1 else -1

/-- R254. Currents in the Stop phase are limited by `I_MAX` only. -/
def Door.stopping (d : Door) : Bool := d.react == 1

/-- R223, R230, R232, R252. Bounds of the q reference in mA: `I_MAX`, the holding force while standing, and the lock-zone
force in the direction of motion. -/
def State.iqBounds (s : State) (k : Nat) : Rat × Rat :=
  let d := s.door k
  let im : Rat := (s.iMax k : Nat)
  let c := s.newtonPerA k
  let byForce (f : Rat) : Rat := min im (if c > 0 then f / c * 1000 else im)
  if d.stopping then (-im, im)
  else if d.drv = 2 ∧ d.vRef = 0 then
    let f : Rat := if s.isDoor k then (s.geoN k 18 18 : Nat) else (s.geoN k 10 10 : Nat) / 2
    (-(byForce f), byForce f)
  else if d.state = dLocking ∨ (s.inZone k ∧ (d.state = tStowing ∨ (s.isDoor k ∧ (inMotion d.state ∨ d.state = dReversing)))) then
    let f : Rat := if s.isDoor k then (s.obsN k 18 18 2 150 150 : Nat) else (s.geoN k 10 10 : Nat)
    if 0 ≤ s.profDir k then (-im, byForce f) else (-(byForce f), im)
  else (-im, im)

/-- R217, R220, R223. The 2 kHz instant: the position enters the speed average, and the speed loop sets the q reference. -/
def State.speedLoop (s : State) (k : Nat) : State :=
  let x := s.pos k
  let s := s.modDoor k fun d => { d with hist := (x :: d.hist).take 9 }
  let d := s.door k
  let s :=
    if d.en || d.speed != 0 then s.modDoor k fun d => { d with lowAt := none }
    else if d.lowAt.isNone then s.modDoor k fun d => { d with lowAt := some s.time.mono } else s
  if !d.en then s
  else
    let e := (d.vCmd - d.speed * 1000) / 1000000 / s.rad k
    let raw := (s.kpW k * e) * 1000 + d.wi
    let (lo, hi) := s.iqBounds k
    let lim := if raw < lo then lo else if raw > hi then hi else raw
    s.modDoor k fun d => { d with iqRef := lim, wi := if lim = raw then d.wi + s.kiW k * e * 1000 / 2000 else d.wi }

/-- R253. v_max(x) in µm/s. -/
def State.vMax (s : State) (k : Nat) : Int :=
  let near := decide (s.pos k ≤ (s.obsN k 16 18 2 0 0 * 10 : Nat)) && s.isDoor k
  let e : Nat := if near then s.obsN k 14 4 2 100 50 else s.obsN k 12 4 2 100 50
  let m := s.mEff k
  if m > 0 then (isqrt (((e : Rat) / 5 / m * 1000000000000).floor.toNat) : Nat) else 0

/-- R224, R230. The state's speed in µm/s. -/
def State.stateSpeed (s : State) (k : Nat) : Nat :=
  let d := s.door k
  if s.isDoor k then
    let creep := s.geoN k 10 10
    if d.state = dUnlocking ∨ d.state = dLocking ∨ !d.posValid then creep * 1000
    else if d.state = dClosing then (if d.nudge then s.geoN k 8 8 * 500 else s.geoN k 8 8 * 1000)
    else s.geoN k 6 6 * 1000
  else if !d.posValid then s.geoN k 4 4 * 250
  else s.geoN k 4 4 * 1000

/-- R224. Speed limit of the lock zone in µm/s, with the way to it at `ACC`; `none`: no limit here. -/
def State.zoneSpeed (s : State) (k : Nat) (dir : Int) : Option Nat :=
  let d := s.door k
  let x := s.pos k
  let lz := s.lockZone k
  if !d.posValid then none
  else
    let creep := if s.isDoor k then s.geoN k 10 10 * 1000 else s.geoN k 4 4 * 250
    let applies := s.isDoor k || d.state == tStowing
    if !applies then none
    else if x ≤ lz then some creep
    else if dir < 0 then some (isqrt (creep * creep + 20000 * s.accel k * (x - lz).toNat))
    else none

/-- R224. The cruise speed in µm/s: the lowest of the state's speed, the zone speed and v_max, of which `SPEED_PCT`
applies. -/
def State.cruise (s : State) (k : Nat) (dir : Int) : Int :=
  let v := min (s.stateSpeed k : Int) (s.vMax k)
  let v := match s.zoneSpeed k dir with | some z => min v (z : Int) | none => v
  v * (s.speedPct k : Nat) / 100

/-- R218, R224. Replans from the measured position and the present reference speed, by at most `ACC` × 1 ms. -/
def State.replan (s : State) (k : Nat) : State :=
  let d := s.door k
  if !d.en then s
  else
    let x := s.pos k
    let dist := d.target - x
    let dir : Int := if dist < 0 then -1 else 1
    let go := d.drv = 1 ∧ s.driveOk k ∧ (d.posValid ∨ dir < 0)
    let brake : Int := if d.state = dLocking then s.cruise k dir
      else (isqrt (20000 * s.accel k * dist.natAbs) : Nat)
    let want : Int := if go then dir * min (s.cruise k dir) brake else 0
    let acc : Int := (s.accel k : Nat)
    let v : Int := if d.stopping then 0 else max (d.vRef - acc) (min (d.vRef + acc) want)
    let e := d.plan - x
    let plan : Int := if v = 0 then (if d.vRef = 0 then d.plan else x) else x + v / 10000
    s.modDoor k fun d =>
      { d with vRef := v, plan, vCmd := (v : Rat) + (if d.stopping then 0 else s.kpX k * e * 10)
               constAt := if v = d.vRef then d.constAt else s.time.mono }

/-! ### Force -/

/-- R244. The bin of a position. -/
def State.binOf (s : State) (k : Nat) : Nat :=
  let x := s.pos k
  let X := s.travel k
  if x < 0 ∨ X = 0 then 0 else min 255 (x.toNat * 256 / X)

/-- R243. Direction index: 0 towards open or deployed, 1 towards closed or stowed. -/
def State.dirIx (s : State) (k : Nat) : Nat := if 0 ≤ s.profDir k then 0 else 1

/-- R243. The force before the reference is subtracted, in N. -/
def State.rawForce (s : State) (k : Nat) : Rat :=
  let d := s.door k
  let sg : Rat := (s.profDir k : Int)
  sg * s.newtonPerA k * d.iqMean / 1000 - s.mEff k * sg * d.accel / 1000

/-- R245. A learning run uses no reference. -/
def State.refForce (s : State) (k : Nat) : Rat :=
  let d := s.door k
  if d.run = 2 ∨ !d.ref then 0 else (mget 0 d.adap (s.dirIx k * 256 + s.binOf k) : Int) / 10

/-- R251, R244, R245. The force limit in N of the present bin. -/
def State.forceLimit (s : State) (k : Nat) : Rat :=
  let d := s.door k
  let f : Rat :=
    if d.run = 2 ∨ !d.ref then (s.obsN k 20 6 2 250 250 : Nat)
    else
      let e := if s.isDoor k then s.dieN (chSlot k) 0x0403 k (2 * s.binOf k) 2 0 else 0
      if e = 0 then (s.obsN k 0 0 2 100 150 : Nat) else (e : Nat)
  if d.nudge then f / 2 else f

/-- R232. The target extension E of a step in 0.01 mm under its profile in force. -/
def State.extE (s : State) (k : Nat) (p : Nat) : Nat := min (s.geoN k 0 0) (s.profN k p 2 2) * 10

/-- R251. Detection is armed. -/
def State.armed (s : State) (k : Nat) : Bool :=
  let d := s.door k
  match d.state with
  | 5 => true
  | 0x11 => decide (s.pos k < (s.extE k d.prof / 2 : Nat))
  | 0x13 => !s.inZone k
  | _ => false

/-- Table 9.2. A sensitive edge is operated. -/
def State.edgeHit (s : State) (k : Nat) : Bool :=
  let d := s.door k
  if s.isDoor k then (bit d.loc 4 && bit (s.inUse k) 4) || (bit d.loc 5 && bit (s.inUse k) 5)
  else bit d.loc 4 && bit (s.inUse k) 4

/-- A timer that runs while `c` holds. -/
def since (t : Option Nat) (c : Bool) (now : Nat) : Option Nat := if c then some (t.getD now) else none

/-- The timer has run for `n` ns. -/
def ranFor (t : Option Nat) (n now : Nat) : Bool := match t with | some t0 => decide (t0 + n ≤ now) | none => false

/-- R251. Ns for which force and deficit must last. -/
def State.detNs (s : State) (k : Nat) : Nat := s.obsN k 2 2 1 10 10 * 1000000
def State.defNs (s : State) (k : Nat) : Nat := s.dieN (chSlot k) 0x0402 k 4 2 100 * 1000000

/-- R245, R251. The speed-deficit criterion applies: to doors, outside a learning run. -/
def State.deficitOn (s : State) (k : Nat) : Bool := s.isDoor k && (s.door k).run != 2

/-- R251. A criterion of Table 9.2 is met now. -/
def State.detected (s : State) (k : Nat) : Bool :=
  let d := s.door k
  s.armed k && (s.edgeHit k || ranFor d.forceAt (s.detNs k) s.time.mono ||
    (s.deficitOn k && ranFor d.defAt (s.defNs k) s.time.mono))

/-- Adds one sample to a sum per bin. -/
def addBin (m : List (Nat × (Rat × Nat))) (i : Nat) (x : Rat) : List (Nat × (Rat × Nat)) :=
  let p := mget (0, 0) m i
  mset (0, 0) m i (p.1 + x, p.2 + 1)

/-- R243, R245, R247, R251. The 500 µs estimate: F_est, the sums of learning and adaptation, and the timers of the
criteria. -/
def State.estimate (s : State) (k : Nat) : State :=
  let s := s.modDoor k fun d =>
    { d with iqMean := if d.iqN = 0 then (d.iq : Rat) else (d.iqSum : Rat) / d.iqN, iqSum := 0, iqN := 0 }
  let d := s.door k
  if !(inMotion d.state || d.state == dReversing) then s.modDoor k fun d => { d with force := 0, forceAt := none, defAt := none }
  else
    let raw := s.rawForce k
    let f := raw - s.refForce k
    let i := s.dirIx k * 256 + s.binOf k
    let now := s.time.mono
    let fast : Rat := (s.profDir k : Int) * d.speed * 1000
    let pct : Nat := s.dieN (chSlot k) 0x0402 k 3 1 50
    let slow := s.deficitOn k && pct != 0 && decide (d.constAt + 50000000 ≤ now) && d.vRef != 0 &&
      decide (fast * 100 < (pct : Rat) * (d.vRef.natAbs : Nat))
    let past := d.state == tDeploying && decide ((s.extE k d.prof / 2 : Nat) ≤ s.pos k)
    s.modDoor k fun d =>
      { d with
        force := f
        forceAt := since d.forceAt (s.armed k && decide (f > s.forceLimit k)) now
        defAt := since d.defAt (s.armed k && slow) now
        contAt := since d.contAt (past && decide (f > (s.geoN k 10 10 : Nat))) now
        fPeak := if f > (d.fPeak : Rat) then f.floor.toNat else d.fPeak
        cur := if d.run = 2 then addBin d.cur i raw else d.cur
        stroke := if d.strokeOk && !s.inZone k then addBin d.stroke i raw else d.stroke }

/-! ### Learning and adaptation -/

/-- R245. The mean of a bin, or of its nearest sampled neighbours on each side. -/
def binMean (m : List (Nat × (Rat × Nat))) (dir b : Nat) : Rat :=
  let at_ (i : Nat) : Option Rat := let p := mget (0, 0) m (dir * 256 + i); if p.2 = 0 then none else some (p.1 / p.2)
  match at_ b with
  | some x => x
  | none =>
    let lo := ((List.range b).reverse.filterMap at_).head?
    let hi := (((List.range 256).drop (b + 1)).filterMap at_).head?
    match lo, hi with
    | some x, some y => (x + y) / 2
    | some x, none => x
    | none, some y => y
    | none, none => 0

/-- R245. A cycle of a learning run ends: its means are kept. -/
def State.learnCycle (s : State) (k : Nat) : State :=
  let d := s.door k
  let m := (List.range 512).foldl (fun m i => mset 0 m (d.cycles * 512 + i) (binMean d.cur (i / 256) (i % 256))) d.means
  (s.modDoor k fun d => { d with means := m, cur := [], cycles := d.cycles + 1 }).fset Reg.LEARN_STAT_CYCLE_NO (d.cycles + 1)

/-- R246. The five means of a bin. -/
def Door.five (d : Door) (i : Nat) : List Rat := (List.range 5).map fun c => mget 0 d.means (c * 512 + i)

/-- R246. The decision at the end of the fifth cycle. The baselines go out last: each of them sets the count of adapted strokes back
to 0 (R249). -/
def State.learnEnd (s : State) (k : Nat) : State :=
  let d := s.door k
  let lim : Rat := (s.obsN k 22 8 2 30 30 : Nat)
  let spread (i : Nat) : Bool :=
    let l := d.five i
    decide (l.foldl max (l.getD 0 0) - l.foldl min (l.getD 0 0) > lim)
  match (List.range 512).find? spread with
  | some i => s.endRun k 3 (i % 256)
  | none =>
    let m := (List.range 512).foldl (fun m i => mset 0 m i (nearest ((d.five i).sum / 5 * 10))) []
    let s := s.modDoor k fun d => { d with base := m, adap := m, ref := true, learned := true }
    let s := s.endRun k 1 0
    let s := s.fset Reg.PROF_STAT_DRIFT (putBit (s.fget Reg.PROF_STAT_DRIFT) k false)
    (((s.sendProfile k 0 true).sendProfile k 1 true).sendProfile k 0 false).sendProfile k 1 false

/-- R247, R248. A stroke ends in state `st`: a qualifying stroke adapts every bin it traversed. -/
def State.strokeEnd (s : State) (k st : Nat) : State :=
  let d := s.door k
  let ends := (d.strokeFrom = dOpen ∧ st = dLocked) ∨ (d.strokeFrom = dLocked ∧ st = dOpen) ∨
    (d.strokeFrom = tStowed ∧ st = tDeployed) ∨ (d.strokeFrom = tDeployed ∧ st = tStowed)
  let on := s.obsN k 24 10 1 1 1 = 1
  let s := s.modDoor k fun d => { d with strokeOk := false, stroke := [] }
  if d.strokeOk ∧ ends ∧ on ∧ d.learned ∧ d.run = 0 then
    let dir := if st = dOpen ∨ st = tDeployed then 0 else 1
    let step (acc : List (Nat × Int) × Option Nat) (p : Nat × (Rat × Nat)) : List (Nat × Int) × Option Nat :=
      if p.1 / 256 ≠ dir then acc
      else
        let a := mget 0 acc.1 p.1
        let b := mget 0 d.base p.1
        let r := p.2.1 / p.2.2 * 10
        let v := nearest ((a : Rat) + (r - a) / 256)
        let c := max (b - 250) (min (b + 250) v)
        (mset 0 acc.1 p.1 c, if (c = b - 250 ∨ c = b + 250) ∧ acc.2.isNone then some (p.1 % 256) else acc.2)
    let (m, drift) := d.stroke.foldl step (d.adap, none)
    let s := (s.modDoor k fun d => { d with adap := m }).sendProfile k dir true
    match drift with
    | none => s
    | some b =>
      let s := s.fset Reg.PROF_STAT_DRIFT (s.fget Reg.PROF_STAT_DRIFT ||| 2 ^ k)
      if d.driftRec then s
      else (s.modDoor k fun d => { d with driftRec := true }).recordFrom cPROFILE_DRIFT (chSlot k) 31
        (leBytes 1 k ++ leBytes 1 dir ++ leBytes 2 b)
  else s

end Sys2Proof.Machine
end

