-- ==== Sys2Proof/Machine/DoorRows.lean ====
section
/-! DEFINITION. The door and step state machines (R226 to R239, Tables 8.11 and 8.12), the obstacle reaction (R254, R255),
test cycles and learning runs (R245, R250), and what a door die does at an applied COMMIT, at silence and in shadow mode. -/

namespace Sys2Proof.Machine

/-! ### Pauses -/

/-- Table 8.5, R236. Timers pause while the channel is frozen and go on from their paused value. -/
def State.repause (s : State) (k : Nat) : State :=
  let d := s.door k
  let now := s.time.mono
  match s.frozenCh k, d.pauseAt with
  | true, none => s.modDoor k fun d => { d with pauseAt := some now, forceAt := none, defAt := none, contAt := none }
  | false, some p =>
    let w := now - p
    s.modDoor k fun d => { d with pauseAt := none, entAt := d.entAt + w, waitAt := d.waitAt + w, holdAt := d.holdAt + w }
  | _, _ => s

/-- `Dk_EN` and the gate commands go low; the drive request stays, and a later motion replans from zero speed (R237). -/
def State.gatesOff (s : State) (k : Nat) : State :=
  s.modDoor k fun d => { d with en := false, gates := false, vRef := 0, vCmd := 0, iqRef := 0, wi := 0, di := 0, qi := 0, vd := 0,
                                vq := 0, pwm := [] }

/-- R226, R235. The channel becomes passive, or ceases to be. -/
def State.setPassive (s : State) (k : Nat) (b : Bool) : State :=
  if b then ((s.gatesOff k).modDoor k fun d => { d with passive := true }).repause k
  else (s.modDoor k fun d => { d with passive := false }).repause k

/-! ### Homing and the first state -/

/-- R218. Homes the position. -/
def State.homePos (s : State) (k : Nat) : State :=
  s.modDoor k fun d => { d with ofs := 0, cnt := 0, hist := [], posValid := true, diverge := false, plausAt := none }

/-- R218, R229. IN0 and IN1 have both been 1 for `PLAUS_MS`. -/
def State.heldBoth (s : State) (k : Nat) : Bool := ranFor (s.door k).both (s.plausNs k) s.time.mono

/-- Door or step code of a state. -/
def State.code (s : State) (k door step : Nat) : Nat := if s.isDoor k then door else step

/-- R229, R232. The first state from the debounced inputs. -/
def State.firstState (s : State) (k : Nat) : State :=
  let s := s.drive k 0
  if bit (s.door k).loc 3 then s.enter k (s.code k dIsolated tIsolated) 0
  else if s.heldBoth k then (s.homePos k).enter k (s.code k dLocked tStowed) 0
  else s.enter k (s.code k dHalted tHalted) zPosUnknown

/-- R247. Entry to an end of a stroke. -/
def State.arrive (s : State) (k st : Nat) : State :=
  (s.strokeEnd k st).enter k st 0

/-- R218. Both switches held: home and take the closed or stowed state, with `Dk_EN` low. -/
def State.lockNow (s : State) (k : Nat) : State := ((s.drive k 0).homePos k).arrive k (s.code k dLocked tStowed)

/-- R247. Conditions a stroke must meet throughout. -/
def State.strokeFit (s : State) (k : Nat) : Bool :=
  let d := s.door k
  s.obsN k 24 10 1 1 1 == 1 && d.attempt == 0 && !s.edgeHit k && !d.nudge && !d.dcLow && d.posValid && d.learned && d.run == 0

/-- R247. A stroke starts from state `st`. -/
def State.strokeStart (s : State) (k st : Nat) : State :=
  let ok := s.strokeFit k
  s.modDoor k fun d => { d with strokeFrom := st, strokeOk := ok, stroke := [] }

/-- R218. Target of a motion towards closed or stowed: position 0, or while the position is unknown as far as it goes. -/
def State.shutGoal (s : State) (k : Nat) : Int := if (s.door k).posValid then 0 else -100000000

/-- A profile has ended: the leaf or step stands (DEDUCED from Tables 8.13 and 9.4, where a motion ends with its ramp). -/
def Door.settled (d : Door) : Bool := d.vRef == 0 || d.speed == 0

/-! ### Commands of the block -/

/-- R227. A command whose `CMD_SEQ` differs from the one last acted on. -/
def State.newCmd (s : State) (k : Nat) : Option Nat := if s.cmdB k 1 = (s.door k).acted then none else some (s.cmdB k 0)

/-- R227. The present `CMD_SEQ` counts as acted on. -/
def State.actOn (s : State) (k : Nat) : State := s.modDoor k fun d => { d with acted := s.cmdB k 1 }

/-- R227. A command without a row is ignored, with event `CMD_REFUSED`. -/
def State.refuseCmd (s : State) (k : Nat) : State := (s.actOn k).doorEvent k vCmdRefused

/-- R250, R245. Starts a test cycle (1) or a learning run (2). -/
def State.startRun (s : State) (k kind : Nat) : State :=
  let s := s.modDoor k fun d => { d with run := kind, goal := if kind = 1 then 1 else 3, cycles := 0, cur := [], means := [] }
  if kind = 2 then
    (((s.fset Reg.LEARN_STAT_CHANNEL k).fset Reg.LEARN_STAT_CYCLE_NO 0).fset Reg.LEARN_STAT_BUSY 1).fset Reg.LEARN_STAT_RESULT 0
  else s

/-- R227, Tables 8.11, 8.12. Commands 5 and 6 with `MAINT` = 1; anything else left over is refused. -/
def State.restCmd (s : State) (k : Nat) (c : Option Nat) (runOk : Bool) : State :=
  match c with
  | none => s
  | some 0 => s.actOn k
  | some 5 => if runOk && s.ctrl k 2 then (s.actOn k).startRun k 1 else s.refuseCmd k
  | some 6 => if runOk && s.ctrl k 2 then (s.actOn k).startRun k 2 else s.refuseCmd k
  | some _ => s.refuseCmd k

/-! ### Reactions -/

/-- R254, R255. A detection: `ATTEMPT` + 1, event `OBSTACLE`, the Stop phase begins. A run ends. -/
def State.detect (s : State) (k : Nat) : State :=
  let s := s.modDoor k fun d => { d with attempt := min 255 (d.attempt + 1), strokeOk := false }
  if (s.door k).run = 0 then s else s.endRun k 2 0

/-- Table 9.3, Stop phase: the speed reference is zero at once. -/
def Door.brake (d : Door) : Door := { d with react := 1, vRef := 0, vCmd := 0, wi := 0 }

/-- R254. A detection in `CLOSING`. -/
def State.reactDoor (s : State) (k : Nat) : State :=
  let s := (s.detect k).enter k dReversing zObstacle
  (s.modDoor k fun d => { d.brake with drv := 1 }).doorEvent k vObstacle

/-- R234, R255. A detection in `DEPLOYING` before E / 2, or in `STOWING`. -/
def State.reactStep (s : State) (k : Nat) : State :=
  let s := s.detect k
  let st := (s.door k).state
  if st = tStowing ∧ s.nMax k ≤ (s.door k).attempt then
    (((s.drive k 2).enter k tHalted zObstacleLimit).modDoor k fun d => d.brake).doorEvent k vObstacle
  else
    let s := if st = tStowing then s.modDoor k fun d => { d with prof := s.cmdB k 3 } else s
    let (to_, x) : Nat × Int := if st = tStowing then (tDeploying, (s.extE k (s.door k).prof : Nat)) else (tStowing, s.shutGoal k)
    let s := (s.driveTo k x).enter k to_ 0
    (s.modDoor k fun d => d.brake).doorEvent k vObstacle

/-- R218, R254. The reaction goes on: Stop, Reverse, Wait, then retry or halt. While the position is unknown nothing moves towards open,
and Reverse is empty (DEDUCED). -/
def State.reverseGo (s : State) (k : Nat) : State :=
  let d := s.door k
  let now := s.time.mono
  if d.react = 1 then
    if d.speed ≠ 0 then s
    else
      let rev : Int := (s.obsN k 6 6 2 1000 0 * 10 : Nat)
      let goal := min (s.pos k + rev) (s.travel k : Nat)
      let s := s.modDoor k fun d => { d with react := 2, revTarget := goal }
      if rev = 0 ∨ !d.posValid then s.modDoor k fun d => { d with react := 3, waitAt := now, drv := 2 } else s.driveTo k goal
  else if d.react = 2 then
    if (d.revTarget - s.pos k).natAbs ≤ 200 ∧ d.settled then s.modDoor k fun d => { d with react := 3, waitAt := now, drv := 2 } else s
  else s

/-- R254. `T_WAIT_MS` in ns. -/
def State.waitNs (s : State) (k : Nat) : Nat := s.dieN (chSlot k) 0x0402 k 8 2 2000 * 1000000

/-- R254. Retry or halt. -/
def State.reverseEnd (s : State) (k : Nat) : State :=
  if (s.door k).attempt < s.nMax k then (s.driveTo k (s.shutGoal k)).enter k dClosing 0
  else (s.drive k 2).enter k dHalted zObstacleLimit

/-- R231. The abort action of a moving channel, at standstill. -/
def State.abortEnd (s : State) (k : Nat) : State :=
  let d := s.door k
  let s := s.modDoor k fun d => { d with aborting := false }
  let end_ : Int := if s.isDoor k then (s.travel k : Nat) else (s.extE k d.prof : Nat)
  if bit d.loc 0 && bit d.loc 1 then (s.drive k 0).enter k (s.code k dLocked tStowed) 0
  else if d.posValid ∧ (end_ - s.pos k).natAbs ≤ 200 then s.enter k (s.code k dOpen tDeployed) 0
  else s.enter k (s.code k dHalted tHalted) zAbort

/-- R231. The abort action begins. -/
def State.abortRun (s : State) (k : Nat) : State :=
  let s := if (s.door k).run = 0 then s else s.endRun k 4 0
  let st := (s.door k).state
  if inMotion st || st == dReversing then (s.drive k 2).modDoor k fun d => { d with aborting := true, react := 0 } else s

/-! ### Runs -/

/-- R245, R250. The goal of a run is reached, and the next follows. -/
def State.runGoal (s : State) (k : Nat) : State :=
  let d := s.door k
  let door := s.isDoor k
  let closed := d.state = dLocked ∨ d.state = dReleased ∨ d.state = tStowed
  let opened := (d.state = dOpen ∧ (((s.travel k : Nat) : Int) - s.pos k).natAbs ≤ 200) ∨ d.state = tDeployed
  let goal (g : Nat) : State := s.modDoor k fun d => { d with goal := g, holdAt := s.time.mono }
  let cycleDone : State :=
    let s := s.learnCycle k
    if (s.door k).cycles < 5 then s.modDoor k fun d => { d with goal := 3 } else s.learnEnd k
  match d.goal with
  | 1 => if !opened then s else if d.run = 1 then goal (if door then 2 else 4) else if door then goal 4 else cycleDone
  | 3 => if closed then goal 1 else s
  | 4 => if !closed then s else if d.run = 1 then s.endRun k 1 0 else cycleDone
  | _ => s

/-- R245, R250. The command a run gives the rows in its present state. -/
def Door.runCmd (d : Door) : Option Nat :=
  match d.goal with
  | 1 => if [dLocked, dReleased, dHalted, dOpen, tStowed].contains d.state then some 1 else none
  | 3 => if [dOpen, dHalted, tDeployed, tHalted].contains d.state then some 2 else none
  | 4 => if [dOpen, dHalted, tDeployed, tHalted].contains d.state then some 2 else none
  | _ => none

/-! ### Rows -/

/-- Table 8.16, 8.17. The stroke or lock-movement timer of the present state, in ns. -/
def State.moveNs (s : State) (k : Nat) : Nat :=
  let st := (s.door k).state
  (if st = dUnlocking ∨ st = dLocking then s.geoN k 14 8 else s.geoN k 16 8) * 1000000

/-- The timer of the motion state has expired. -/
def State.moveOver (s : State) (k : Nat) : Bool :=
  inMotion (s.door k).state && decide (s.moveNs k ≤ (s.door k).inState s.time.mono)

/-- Tables 8.11, 8.12. The stop to `HALTED` or `STEP_HALTED`. -/
def State.haltCh (s : State) (k cause : Nat) : State := (s.drive k 2).enter k (s.code k dHalted tHalted) cause

/-- The last rows of both tables: the motion timers, `CMD` 3, and the commands without a row. -/
def State.lastRows (s : State) (k : Nat) (c : Option Nat) (mine : Bool) : State :=
  let st := (s.door k).state
  if s.moveOver k then s.haltCh k zTimeout
  else if (inMotion st || st == dReversing) && c == some 3 then (s.actOn k).haltCh k zStopCmd
  else if mine then s
  else s.restCmd k c ([dLocked, dReleased, dOpen, dHalted, tStowed, tDeployed, tHalted].contains st)

/-- Table 8.11, the rows by state; `c`: a new command, `mine`: it is a run's own; `r`: inputs that rose. -/
def State.doorRow (s : State) (k : Nat) (c : Option Nat) (mine : Bool) (r : Nat) : State :=
  let d := s.door k
  let x := s.pos k
  let lz := s.lockZone k
  let stroke : Int := (s.travel k : Nat)
  let rel := s.ctrl k 0
  let ack (s : State) : State := if mine then s else s.actOn k
  let is (n : Nat) : Bool := c == some n
  match d.state with
  | 0 =>
    let p := s.cmdB k 3
    let masked := bit (s.profN k p 4 2) k
    if rel && masked then
      let s := if is 1 then ack s else s
      let s := (s.strokeStart k dLocked).enter k dReleased 0
      s.modDoor k fun d => { d with prof := p, pendOpen := is 1 || s.ctrl k 3, maskConf := false }
    else
      let s :=
        if rel && !masked then
          if d.maskConf then s
          else ((s.modDoor k fun d => { d with maskConf := true }).fon (Reg.DRV_FLAGS_MASK_CONFLICT (k / 4))).doorEvent k vMaskConflict
        else s.modDoor k fun d => { d with maskConf := false }
      s.lastRows k c mine
  | 1 =>
    if !rel then s.enter k dLocked 0
    else
      let pend := d.pendOpen || is 1 || (bit r 6 && s.ctrl k 4)
      let s := if is 1 then ack s else s
      if pend && s.ctrl k 5 then
        let s := s.modDoor k fun d => { d with prof := s.cmdB k 3, waitStep := false, pendOpen := false }
        (s.driveTo k stroke).enter k dUnlocking 0
      else if pend then
        let s := s.modDoor k fun d => { d with pendOpen := true }
        let s := if d.waitStep then s else (s.modDoor k fun d => { d with waitStep := true }).doorEvent k vWaitStep
        -- a command without a row is refused; 5 and 6 have one, which comes after this row
        if mine || is 1 || (s.ctrl k 2 && (is 5 || is 6)) then s else s.restCmd k c false
      else s.lastRows k c mine
  | 2 =>
    if x > lz ∧ !bit d.loc 0 then (s.driveTo k stroke).enter k dOpening 0
    else if !rel || is 2 then ((if is 2 then ack s else s).driveTo k (s.shutGoal k)).enter k dLocking 0
    else s.lastRows k c mine
  | 3 =>
    if (stroke - x).natAbs ≤ 200 ∧ d.settled then (s.drive k 2).arrive k dOpen
    else if !rel || is 3 then ((if is 3 then ack s else s).drive k 2).arrive k dOpen
    else if is 2 then ((ack s).driveTo k (s.shutGoal k)).enter k dClosing 0
    else s.lastRows k c mine
  | 4 =>
    if is 1 ∧ rel ∧ x < stroke then ((ack s).driveTo k stroke).enter k dOpening 0
    else if is 2 then
      let s := (ack s).modDoor k fun d => { d with attempt := 0 }
      ((s.strokeStart k dOpen).driveTo k (s.shutGoal k)).enter k dClosing 0
    else s.lastRows k c mine
  | 5 =>
    if s.detected k then s.reactDoor k
    else if bit r 6 && rel && s.ctrl k 4 then (s.driveTo k stroke).enter k dOpening zPushbutton
    else if is 3 then (ack s).haltCh k zStopCmd
    else if x ≤ lz then (s.driveTo k (-100000000)).enter k dLocking 0
    else s.lastRows k c mine
  | 6 =>
    let s := s.reverseGo k
    if (s.door k).react = 3 ∧ (s.door k).waitAt + s.waitNs k ≤ s.time.mono then s.reverseEnd k else s.lastRows k c mine
  | 7 => if s.heldBoth k ∧ x ≤ lz then s.lockNow k else s.lastRows k c mine
  | 8 =>
    if is 2 ∧ !bit d.loc 2 then
      let s := (ack s).modDoor k fun d => { d with attempt := 0 }
      (s.driveTo k (s.shutGoal k)).enter k dClosing 0
    else if is 1 ∧ rel ∧ d.posValid ∧ !bit d.loc 2 then ((ack s).driveTo k stroke).enter k dOpening 0
    else if s.heldBoth k then s.lockNow k
    else s.lastRows k c mine
  | 9 => if bit d.loc 3 then s.lastRows k c mine else s.firstState k
  | _ => s.lastRows k c mine

/-- Table 8.12, the rows by state. -/
def State.stepRow (s : State) (k : Nat) (c : Option Nat) (mine : Bool) : State :=
  let d := s.door k
  let x := s.pos k
  let ack (s : State) : State := if mine then s else s.actOn k
  let is (n : Nat) : Bool := c == some n
  match d.state with
  | 0x10 =>
    let e := s.extE k (s.cmdB k 3)
    if is 1 && s.ctrl k 0 && decide (0 < e) then
      let s := (ack s).modDoor k fun d => { d with prof := s.cmdB k 3, contact := false }
      ((s.strokeStart k tStowed).driveTo k e).enter k tDeploying 0
    else s.lastRows k c mine
  | 0x11 =>
    let e : Int := (s.extE k d.prof : Nat)
    let s := if d.react = 1 ∧ d.speed = 0 then s.modDoor k fun d => { d with react := 0 } else s
    if ((e - x).natAbs ≤ 200 ∧ d.settled ∧ (s.door k).react = 0) ∨ bit d.loc 7 then (s.drive k 2).arrive k tDeployed
    else if ranFor d.contAt 10000000 s.time.mono then
      let s := (s.drive k 2).arrive k tDeployed
      (s.modDoor k fun d => { d with contact := true }).doorEvent k vContact
    else if s.detected k ∧ (s.door k).react = 0 then s.reactStep k
    else s.lastRows k c mine
  | 0x12 =>
    if is 2 && s.ctrl k 6 then (((ack s).strokeStart k tDeployed).driveTo k (s.shutGoal k)).enter k tStowing 0 else s.lastRows k c mine
  | 0x13 =>
    let s := if d.react = 1 ∧ d.speed = 0 then s.modDoor k fun d => { d with react := 0 } else s
    if s.heldBoth k then s.lockNow k
    else if s.detected k ∧ (s.door k).react = 0 then s.reactStep k
    else s.lastRows k c mine
  | 0x14 =>
    let s := if d.react = 1 ∧ d.speed = 0 then s.modDoor k fun d => { d with react := 0 } else s
    if is 2 && s.ctrl k 6 then ((ack s).driveTo k (s.shutGoal k)).enter k tStowing 0
    else if s.heldBoth k then s.lockNow k
    else s.lastRows k c mine
  | 0x15 => if bit d.loc 3 then s.lastRows k c mine else s.firstState k
  | _ => s.lastRows k c mine

/-- Table 8.11. The fault cause is no longer present. -/
def State.causeGone (s : State) (k : Nat) : Bool :=
  let d := s.door k
  match d.cause with
  | 1 => !d.flt
  | 2 => d.ovc == 0
  | 3 => !d.dcHigh
  | 4 => d.hall != 0 && d.hall != 7
  | 5 => decide (d.encOff < 3)
  | 6 => !d.dsm
  | 7 => !d.offBad
  | 8 => d.plausAt.isNone
  | _ => true

/-- R497. The plausibility timer follows the disagreement. -/
def State.plaus (s : State) (k : Nat) : State :=
  let d := s.door k
  let bad := d.posValid && (bit d.loc 0 || bit d.loc 1) && !s.inZone k
  s.modDoor k fun d => { d with plausAt := since d.plausAt bad s.time.mono }

/-- Table 8.10. `CLOSED_LOCKED` falls in a state of the list: event `PROOF_LOST`. -/
def State.proofCheck (s : State) (k : Nat) (was : Bool) : State :=
  let st := (s.door k).state
  if was && !s.closedLocked k && [dLocked, dReleased, dIsolated, tStowed, tIsolated].contains st then s.doorEvent k vProofLost else s

/-- The rows of Tables 8.11 and 8.12 that act in every condition but shadow mode: plausibility, IN3 and IN2 (R236).
`true`: a row was taken. -/
def State.anyRow (s : State) (k : Nat) (r : Nat) : State × Bool :=
  let d := s.door k
  let st := d.state
  let fst := s.code k dFault tFault
  let ist := s.code k dIsolated tIsolated
  if st ≠ fst ∧ ranFor d.plausAt (s.plausNs k) s.time.mono then (s.fault k zProofPlaus, true)
  else if st ≠ fst ∧ st ≠ ist ∧ bit r 3 then
    let s := if d.run = 0 then s else s.endRun k 4 0
    (((if d.en then s.drive k 3 else s.drive k 0).modDoor k fun d => { d with aborting := false }).enter k ist 0, true)
  else if s.isDoor k ∧ bit r 2 ∧ (inMotion st ∨ st ∈ [dReversing, dLocked, dReleased, dOpen, dHalted]) then
    let s := if d.run = 0 then s else s.endRun k 4 0
    (((s.drive k 0).modDoor k fun d => { d with aborting := false }).enter k dHalted zEgress, true)
  else (s, false)

/-- R230, R232, R239. One evaluation of channel `k`. -/
def State.evalCh (s : State) (k : Nat) : State :=
  if !s.chOn k || s.chShadow k then s
  else
    let s := s.plaus k
    let r := (s.door k).rise
    let s := s.modDoor k fun d => { d with rise := 0 }
    let (s, taken) := s.anyRow k r
    let s :=
      if taken || s.frozenCh k || (s.door k).awaits then s
      else
        let d := s.door k
        let fst := s.code k dFault tFault
        let maint := s.ctrl k 2
        let s := s.modDoor k fun d => { d with maintWas := maint
                                               nudge := if d.state = dClosing ∨ d.state = dLocking then s.ctrl k 7 else false }
        let new := s.newCmd k
        if d.aborting then (if d.standing then s.abortEnd k else s)
        else if d.state = fst then
          if new = some 4 ∧ s.causeGone k ∧ d.speed = 0 then (s.actOn k).firstState k else s.restCmd k new false
        else if d.maintWas && !maint then s.abortRun k
        else if d.run ≠ 0 ∧ new.isSome ∧ new ≠ some 0 then (s.actOn k).abortRun k
        else
          let s := if d.run ≠ 0 then s.runGoal k else s
          let mine := decide ((s.door k).run ≠ 0)
          let c := if mine then (s.door k).runCmd else new
          let s := if s.isDoor k then s.doorRow k c mine r else s.stepRow k c mine
          if (s.door k).strokeOk && !s.strokeFit k then s.modDoor k fun d => { d with strokeOk := false } else s
    s.enable k

/-- R230. The next 500 µs instant of a channel. -/
def State.nextTick (s : State) (last period : Nat) : Nat := max s.time.mono (last + period)

/-! ### At a COMMIT, silence, shadow mode -/

/-- R239. What a state drives towards when a channel resumes it. -/
def State.resumeDrive (s : State) (k : Nat) : State :=
  match (s.door k).state with
  | 2 => s.driveTo k (s.travel k : Nat)
  | 3 => s.driveTo k (s.travel k : Nat)
  | 4 => s.drive k 2
  | 5 => s.driveTo k (s.shutGoal k)
  | 6 => (s.drive k 2).modDoor k fun d => { d with react := 1 }
  | 7 => s.driveTo k (-100000000)
  | 0x11 => s.driveTo k (s.extE k (s.door k).prof : Nat)
  | 0x12 => s.drive k 2
  | 0x13 => s.driveTo k (s.shutGoal k)
  | _ => s

/-- R239. The first COMMIT after `SHADOW` was cleared: the channel acts on the command block from here, whose profile is the one in
force; a resumption under way takes its target from it. -/
def State.firstCommit (s : State) (k : Nat) : State :=
  if !(s.door k).awaits || s.chShadow k then s
  else
    let s := s.modDoor k fun d => { d with awaits := false, prof := s.cmdB k 3 }
    if (s.door k).resumeAt.isSome then s else s.resumeDrive k

/-- R226, R237, R239. The door die of index `n` has applied a COMMIT: `SAFE_HOLD` makes each channel passive, its absence ends
that. -/
def State.doorApply (s : State) (n : Nat) : State :=
  s.each [4 * n, 4 * n + 1, 4 * n + 2, 4 * n + 3] fun s k =>
    if s.role k = 0 then s
    else
      let s := s.firstCommit k
      let hold := bit (s.cmdB k 5) 0
      if hold then (if (s.door k).passive then s else s.setPassive k true)
      else if (s.door k).passive then s.setPassive k false else s

/-- R219. The raw level of input `i` after `POL`; an input masked out in `USE` reads 0. -/
def State.rawLocal (s : State) (k i : Nat) : Bool := (bit (s.door k).raw i != bit (s.inPol k) i) && bit (s.inUse k) i

/-- R210, R219, R229, R234, R244. A door die has been configured, or has been reset: every channel takes its first state, and the
modulator clocks of those in use run. -/
def State.doorConfigured (s : State) (n : Nat) : State :=
  s.each [4 * n, 4 * n + 1, 4 * n + 2, 4 * n + 3] fun s k =>
    let old := s.door k
    let s := s.setDoor k { vdc := old.vdc, flt := old.flt, window := old.window, raw := old.raw, driftRec := old.driftRec }
    if s.role k = 0 then s
    else
      let ref (dir : Nat) : List (Nat × Int) :=
        match s.dieRec (chSlot k) 0x0406 k with
        | some r => (List.range 256).foldl (fun m b => mset 0 m (dir * 256 + b) (sgn 16 (leAt r.data (512 * dir + 2 * b) 2))) []
        | none => []
      let has := (s.dieRec (chSlot k) 0x0406 k).isSome
      let m := ref 0 ++ ref 1
      let s := s.modDoor k fun d =>
        { d with state := s.code k dHalted tHalted, cause := zPosUnknown, entAt := s.time.mono, evalAt := s.time.mono
                 base := m, adap := m, ref := has, dsmClk := true
                 debAt := (List.range 8).foldl (fun m i => mset none m i (if s.rawLocal k i then some s.time.mono else none)) [] }
      s.repause k

end Sys2Proof.Machine
end

