-- ==== Sys2Proof/Machine/Crypto.lean ====
section
/-! DEFINITION. SHA-256 (FIPS 180-4), HMAC-SHA-256 (FIPS 198-1) and the ECDSA P-256 signature check (FIPS 186-4), the
algorithms that R86, R91, R98 and R382 name. PRESUMED: the spec names the standards and gives no algorithm text. -/

namespace Sys2Proof.Machine

/-- A 32-bit word turned to the right by each of the distances `by_`, the results added bit by bit. -/
def turned (x : Nat) (by_ : List Nat) : Nat :=
  by_.foldl (fun acc n => acc ^^^ (x + x * 2 ^ 32) / 2 ^ n % 2 ^ 32) 0

/-- The eight 32-bit words that a 256-bit number holds, the leftmost first. -/
def octet (n : Nat) : List Nat := ([7, 6, 5, 4, 3, 2, 1, 0] : List Nat).map fun i => n / 2 ^ (32 * i) % 2 ^ 32

/-- The 64 round constants of SHA-256 (FIPS 180-4, 4.2.2), eight to a number. -/
def shaK : List Nat := (([
  0x428a2f9871374491b5c0fbcfe9b5dba53956c25b59f111f1923f82a4ab1c5ed5,
  0xd807aa9812835b01243185be550c7dc372be5d7480deb1fe9bdc06a7c19bf174,
  0xe49b69c1efbe47860fc19dc6240ca1cc2de92c6f4a7484aa5cb0a9dc76f988da,
  0x983e5152a831c66db00327c8bf597fc7c6e00bf3d5a7914706ca635114292967,
  0x27b70a852e1b21384d2c6dfc53380d13650a7354766a0abb81c2c92e92722c85,
  0xa2bfe8a1a81a664bc24b8b70c76c51a3d192e819d6990624f40e3585106aa070,
  0x19a4c1161e376c082748774c34b0bcb5391c0cb34ed8aa4a5b9cca4f682e6ff3,
  0x748f82ee78a5636f84c878148cc7020890befffaa4506cebbef9a3f7c67178f2] : List Nat).map octet).flatten

/-- The initial hash value of SHA-256 (FIPS 180-4, 5.3.3). -/
def shaH0 : List Nat := octet 0x6a09e667bb67ae853c6ef372a54ff53a510e527f9b05688c1f83d9ab5be0cd19

/-- FIPS 180-4, 6.2.2. One round on the list of the working variables `a` to `h`, with the sum `kw` of round constant and schedule word:
they move down by one place, and two of them take the mixed values. -/
def shaRound (v : List Nat) (kw : Nat) : List Nat :=
  let at_ (i : Nat) : Nat := v.getD i 0
  let choose := at_ 4 &&& at_ 5 ||| (2 ^ 32 - 1 - at_ 4) &&& at_ 6
  let most := at_ 0 &&& at_ 1 ||| (at_ 0 ||| at_ 1) &&& at_ 2
  let mix := at_ 7 + turned (at_ 4) [6, 11, 25] + choose + kw
  let top := (mix + turned (at_ 0) [2, 13, 22] + most) % 2 ^ 32
  (top :: v.dropLast).set 4 ((at_ 3 + mix) % 2 ^ 32)

/-- FIPS 180-4, 6.2.2. The message schedule, newest word first, grown by `n` words from the words it holds. -/
def shaExtend : Nat → List Nat → List Nat
  | 0, w => w
  | n + 1, w =>
    let back (i : Nat) : Nat := w.getD (i - 1) 0
    let late := turned (back 2) [17, 19] ^^^ back 2 / 2 ^ 10
    let early := turned (back 15) [7, 18] ^^^ back 15 / 2 ^ 3
    shaExtend n ((back 16 + early + back 7 + late) % 2 ^ 32 :: w)

/-- The big-endian 32-bit words of a byte string. -/
def beWords : List Byte → List Nat
  | a :: b :: c :: d :: t => beNat [a, b, c, d] :: beWords t
  | _ => []

/-- One 64-byte block. -/
def shaBlock (h : List Nat) (blk : List Byte) : List Nat :=
  let kw := List.zipWith (· + ·) shaK (shaExtend 48 (beWords blk).reverse).reverse
  List.zipWith (fun x y => (x + y) % 2 ^ 32) h (kw.foldl shaRound h)

/-- `n` blocks of a padded message. -/
def shaBlocks : Nat → List Nat → List Byte → List Nat
  | 0, h, _ => h
  | n + 1, h, l => shaBlocks n (shaBlock h (l.take 64)) (l.drop 64)

/-- SHA-256: 32 bytes. -/
def sha256 (l : List Byte) : List Byte :=
  let pad := (55 + 64 - l.length % 64) % 64
  let m := l ++ [0x80#8] ++ List.replicate pad 0#8 ++ beBytes 8 (l.length * 8)
  ((shaBlocks (m.length / 64) shaH0 m).map (beBytes 4)).flatten

/-- HMAC-SHA-256 under a key of at most 64 bytes. -/
def hmac256 (key msg : List Byte) : List Byte :=
  let k := key ++ List.replicate (64 - key.length) 0#8
  sha256 (k.map (· ^^^ 0x5C#8) ++ sha256 (k.map (· ^^^ 0x36#8) ++ msg))

/-- The field prime of P-256. -/
def p256P : Nat := 0xffffffff00000001000000000000000000000000ffffffffffffffffffffffff
/-- The group order of P-256. -/
def p256N : Nat := 0xffffffff00000000ffffffffffffffffbce6faada7179e84f3b9cac2fc632551
/-- The curve coefficient b of P-256. -/
def p256B : Nat := 0x5ac635d8aa3a93e7b3ebbd55769886bc651d06b0cc53b0f63bce3c3e27d2604b
/-- The base point of P-256. -/
def p256G : Nat × Nat :=
  (0x6b17d1f2e12c4247f8bce6e563a440f277037d812deb33a0f4a13945d898c296,
   0x4fe342e2fe1a7f9b8ee7eb4a7c0f9e162bce33576b315ececbb6406837bf51f5)

/-- `x` to the power `e` modulo `m`, over `n` bits of `e`. -/
def powMod (m : Nat) : Nat → Nat → Nat → Nat
  | 0, _, _ => 1 % m
  | n + 1, x, e => (if e % 2 = 1 then x else 1) * powMod m n (x * x % m) (e / 2) % m

/-- The inverse modulo a prime (Fermat). -/
def invMod (m x : Nat) : Nat := powMod m 256 (x % m) (m - 2)

/-- Sum of two curve points; `none` is the point at infinity. -/
def ecAdd : Option (Nat × Nat) → Option (Nat × Nat) → Option (Nat × Nat)
  | none, q => q
  | p, none => p
  | some (x1, y1), some (x2, y2) =>
    if x1 = x2 ∧ (y1 + y2) % p256P = 0 then none
    else
      let l := if x1 = x2 then (3 * x1 * x1 + (p256P - 3)) * invMod p256P (2 * y1) % p256P
        else (y2 + p256P - y1) * invMod p256P (x2 + p256P - x1) % p256P
      let x3 := (l * l + 2 * p256P - x1 - x2) % p256P
      some (x3, (l * (x1 + p256P - x3) + p256P - y1) % p256P)

/-- The multiple `k` of a point, over `n` bits of `k`. -/
def ecMul : Nat → Nat → Option (Nat × Nat) → Option (Nat × Nat)
  | 0, _, _ => none
  | n + 1, k, p => ecAdd (if k % 2 = 1 then p else none) (ecMul n (k / 2) (ecAdd p p))

/-- ECDSA P-256 over a SHA-256 hash: public key X then Y, signature r then s, 32 bytes each, big-endian (R84, R86). -/
def ecdsaOk (hash key sig : List Byte) : Bool :=
  let x := beAt key 0 32
  let y := beAt key 32 32
  let r := beAt sig 0 32
  let s := beAt sig 32 32
  if x < p256P ∧ y < p256P ∧ (y * y) % p256P = (x * x * x + (p256P - 3) * x + p256B) % p256P ∧
      0 < r ∧ r < p256N ∧ 0 < s ∧ s < p256N then
    let w := invMod p256N s
    match ecAdd (ecMul 256 (beNat hash * w % p256N) (some p256G)) (ecMul 256 (r * w % p256N) (some (x, y))) with
    | none => false
    | some (rx, _) => decide (rx % p256N = r)
  else false

end Sys2Proof.Machine
end

