-- ==== Sys2Proof/Machine/CanBuf.lean ====
section
/-! DEFINITION. CAN message buffers and controller objects (R337 to R342, R355): configuration, slots, freezing at a
SAMPLE, and the hold. -/

namespace Sys2Proof.Machine

/-- The controllers. -/
def ctlNums : List Nat := [0, 1, 2, 3]

/-- Record 0x0701. Controller `c` is enabled. -/
def State.canOn (s : State) (c : Nat) : Bool := bit (s.topoN 0x0701 c 0 1 0) 0

/-- Record 0x0701. Flag bit `i` of `CFLAGS`: 1 `FD`, 2 `TDC`, 3 `PXE`. -/
def State.canFlag (s : State) (c i : Nat) : Bool := bit (s.topoN 0x0701 c 0 1 0) i

/-- Record 0x0702 exists for buffer `k` = controller × 64 + buffer. -/
def State.bufOn (s : State) (k : Nat) : Bool := (s.topo? 0x0702 k).isSome && s.canOn (k / 64)

/-- Record 0x0702. `DIR`: transmit. -/
def State.bufTx (s : State) (k : Nat) : Bool := s.topoN 0x0702 k 0 1 0 == 1

/-- Record 0x0702. `OWNER_TASK`. -/
def State.bufOwner (s : State) (k : Nat) : Nat := s.topoN 0x0702 k 1 1 0xFF

/-- The configured buffers of task `t`. -/
def State.bufsOf (s : State) (t : Nat) : List Nat :=
  (s.boot.topo.filter fun r => r.ty == 0x0702 && leAt r.data 1 1 == t).map (·.inst) |>.filter fun k => s.bufOn k

/-- A message buffer. -/
def State.buf (s : State) (k : Nat) : CBuf := mget {} s.bufs k

/-- A controller. -/
def State.ctl (s : State) (c : Nat) : CCtl := mget {} s.ctls c

/-- Sets a controller. -/
def State.setCtl (s : State) (c : Nat) (x : CCtl) : State := { s with ctls := mset {} s.ctls c x }

/-- Sets a message buffer and its registers (Table 12.5). -/
def State.setBuf (s : State) (k : Nat) (x : CBuf) : State :=
  let c := k / 64
  let b := k % 64
  let s := { s with bufs := mset {} s.bufs k x }
  let s := s.fput (Reg.BUF_STAT_TX c b) (s.bufTx k)
  let s := s.fput (Reg.BUF_STAT_MAIN_FULL c b) x.main.isSome
  let s := s.fput (Reg.BUF_STAT_HELD c b) x.held
  let s := s.fput (Reg.BUF_STAT_SHADOW_FULL c b) x.shadow.isSome
  let s := s.fput (Reg.BUF_STAT_TX_PEND c b) x.pend
  let s := s.fput (Reg.BUF_STAT_CANCEL_DEF c b) x.cancelDef
  s.fset (Reg.BUF_ID_ID c b) (if s.bufTx k then (if x.pend then x.tx.xid else 0) else match x.main with | some m => m.xid | none => 0)

/-- ISO 11898-1 data length of a `DLC`. -/
def dlcLen (dlc : Nat) (fd : Bool) : Nat :=
  if dlc ≤ 8 then dlc
  else if !fd then 8
  else ([12, 16, 20, 24, 32, 48, 64] : List Nat).getD (dlc - 9) 64

/-- `LEN` of an `XFMT` value. -/
def fmtLen (fmt : Nat) : Nat := dlcLen (fmt % 16) (bit fmt 4)

/-- R339. `VALID` of a receive buffer at a sample point of device time `t`. -/
def State.bufValid (s : State) (k t : Nat) : Bool :=
  match (s.buf k).newest with
  | none => false
  | some n => !(s.buf k).aged && (s.topoN 0x0702 k 4 2 0 == 0 || decide (t - n ≤ s.topoN 0x0702 k 4 2 0 * 1000000))

/-- Words 1 to 20 of a stored or pending frame. -/
def CanMsg.words (m : CanMsg) (fcount : Nat) : List Nat :=
  [m.xid, m.fmt % 128 + fmtLen m.fmt * 256 + fcount * 65536] ++ (List.range 16).map (fun i => m.data.getD i 0) ++
    [m.time % 2 ^ 32, m.time / 2 ^ 32]

/-- Object number of buffer `k` (Table 4.13). -/
def bufObj (k : Nat) : Nat := 0x100 + k

/-- R338, R339, Table 12.1. The 32 words of a buffer object with its validity decided, without `MINE`. -/
def State.bufWords (s : State) (k : Nat) (valid : Bool) : List Nat :=
  let x := s.buf k
  let tx := s.bufTx k
  let fc := s.fget (Reg.BUF_STAT_FCOUNT (k / 64) (k % 64))
  let stat := 2 * b2n x.isNew + 4 * b2n valid + 256 * b2n x.lost + 512 * b2n (!valid && !tx) + 1024 * b2n x.pend +
    2048 * b2n x.done + 4096 * b2n x.fail + 8192 * b2n x.cancelled + 16384 * b2n x.tooLate + 32768 * b2n tx +
    bufObj k * 65536
  let body := if tx then x.tx.words fc
    else if valid || bit (s.topoN 0x0702 k 2 1 0) 1 then
      match x.main with
      | some m => m.words fc
      | none => List.replicate 20 0
    else List.replicate 20 0
  [stat] ++ body ++ [x.res] ++ List.replicate 10 0

/-- R355. Words 0 to 4 of the controller object. -/
def State.ctlWords (s : State) (c : Nat) : List Nat :=
  [s.fget (Reg.CAN_STAT_ERR_STATE c) * 256 + s.fget (Reg.CAN_STAT_RECOVERING c) * 1024 +
      s.fget (Reg.CAN_STAT_LISTEN c) * 2048 + s.fget (Reg.CAN_STAT_TT_ERR c) * 4096 +
      16384 * b2n (s.fget (Reg.CAN_STAT_TT_SYNC c) == 2) + 4 + (0x010 + c) * 65536,
    s.fget (Reg.CAN_STAT_TEC c) + s.fget (Reg.CAN_STAT_REC c) * 256 + s.fget (Reg.CAN_ERRCNT_BUSOFF_COUNT c) * 65536,
    s.fget (Reg.CAN_TT_CYCLE c) + s.fget (Reg.CAN_TT_WINDOW c) * 64,
    s.fget (Reg.CAN_CNT_RX_FRAMES c), s.fget (Reg.CAN_CNT_TX_FRAMES c)]

/-- R338, R355. At the SAMPLE of task `t` at device time `p`: its buffers are held and frozen, and its copies of the
controller objects are taken. -/
def State.canFreeze (s : State) (t p : Nat) : State :=
  let s := s.each (s.bufsOf t) fun s k =>
    let v := if s.bufTx k then true else s.bufValid k p
    s.setBuf k { s.buf k with held := !s.bufTx k, froz := s.bufWords k v }
  s.each (ctlNums.filter fun c => s.canOn c) fun s c =>
    s.setCtl c { s.ctl c with froz := mset [] (s.ctl c).froz t (s.ctlWords c) }

/-- R338. The hold of buffer `k` ends: a frame in the shadow slot moves to the main slot and sets `NEW`. -/
def State.canUnhold (s : State) (k : Nat) : State :=
  let x := s.buf k
  if !x.held then s
  else
    match x.shadow with
    | some m => s.setBuf k { x with held := false, main := some m, shadow := none, isNew := true }
    | none => s.setBuf k { x with held := false }

/-- R338. The holds of task `t` end. -/
def State.canUnholdAll (s : State) (t : Nat) : State := s.each (s.bufsOf t) fun s k => s.canUnhold k

/-- R338. `XFREE` of buffer `k`: `LOST` and `NEW` clear and the hold ends; a second lock shows the main slot as it then
stands. -/
def State.canFree (s : State) (k : Nat) : State :=
  let s := (s.setBuf k { s.buf k with lost := false, isNew := false }).canUnhold k
  let v := if s.bufTx k then true else bit ((s.buf k).froz.getD 0 0) 2 || (s.buf k).isNew
  s.setBuf k { s.buf k with froz := s.bufWords k v }

end Sys2Proof.Machine
end

