-- ==== Sys2Proof/Machine/Data.lean ====
section
/-! DEFINITION. The data area and its journal (R163 to R165), Q ownership (R152), task boundaries and lane retirement
(R197, R198), the choice of the running task (R146), abandonment and SAFE entry (R61). -/

namespace Sys2Proof.Machine

/-! ### Q ownership -/

/-- R152. The task that owns the Q byte at `off`. -/
def State.qOwner (s : State) (off : Nat) : Option Nat :=
  taskNums.find? fun t => s.topoN 0x0202 t 0 1 0 == 1 &&
    (s.entries 0x0204 t 4).any fun e => decide (leAt e 0 2 ≤ off) && decide (off < leAt e 0 2 + leAt e 2 2)

/-- R152. The Q bytes a task owns. -/
def State.ownedBytes (s : State) (t : Nat) : List Nat :=
  ((s.entries 0x0204 t 4).map fun e => (List.range (leAt e 2 2)).map (leAt e 0 2 + ·)).flatten

/-! ### The data area -/

/-- R111. An address of the data area. -/
def inData (a : Nat) : Bool := decide (0x20000 ≤ a) && decide (a < 0x60000)

/-- The 64-byte block of a data-area address. -/
def blkOf (a : Nat) : Nat := (a - 0x20000) / 64

/-- First address of a block. -/
def blkAddr (b : Nat) : Nat := 0x20000 + b * 64

/-- The content of a block. -/
def State.blk (s : State) (b : Nat) : List Byte := mslice 0 s.sram (blkAddr b) 64

/-- R165. The rollback view of a block: the oldest open entry, else the content. -/
def State.rollView (s : State) (b : Nat) : List Byte :=
  match s.eng.journal.reverse.find? fun e => e.blk == b with
  | some e => e.old
  | none => s.blk b

/-- R165. Every block of the data area, one bit each. -/
def allBlocks : Nat := 2 ^ 4096 - 1

/-- R166. The copy in progress is abandoned: its slot keeps no valid mark and counts dirty in full. -/
def State.ckAbandon (s : State) (c : Ckpt) : State :=
  let s := { s with eng := { s.eng with ckpt := none, dirty := s.eng.dirty.set c.slot allBlocks } }
  (((s.fset Reg.CKPT_STAT_BUSY 0).fsat Reg.CKPT_CNT_FAILED).fon Reg.SCHED_FLAGS_CKPT_ABANDON).record cCKPT_ABANDON []

/-- R165, R166. Before a write or a journal merge changes a block that the copy in progress has still to copy, the hold buffer takes its
cut content; the copy that would need a 1,025th block is abandoned. -/
def State.preserve (s : State) (b : Nat) : State :=
  match s.eng.ckpt with
  | some c =>
    if !c.blks.testBit b || c.hold.any (fun h => h.1 == b) then s
    else if 1024 ≤ c.hold.length then s.ckAbandon c
    else { s with eng := { s.eng with ckpt := some { c with hold := c.hold ++ [(b, s.rollView b)] } } }
  | none => s

/-- R165. Sets the block's dirty bit in all four maps. -/
def State.setDirty (s : State) (b : Nat) : State :=
  { s with eng := { s.eng with dirty := s.eng.dirty.map fun d => d ||| 2 ^ b } }

/-- Journal entries in use (R168). -/
def State.journalLen (s : State) : Nat := s.eng.journal.length

/-- R164. The activation of `t` becomes non-atomic. -/
def State.overflow (s : State) (t : Nat) : State :=
  match s.act t with
  | some a =>
    if a.nonAtomic then s
    else
      let s := s.setAct t (some { a with nonAtomic := true })
      let s := (s.fon Reg.CKPT_STAT_NONATOMIC_RUN).fon Reg.SCHED_FLAGS_JOURNAL_OVF
      (s.fsat Reg.JOURNAL_STAT_OVERFLOWS).recordFrom cJOURNAL_OVF 0 t (leBytes 1 t)
  | none => s

/-- R163. Takes a journal entry for the first write of task `t` to block `b`. -/
def State.journalTake (s : State) (t b : Nat) : State :=
  if s.eng.journal.any fun e => e.task == t && e.blk == b then s
  else if (match s.act t with | some a => a.nonAtomic | none => false) then s
  else if s.journalLen < 1024 then
    let s := { s with eng := { s.eng with journal := ⟨t, b, s.blk b, 0⟩ :: s.eng.journal } }
    s.fmax Reg.CKPT_STAT_JOURNAL_PEAK s.journalLen
  else s.overflow t

/-- The bits of the byte at offset `o` of a block, as bits of a 512-bit mask. -/
def maskAt (o : Nat) (m : Byte) : Nat := m.toNat * 2 ^ (8 * o)

/-- `new` under the mask, `old` elsewhere. -/
def mergeByte (old new m : Byte) : Byte := (old &&& ~~~m) ||| (new &&& m)

/-- R163. A voted write of one byte by task `t`, under a bit mask. -/
def State.engWr (s : State) (t : Nat) (w : MemWr) : State :=
  let s :=
    if inData w.addr then
      let b := blkOf w.addr
      let s := (s.journalTake t b).preserve b
      let j := s.eng.journal.map fun e =>
        if e.task == t && e.blk == b then { e with mask := e.mask ||| maskAt ((w.addr - 0x20000) % 64) w.mask } else e
      ({ s with eng := { s.eng with journal := j } }).setDirty b
    else s
  s.wr w.addr (mergeByte (s.rd w.addr) w.data w.mask)

/-- Replaces byte `o` of an entry's saved block. -/
def JEnt.put (e : JEnt) (o : Nat) (v : Byte) : JEnt := { e with old := e.old.set o v }

/-- R163. A write by a master outside the engine: merged into every open entry of its block. -/
def State.outWr (s : State) (a : Nat) (v : Byte) : State :=
  let s :=
    if inData a then
      let b := blkOf a
      let s := s.preserve b
      let j := s.eng.journal.map fun e => if e.blk == b then e.put ((a - 0x20000) % 64) v else e
      ({ s with eng := { s.eng with journal := j } }).setDirty b
    else s
  s.wr a v

/-- A run of outside writes. -/
def State.outWrs (s : State) (a : Nat) : List Byte → State
  | [] => s
  | v :: vs => (s.outWr a v).outWrs (a + 1) vs

/-- The bytes of a block merged bit by bit: `new` where the 512-bit mask is 1. -/
def mergeBlk (old new : List Byte) (mask : Nat) : List Byte :=
  (List.range 64).map fun i => mergeByte (old.getD i 0) (new.getD i 0) (BitVec.ofNat 8 (mask / 2 ^ (8 * i)))

/-- R163 at END. The ending task's written bits pass into every open entry of the same block of another activation, and its own entries
are released. Its blocks count dirty again (DEDUCED: a slot cut while they were open holds them as they stood before, and every slot is
complete once written). -/
def State.journalEnd (s : State) (t : Nat) : State :=
  let mine := s.eng.journal.filter fun e => e.task == t
  let s := mine.foldl (fun s e => (s.preserve e.blk).setDirty e.blk) s
  let rest := s.eng.journal.filter fun e => e.task != t
  let j := rest.map fun f =>
    mine.foldl (fun f e => if e.blk == f.blk then { f with old := mergeBlk f.old (s.blk e.blk) e.mask } else f) f
  { s with eng := { s.eng with journal := j } }

/-- Writes a block back. -/
def State.putBlk (s : State) (b : Nat) (l : List Byte) : State :=
  ({ (s.preserve b) with sram := mput 0 s.sram (blkAddr b) l }).setDirty b

/-- R163 on abandonment. The entries of the tasks in the mask are restored, newest first: each bit that the activation wrote. So are the
entries that a non-atomic activation took before the journal was full (DESIGN CHOICE, log 146: R163 restores the entries of every
abandoned activation, R164 says that a non-atomic one cannot be rolled back). -/
def State.rollback (s : State) (ts : Nat) : State :=
  let mine := s.eng.journal.filter fun e => ts.testBit e.task
  let s := mine.foldl (fun s e => s.putBlk e.blk (mergeBlk (s.blk e.blk) e.old e.mask)) s
  { s with eng := { s.eng with journal := s.eng.journal.filter fun e => !ts.testBit e.task } }

/-- R163. Every owned Q byte of the tasks in the mask returns to the value last staged. -/
def State.qRestore (s : State) (ts : Nat) : State :=
  s.each (taskNums.filter fun t => ts.testBit t) fun s t =>
    s.each (s.ownedBytes t) fun s o => s.wr (qBase + o) (mget 0 s.eng.qStaged o)

/-! ### Lanes at a task boundary -/

/-- Lanes not retired, as a mask. -/
def State.liveLanes (s : State) : Nat := s.fget Reg.VOTE_STAT_LIVE

/-- R198. Retires lane `l`. -/
def State.retireLane (s : State) (l : Nat) : State :=
  let s := s.fset Reg.VOTE_STAT_LIVE (putBit (s.fget Reg.VOTE_STAT_LIVE) l false)
  let s := s.fset Reg.VOTE_STAT_VOTING (putBit (s.fget Reg.VOTE_STAT_VOTING) l false)
  let s := s.fset Reg.VOTE_STAT_EXCLUDED (putBit (s.fget Reg.VOTE_STAT_EXCLUDED) l false)
  let s := if s.laneState = laneUnbound then s else s.setLaneState lane2oo2
  let s := { s with eng := { s.eng with
    retire := putBit s.eng.retire l false, boundary := putBit s.eng.boundary l false } }
  (s.fon Reg.VOTE_FLAGS_RETIRED).record cLANE_RETIRED (leBytes 1 l)

/-- R197, R198. A task boundary: lanes marked for it are retired, the other excluded lanes may be reloaded. -/
def State.taskBoundary (s : State) : State :=
  let s := s.each ([0, 1, 2].filter fun l => bit s.eng.retire l && bit (s.fget Reg.VOTE_STAT_EXCLUDED) l)
    fun s l => s.retireLane l
  { s with eng := { s.eng with boundary := s.fget Reg.VOTE_STAT_EXCLUDED } }

/-! ### Which task runs -/

/-- R146. Tasks in order of priority: ET0 to ET7, then CT0 to CT15. -/
def priority : List Nat := [16, 17, 18, 19, 20, 21, 22, 23, 0, 1, 2, 3, 4, 5, 6, 7, 8, 9, 10, 11, 12, 13, 14, 15]

/-- R203. The lane of task `t` in UNBOUND. -/
def State.unbLane (s : State) (t : Nat) : Nat :=
  let l := if t < 16 then fieldOf (s.fget Reg.UNB_MAP0_MAP_0_15) (2 * t) 2
    else fieldOf (s.fget Reg.UNB_MAP1_MAP_16_23) (2 * (t - 16)) 2
  if bit s.liveLanes l then l else if bit s.liveLanes 0 then 0 else if bit s.liveLanes 1 then 1 else 2

/-- R146, R203. The run slot of a task: its lane in UNBOUND, else the one slot. -/
def State.slotOf (s : State) (t : Nat) : Nat := if s.laneState = laneUnbound then s.unbLane t else 0

/-- R371. Container checks are still to run at this instant: no cyclic task runs. -/
def State.checking (s : State) : Bool :=
  s.eng.scLeft != 0 && (match s.eng.scAt with | some t => decide (s.time.mono < t + s.eng.scLeft) | none => true)

/-- R371. Takes the container checks run so far off those left; at their end the walkers start. -/
def State.scSettle (s : State) : State :=
  match s.eng.scAt with
  | none => s
  | some t =>
    if s.eng.scLeft = 0 then s
    else if s.checking then
      { s with eng := { s.eng with scLeft := s.eng.scLeft - (s.time.mono - t), scAt := some s.time.mono } }
    else { s with eng := { s.eng with scLeft := 0, scAt := none }, net := { s.net with walkAt := t + s.eng.scLeft } }

/-- R146. The highest-priority ready task of a run slot. -/
def State.bestReady (s : State) (k : Nat) : Option Nat :=
  priority.find? fun t => s.slotOf t == k &&
    (match s.act t with
    | some a => a.ready && (s.power.crossAt.isNone || a.pf) && (decide (16 ≤ t) || !s.checking)
    | none => false)

/-- R146, R371. Each run slot takes its highest-priority ready task; a switch is a task boundary. A lane of UNBOUND that was idle starts now.
Container checks stand while an event task runs. -/
def State.schedule (s : State) : State :=
  let s := s.scSettle
  let new := [0, 1, 2].map fun k => if s.eng.frozen then none else s.bestReady k
  let at_ := [0, 1, 2].map fun k => if (s.eng.run.getD k none).isNone && (new.getD k none).isSome then s.time.mono else s.eng.laneAt.getD k 0
  let s := if new != s.eng.run then ({ s with eng := { s.eng with run := new, laneAt := at_ } }).taskBoundary else s
  let sc := if s.eng.scLeft = 0 ∨ new.any (·.isSome) then none else some (s.eng.scAt.getD s.time.mono)
  let s := { s with eng := { s.eng with scAt := sc } }
  s.fset Reg.SCHED_STAT_RUNNING ((s.eng.run.getD 0 none).getD 0x1F)

/-! ### Abandonment -/

/-- Releases the exchange locks of a task (R137). -/
def State.releaseLocks (s : State) (t : Nat) : State :=
  match s.act t with
  | some a => { s with eng := { s.eng with lockOf := a.locks.foldl (fun m o => mset 0 m o 0) s.eng.lockOf } }
  | none => s

/-- R128. Clears the latches an activation has set. -/
def State.clearLatches (s : State) (t : Nat) : State :=
  match s.act t with
  | some a => s.each a.latches fun s i =>
      s.engWr t ⟨cBase + i * 16 + 12, 0, 0xE0⟩
  | none => s

/-- Removes the activation of a task. `NONATOMIC_RUN` stands while some activation is non-atomic (R164). -/
def State.dropAct (s : State) (t : Nat) : State :=
  let s := ((s.releaseLocks t).canUnholdAll t).setAct t none
  let s := s.fset (Reg.TASK_STAT_ACTIVE_RUN t) 0
  if taskNums.any fun u => match s.act u with | some a => a.nonAtomic | none => false then s else s.fset Reg.CKPT_STAT_NONATOMIC_RUN 0

/-- Tasks with an activation in progress, as a mask. -/
def State.actMask (s : State) : Nat :=
  taskNums.foldl (fun m t => if (s.act t).isSome then putBit m t true else m) 0

/-- R157, R160, R163. Abandons the activations of the tasks in the mask. A PARK that one of them asked for is given up, as the rule that
it commits first cannot be kept (DESIGN CHOICE); a non-atomic one that is abandoned in a power-fail save leaves no state to save
(R77). -/
def State.abandon (s : State) (ts : Nat) : State :=
  let ts := ts &&& s.actMask
  let asked := match s.act s.power.parkTask with | some a => bit ts s.power.parkTask && a.cyc == s.power.parkCyc | none => false
  let s := if s.power.park = 1 ∧ asked = true then s.parkCancel else s
  let s := if s.power.crossAt.isSome ∧ taskNums.any (fun t => bit ts t && match s.act t with | some a => a.nonAtomic | none => false) then
      { s with power := { s.power with nonAtomic := true } }
    else s
  let s := (s.rollback ts).qRestore ts
  let s := s.each (taskNums.filter fun t => bit ts t) fun s t => s.dropAct t
  if ts = 0 then s else s.taskBoundary.schedule

/-! ### Event triggers -/

/-- R147, R148. A trigger of event task `t` is recognised: it makes one activation pending, or is merged. From the
power-fail warning on only the task of kind 7 is made pending (R149). -/
def State.trigger (s : State) (t : Nat) : State :=
  if !s.taskOn t || !s.running || (s.power.crossAt.isSome && s.topoN 0x0202 t 3 1 0 != 7) then s
  else if bit s.eng.pend t then (s.fsat (Reg.TASK_SKIP_MERGED t)).fon Reg.SCHED_FLAGS_ET_MERGED
  else ({ s with eng := { s.eng with pend := putBit s.eng.pend t true } }).fon (Reg.TASK_STAT_PENDING t)

/-- R147. Recognises a trigger of a kind for every event task whose `TRIG_ARG` satisfies `p`. -/
def State.triggerAll (s : State) (kind : Nat) (p : Nat → Bool) : State :=
  s.each ((List.range' 16 8).filter fun t => s.taskOn t && s.topoN 0x0202 t 3 1 0 == kind && p (s.topoN 0x0202 t 8 4 0))
    fun s t => s.trigger t

/-! ### SAFE entry -/

/-- R60, R61. SAFE entry: activations are abandoned and pending events dropped at once; the safe set is staged for the next
commit point, at which the mode changes. A power-fail save under way completes (chapter 7). In BOOT the change takes effect at
once and the ROM stops (R51); in PARK only the always-on domain runs, and there is none (R70). -/
def State.enterSafe (s : State) (reason detail : Nat) (stop : Option (Nat × Nat) := none) : State :=
  if s.mode == mSafe || s.mode == mPark || (match s.modeReq with | some r => r.mode == mSafe | none => false) then s
  else
    let s := { s with boot := { s.boot with step := if s.mode = mBoot then 0 else s.boot.step } }
    let s := s.parkCancel.abandon s.actMask
    let s := { s with eng := { s.eng with pend := 0, ended := [] } }
    let s := s.recordSafe reason detail stop
    if s.power.crossAt.isSome || s.mode == mBoot then s.nowSafe reason detail (0x80 + reason)
    else ({ s with modeReq := some { mode := mSafe, trig := 0x80 + reason, reason, detail } }).stageSafe

end Sys2Proof.Machine
end

