-- ==== Sys2Proof/Machine/Can.lean ====
section
/-! DEFINITION. The message bus controllers (R334 to R355): reception, transmission, requests at the commit instant,
errors, time-triggered operation, loop-back and the scoped reset; and the meanings of the CAN commands. -/

namespace Sys2Proof.Machine

/-- The answer of a meaning. -/
abbrev Out := Host.Outcome State Fault Refusal

/-! ### Frames -/

/-- `XID` of a frame (Table 12.1). -/
def frameXid (f : CanFrame) : Nat := f.id.toNat + b2n f.ide * 2 ^ 29 + b2n f.rtr * 2 ^ 30

/-- `XFMT` [6:0] of a frame. -/
def frameFmt (f : CanFrame) : Nat := f.dlc.toNat + b2n f.fdf * 16 + b2n f.brs * 32 + b2n f.esi * 64

/-- The data words of a frame: byte 4n + i in bits [8i + 7:8i] of word n; bytes beyond `LEN` read 0 (Table 12.1). -/
def frameData (f : CanFrame) : List Nat :=
  let l := f.data.take (if f.rtr then 0 else fmtLen (frameFmt f))
  (List.range 16).map fun n => leAt l (4 * n) 4

/-- The arbitration field of a frame as a number: the lower value wins (R343). Base: identifier, RTR, IDE dominant;
extended: base identifier, SRR, IDE recessive, extension, RTR. -/
def arbKey (xid : Nat) : Nat :=
  let id := xid % 2 ^ 29
  if bit xid 29 then id / 2 ^ 18 * 2 ^ 21 + 2 ^ 20 + 2 ^ 19 + id % 2 ^ 18 * 2 + b2n (bit xid 30)
  else id / 2 ^ 18 * 2 ^ 21 + b2n (bit xid 30) * 2 ^ 20

/-- A bit time of the nominal rate in ns, halves rounded down (R335). -/
def State.bitNs (s : State) (c : Nat) : Nat :=
  s.topoN 0x0701 c 2 1 1 * (1 + s.topoN 0x0701 c 3 1 1 + s.topoN 0x0701 c 4 1 1) * 25 / 2

/-- Longest length of a frame in nominal bits with every stuff bit. PRESUMED: from the frame formats of ISO 11898-1; the
data phase of an FD frame with `BRS` counts at the nominal rate, which is longer. -/
def maxBits (xid fmt : Nat) : Nat :=
  let n := 8 * fmtLen fmt
  let h := if bit xid 29 then 54 else 34
  if bit fmt 4 then h + 6 + n + (h + 6 + n) / 4 + 32 + 13 else h + n + (h + n - 1) / 4 + 13

/-! ### State of a controller -/

/-- R351, R352. The controller may send: joined, not listen-only, not bus-off. -/
def State.canMaySend (s : State) (c : Nat) : Bool :=
  (s.ctl c).joined && s.canOn c && s.driving && !s.fbit (Reg.CAN_STAT_LISTEN c) && s.fget (Reg.CAN_STAT_ERR_STATE c) != 2

/-- R348. Record 0x0704 places controller `c` in time-triggered operation. -/
def State.ttOn (s : State) (c : Nat) : Bool := (s.topo? 0x0704 c).isSome

/-- R349. Type of window `w` in cycle `k`. -/
def State.ttType (s : State) (c k w : Nat) : Nat := s.topoN 0x0704 c (76 + 64 * k + 2 * w) 1 0

/-- R349. `WBUF` of window `w` in cycle `k`, as a buffer of controller `c`. -/
def State.ttBuf (s : State) (c k w : Nat) : Nat := c * 64 + s.topoN 0x0704 c (77 + 64 * k + 2 * w) 1 0

/-- R349. Start of window `w` in network time units. -/
def State.ttMark (s : State) (c w : Nat) : Nat := s.topoN 0x0704 c (12 + 2 * w) 2 0

/-- R349. The buffer is named in an exclusive window of some cycle. -/
def State.ttExclusive (s : State) (c k : Nat) : Bool :=
  (List.range (s.topoN 0x0704 c 1 1 0)).any fun y =>
    (List.range (s.topoN 0x0704 c 2 1 0)).any fun w => s.ttType c y w == 1 && s.ttBuf c y w == k

/-- R350. A level change: the register, and the record with level, cycle and window. -/
def State.ttLevel (s : State) (c lvl : Nat) : State :=
  if s.fget (Reg.CAN_STAT_TT_ERR c) = lvl then s
  else
    let s := (s.fset (Reg.CAN_STAT_TT_ERR c) lvl)
    let s := if 1 ≤ lvl then s.fon (Reg.CAN_FLAGS_TT_ERR_SEEN c) else s
    s.record cCAN_TT_ERR (leBytes 1 lvl ++ leBytes 4 (s.fget (Reg.CAN_TT_CYCLE c)) ++ leBytes 1 (s.fget (Reg.CAN_TT_WINDOW c)))

/-- R350. Level S1 unless a higher level stands. -/
def State.ttS1 (s : State) (c : Nat) : State :=
  let s := s.fsat (Reg.CAN_TTERR_RXCHK_MISS c)
  if s.fget (Reg.CAN_STAT_TT_ERR c) = 0 then s.ttLevel c 1 else s

/-- R350. Level S3: time-triggered transmission stops until a scoped reset. -/
def State.ttS3 (s : State) (c : Nat) : State :=
  if s.ttOn c then (s.setCtl c { s.ctl c with stopped := true }).ttLevel c 3 else s

/-! ### Ending a transmission -/

/-- Ends the pending transmission of buffer `k` unsuccessfully with `XTXRES` outcome `r`. -/
def State.canFail (s : State) (k r : Nat) : State :=
  s.setBuf k { s.buf k with pend := false, fail := true, cancelDef := false, res := r, tries := 0 }

/-- R343, R346, R352. A `TRANSMIT` of buffer `k` acts; during bus-off, and where only listening is allowed, it ends at once. -/
def State.canArm (s : State) (k : Nat) : State :=
  let c := k / 64
  let s := s.setBuf k { s.buf k with pend := true, done := false, fail := false, cancelled := false, tooLate := false, tries := 0 }
  if s.fget (Reg.CAN_STAT_ERR_STATE c) = 2 then s.canFail k 5 else if s.fbit (Reg.CAN_STAT_LISTEN c) then s.canFail k 7 else s

/-- R342. The frame of buffer `k` is off the bus: content that waited takes effect. -/
def State.canApplyWait (s : State) (k : Nat) : State :=
  match (s.buf k).wait with
  | some (m, again) =>
    let s := s.setBuf k { s.buf k with tx := m, wait := none }
    if again then s.canArm k else s
  | none => s

/-- R344. Withdraws the pending frame of buffer `k`. -/
def State.canWithdraw (s : State) (k : Nat) : State :=
  s.setBuf k { s.buf k with pend := false, cancelled := true, cancelDef := false, res := 2, tries := 0 }

/-- R346, R352, R354. Ends every pending transmission of controller `c` with outcome `r`, except a frame on the bus if
`keepBus`. -/
def State.canFailAll (s : State) (c r : Nat) (keepBus : Bool) : State :=
  s.each ((List.range 64).map (c * 64 + ·)) fun s k =>
    if (s.buf k).pend && !(keepBus && (s.ctl c).bus == some (k % 64)) then s.canFail k r else s

/-- R352. Listen-only begins: at once, or after the frame on the bus. -/
def State.canListen (s : State) (c : Nat) : State :=
  let s := s.canFailAll c 7 true
  if (s.ctl c).bus.isSome then s.setCtl c { s.ctl c with listenWait := true }
  else s.fon (Reg.CAN_STAT_LISTEN c)

/-- The frame that controller `c` sent has left the bus. -/
def State.canBusFree (s : State) (c : Nat) : State :=
  let x := s.ctl c
  let s := s.setCtl c { x with bus := none, exclusive := false, listenWait := false }
  if x.listenWait then (s.canFailAll c 7 false).fon (Reg.CAN_STAT_LISTEN c) else s

/-- R345, R346. TEC and REC take the values ISO 11898-1 gives them, and the error state follows: passive above 127,
bus-off above 255. -/
def State.canCounters (s : State) (c tec rec : Nat) : State :=
  if s.fbit (Reg.CAN_STAT_LISTEN c) then s
  else
    let old := s.fget (Reg.CAN_STAT_ERR_STATE c)
    let s := (s.fset (Reg.CAN_STAT_TEC c) (min tec 255)).fset (Reg.CAN_STAT_REC c) (min rec 255)
    let new := if old = 2 ∨ 255 < tec then 2 else if 127 < tec ∨ 127 < rec then 1 else 0
    let s := s.fset (Reg.CAN_STAT_ERR_STATE c) new
    let data := leBytes 1 c ++ leBytes 4 (min tec 255) ++ leBytes 4 (min rec 255)
    if new = 2 ∧ old ≠ 2 then
      let s := ((s.fon (Reg.CAN_FLAGS_BUSOFF_SEEN c)).fsat (Reg.CAN_ERRCNT_BUSOFF_COUNT c)).record cCAN_BUSOFF data
      (s.canFailAll c 5 false).ttS3 c
    else if new = 1 ∧ old = 0 then (s.fon (Reg.CAN_FLAGS_PASSIVE_SEEN c)).record cCAN_PASSIVE data
    else s

/-- An error on the bus: counted, with its kind and phase. -/
def State.canErr (s : State) (c kind : Nat) (dataPhase : Bool) : State :=
  ((s.fsat (Reg.CAN_ERRCNT_ERR_FRAMES c)).fset (Reg.CAN_LEC_LAST_ERR c) kind).fput (Reg.CAN_LEC_DATA_PHASE c) dataPhase

/-! ### The scoped reset -/

/-- R354. The scoped reset of controller `c`. -/
def State.canReset (s : State) (c : Nat) : State :=
  let s := s.canFailAll c 6 false
  let s := s.each ((List.range 64).map (c * 64 + ·)) fun s k =>
    if s.bufOn k then
      s.setBuf k { s.buf k with main := none, shadow := none, newest := none, aged := false, isNew := false,
                                lost := false, wait := none }
    else s
  let s := s.setCtl c { s.ctl c with joined := false, bus := none, exclusive := false, refs := 0, stopped := false, rxWin := 0,
                                     listenWait := false }
  let listen := s.fget (Reg.CAN_STAT_LISTEN c)
  let a := 0x40030000 + c * 0x1000
  let s := { s with regs := [0, 4, 0x10, 0x14, 0x18, 0x1C].foldl (fun m o => mset 0 m (a + o) 0) s.regs }
  let s := s.each (List.range 64) fun s b => s.fset (Reg.BUF_STAT_LOST_CNT c b) 0
  s.fset (Reg.CAN_STAT_LISTEN c) listen

/-! ### Requests at the commit instant -/

/-- R342. New content of transmit buffer `k`, with or without `TRANSMIT`. -/
def State.canContent (s : State) (k : Nat) (m : CanMsg) (transmit : Bool) : State :=
  let c := k / 64
  let x := s.buf k
  if (s.ctl c).bus == some (k % 64) then
    s.setBuf k { x with wait := some (m, transmit || (match x.wait with | some w => w.2 | none => false)) }
  else
    let s := s.setBuf k { x with tx := m }
    if transmit then s.canArm k else s

/-- R344. `CANCEL` of an activation sampled at device time `p` acts. -/
def State.canCancel (s : State) (k p : Nat) : State :=
  let c := k / 64
  let x := s.buf k
  if x.pend then
    if (s.ctl c).bus == some (k % 64) then s.setBuf k { x with cancelDef := true } else s.canWithdraw k
  else
    match x.doneAt with
    | some d =>
      if p ≤ d then (s.setBuf k { x with tooLate := true, res := 3 }).fon (Reg.CAN_FLAGS_CANCEL_LATE c) else s
    | none => s

/-- R346. Recovery starts. -/
def State.canRecover (s : State) (c : Nat) : State :=
  if s.fget (Reg.CAN_STAT_ERR_STATE c) = 2 then s.fon (Reg.CAN_STAT_RECOVERING c) else s

/-- Content of a message from the words 1 to 18 of the object. -/
def msgOfWords (w : List Nat) : CanMsg :=
  { xid := w.getD 0 0 % 2 ^ 31, fmt := w.getD 1 0 % 128, data := (w.drop 2).take 16, time := 0 }

/-- R342, R355. One request of an activation sampled at grid point `g` acts: object, code (0: content written under the
lock), words 1 to 18. -/
def State.canRequest (s : State) (g obj code : Nat) (w : List Nat) : State :=
  if 0x100 ≤ obj ∧ obj < 0x200 then
    let k := obj - 0x100
    if code = 0 then s.canContent k (msgOfWords w) false
    else if code = 1 then s.canContent k (msgOfWords w) true
    else if code = 2 then s.canCancel k (samplePt g) else s
  else if 0x010 ≤ obj ∧ obj < 0x014 then
    if code = 1 then s.canRecover (obj - 0x010) else if code = 2 then s.canReset (obj - 0x010) else s
  else s

/-! ### Reception -/

/-- R341. The target of the first enabled filter that matches; base identifiers are compared in [28:18]. -/
def State.canFilter (s : State) (c : Nat) (f : CanFrame) : Option Nat :=
  ((s.entries 0x0703 c 12).find? fun e =>
    let fl := leAt e 9 1
    let m := if f.ide then leAt e 4 4 else leAt e 4 4 / 2 ^ 18 * 2 ^ 18
    bit fl 0 && (f.id.toNat ^^^ leAt e 0 4) &&& m == 0 && f.ide == bit fl 1 &&
      (if f.rtr then bit fl 4 else if f.fdf then bit fl 3 else bit fl 2)).map fun e => c * 64 + leAt e 8 1

/-- R338, R340. A frame is stored in receive buffer `k` at the end of its EOF. -/
def State.canStore (s : State) (k : Nat) (f : CanFrame) : State :=
  let c := k / 64
  let b := k % 64
  let s := s.fmod (Reg.BUF_STAT_FCOUNT c b)
  let s := s.fmod (Reg.CAN_CNT_RX_FRAMES c)
  let m : CanMsg := { xid := frameXid f, fmt := frameFmt f, data := frameData f,
                      time := s.time.dev - f.len }
  let x := { s.buf k with newest := some s.time.dev, aged := false }
  let s := s.setCtl c { s.ctl c with rxWin := putBit (s.ctl c).rxWin b true }
  let s :=
    if !x.held then s.setBuf k { x with main := some m, isNew := true }
    else if x.shadow.isSome then
      ((s.setBuf k { x with shadow := some m, lost := true }).fsat (Reg.BUF_STAT_LOST_CNT c b)).fon (Reg.CAN_FLAGS_RX_LOST c)
    else s.setBuf k { x with shadow := some m }
  if b ≤ 1 && bit (s.topoN 0x0702 k 2 1 0) 0 then s.triggerAll 1 fun a => a % 4 == c && a / 4 % 2 == b else s

/-- R338, R341. A frame is received to the end of its EOF. -/
def State.canRx (s : State) (c : Nat) (f : CanFrame) (own : Bool) : State :=
  if !(s.ctl c).joined || s.mode == mBoot || s.mode == mPark || (own && s.fget (Reg.CAN_STAT_LOOP c) == 0) then s
  else
    match s.canFilter c f with
    | some k => if s.bufOn k && !s.bufTx k then s.canStore k f else s
    | none => s.fsat (Reg.CAN_MISC_NOMATCH c)

/-! ### Transmission -/

/-- R343, R349. The pending buffers that may start now. -/
def State.canReady (s : State) (c : Nat) : List Nat :=
  let all := ((List.range 64).map (c * 64 + ·)).filter fun k => (s.buf k).pend
  if !s.ttOn c then all
  else
    let y := s.fget (Reg.CAN_TT_CYCLE c)
    let w := s.fget (Reg.CAN_TT_WINDOW c)
    if s.fget (Reg.CAN_STAT_TT_SYNC c) != 2 || (s.ctl c).stopped || s.ttType c y w != 2 then []
    else
      let next := if w + 1 < s.topoN 0x0704 c 2 1 0 then s.ttMark c (w + 1) else s.topoN 0x0704 c 8 2 0
      let now := (s.time.mono - (s.ctl c).refAt) / max 1 (s.bitNs c)
      all.filter fun k => !s.ttExclusive c k && decide (now + maxBits (s.buf k).tx.xid (s.buf k).tx.fmt ≤ next)

/-- R343. The buffer that would win arbitration; equal fields go by the lower number. -/
def State.canPick (s : State) (c : Nat) : Option Nat :=
  (s.canReady c).foldl (fun best k =>
    match best with
    | none => some k
    | some j => if arbKey (s.buf k).tx.xid < arbKey (s.buf j).tx.xid then some k else some j) none

/-- The frame of buffer `k` starts. -/
def State.canStart (s : State) (k : Nat) (exclusive : Bool) : State :=
  let c := k / 64
  let s := s.setBuf k { s.buf k with tries := (s.buf k).tries + 1 }
  s.setCtl c { s.ctl c with bus := some (k % 64), exclusive }

/-- R336. An FD frame of buffer `k` has passed its res bit: with `TDC` the delay is measured. The measured value is a free value. -/
def State.canMeasure (s : State) (k : Nat) : State :=
  if s.canFlag (k / 64) 2 && bit (s.buf k).tx.fmt 4 then (s.takeFree 8).2.fset (Reg.CAN_LEC_TDC_VAL (k / 64)) (s.takeFree 8).1 else s

/-- R343. A successful frame of buffer `k`. -/
def State.canSent (s : State) (k : Nat) : State :=
  let c := k / 64
  let x := s.buf k
  let late := x.cancelDef
  let s := s.canMeasure k
  let s := (s.fmod (Reg.BUF_STAT_FCOUNT c (k % 64))).fmod (Reg.CAN_CNT_TX_FRAMES c)
  let s := s.setBuf k { x with pend := false, done := true, tooLate := late, cancelDef := false, res := if late then 3 else 1,
                               tries := 0, doneAt := some s.time.dev }
  if late then s.fon (Reg.CAN_FLAGS_CANCEL_LATE c) else s

/-- R343, R344, R349. A frame of buffer `k` that lost arbitration or met an error. -/
def State.canUnsent (s : State) (k : Nat) (exclusive : Bool) : State :=
  let x := s.buf k
  let lim := if exclusive then 1 else s.topoN 0x0701 (k / 64) 1 1 0
  if !x.pend then s
  else if x.cancelDef then s.canWithdraw k
  else if lim ≠ 0 ∧ lim ≤ x.tries then s.canFail k 4 else s

/-! ### Time-triggered operation -/

/-- R348. From the SOF to its sample point, in ns. -/
def State.sofNs (s : State) (c : Nat) : Nat := s.topoN 0x0701 c 2 1 1 * (1 + s.topoN 0x0701 c 3 1 1) * 25 / 2

/-- R349. The receive check of the present window, as the window ends. -/
def State.ttClose (s : State) (c : Nat) : State :=
  let y := s.fget (Reg.CAN_TT_CYCLE c)
  let p := s.fget (Reg.CAN_TT_WINDOW c)
  let s := if s.fget (Reg.CAN_STAT_TT_SYNC c) = 2 ∧ s.ttType c y p = 3 ∧ !bit (s.ctl c).rxWin (s.ttBuf c y p % 64) then s.ttS1 c else s
  s.setCtl c { s.ctl c with rxWin := 0 }

/-- R348, R350. A reference message with cycle count `y`, whose SOF began at `sof`, is received, or the controller's own is sent: the cycle
time counts from the sample point of that SOF, and the second in a row resumes the schedule. -/
def State.canRefTaken (s : State) (c y sof : Nat) (own : Bool) : State :=
  let s := s.ttClose c
  let x := s.ctl c
  let refs := min 2 (x.refs + 1)
  let s := s.setCtl c { x with refAt := sof + s.sofNs c, lossAt := sof + s.sofNs c, refs }
  let s := ((s.fset (Reg.CAN_TT_CYCLE c) y).fset (Reg.CAN_TT_WINDOW c) 0).fput (Reg.CAN_STAT_TT_MASTER c) own
  if s.fget (Reg.CAN_STAT_TT_SYNC c) = 1 ∧ refs = 2 then
    let s := s.fset (Reg.CAN_STAT_TT_SYNC c) 2
    if x.stopped then s else s.ttLevel c 0
  else s

/-! ### Meanings -/

/-- CAN_JOIN (R334, R348, R352). -/
def execCanJoin (c : Ctl) (s : State) : Out :=
  if s.canOn c && s.boot.firstSample != 0 && s.mode != mPark && s.mode != mBoot && !(s.ctl c).joined then
    let s := s.setCtl c { s.ctl c with joined := true }
    let s :=
      if s.ttOn c ∧ s.fget (Reg.CAN_STAT_TT_SYNC c) = 0 then
        (s.setCtl c { s.ctl c with refAt := s.time.mono, lossAt := s.time.mono }).fset (Reg.CAN_STAT_TT_SYNC c) 1
      else s
    .next (s.fput (Reg.CAN_STAT_LISTEN c) (!s.driving))
  else .next s

/-- CAN_RX_FRAME (R338). -/
def execCanRxFrame (c : Ctl) (f : CanFrame) (own : Bool) (s : State) : Out := .next (s.canRx c f own)

/-- CAN_RX_TIMEOUT (R339). -/
def execCanRxTimeout (c : Ctl) (b : Buf) (s : State) : Out :=
  let k := c.val * 64 + b.val
  let lim := s.topoN 0x0702 k 4 2 0
  match (s.buf k).newest with
  | some n =>
    if s.bufOn k && !s.bufTx k && lim != 0 then
      let s := s.toDev (n + lim * 1000000)
      .next (s.setBuf k { s.buf k with aged := true })
    else .next s
  | none => .next s

/-- CAN_TX_START (R343). -/
def execCanTxStart (c : Ctl) (s : State) : Out :=
  if s.canMaySend c && (s.ctl c).bus.isNone then
    match s.canPick c with
    | some k => .next (s.canStart k false)
    | none => .next s
  else .next s

/-- CAN_TX_DONE (R343, R344, R348). -/
def execCanTxDone (c : Ctl) (s : State) : Out :=
  match (s.ctl c).bus with
  | some b =>
    let s := if b < 64 then s.canSent (c.val * 64 + b) else s
    let s := s.canBusFree c
    let y := (s.fget (Reg.CAN_TT_CYCLE c) + 1) % max 1 (s.topoN 0x0704 c 1 1 1)
    .next (if b < 64 then s.canApplyWait (c.val * 64 + b) else if b = 64 then s.canRefTaken c y (s.ctl c).refSof true else s)
  | none => .next s

/-- CAN_TX_ERROR (R343 to R346). -/
def execCanTxError (c : Ctl) (err : Option (Fin 7 × Bool)) (tec rec : Nat) (s : State) : Out :=
  match (s.ctl c).bus with
  | some b =>
    let ex := (s.ctl c).exclusive
    let s := s.canBusFree c
    let s := match err with
      | some (k, d) => ((if d && decide (b < 64) then s.canMeasure (c.val * 64 + b) else s).canErr c k d).canCounters c tec rec
      | none => s
    let s := if b < 64 then (s.canUnsent (c.val * 64 + b) ex).canApplyWait (c.val * 64 + b) else s
    .next s
  | none => .next s

/-- CAN_RX_ERROR (R345). -/
def execCanRxError (c : Ctl) (err : Fin 7) (dataPhase : Bool) (tec rec : Nat) (s : State) : Out :=
  if (s.ctl c).joined then .next ((s.canErr c err dataPhase).canCounters c tec rec) else .next s

/-- CAN_RECOVERED (R346). -/
def execCanRecovered (c : Ctl) (s : State) : Out :=
  if s.fbit (Reg.CAN_STAT_RECOVERING c) then
    let s := (s.fset (Reg.CAN_STAT_TEC c) 0).fset (Reg.CAN_STAT_REC c) 0
    let s := (s.fset (Reg.CAN_STAT_ERR_STATE c) 0).fset (Reg.CAN_STAT_RECOVERING c) 0
    .next (s.record cCAN_RECOVERED (leBytes 1 c))
  else .next s

/-- PROTOCOL_EXCEPTION (R347): the controller waits for bus integration without an error; with `PXE` = 0 the bit, which stands before the
data phase, is a form error, which adds 1 to REC (PRESUMED: ISO 11898-1; log 176). -/
def execProtocolException (c : Ctl) (s : State) : Out :=
  if !(s.ctl c).joined then .next s
  else if s.canFlag c 3 then
    .next ((s.setCtl c { s.ctl c with joined := false }).fon (Reg.CAN_FLAGS_PX_SEEN c))
  else .next ((s.canErr c 2 false).canCounters c (s.fget (Reg.CAN_STAT_TEC c)) (s.fget (Reg.CAN_STAT_REC c) + 1))

/-- CAN_REF_MESSAGE (R348, R350): a frame with `REF_ID`, whatever its priority bits, is received to the end of its EOF. -/
def execCanRefMessage (c : Ctl) (f : CanFrame) (s : State) : Out :=
  let ref := s.topoN 0x0704 c 4 4 0
  .next (
    if (s.ctl c).joined && s.ttOn c && f.id.toNat / 8 == ref % 2 ^ 29 / 8 && f.ide == bit ref 29 && !f.rtr && !f.data.isEmpty then
      s.canRefTaken c (leAt f.data 0 1 % 64) (s.time.mono - f.len) false
    else s)

/-- CAN_REF_SEND (R348, R351): the SOF of the reference message of the current master `CYCLE_LEN` units after the previous one, or of
another potential master 128 × (p + 1) units later; it is the current master once the frame is sent. -/
def execCanRefSend (c : Ctl) (s : State) : Out :=
  .next (
    if s.ttOn c && s.topoN 0x0704 c 0 1 0 == 2 && s.canMaySend c && !(s.ctl c).stopped && (s.ctl c).bus.isNone then
      let ref := s.topoN 0x0704 c 4 4 0
      let late := if s.fbit (Reg.CAN_STAT_TT_MASTER c) then 0 else 128 * (ref % 8 + 1)
      let s := s.toMono ((s.ctl c).refAt - s.sofNs c + (s.topoN 0x0704 c 8 2 0 + late) * s.bitNs c)
      s.setCtl c { s.ctl c with bus := some 64, refSof := s.time.mono }
    else s)

/-- CAN_TT_WINDOW (R349, R350): the mark of window `w`; `busy`: the bus is not idle there. -/
def execCanTtWindow (c : Ctl) (w : Fin 32) (busy : Bool) (s : State) : Out :=
  .next (
    if s.ttOn c && (s.ctl c).joined && s.fget (Reg.CAN_STAT_TT_SYNC c) == 2 && decide (w.val < s.topoN 0x0704 c 2 1 0) then
      let s := s.toMono ((s.ctl c).refAt + s.ttMark c w * s.bitNs c)
      let s := (s.ttClose c).fset (Reg.CAN_TT_WINDOW c) w
      let y := s.fget (Reg.CAN_TT_CYCLE c)
      let k := s.ttBuf c y w
      if (s.ctl c).exclusive then s.ttS3 c
      else if s.ttType c y w ≠ 1 ∨ !(s.buf k).pend ∨ (s.ctl c).stopped ∨ !s.canMaySend c then s
      else if busy || (s.ctl c).bus.isSome then s.ttS1 c
      else s.canStart k true
    else s)

/-- CAN_TT_SYNC_LOSS (R350): no reference message for `CYCLE_LEN` + 1,024 units; the count starts anew. -/
def execCanTtSyncLoss (c : Ctl) (s : State) : Out :=
  .next (
    if s.ttOn c && (s.ctl c).joined then
      let s := s.toMono ((s.ctl c).lossAt + (s.topoN 0x0704 c 8 2 0 + 1024) * s.bitNs c)
      let s := s.setCtl c { s.ctl c with refs := 0, lossAt := s.time.mono }
      let s := (s.fsat (Reg.CAN_TTERR_REF_MISS c)).fset (Reg.CAN_STAT_TT_SYNC c) 1
      if s.fget (Reg.CAN_STAT_TT_ERR c) < 2 then s.ttLevel c 2 else s
    else s)

end Sys2Proof.Machine
end

