-- ==== Sys2Proof/Machine/Net.lean ====
section
/-! DEFINITION. The train network (R358 to R378): ports, process data, the network receive image with its safety
containers and signal map, publications, and PTP. -/

namespace Sys2Proof.Machine

/-! ### Ports -/

/-- Record 0x0801. Port `p` is enabled. -/
def State.portOn (s : State) (p : Nat) : Bool := bit (s.topoN 0x0801 p 0 1 0) 0

/-- R359, R385. Port `p` sends and receives. -/
def State.portUp (s : State) (p : Nat) : Bool :=
  s.portOn p && !s.loopsIn 3 p && s.fbit (Reg.PORT_STAT_LINK p) && s.mode != mBoot && s.mode != mPark

/-- R360. The address of port `p` in this seat. -/
def State.portIp (s : State) (p : Nat) : Nat := s.topoN 0x0801 p (if s.board.seatB then 8 else 4) 4 0

/-- Table 13.10. A frame received on port `p`. -/
def State.netRx (s : State) (p : Nat) : State := s.lmod (Reg.PORT_RX_RX_FRAMES p)

/-- R360. A frame discarded on port `p`. -/
def State.netDrop (s : State) (p : Nat) : State := s.lsat (Reg.PORT_ERR_DROPPED p)

/-- A frame handed over for sending on port `p`. -/
def State.netSend (s : State) (p : Nat) (f : Sent) : State :=
  if s.portUp p then
    ({ s with net := { s.net with sent := s.net.sent ++ [f] } }).lmod (Reg.PORT_TX_TX_FRAMES p)
  else s

/-- A frame of a kind that has no address of its own. -/
def State.netTx (s : State) (p kind : Nat) (data : List Byte) : State := s.netSend p { chan := p, kind, data }

/-- R359. Boot step 12: each enabled port's PHY is reset, negotiates anew, and advertises its speeds (Clause 22 register bits PRESUMED, log
178); the polls count from here. -/
def State.mdioStart (s : State) : State :=
  s.each ([0, 1, 2, 3].filter fun p => s.portOn p) fun s p =>
    let w (r v : Nat) : Sent := { chan := p, kind := 7, data := beBytes 1 r ++ beBytes 2 v }
    let gig := if bit (s.topoN 0x0801 p 0 1 0) 3 then [w 9 0x0200] else []
    let s := { s with net := { s.net with
      sent := s.net.sent ++ [w 0 0x8000, w 0 0x1200, w 4 0x0101] ++ gig, mdioAt := mset 0 s.net.mdioAt p s.time.mono } }
    s.fset (Reg.PORT_STAT_PHY_ADDR p) (s.topoN 0x0801 p 1 1 p % 32)

/-- MDIO_POLL (R359): every 100 ms. -/
def execMdioPoll (p : Port) (v : BitVec 16) (gig : Bool) (s : State) : Out :=
  if !s.portOn p || s.mode == mBoot || s.mode == mPark then .next s
  else
    let s := s.toMono (mget 0 s.net.mdioAt p + 100000000)
    let s := { s with net := { s.net with mdioAt := mset 0 s.net.mdioAt p s.time.mono } }
    let bad := if v = 0xFFFF then mget 0 s.net.mdioBad p + 1 else 0
    let s := { s with net := { s.net with mdioBad := mset 0 s.net.mdioBad p bad } }
    let s := if 3 ≤ bad then s.fon (Reg.PORT_STAT_MDIO_ERR p) else s
    let up := v.getLsbD 2 && v.getLsbD 5 && !s.fbit (Reg.PORT_STAT_MDIO_ERR p)
    .next ((s.fput (Reg.PORT_STAT_LINK p) up).fput (Reg.PORT_STAT_GIG p) (up && gig && bit (s.topoN 0x0801 p 0 1 0) 3))

/-- ARP_REQUEST (R360). -/
def execArpRequest (p : Port) (ip : Word) (s : State) : Out :=
  if !s.portUp p then .next s
  else
    let s := s.netRx p
    .next (if ip.toNat = s.portIp p then s.netTx p 4 (beBytes 4 ip.toNat) else s.netDrop p)

/-- ICMP_ECHO (R360): at most 10 replies in any second. -/
def execIcmpEcho (p : Port) (ip : Word) (s : State) : Out :=
  if !s.portUp p then .next s
  else
    let s := s.netRx p
    let recent := (mget [] s.net.icmpAt p).filter fun t => decide (s.time.mono < t + 1000000000)
    if ip.toNat = s.portIp p ∧ recent.length < 10 then
      let s := { s with net := { s.net with icmpAt := mset [] s.net.icmpAt p (s.time.mono :: recent) } }
      .next (s.netTx p 5 (beBytes 4 ip.toNat))
    else .next (s.netDrop p)

/-- FRAME_DISCARDED (R360, R361). -/
def execFrameDiscarded (p : Port) (s : State) : Out :=
  .next (if s.portUp p then (s.netRx p).netDrop p else s)

/-- MD_MALFORMED (R379): answered with Me on a port that takes verbs. -/
def execMdMalformed (p : Port) (s : State) : Out :=
  .next (if s.portUp p then
    let s := s.netRx p
    if bit (s.topoN 0x0806 0 4 1 4) p then s.netTx p 3 [] else s
  else s)

/-! ### Telegrams -/

/-- A telegram. -/
def State.tel (s : State) (i : Nat) : Tel_ := mget {} s.net.tels i

/-- Sets a telegram. -/
def State.setTel (s : State) (i : Nat) (x : Tel_) : State := { s with net := { s.net with tels := mset {} s.net.tels i x } }

/-- Record 0x0802 exists with this `DIR`. -/
def State.telIs (s : State) (i dir : Nat) : Bool := (s.topo? 0x0802 i).isSome && s.topoN 0x0802 i 0 1 0 == dir

/-- Record 0x0802. `TMO_MS` in ns. -/
def State.telTmo (s : State) (i : Nat) : Nat := s.topoN 0x0802 i 20 2 0 * 1000000

/-- Telegrams of a direction. -/
def State.telsOf (s : State) (dir : Nat) : List Nat :=
  ((s.boot.topo.filter fun r => r.ty == 0x0802).map (·.inst)).filter fun i => s.telIs i dir

/-- R363. Serial order of the TRDP counter. -/
def newerCtr (n last : Nat) : Bool :=
  let d := (n + 2 ^ 32 - last) % 2 ^ 32
  decide (1 ≤ d) && decide (d < 2 ^ 31)

/-- R363, R364. Telegram `i` takes a copy from port `p`. -/
def State.telTake (s : State) (i p counter : Nat) (payload : List Byte) : State :=
  let x := s.tel i
  let now := s.time.mono
  let x := if p = 0 then { x with planeA := some now } else if p = 1 then { x with planeB := some now } else x
  let s := if p = 0 then s.fon (Reg.TEL_STAT_PLANE_A_OK i) else if p = 1 then s.fon (Reg.TEL_STAT_PLANE_B_OK i) else s
  if x.fresh || newerCtr counter (s.fget (Reg.TEL_SEQ_SEQ i)) then
    let s := s.setTel i { x with copy := some ⟨counter, payload, now⟩, fresh := false }
    (s.fset (Reg.TEL_SEQ_SEQ i) counter).triggerAll 5 fun a => a % 1024 == i
  else (s.setTel i x).fsat (Reg.TEL_STAT_DUP i)

/-- PD_RECEIVE (R363): every subscription that accepts the copy takes it. -/
def execPdReceive (p : Port) (comId srcIp counter : Word) (payload : List Byte) (s : State) : Out :=
  if !s.portUp p then .next s
  else
    let ok := (s.telsOf 0).filter fun i => s.topoN 0x0802 i 4 4 0 == comId.toNat &&
      (s.topoN 0x0802 i 12 4 0 == 0 || s.topoN 0x0802 i 12 4 0 == srcIp.toNat) &&
      s.topoN 0x0802 i 2 2 0 == payload.length && bit (s.topoN 0x0802 i 1 1 0) p
    .next ((s.netRx p).each ok fun s i => s.telTake i p counter.toNat payload)

/-- R364. The newest new copy at sample point `p` is not too old. -/
def State.telValidAt (s : State) (i p : Nat) : Bool :=
  match (s.tel i).copy with
  | some c => s.telTmo i == 0 || decide (p ≤ c.at_ + s.telTmo i)
  | none => false

/-- TEL_TIMEOUT (R364). -/
def execTelTimeout (i : Tel) (s : State) : Out :=
  let x := s.tel i
  match x.copy with
  | some c =>
    if !s.telIs i 0 || s.telTmo i == 0 || x.fresh then .next s
    else
      let s := s.toMono (c.at_ + s.telTmo i)
      let s := s.setTel i { x with fresh := true }
      .next (((s.fsat (Reg.TEL_STAT_TMO_COUNT i)).fon Reg.NET_FLAGS_TMO_SEEN).record cTEL_TIMEOUT (leBytes 2 i.val))
  | none => .next s

/-- PLANE_LOSS (R364). -/
def execPlaneLoss (i : Tel) (b : Bool) (s : State) : Out :=
  let x := s.tel i
  let f := if b then Reg.TEL_STAT_PLANE_B_OK i else Reg.TEL_STAT_PLANE_A_OK i
  match (if b then x.planeB else x.planeA) with
  | some t =>
    if !s.fbit f || s.telTmo i == 0 then .next s
    else
      let s := s.toMono (t + s.telTmo i)
      .next (((s.fset f 0).fon Reg.NET_FLAGS_PLANE_SEEN).record cPLANE_LOSS (leBytes 2 i.val ++ leBytes 1 (b2n b)))
  | none => .next s

/-! ### Safety containers -/

/-- A container. -/
def State.sc (s : State) (c : Nat) : Sc := mget {} s.net.scs c

/-- Sets a container and the bits of its telegram. -/
def State.setSc (s : State) (c : Nat) (x : Sc) : State :=
  let s := { s with net := { s.net with scs := mset {} s.net.scs c x } }
  s.fput (Reg.TEL_STAT_SC_VALID (s.topoN 0x0804 c 0 2 0)) x.valid

/-- The containers of the image that protect subscriptions. -/
def State.rxScs (s : State) : List Nat :=
  ((s.boot.topo.filter fun r => r.ty == 0x0804).map (·.inst)).filter fun c => s.telIs (s.topoN 0x0804 c 0 2 0) 0

/-- R372. A rejection: the container is invalid. -/
def State.scReject (s : State) (c reason : Nat) (x : Sc) : State :=
  let s := s.setSc c { x with valid := false, atP := false }
  let s := (s.fset (Reg.TEL_STAT_SC_REASON (s.topoN 0x0804 c 0 2 0)) reason).fon Reg.NET_FLAGS_SC_REJ_SEEN
  s.record cSC_REJECT (leBytes 2 c ++ leBytes 1 reason)

/-- Table 13.4, reasons 1 to 4 of a payload; 0: none applies. -/
def State.scReason (s : State) (c : Nat) (payload : List Byte) : Nat :=
  let off := s.topoN 0x0804 c 2 2 0
  let len := s.topoN 0x0804 c 4 2 0
  let tr := sub_ payload (off + len) 16
  let flags := beAt tr 1 1
  if beAt tr 0 1 ≠ 1 ∨ flags / 4 ≠ 0 ∨ beAt tr 2 2 ≠ 0 then 1
  else if beAt tr 4 4 ≠ s.topoN 0x0804 c 8 4 0 then 2
  else if crc32c (beBytes 4 (s.topoN 0x0804 c 12 4 0) ++ sub_ payload off len ++ sub_ tr 0 12) ≠ beAt tr 12 4 then 3
  else if bit flags 1 then 4
  else 0

/-- R372, R373. The check of one copy. -/
def State.scCheck (s : State) (c : Nat) (copy : TelCopy) : State :=
  let x := { s.sc c with checked := copy.at_ + 1 }
  let tr := sub_ copy.payload (s.topoN 0x0804 c 2 2 0 + s.topoN 0x0804 c 4 2 0) 16
  let ssc := beAt tr 8 4
  let init := bit (beAt tr 1 1) 0
  let need := s.topoN 0x0804 c 7 1 2
  let x := if init then { x with resync := true, run := 0 } else x
  let reason := s.scReason c copy.payload
  if reason ≠ 0 then s.scReject c reason { x with run := 0 }
  else if x.resync then
    let run := if x.run ≠ 0 ∧ ssc = (x.runSsc + 1) % 2 ^ 32 then x.run + 1 else 1
    if need ≤ run then s.setSc c { x with ssc, sscAt := copy.at_, valid := true, atP := true, resync := false, run := 0 }
    else s.scReject c 7 { x with run, runSsc := ssc }
  else
    let d := (ssc + 2 ^ 32 - x.ssc) % 2 ^ 32
    if d = 0 then s.setSc c x
    else if d ≤ s.topoN 0x0804 c 6 1 4 then s.setSc c { x with ssc, sscAt := copy.at_, valid := true, atP := true }
    else s.scReject c 5 { x with resync := true, run := 0 }

/-- R374. The copy of the current `SSC` of container `c` is too old at point `p`. -/
def State.scOld (s : State) (c p : Nat) : Bool := decide ((s.sc c).sscAt + s.topoN 0x0804 c 16 2 0 * 1000000 < p)

/-- R374, R38. The container goes stale at sample point `p`, and its validity there is kept. -/
def State.scAge (s : State) (c p : Nat) : State :=
  let x := s.sc c
  if x.valid && s.scOld c p then s.scReject c 6 x else s.setSc c { x with atP := x.valid }

/-- SC_STALE (R374): once its copy is older than `SC_TMO_MS`. What a sample point before found stays (R38). -/
def execScStale (c : Fin 256) (s : State) : Out :=
  let x := s.sc c
  if !x.valid then .next s
  else
    let s := s.toMono (x.sscAt + s.topoN 0x0804 c 16 2 0 * 1000000 + 1)
    let s := s.scReject c 6 x
    .next (s.setSc c { s.sc c with atP := x.atP })

/-! ### Receive image -/

/-- R371. The frozen copy that container `c` has to check, if it is one not checked before. -/
def State.scDue (s : State) (c : Nat) : Option TelCopy :=
  match (s.tel (s.topoN 0x0804 c 0 2 0)).frozen with
  | some k => if (s.sc c).checked = k.at_ + 1 then none else some k
  | none => none

/-- R371. CLK_CORE time of the checks that are due: 40 + ⌈(`DATA_LEN` + 12) / 4⌉ clocks each. -/
def State.scCost (s : State) : Nat :=
  ((s.rxScs.filter fun c => (s.scDue c).isSome).map fun c => 5 * (40 + (s.topoN 0x0804 c 4 2 0 + 15) / 4)).sum

/-- Table 15.3, B4. No block of a table entry at `a` of `n` bytes has an uncorrectable error. -/
def State.tableOk (s : State) (a n : Nat) : Bool :=
  !s.mem.badB4.contains (a / 64) && !s.mem.badB4.contains ((a + n - 1) / 64)

/-- R364, R365, R371. The telegrams are frozen at the sample point `p`, the containers age there, and their checks begin. -/
def State.netFreeze (s : State) (p : Nat) : State :=
  let s := s.each (s.telsOf 0) fun s i =>
    let v := s.telValidAt i p && s.tableOk (0xB30000 + 64 * i) 64
    (s.setTel i { s.tel i with frozen := (s.tel i).copy, valid := v }).fput (Reg.TEL_STAT_VALID i) v
  let s := s.each s.rxScs fun s c => s.scAge c p
  let event := match s.eng.run.getD 0 none with | some t => decide (16 ≤ t) | none => false
  { s with
    net := { s.net with building := true, pAt := p, walkAt := p }
    eng := { s.eng with scLeft := s.scCost, scAt := if event then none else some p } }

/-- R367. A field of a payload: `w` bits from bit `off`, counted from the most significant bit of byte 0. -/
def fieldBits (payload : List Byte) (off w : Nat) (little : Bool) : Nat :=
  let v := beNat payload / 2 ^ (8 * payload.length - off - w) % 2 ^ w
  if little then beNat (leBytes (w / 8) v) else v

/-- R367. A value of width `w` as it stands in the image: zero- or sign-extended. -/
def extend (ty w v : Nat) : Nat := if ty = 1 then unsgn 32 (sgn w v) else v % 2 ^ w

/-- Writes the bit at a bit address from `base`. -/
def State.wrBit (s : State) (base a : Nat) (b : Bool) : State :=
  s.wr (base + a / 8) (BitVec.ofNat 8 (putBit (s.rd (base + a / 8)).toNat (a % 8) b))

/-- The network receive image. -/
abbrev rxBase : Nat := 0x200000

/-- The signal map (Table 13.2). -/
def State.smap (s : State) : List (List Byte) := s.entries 0x0803 0 24

/-- R368. Subscribed entry number `n` is valid at the point of the rebuild. -/
def State.entryValid (s : State) (n : Nat) (e : List Byte) : Bool :=
  let c := leAt e 20 2
  (s.tel (leAt e 0 2)).valid && s.tableOk (0xB00000 + 24 * n) 24 &&
    (c == 0xFFFF || ((s.sc c).atP && s.tableOk (0xB40000 + 64 * c) 64))

/-- R367, R368. The walker on entry number `n`. -/
def State.walk (s : State) (n : Nat) (e : List Byte) : State :=
  let i := leAt e 0 2
  if !s.telIs i 0 then s
  else
    let w := leAt e 4 1
    let ty := leAt e 5 1
    let fl := leAt e 6 1
    let ok := s.entryValid n e
    let dflt := extend ty w (leAt e 12 4)
    let v :=
      match ok, (s.tel i).frozen with
      | true, some c => extend ty w (fieldBits c.payload (leAt e 2 2) w (bit fl 0))
      | _, _ =>
        let sub := fl / 2 % 4
        if sub = 1 then dflt
        else if sub = 2 then (if mget 0 s.net.holdVals n = 0 then dflt else mget 0 s.net.holdVals n - 1)
        else 0
    let s := if ok then { s with net := { s.net with holdVals := mset 0 s.net.holdVals n (v + 1) } } else s
    let a := leAt e 8 4
    let s := if w = 1 then s.wrBit rxBase a (bit v 0) else s.wrN (rxBase + a / 8) 4 v
    if leAt e 16 4 = 0xFFFFFFFF then s else s.wrBit rxBase (leAt e 16 4) ok

/-- Numbers the elements of a list from `n`. -/
def numbered {α : Type} : Nat → List α → List (Nat × α)
  | _, [] => []
  | n, a :: t => (n, a) :: numbered (n + 1) t

/-- R365. The containers are checked, and the walkers rebuild the receive image. -/
def State.rebuild (s : State) : State :=
  let s := s.each s.rxScs fun s c =>
    match s.scDue c with
    | some k =>
      let s := s.scCheck c k
      if (s.sc c).atP && s.scOld c s.net.pAt then s.scReject c 6 (s.sc c) else s
    | none => s
  let s := (numbered 0 s.smap).foldl (fun s p => s.walk p.1 p.2) s
  { s with net := { s.net with building := false } }

/-- R371, R365. The end of the container checks: those left run from now on. -/
def State.scFinish (s : State) : State :=
  let s := s.scSettle
  if s.eng.scLeft = 0 then s
  else
    let s := s.toMono (s.time.mono + s.eng.scLeft)
    { s with eng := { s.eng with scLeft := 0, scAt := none }, net := { s.net with walkAt := s.time.mono } }

/-- R365. Time of the four walkers: 2 CLK_FAB clocks of 2.5 ns for each entry. -/
def State.walkNs (s : State) : Nat := 5 * ((s.smap.length + 3) / 4)

/-- R256, R366. Value of the signal-map entry `n` if it is valid. -/
def State.signal (s : State) (n : Nat) : Option Nat :=
  match s.smap[n]? with
  | some e =>
    if s.entryValid n e then
      match (s.tel (leAt e 0 2)).frozen with
      | some c => some (extend (leAt e 5 1) (leAt e 4 1) (fieldBits c.payload (leAt e 2 2) (leAt e 4 1) (bit (leAt e 6 1) 0)))
      | none => none
    else none
  | none => none

/-! ### Publications -/

/-- R369. Puts a field into a payload held as one number of `bits` bits. -/
def packField (bits off w v : Nat) (little : Bool) (p : Nat) : Nat :=
  let v := if little then beNat (leBytes (w / 8) v) else v
  putField p (bits - off - w) w v

/-- The container that protects telegram `i`. -/
def State.scOf (s : State) (i : Nat) : Option Nat :=
  (s.boot.topo.find? fun r => r.ty == 0x0804 && leAt r.data 0 2 == i).map (·.inst)

/-- R369. The payload of publication `i`, packed from the committed image, before its trailer. -/
def State.packPd (s : State) (i : Nat) : List Byte :=
  let len := s.topoN 0x0802 i 2 2 0
  let es := s.smap.filter fun e => leAt e 0 2 == i
  let n := es.foldl (fun p e =>
    let w := leAt e 4 1
    let a := leAt e 8 4
    let v := if w = 1 then b2n (bit (mget 0 s.cimg.q (a / 8)).toNat (a % 8)) else leNat (mslice 0 s.cimg.q (a / 8) 4)
    packField (8 * len) (leAt e 2 2) w v (bit (leAt e 6 1) 0) p) 0
  beBytes len n

/-- R370, R375. The payload with the trailer of container `c`: `SSC` and `INIT`. -/
def State.putTrailer (s : State) (c ssc : Nat) (init : Bool) (payload : List Byte) : List Byte :=
  let off := s.topoN 0x0804 c 2 2 0
  let len := s.topoN 0x0804 c 4 2 0
  let head := beBytes 1 1 ++ beBytes 1 (b2n init) ++ beBytes 2 0 ++ beBytes 4 (s.topoN 0x0804 c 8 4 0) ++ beBytes 4 ssc
  let crc := crc32c (beBytes 4 (s.topoN 0x0804 c 12 4 0) ++ sub_ payload off len ++ head)
  payload.take (off + len) ++ head ++ beBytes 4 crc ++ payload.drop (off + len + 16)

/-- R361, R362. A TRDP process-data telegram of message type Pd with the topography counters 0 (header of IEC 61375-2-3 PRESUMED, log 93). -/
def trdpFrame (seq comId : Nat) (payload : List Byte) : List Byte :=
  let h := beBytes 4 seq ++ beBytes 2 0x0100 ++ [0x50, 0x64] ++ beBytes 4 comId ++ beBytes 8 0 ++ beBytes 4 payload.length ++ beBytes 12 0
  h ++ leBytes 4 (crc32 h) ++ payload

/-- PD_PUBLISH (R362, R375): at the next instant of the publication. -/
def execPdPublish (i : Tel) (s : State) : Out :=
  if !s.telIs i 1 || !(s.driving || s.mode == mSafe) then .next s
  else
    let per := s.topoN 0x0802 i 16 2 1 * 1000000
    let ofs := s.topoN 0x0802 i 18 2 0 * 1000
    let from_ := max s.time.dev (s.tel i).lastPub
    let t := (from_ + per - 1 - ofs % per) / per * per + ofs % per
    let s := s.toDev t
    let s := s.fmod (Reg.TEL_SEQ_SEQ i)
    let x := s.tel i
    let body := s.packPd i
    let ssc := (x.ssc + 1) % 2 ^ 32
    let payload :=
      match s.scOf i with
      | some c => s.putTrailer c ssc (decide (0 < x.initLeft)) body
      | none => body
    let s := s.setTel i { x with ssc := if (s.scOf i).isSome then ssc else x.ssc, initLeft := x.initLeft - 1, lastPub := t + 1 }
    let frame := trdpFrame (s.fget (Reg.TEL_SEQ_SEQ i)) (s.topoN 0x0802 i 4 4 0) payload
    .next (s.each ([0, 1, 2, 3].filter fun p => bit (s.topoN 0x0802 i 1 1 3) p) fun s p =>
      s.netSend p { chan := p, kind := 1, data := frame, dest := s.topoN 0x0802 i 8 4 0, tag := s.topoN 0x0802 i 22 2 0 })

/-! ### PTP -/

/-- Record 0x0805. PTP runs on port `p`. -/
def State.ptpOn (s : State) (p : Nat) : Bool :=
  s.topoN 0x0805 0 0 1 1 == 1 && decide (p < 2) && bit (s.topoN 0x0805 0 2 1 3) p && s.portUp p

/-- The port in use. -/
def State.ptpPort (s : State) : Nat := s.fget Reg.NET_STAT_PTP_PORT

/-- R377. Timestamps of the RGMII side have 4 ns. -/
def stamp4 (t : Nat) : Nat := t / 4 * 4

/-- R377. The servo takes a measured Sync: origin `t1`, receipt `rx` in device time. -/
def State.ptpTake (s : State) (t1 rx : Nat) : State :=
  let t2 := stamp4 rx
  let off : Int := (t2 : Int) - (t1 : Int) - sgn 32 (s.lget Reg.PTP_DELAY_PATH_NS)
  let s := s.lset Reg.PTP_OFS_OFFSET_NS (unsgn 32 off)
  let inL := if off.natAbs < 1000 then s.net.inLock + 1 else 0
  let outL := if 1000 < off.natAbs then s.net.outLock + 1 else 0
  let s := { s with net := { s.net with
    inLock := inL, outLock := outL, syncAt := s.time.mono, t12 := (t1, t2), twoStep := none } }
  let s := s.fset Reg.NET_STAT_PTP_HOLDOVER 0
  let s := if 16 ≤ inL then s.fon Reg.NET_STAT_PTP_LOCKED else if 4 ≤ outL then s.fset Reg.NET_STAT_PTP_LOCKED 0 else s
  if s.mode == mStandby then s else { s with time := { s.time with slew := -off } }

/-- PTP_SYNC (R376, R377). -/
def execPtpSync (p : Port) (twoStep : Bool) (origin rxTime : Nat) (s : State) : Out :=
  if !s.ptpOn p || p.val ≠ s.ptpPort then .next s
  else
    let s := s.netRx p
    if twoStep then .next { s with net := { s.net with twoStep := some (origin, rxTime) } }
    else .next (s.ptpTake origin rxTime)

/-- PTP_FOLLOW_UP (R376). -/
def execPtpFollowUp (p : Port) (origin : Nat) (s : State) : Out :=
  if !s.ptpOn p || p.val ≠ s.ptpPort then .next s
  else
    let s := s.netRx p
    match s.net.twoStep with
    | some (_, rx) => .next (s.ptpTake origin rx)
    | none => .next s

/-- PTP_DELAY_REQ (R376). -/
def execPtpDelayReq (s : State) : Out :=
  if !s.ptpOn s.ptpPort then .next s
  else
    let s := s.netTx s.ptpPort 6 (beBytes 8 (stamp4 s.time.dev))
    .next { s with net := { s.net with dreqAt := some (stamp4 s.time.dev) } }

/-- PTP_DELAY_RESP (R376): the mean of both directions. -/
def execPtpDelayResp (p : Port) (rxTime : Nat) (s : State) : Out :=
  if !s.ptpOn p || p.val ≠ s.ptpPort then .next s
  else
    let s := s.netRx p
    match s.net.dreqAt with
    | some t3 =>
      let (t1, t2) := s.net.t12
      let d : Int := (((t2 : Int) - t1) + ((rxTime : Int) - t3)) / 2
      let s := s.lset Reg.PTP_DELAY_PATH_NS (unsgn 32 d)
      .next { s with net := { s.net with dreqAt := none } }
    | none => .next s

/-- PTP_ANNOUNCE (R376): the better clock is taken; the clock in use is kept up to date, with its announce interval of 2^`log` s. -/
def execPtpAnnounce (p : Port) (msg : Nat × Fin 16) (s : State) : Out :=
  let (prio, log) := msg
  if !s.ptpOn p then .next s
  else
    let s := s.netRx p
    let better := match s.net.best with | some b => decide (prio < b) | none => true
    if p.val = s.ptpPort ∨ better = true then
      let ns := if log.val < 8 then 1000000000 * 2 ^ log.val else 1000000000 / 2 ^ (16 - log.val)
      let s := { s with net := { s.net with best := some prio, annAt := s.time.mono, annNs := ns } }
      .next (s.fset Reg.NET_STAT_PTP_PORT p.val)
    else .next s

/-- PTP_ANNOUNCE_TIMEOUT (R376): no Announce for 3 announce intervals; the other enabled port. -/
def execPtpAnnounceTimeout (s : State) : Out :=
  if s.topoN 0x0805 0 0 1 1 ≠ 1 ∨ s.mode = mBoot ∨ s.mode = mPark then .next s
  else
    let s := s.toMono (s.net.annAt + 3 * s.net.annNs)
    let other := 1 - s.ptpPort
    let s := { s with net := { s.net with best := none, annAt := s.time.mono } }
    .next (if bit (s.topoN 0x0805 0 2 1 3) other && s.portOn other then s.fset Reg.NET_STAT_PTP_PORT other else s)

/-- PTP_LOST (R377). -/
def execPtpLost (s : State) : Out :=
  if s.topoN 0x0805 0 0 1 1 ≠ 1 ∨ s.mode = mBoot ∨ s.mode = mPark ∨ s.fbit Reg.NET_STAT_PTP_HOLDOVER = true then .next s
  else
    let s := s.toMono (s.net.syncAt + s.topoN 0x0805 0 4 2 10 * 1000000000)
    let s := { s with time := { s.time with slew := 0 } }
    .next (((s.fon Reg.NET_STAT_PTP_HOLDOVER).fon Reg.NET_FLAGS_PTP_LOST_SEEN).record cPTP_LOST [])

end Sys2Proof.Machine
end

