-- ==== Sys2Proof/Machine/VerbBase.lean ====
section
/-! DEFINITION. Replies to maintenance verbs (R380 to R382, R387) and frames sent on the Rope link (R399). -/

namespace Sys2Proof.Machine

/-- Verb codes of Table 13.7 other than the change verbs. -/
abbrev vOpen : Nat := 0x0001
abbrev vClose : Nat := 0x0002
abbrev vHealth : Nat := 0x0011
abbrev vReadCairn : Nat := 0x0030
abbrev vClearCairn : Nat := 0x0031
abbrev vReadLedger : Nat := 0x0032
abbrev vSetMode : Nat := 0x0040
abbrev vDoorTest : Nat := 0x0041
abbrev vLearn : Nat := 0x0042
abbrev vForce : Nat := 0x0043
abbrev vBusoff : Nat := 0x0050
abbrev vReset : Nat := 0x0060

/-- Table 13.6. Reply status. -/
abbrev rDone : Nat := 0
abbrev rAgree : Nat := 1
abbrev rResult : Nat := 2
abbrev rFormat : Nat := 3
abbrev rProt : Nat := 4
abbrev rFull : Nat := 5
abbrev rTimeout : Nat := 6
abbrev rEcc : Nat := 7
abbrev rUnmapped : Nat := 8

/-- A session. -/
def State.sess (s : State) (x : Nat) : Option Sess := mget none s.net.sess x

/-- Sets a session and `SESS_OPEN`. -/
def State.setSess (s : State) (x : Nat) (v : Option Sess) : State :=
  let s := { s with net := { s.net with sess := mset none s.net.sess x v } }
  s.fset Reg.NET_STAT_SESS_OPEN (putBit (s.fget Reg.NET_STAT_SESS_OPEN) x v.isSome)

/-- Updates an open session. -/
def State.modSess (s : State) (x : Nat) (f : Sess → Sess) : State :=
  match s.sess x with
  | some v => s.setSess x (some (f v))
  | none => s

/-- Table 13.6. A reply frame under the key `key`. -/
def verbReply (key : List Byte) (verb sess ctr status sub : Nat) (body : List Byte) : List Byte :=
  let f := beBytes 2 (verb + 0x8000) ++ beBytes 1 sess ++ [0] ++ beBytes 4 ctr ++ beBytes 2 body.length ++
    beBytes 1 status ++ beBytes 1 sub ++ body
  f ++ (hmac256 key ((1 : Byte) :: f)).take 16

/-- R382, R384. Replies in session `x` to the request with `ctr`; the reply to the last request is stored. -/
def State.replyTo (s : State) (x verb ctr status sub : Nat) (body : List Byte) : State :=
  match s.sess x with
  | some v =>
    let f := verbReply v.key verb x ctr status sub body
    let s := if ctr = v.last then s.modSess x fun v => { v with reply := f } else s
    s.netTx v.port 2 f
  | none => s

/-- Replies to the request just taken. -/
def State.reply (s : State) (x verb status sub : Nat) (body : List Byte) : State :=
  s.replyTo x verb (match s.sess x with | some v => v.last | none => 0) status sub body

/-- The reply to the request just taken comes later. -/
def State.replyLater (s : State) (x verb : Nat) : State :=
  s.modSess x fun v => { v with waiting := mset 0 v.waiting verb (v.last + 1), reply := [] }

/-- R383. Session `x` closes; the idle count of MAINTENANCE goes on. -/
def State.closeSess (s : State) (x : Nat) : State :=
  let s := s.setSess x none
  let s := if s.net.maintSess = some x then { s with net := { s.net with maintSess := none } } else s
  s.fset Reg.AUTH_CNT_DEFERRED (([0, 1, 2, 3].filter fun i => match s.sess i with | some v => v.deferred.isSome | none => false).length)

/-- The reply promised by `replyLater`. -/
def State.replyNow (s : State) (x verb status sub : Nat) (body : List Byte) : State :=
  match s.sess x with
  | some v =>
    let c := mget 0 v.waiting verb
    if c = 0 then s
    else
      let s := (s.modSess x fun v => { v with waiting := mset 0 v.waiting verb 0 }).replyTo x verb (c - 1) status sub body
      if v.closing && (mset 0 v.waiting verb 0).isEmpty then s.closeSess x else s
  | none => s

/-- R387. A refusal by the agreement check. -/
def State.refuse (s : State) (x verb sub : Nat) : State :=
  let role := match s.sess x with | some v => v.role | none => 0xFF
  let s := ((s.fsat Reg.VERB_CNT_REFUSED).fon Reg.NET_FLAGS_REFUSE_SEEN).record cVERB_REFUSED
    (leBytes 2 verb ++ leBytes 1 sub ++ leBytes 1 role)
  s.reply x verb rAgree sub []

/-- R386, R387. The refusal of a verb whose reply has been held back. -/
def State.refuseLate (s : State) (x verb sub : Nat) : State :=
  let role := match s.sess x with | some v => v.role | none => 0xFF
  let s := ((s.fsat Reg.VERB_CNT_REFUSED).fon Reg.NET_FLAGS_REFUSE_SEEN).record cVERB_REFUSED
    (leBytes 2 verb ++ leBytes 1 sub ++ leBytes 1 role)
  s.replyNow x verb rAgree sub []

/-- R387. An accepted verb. -/
def State.accepted (s : State) : State := s.fmod Reg.VERB_CNT_ACCEPTED

/-! ### The Rope link -/

/-- R400. The Rope link is `UP`. -/
def State.ropeUp (s : State) : Bool := s.fbit Reg.DUP_STAT_ROPE_UP

/-- R399. Sends one Rope frame. -/
def State.ropeSend (s : State) (typ : Nat) (payload : List Byte) : State :=
  if s.ropeUp then
    let d := s.dup
    { s with
      net := { s.net with sent := s.net.sent ++ [({ chan := 4, kind := typ, data := payload } : Sent)] }
      dup := { d with txSeq := (d.txSeq + 1) % 65536, kept := ((typ, d.txSeq, payload) :: d.kept).take 16 } }
  else s

/-- The pieces of at most `n` bytes of a payload. -/
def pieces (n : Nat) : Nat → List Byte → List (List Byte)
  | 0, _ => []
  | f + 1, l => if l.length ≤ n then [l] else l.take n :: pieces n f (l.drop n)

/-- R399. Sends a payload in as many frames as it takes (`MORE`). -/
def State.ropeSendAll (s : State) (typ : Nat) (payload : List Byte) : State :=
  (pieces 2048 (payload.length + 1) payload).foldl (fun s p => s.ropeSend typ p) s

/-- R400. The peer state is duplex. -/
def State.duplexNow (s : State) : Bool := s.fbit Reg.MODE_STAT_DUPLEX

end Sys2Proof.Machine
end

