-- ==== Sys2Proof/Machine/Lane.lean ====
section
/-! DEFINITION. One instruction on the lanes: what a lane reads (R191, R192), what it writes and the write events the
voter compares (R193), and the vote (Table 7.2, R195 to R198). -/

namespace Sys2Proof.Machine

/-! ### Areas -/

/-- Table 4.3. Base of an area that lies in B0 at one place. -/
def areaBase (a : Nat) : Nat :=
  match a with
  | 2 => qBase | 3 => mBase | 4 => tBase | 5 => cBase | 6 => eBase | 7 => kBase | _ => 0

/-- Table 4.2. Size of an area in bytes. -/
def areaSize (a : Nat) : Nat :=
  match a with
  | 1 => 0x10000 | 2 => 0x10000 | 3 => 0x2F800 | 4 => 0x8000 | 5 => 0x8000 | 6 => 0x800 | 7 => 0x10000 | 8 => 0x4000
  | _ => 0

/-- R150. Size of the input image of task `t` in bytes. -/
def State.imgLen (s : State) (t : Nat) : Nat := s.topoN 0x0202 t 20 2 0 * 64

/-- R154, Table 5.2. Place of the input image of task `t`: images stand in task order. -/
def State.imgAt (s : State) (t : Nat) : Nat :=
  imgsBase + ((List.range t).map fun u => if s.taskOn u then s.imgLen u else 0).sum

/-! ### What a lane sees -/

/-- The running task as one lane sees it: the shared state, the task and its activation, and the lane's store buffer. -/
structure LaneView where
  s : State
  t : Nat
  a : Act
  sb : List (List MemWr)

/-- R192. The byte `b` of address `adr`, merged with the lane's own unvoted writes, the newest first in its store buffer. -/
def LaneView.merged (v : LaneView) (adr : Nat) (b : Byte) : Byte :=
  v.sb.foldr (fun g b => g.foldl (fun b w => if w.addr = adr then mergeByte b w.data w.mask else b) b) b

/-- R191, R192. One byte of memory as the lane reads it. -/
def LaneView.mem (v : LaneView) (adr : Nat) : Byte := v.merged adr (v.s.rd adr)

/-- R150, R112. One byte of an area; beyond the input image it is 0. -/
def LaneView.byte (v : LaneView) (area off : Nat) : Byte :=
  if area = 1 then (if off < v.s.imgLen v.t then v.mem (v.s.imgAt v.t + off) else 0)
  else if area = 8 then mget 0 v.a.sArea off
  else v.mem (areaBase area + off)

/-- A word of an area at a byte offset. -/
def LaneView.wordAt (v : LaneView) (area off : Nat) : Word :=
  BitVec.ofNat 32 (leNat ((List.range 4).map fun i => v.byte area (off + i)))

/-- R137. The running task holds the lock on object `obj`. -/
def LaneView.locked (v : LaneView) (obj : Nat) : Bool := mget 0 v.s.eng.lockOf obj == v.t + 1

/-- Where a store buffer holds word `w` of object `obj`: beyond every memory address. -/
def xAddr (obj w : Nat) : Nat := 2 ^ 32 + 4 * (obj * 1024 + w)

/-- R136, R337, R355. Word `w` of a locked object, with `MINE`: the system object, a controller object, a buffer object
with the words the activation has written, voted ones and the lane's own unvoted ones (R192). -/
def LaneView.xWord (v : LaneView) (obj w : Nat) : Word :=
  BitVec.ofNat 32 <|
    if obj = 0 then (if w = 0 then 5 else 0)
    else if 0x100 ≤ obj then
      let base := (v.s.buf (obj - 0x100)).froz.getD w 0
      let x := mget 0 v.a.xw (obj * 1024 + w)
      let x := if x = 0 then base else x - 1
      if w = 0 then base + 1
      else leNat ((List.range 4).map fun i => v.merged (xAddr obj w + i) (BitVec.ofNat 8 (x / 256 ^ i)))
    else
      let l := mget [] (v.s.ctl (obj - 0x010)).froz v.t
      if w = 0 then l.getD 0 0 + 1 else l.getD w 0

/-! ### What a lane does -/

/-- The result of one instruction on one lane: the context, the write events as (class, value), the memory writes, a
written object word, and a run-time error. -/
structure LaneOut where
  ctx : Ctx
  evs : List (Nat × Nat) := []
  wr : List MemWr := []
  xwr : Option (Nat × Nat × Word) := none
  err : Option Nat := none

/-- The flags as a number. -/
def Sf.num (f : Sf) : Nat := b2n f.z + 2 * b2n f.n + 4 * b2n f.v + 8 * b2n f.c + 16 * b2n f.e

/-- A write event. -/
def LaneOut.ev (o : LaneOut) (cls val : Nat) : LaneOut := { o with evs := o.evs ++ [(cls, val)] }

/-- Writes `CR` (class 0). -/
def LaneOut.cr (o : LaneOut) (b : Bool) : LaneOut := ({ o with ctx := { o.ctx with cr := b } }).ev 0 (b2n b)
/-- Writes `WA` (class 3). -/
def LaneOut.wa (o : LaneOut) (w : Word) : LaneOut := ({ o with ctx := { o.ctx with wa := w } }).ev 3 w.toNat
/-- Writes `WB` (class 4). -/
def LaneOut.wb (o : LaneOut) (w : Word) : LaneOut := ({ o with ctx := { o.ctx with wb := w } }).ev 4 w.toNat
/-- Writes `SF` (class 5). -/
def LaneOut.sf (o : LaneOut) (f : Sf) : LaneOut := ({ o with ctx := { o.ctx with sf := f } }).ev 5 f.num
/-- Writes `IX` (class 6). -/
def LaneOut.ix (o : LaneOut) (x : BitVec 16) : LaneOut := ({ o with ctx := { o.ctx with ix := x } }).ev 6 x.toNat
/-- Sets `PC` (class 7). -/
def LaneOut.pc (o : LaneOut) (n : Nat) : LaneOut := ({ o with ctx := { o.ctx with pc := n % 2 ^ 18 } }).ev 7 (n % 2 ^ 18)
/-- Defers a pair on the branch stack (class 1). -/
def LaneOut.defer (o : LaneOut) (isAnd : Bool) : LaneOut :=
  ({ o with ctx := { o.ctx with br := ((o.ctx.cr, isAnd) :: o.ctx.br).take 16 } }).ev 1 (b2n o.ctx.cr + 2 * b2n isAnd)
/-- Takes the newest pair back (class 1) and combines it with `CR`. -/
def LaneOut.takeBack (o : LaneOut) : LaneOut :=
  match o.ctx.br with
  | (d, isAnd) :: rest =>
    (({ o with ctx := { o.ctx with br := rest } }).ev 1 (4 + b2n d + 2 * b2n isAnd)).cr
      (if isAnd then d && o.ctx.cr else d || o.ctx.cr)
  | [] => o
/-- Pushes a return index (class 2). -/
def LaneOut.push (o : LaneOut) (n : Nat) : LaneOut :=
  ({ o with ctx := { o.ctx with rs := (n :: o.ctx.rs).take 8 } }).ev 2 n
/-- A memory write of one byte under a mask (classes 8 to 10). -/
def LaneOut.store (o : LaneOut) (adr : Nat) (d m : Byte) : LaneOut :=
  (((({ o with wr := o.wr ++ [(⟨adr, d, m⟩ : MemWr)] })).ev 8 adr).ev 9 d.toNat).ev 10 m.toNat
/-- A memory write of a run of bytes. -/
def LaneOut.stores (o : LaneOut) (adr : Nat) : List Byte → LaneOut
  | [] => o
  | d :: t => (o.store adr d 0xFF).stores (adr + 1) t
/-- A word written into an exchange object (classes 8 to 10). -/
def LaneOut.xstore (o : LaneOut) (obj w : Nat) (d : Word) : LaneOut :=
  ((({ o with xwr := some (obj, w, d) }).ev 8 (obj * 1024 + w)).ev 9 d.toNat).ev 10 15
/-- A run-time error (R141): the first counts. -/
def LaneOut.error (o : LaneOut) (e : Option Nat) : LaneOut := { o with err := if o.err.isSome then o.err else e }

/-! ### The vote -/

/-- R206. Lanes that execute: live, and not lane A once debug has taken it out. -/
def State.execMask (s : State) : Nat := if s.eng.dbgOut then putBit s.liveLanes 0 false else s.liveLanes

/-- Lanes now compared. -/
def State.votingMask (s : State) : Nat := s.execMask &&& (7 - s.fget Reg.VOTE_STAT_EXCLUDED)

/-- R208. `VOTING` follows. -/
def State.syncVoting (s : State) : State := s.fset Reg.VOTE_STAT_VOTING s.votingMask

/-- The lanes of a mask in the order A, B, C. -/
def lanesOf (m : Nat) : List Nat := [0, 1, 2].filter fun l => bit m l

/-- R193. The class in which two lanes' write events differ; a missing event is class 11. -/
def diffClass : List (Nat × Nat) → List (Nat × Nat) → Option Nat
  | [], [] => none
  | [], _ => some 11
  | _, [] => some 11
  | (c, x) :: t, (d, y) :: u => if c ≠ d then some 11 else if x ≠ y then some c else diffClass t u

/-- Outcome of a comparison: passed with the events of a lane, with or without a lane outvoted in a class; or stopped. -/
inductive Vote where
  | pass (lane : Nat) (out : Option (Nat × Nat))
  | stop (cls : Nat)
deriving DecidableEq, Repr

/-- Table 7.2 on the events of the voting lanes. -/
def vote : List (Nat × List (Nat × Nat)) → Vote
  | [] => .pass 0 none
  | [(a, _)] => .pass a none
  | [(a, x), (_, y)] =>
    match diffClass x y with
    | none => .pass a none
    | some k => .stop k
  | (a, x) :: (b, y) :: (c, z) :: _ =>
    match diffClass x y, diffClass x z, diffClass y z with
    | none, none, _ => .pass a none
    | none, some k, _ => .pass a (some (c, k))
    | some k, none, _ => .pass a (some (b, k))
    | some k, some _, none => .pass b (some (a, k))
    | some k, some _, some _ => .stop k

/-- R196, R198. A minority event of lane `l` in class `k` at `pc`, in task `t`. -/
def State.minority (s : State) (l k pc t : Nat) : State :=
  let s := s.fset Reg.VOTE_STAT_EXCLUDED (putBit (s.fget Reg.VOTE_STAT_EXCLUDED) l true)
  let s := (s.fset Reg.VOTE_STAT_LAST_CLASS k).fon Reg.VOTE_FLAGS_MINORITY
  let s := s.lset (Reg.LANE_EVT_MIN_EVENTS l) (min 65535 (s.lget (Reg.LANE_EVT_MIN_EVENTS l) + 1))
  let s := (s.lset (Reg.LANE_T_LO_T_LO l) s.time.dev).lset (Reg.LANE_T_HI_T_HI l) (s.time.dev / 2 ^ 32)
  let s := ((s.fset (Reg.LANE_WHERE_EVT_PC l) pc).fset (Reg.LANE_WHERE_EVT_CLASS l) k).fset (Reg.LANE_WHERE_EVT_TASK l) t
  let win := s.fget Reg.RETIRE_CFG_RETIRE_WIN_S
  let prev := s.eng.lastMin.getD l 0
  let ret := win == 0 || (prev != 0 && decide (s.time.dev - (prev - 1) < win * 1000000000))
  let s := { s with eng := { s.eng with lastMin := s.eng.lastMin.set l (s.time.dev + 1)
                                        retire := putBit s.eng.retire l (ret || bit s.eng.retire l) } }
  s.syncVoting.recordFrom cLANE_MINORITY 0 t (leBytes 1 l ++ leBytes 1 k ++ leBytes 4 pc)

/-- R141. The first error of an activation: `ERR`, `ERR_CODE`, `ERR_PC` and the record. -/
def State.progErr (s : State) (t code pc : Nat) : State :=
  match s.act t with
  | some a =>
    if bit (mget 0 a.sArea 1).toNat 2 then s
    else
      let sa := mset 0 a.sArea 1 (mget 0 a.sArea 1 ||| 4#8)
      let sa := mput 0 (mset 0 sa 2 (BitVec.ofNat 8 code)) 8 (leBytes 4 pc)
      (s.setAct t (some { a with sArea := sa })).recordFrom cPROG_ERR 0 t (leBytes 1 t ++ leBytes 1 code ++ leBytes 4 pc)
  | none => s

/-- R204. Lane `l` of UNBOUND has used `n` clocks; device time follows the lane that is furthest behind of those that run a task. -/
def State.laneClocks (s : State) (l n : Nat) : State :=
  let at_ := s.eng.laneAt.set l (s.eng.laneAt.getD l 0 + n * 5)
  let s := { s with eng := { s.eng with laneAt := at_ } }
  let busy := ([0, 1, 2].filter fun k => (s.eng.run.getD k none).isSome).map fun k => at_.getD k 0
  s.toMono (busy.foldl min (at_.getD l 0))

/-- R117, R168, R204. The engine has used `n` clocks for task `t`: device time moves on by 5 ns each. -/
def State.clocks (s : State) (t n : Nat) : State :=
  let s := { s with eng := { s.eng with busy := s.eng.busy + n } }
  if s.laneState = laneUnbound then s.laneClocks (s.unbLane t) n else s.advance (n * 5)

/-- R204. Lane `l` of UNBOUND writes bank B0 with its last clock: a lane later in the order A, B, C waits one clock for each lane that
writes in the same clock before it. -/
def State.bankWait (s : State) (l : Nat) : State :=
  let now := s.eng.laneAt.getD l 0
  let same := [0, 1, 2].filter fun k => k != l && s.eng.wroteAt.getD k 0 == now + 1
  let first := (same.filter fun k => decide (k < l)).length
  let s := { s with eng := { s.eng with
    laneAt := (same.filter fun k => decide (l < k)).foldl (fun m k => m.set k (m.getD k 0 + 5)) s.eng.laneAt
    wroteAt := (same.filter fun k => decide (l < k)).foldl (fun m k => m.set k (now + 6)) (s.eng.wroteAt.set l (now + 1 + 5 * first)) } }
  s.laneClocks l first

/-- R117, R204. `mono` up to which the engine has executed for task `t`. -/
def State.engineNow (s : State) (t : Nat) : Nat :=
  if s.laneState = laneUnbound then max s.time.mono (s.eng.laneAt.getD (s.unbLane t) 0) else s.time.mono

/-- What the voter passes: the memory writes, the object word and the error of the winning lane. -/
def State.commitOut (s : State) (t pc : Nat) (o : LaneOut) : State :=
  let s := o.wr.foldl (fun s w => s.engWr t w) s
  let s := match o.xwr, s.act t with
    | some (obj, w, d), some a => s.setAct t (some { a with xw := mset 0 a.xw (obj * 1024 + w) (d.toNat + 1) })
    | _, _ => s
  match o.err with
  | some e => s.progErr t e pc
  | none => s

/-- Stores the context of lane `l` in the activation of `t`. -/
def State.setCtx (s : State) (t l : Nat) (c : Ctx) : State :=
  match s.act t with
  | some a => s.setAct t (some { a with ctx := a.ctx.set l c, started := true })
  | none => s

/-- Byte writes as words: an address, and up to four bytes from it on. -/
def wordRuns : Nat → List MemWr → List (List MemWr)
  | 0, _ => []
  | _, [] => []
  | n + 1, w :: t =>
    let run := (w :: t).take 4
    let k := if run.length = 4 ∧ (List.range 4).all (fun i => (run.getD i w).addr == w.addr + i) then 4 else 1
    run.take k :: wordRuns n ((w :: t).drop k)

/-- R192. What an instruction enters into a lane's store buffer, newest first: a word or a byte each. -/
def LaneOut.entries (o : LaneOut) : List (List MemWr) :=
  let x : List (List MemWr) := match o.xwr with
    | some (obj, w, d) => [(List.range 4).map fun i => ⟨xAddr obj w + i, BitVec.ofNat 8 (d.toNat / 256 ^ i), 0xFF⟩]
    | none => []
  (wordRuns o.wr.length o.wr ++ x).reverse

/-- R195. A stopping outcome among the lanes `vs`, in class `k` while task `t` runs: the lanes are frozen, and SAFE entry follows, with
the PC of the earliest live lane. -/
def State.voteStop (s : State) (a : Act) (vs : List Nat) (k : Nat) : State :=
  let r3 := s.fget Reg.VOTE_STAT_EXCLUDED != 0 || decide (2 < vs.length)
  let pc := (a.ctx.getD ((lanesOf s.execMask).headD 0) {}).pc
  let s := { (s.fset Reg.VOTE_STAT_LAST_CLASS k) with eng := { s.eng with frozen := true } }
  s.enterSafe (if r3 then 0x04 else 0x03) (if r3 then 0 else (vs.map fun l => 2 ^ l).sum) (some (k, pc))

/-! ### The self-test (R199 to R202) -/

/-- R200. The first step at or after `n` whose lane runs: steps number lane × 11 + class. -/
def State.testStep (s : State) (n : Nat) : Nat :=
  ((List.range 33).map fun i => (n + i) % 33).find? (fun k => bit s.execMask (k / 11)) |>.getD 0

/-- R200, Table 7.1. The bits of a field by class. -/
def classBits : List Nat := [1, 3, 18, 32, 32, 5, 16, 18, 32, 8, 8]

/-- R199, R200. The events with one bit of the first event of the step's class inverted; none: there is no such event. -/
def injected (step : Nat) : List (Nat × Nat) → Option (List (Nat × Nat))
  | [] => none
  | (c, x) :: t =>
    if c = step % 11 then
      let i := if step % 32 < classBits.getD c 1 then step % 32 else 0
      some ((c, x ^^^ 2 ^ i) :: t)
    else (injected step t).map fun u => (c, x) :: u

/-- R199. The lane and class that the voter flags in a comparison of `n` lanes with lane `l` injected: of two lanes that differ it
names the injected one (DEDUCED: 2oo2 tests pass, so the voter tells which it is). -/
def flagOf (n l : Nat) : Vote → Option (Nat × Nat)
  | .pass _ o => o
  | .stop k => if n = 2 then some (l, k) else none

/-- R421. A self-test: its bit of `ST_FAIL`, and `SELFTEST_FAIL` where it fails afresh. -/
def State.stTest (s : State) (i : Nat) (fail : Bool) : State :=
  let was := bit s.dup.stFail i
  let s := { s with dup := { s.dup with stFail := putBit s.dup.stFail i fail } }
  if fail && !was then s.record cSELFTEST_FAIL (leBytes 1 i) else s

/-- R421. One part of a self-test: the test fails while any of its parts has failed last. -/
def State.stPart (s : State) (test part : Nat) (mask : Nat) (fail : Bool) : State :=
  let bad := putBit s.dup.stBad part fail
  ({ s with dup := { s.dup with stBad := bad } }).stTest test (bad &&& mask != 0)

/-- R199 to R202. A self-test that waits acts on the events `vs` of an instruction, if its lane votes and has an event of its class. -/
def State.selfTest (s : State) (vs : List (Nat × List (Nat × Nat))) : State :=
  match s.eng.vtest with
  | none => s
  | some defect =>
    let step := s.testStep (s.fget Reg.VTEST_STAT_NEXT_STEP)
    let lane := step / 11
    match (vs.find? fun p => p.1 == lane).bind fun p => injected step p.2 with
    | none => s
    | some inj =>
      match vote vs with
      | .pass _ none =>
        let seen := match defect with
          | some f => f
          | none => flagOf vs.length lane (vote (vs.map fun p => if p.1 = lane then (lane, inj) else p))
        let s := { s with eng := { s.eng with vtest := none } }
        let s := (s.lset Reg.VTEST_T_LO_VT_LO s.time.dev).lset Reg.VTEST_T_HI_VT_HI (s.time.dev / 2 ^ 32)
        if seen = some (lane, step % 11) then
          let s := (s.fmod Reg.VTEST_STAT_PASSED).fset Reg.VTEST_STAT_NEXT_STEP (s.testStep ((step + 1) % 33))
          if s.mode = mStandby then s.stTest 2 false else s
        else (if s.mode = mStandby then s.stTest 2 true else s).enterSafe 0x05 lane
      | _ => (s.fsat Reg.VTEST_VOIDS_VOIDED).fon Reg.VOTE_FLAGS_VTEST_VOID

/-! ### One instruction -/

/-- One instruction of task `t` on the bound lanes (TMR, 2oo2): every live lane executes, the voter compares. -/
def State.voted (s : State) (t : Nat) (a : Act) (n : Nat) (f : LaneView → Ctx → LaneOut)
    (post : State → Nat → LaneOut → State) : State :=
  let outs := (lanesOf s.execMask).map fun l => (l, f ⟨s, t, a, s.eng.sbuf.getD l []⟩ (a.ctx.getD l {}))
  let vs := (outs.filter fun p => bit s.votingMask p.1).map fun p => (p.1, p.2.evs)
  let pc := (a.ctx.getD ((vs.map (·.1)).headD 0) {}).pc
  let s := s.clocks t n
  match vote vs with
  | .stop k => (s.selfTest vs).voteStop a (vs.map (·.1)) k
  | .pass w mino =>
    match outs.find? fun p => p.1 == w with
    | none => s
    | some (_, o) =>
      let s := s.selfTest vs
      let s := match mino with
        | some (l, k) => s.minority l k pc t
        | none => s
      let s := outs.foldl (fun s p => s.setCtx t p.1 p.2.ctx) s
      let sb := outs.foldl (fun sb p =>
        if bit (s.fget Reg.VOTE_STAT_EXCLUDED) p.1 then sb.set p.1 ((p.2.entries ++ sb.getD p.1 []).take 4) else sb) s.eng.sbuf
      let s := { s with eng := { s.eng with sbuf := sb } }
      post (s.commitOut t pc o) t o

/-- R203, R204. One instruction of task `t` on lane `l` in UNBOUND: every write passes unchecked. -/
def State.unbound (s : State) (l t : Nat) (a : Act) (n : Nat) (f : LaneView → Ctx → LaneOut)
    (post : State → Nat → LaneOut → State) : State :=
  let c := a.ctx.getD l {}
  let o := f ⟨s, t, a, []⟩ c
  let s := (s.clocks t n).setCtx t l o.ctx
  let s := if o.wr.any fun w => decide (w.addr < 0x200000) then s.bankWait l else s
  post (s.commitOut t c.pc o) t o

/-! ### Preemption (R193) -/

/-- R109, R193. The words of a context as saved: each is a memory write that the voter compares. -/
def ctxEvents (c : Ctx) : List (Nat × Nat) :=
  let br := c.br.foldl (fun n p => 4 * n + b2n p.1 + 2 * b2n p.2) 0
  ([b2n c.cr, c.wa.toNat, c.wb.toNat, c.sf.num, c.ix.toNat, c.pc, c.br.length, br, c.rs.length] ++
    (List.range 8).map fun i => c.rs.getD i 0).map fun x => (9, x)

/-- R193. Task `t` is preempted: its context is saved as voted, and each lane resumes with the saved one. -/
def State.saveCtx (s : State) (t : Nat) : State :=
  match s.act t with
  | none => s
  | some a =>
    let vs := (lanesOf s.votingMask).map fun l => (l, ctxEvents (a.ctx.getD l {}))
    match vote vs with
    | .stop k => s.voteStop a (vs.map (·.1)) k
    | .pass w mino =>
      let s := match mino with
        | some (l, k) => s.minority l k (a.ctx.getD w {}).pc t
        | none => s
      s.setAct t (some { a with ctx := a.ctx.map fun _ => a.ctx.getD w {} })

/-- R146. The scheduler takes up a task that has become ready; one that it takes from the engine is preempted. -/
def State.preempt (s : State) : State :=
  match s.eng.run.getD 0 none with
  | some t =>
    if s.laneState = laneUnbound ∨ s.eng.frozen ∨ s.bestReady 0 = some t then s.schedule else (s.saveCtx t).schedule
  | none => s.schedule

/-- The task and activation in which an instruction on lane `l` executes, if the engine runs one there. -/
def State.current (s : State) (l : Nat) : Option (Nat × Act) :=
  let k := if s.laneState = laneUnbound then l else 0
  if s.eng.frozen || !s.running then none
  else if s.laneState = laneUnbound && !bit s.execMask l then none
  else
    match s.eng.run.getD k none with
    | some t => if t < 16 && s.checking then none else (s.act t).map fun a => (t, a)
    | none => none

/-- One instruction of `n` clocks. Where the engine runs no activation the command does nothing; an operand that
verification refuses (`ok` false) is refused. -/
def State.instr (s : State) (l n : Nat) (ok : State → Nat → Bool) (f : LaneView → Ctx → LaneOut)
    (post : State → Nat → LaneOut → State) : Out :=
  match s.current l with
  | none => .next s
  | some (t, a) =>
    if !ok s t then .refused .illFormed
    else .next (if s.laneState = laneUnbound then s.unbound l t a n f post else s.voted t a n f post)

/-- An instruction with no effect beyond its lane's. -/
def noPost : State → Nat → LaneOut → State := fun s _ _ => s

end Sys2Proof.Machine
end

