-- ==== Sys2Proof/Machine/Verify.lean ====
section
/-! DEFINITION. The engine's instruction words (R113 to R115) and the verification of programs (R119, R127, R142,
R143). -/

namespace Sys2Proof.Machine

/-- Classes of the offset field (Table 4.5). -/
inductive OffCls where
  | none_ | bit_ | word_ | timer | counter | edge | user | fault_ | target
deriving DecidableEq, Repr

/-- A row of Table 4.6: areas ([]: None), when a literal follows (0 never, 1 with area 0, 2 always), words read or
written from the operand on, offset class, writes its operand, in the DX4 subset, allowed above depth 0. -/
structure OpRow where
  areas : List Nat
  lit : Nat
  span : Nat
  cls : OffCls
  wr : Bool
  dx4 : Bool
  deep : Bool
deriving DecidableEq, Repr

/-- Areas of `AND` and the bit instructions like it. -/
def arBit : List Nat := [1, 2, 3, 4, 5, 6, 7, 8, 9]
/-- Areas of `ADD` and the word instructions like it. -/
def arAlu : List Nat := [0, 1, 2, 3, 7, 8]

/-- Table 4.6, first part: opcodes 0x01 to 0x26. -/
def opRowA (op : Nat) : Option OpRow :=
  if op = 0x01 ∨ op = 0x02 then some ⟨0 :: arBit, 0, 1, .bit_, false, true, true⟩
  else if 0x03 ≤ op ∧ op ≤ 0x07 then some ⟨arBit, 0, 1, .bit_, false, true, true⟩
  else if 0x08 ≤ op ∧ op ≤ 0x0A then some ⟨[], 0, 0, .none_, false, true, true⟩
  else if 0x10 ≤ op ∧ op ≤ 0x13 then some ⟨[2, 3], 0, 1, .bit_, true, true, false⟩
  else if op = 0x14 ∨ op = 0x15 then some ⟨[6], 0, 1, .edge, false, true, true⟩
  else if 0x20 ≤ op ∧ op ≤ 0x22 then some ⟨[4], 0, 1, .timer, false, true, false⟩
  else if op = 0x24 ∨ op = 0x25 then some ⟨[5], 0, 1, .counter, false, true, false⟩
  else if op = 0x26 then some ⟨[5], 0, 1, .counter, false, false, false⟩
  else none

/-- Table 4.6, second part: opcodes 0x30 to 0x52. -/
def opRowB (op : Nat) : Option OpRow :=
  if op = 0x30 then some ⟨[1, 2, 3, 4, 5, 7, 8, 9], 0, 1, .word_, false, true, true⟩
  else if op = 0x31 then some ⟨[0], 2, 0, .none_, false, true, true⟩
  else if op = 0x32 then some ⟨[2, 3, 9], 0, 1, .word_, true, true, false⟩
  else if op = 0x33 then some ⟨[1, 2, 3, 7, 8], 0, 1, .word_, false, false, true⟩
  else if op = 0x34 then some ⟨[2, 3], 0, 1, .word_, false, false, false⟩
  else if op = 0x35 then some ⟨[], 0, 0, .none_, false, false, false⟩
  else if 0x40 ≤ op ∧ op ≤ 0x43 then some ⟨arAlu, 1, 1, .word_, false, true, true⟩
  else if op = 0x44 then some ⟨arAlu, 1, 1, .word_, false, false, true⟩
  else if 0x48 ≤ op ∧ op ≤ 0x4D then some ⟨arAlu, 1, 1, .word_, false, true, true⟩
  else if op = 0x50 then some ⟨[3, 7], 0, 2, .word_, false, false, true⟩
  else if op = 0x51 then some ⟨[3, 7], 0, 4, .word_, false, false, true⟩
  else if op = 0x52 then some ⟨[2, 3], 2, 1, .word_, false, false, false⟩
  else none

/-- Table 4.6, third part: opcodes 0x58 to 0x7F. -/
def opRowC (op : Nat) : Option OpRow :=
  if op = 0x58 ∨ op = 0x59 then some ⟨[3], 0, 1, .word_, false, false, false⟩
  else if op = 0x60 ∨ op = 0x61 then some ⟨[9], 0, 1, .word_, false, true, false⟩
  else if op = 0x62 then some ⟨[9], 0, 1, .word_, false, false, false⟩
  else if op = 0x68 then some ⟨[0], 0, 0, .user, false, true, false⟩
  else if op = 0x69 then some ⟨[0], 0, 0, .fault_, false, true, false⟩
  else if 0x70 ≤ op ∧ op ≤ 0x73 then some ⟨[0], 0, 0, .target, false, true, false⟩
  else if op = 0x74 ∨ op = 0x7F then some ⟨[], 0, 0, .none_, false, true, false⟩
  else none

/-- Table 4.6. -/
def opRow (op : Nat) : Option OpRow :=
  match opRowA op with
  | some r => some r
  | none => match opRowB op with
    | some r => some r
    | none => opRowC op

/-- Whether a literal word follows. -/
def OpRow.hasLit (r : OpRow) (area : Nat) : Bool := r.lit == 2 || (r.lit == 1 && area == 0)

/-- R113, Table 4.5. The reserved offset bits are 0. Of a word instruction with an immediate operand the table says nothing: a non-zero
offset is taken as a reserved field too (DESIGN CHOICE, log 141). -/
def offReserved (r : OpRow) (area off : Nat) : Bool :=
  match r.cls with
  | .none_ => off == 0
  | .bit_ => if area = 0 then decide (off < 2) else true
  | .timer => off / 2 ^ 14 == 0
  | .counter => off / 2 ^ 14 == 0
  | .user => off / 2 ^ 8 == 0
  | .fault_ => off / 2 ^ 9 == 0
  | .target => off / 2 ^ 18 == 0
  | .word_ => if area = 0 then off == 0 else true
  | .edge => true

/-- R142 `OFFSET`. The operand lies within the area, instance or object range. A word index of an object beyond the words its chapter
lays out is accepted and reads 0 (DESIGN CHOICE, log 143). -/
def offInside (r : OpRow) (area off : Nat) : Bool :=
  match r.cls with
  | .bit_ => if area = 0 ∨ area = 9 then true else if area = 6 then decide (off < 16384) else decide (off / 8 < areaSize area)
  | .edge => decide (off < 16384)
  | .word_ => if area = 0 ∨ area = 9 then true else decide (4 * (off + r.span) ≤ areaSize area)
  | _ => true

/-- R136, R337. Object `obj` is defined for task `t`. -/
def State.objDefined (s : State) (t obj : Nat) : Bool :=
  obj == 0 || (decide (0x010 ≤ obj) && decide (obj < 0x014) && s.canOn (obj - 0x010)) ||
    (decide (0x100 ≤ obj) && decide (obj < 0x200) && s.bufOn (obj - 0x100) && s.bufOwner (obj - 0x100) == t)

/-- Table 4.12. The forms a counter instruction allows. -/
def formOk (op form : Nat) : Bool :=
  if op = 0x24 then decide (form ≤ 1) else if op = 0x25 then form == 0 || form == 2
  else if op = 0x26 then decide (form ≤ 3) else form == 0

/-- Table 4.17. An operand within the DX4 limits. -/
def dx4Operand (r : OpRow) (area off : Nat) : Bool :=
  match r.cls with
  | .bit_ =>
    if area = 3 then decide (off / 8 < 0x10000) else if area = 8 then decide (off / 8 < 0x400)
    else if area = 6 then decide (off < 4096)
    else if area = 4 ∨ area = 5 then decide (off / 128 < 512)
    else if area = 9 then off / 2 ^ 10 == 0 || decide (0x100 ≤ off / 2 ^ 10) else true
  | .word_ =>
    if area = 3 then decide (4 * (off + r.span) ≤ 0x10000) else if area = 8 then decide (4 * off < 0x400)
    else if area = 4 ∨ area = 5 then decide (off / 4 < 512)
    else if area = 9 then off / 2 ^ 10 == 0 || decide (0x100 ≤ off / 2 ^ 10) else true
  | .edge => decide (off < 4096)
  | .timer => decide (off % 2048 < 512)
  | .counter => decide (off % 2048 < 512)
  | .target => decide (off < 65536)
  | _ => true

/-- R142. The first reason of Table 4.16 for which one instruction word of task `t` is refused by itself; 0: none. -/
def State.wordReason (s : State) (t : Nat) (dx4 : Bool) (op area off : Nat) (lit : Option Nat) : Nat :=
  match opRow op with
  | none => 0x01
  | some r =>
    if !offReserved r area off then 0x01
    else if r.hasLit area && lit.isNone then 0x01
    else if op == 0x52 && fieldOf (lit.getD 0) 20 8 != 0 then 0x01
    else if (if r.areas.isEmpty then area != 0 else !r.areas.contains area) then 0x02
    else if op == 0x52 && !([1, 2, 3, 4, 5, 7, 8].contains (lit.getD 0 / 2 ^ 28)) then 0x02
    else if !offInside r area off then 0x03
    else if r.wr && area == 2 &&
        !((if r.cls = .bit_ then [off / 8] else [4 * off, 4 * off + 1, 4 * off + 2, 4 * off + 3]).all
          fun o => s.qOwner o == some t) then 0x0A
    else if dx4 && (!r.dx4 || !dx4Operand r area off) then 0x0B
    else if area == 9 && !s.objDefined t (off / 2 ^ 10) then 0x0D
    else if (op == 0x62 && (off / 2 ^ 10 == 0) && dx4) then 0x0B
    else if (r.cls = .counter ∨ r.cls = .timer) ∧ !formOk op (off / 2 ^ 11) then 0x0E
    else 0

/-- The task is in DX4 format (record 0x0202). -/
def State.isDx4 (s : State) (t : Nat) : Bool := s.topoN 0x0202 t 1 1 0 == 1

/-- The operand of a command is one that verification accepts in the running task. -/
def opndOk (op : Nat) (o : Opnd) : State → Nat → Bool := fun s t =>
  s.wordReason t (s.isDx4 t) op o.area.toNat o.off.toNat (some o.lit.toNat) == 0

/-- The same for an instruction whose word the command gives as area and offset. -/
def wordOk (op area off : Nat) : State → Nat → Bool := fun s t =>
  s.wordReason t (s.isDx4 t) op area off (some 0) == 0

/-! ### Whole programs -/

/-- One instruction of a program: word index, opcode, area, offset, literal. -/
structure PIns where
  idx : Nat
  op : Nat
  area : Nat
  off : Nat
  lit : Option Nat
  len : Nat
deriving DecidableEq, Repr

/-- The instructions of a word list from index `i` on (R113). -/
def scanProg : List Nat → Nat → Nat → List PIns
  | [], _, _ => []
  | _ :: ws, i, skip + 1 => scanProg ws (i + 1) skip
  | w :: ws, i, 0 =>
    let op := w / 2 ^ 24 % 256
    let area := fieldOf w 20 4
    let n := match opRow op with
      | some r => if r.hasLit area then 1 else 0
      | none => 0
    ⟨i, op, area, w % 2 ^ 20, if n = 1 then ws.head? else none, n + 1⟩ :: scanProg ws (i + 1) n

/-- Successors of an instruction within its body; `CALL` goes on behind itself. -/
def PIns.succ (p : PIns) : List Nat :=
  if p.op = 0x70 then [p.off] else if p.op = 0x71 ∨ p.op = 0x72 then [p.off, p.idx + p.len]
  else if p.op = 0x74 ∨ p.op = 0x7F then [] else [p.idx + p.len]

/-- The instruction at a word index. -/
def insAt (l : List PIns) (i : Nat) : Option PIns := l.find? fun p => p.idx == i

/-- R119. Branch depth after an instruction. -/
def PIns.depthAfter (p : PIns) (d : Nat) : Nat := if p.op = 0x08 ∨ p.op = 0x09 then d + 1 else if p.op = 0x0A then d - 1 else d

/-- R119. Depths (plus 1) by word index, found from a worklist; `none`: two paths disagree. -/
def depths (l : List PIns) : Nat → List (Nat × Nat) → Nums → Option Nums
  | 0, _, m => some m
  | _, [], m => some m
  | n + 1, (i, d) :: todo, m =>
    match mget 0 m i with
    | 0 =>
      match insAt l i with
      | none => depths l n todo m
      | some p =>
        let more := p.succ.map fun j => (j, p.depthAfter d)
        let calls := if p.op = 0x73 then [(p.off, 0)] else []
        depths l n (more ++ calls ++ todo) (mset 0 m i (d + 1))
    | k + 1 => if k = d then depths l n todo m else none

/-- R119. The depth rules other than its second point. An instruction that no path reaches has no depth and is not judged
(DESIGN CHOICE, log 144). -/
def depthBad (l : List PIns) (m : Nums) (max : Nat) : Option Nat :=
  (l.find? fun p =>
    match mget 0 m p.idx with
    | 0 => false
    | d + 1 =>
      decide (max < p.depthAfter d) || (p.op == 0x0A && d == 0) ||
        (decide (0 < d) && (match opRow p.op with | some r => !r.deep | none => true))).map (·.idx)

/-- R119, second point: the instruction after `AB` or `OB` is `LD`, `LDN` or a compare. -/
def branchBad (l : List PIns) : Option Nat :=
  (l.find? fun p => (p.op == 0x08 || p.op == 0x09) &&
    (match insAt l (p.idx + 1) with
    | some q => !(q.op == 0x01 || q.op == 0x02 || (decide (0x48 ≤ q.op) && decide (q.op ≤ 0x4D)))
    | none => true)).map (·.idx)

/-- Word indices of one body from an entry on. -/
def body (l : List PIns) : Nat → List Nat → List Nat → List Nat
  | 0, _, seen => seen
  | _, [], seen => seen
  | n + 1, i :: todo, seen =>
    if seen.contains i then body l n todo seen
    else
      match insAt l i with
      | some p => body l n (p.succ ++ todo) (i :: seen)
      | none => body l n todo (i :: seen)

/-- Fuel for the worklists: every instruction adds at most two entries. -/
def fuelOf (l : List PIns) : Nat := 3 * l.length + 3

/-- R140, R142 `CALLS`. No chain of calls from the body at `e` is longer than `n`. -/
def nestOk (l : List PIns) : Nat → Nat → Bool
  | 0, e => (body l (fuelOf l) [e] []).all fun i => match insAt l i with | some p => p.op != 0x73 | none => true
  | n + 1, e => (body l (fuelOf l) [e] []).all fun i =>
      match insAt l i with
      | some p => if p.op = 0x73 then nestOk l n p.off else true
      | none => true

/-- R142 `PATHS`. Some path of the body at `e` leaves the program, or meets `RET` in the main body. -/
def pathsBad (l : List PIns) (e : Nat) (main : Bool) : Bool :=
  (body l (fuelOf l) [e] []).any fun i =>
    match insAt l i with
    | some p => main && p.op == 0x74
    | none => true

/-- R122, R128. `KIND` of the instruction that evaluates a T or C instance. -/
def kindOf (op : Nat) : Nat :=
  if op = 0x20 ∨ op = 0x24 then 1 else if op = 0x21 ∨ op = 0x25 then 2 else if op = 0x22 ∨ op = 0x26 then 3 else 0

/-- The instances a program uses: area, instance, kind (0 for E). A use is an evaluation; a word or bit read of an instance is none
(DESIGN CHOICE for R127, log 145). -/
def instancesOf (l : List PIns) : List (Nat × Nat × Nat) :=
  l.filterMap fun p =>
    if 0x20 ≤ p.op ∧ p.op ≤ 0x22 then some (4, p.off % 2048, kindOf p.op)
    else if 0x24 ≤ p.op ∧ p.op ≤ 0x26 then some (5, p.off % 2048, kindOf p.op)
    else if p.op = 0x14 ∨ p.op = 0x15 then some (6, p.off, 0) else none

/-- Entries of record 0x0206 as area, offset, bytes (R169). -/
def initEntries : Nat → Nat → List Byte → List (Nat × Nat × List Byte)
  | 0, _, _ => []
  | _, 0, _ => []
  | n + 1, k + 1, l =>
    let len := leAt l 2 2
    (leAt l 0 1, leAt l 4 4, sub_ l 8 len) :: initEntries n k (l.drop (8 + (len + 3) / 4 * 4))

/-- Record 0x0206. -/
def State.inits (s : State) : List (Nat × Nat × List Byte) :=
  match s.topo? 0x0206 0 with
  | some r => initEntries r.data.length (leAt r.data 0 4) (r.data.drop 4)
  | none => []

/-- The initial value of a byte of an area by record 0x0206; `none`: no entry names it. -/
def State.initByte (s : State) (area off : Nat) : Option Byte :=
  (s.inits.find? fun e => e.1 == area && decide (e.2.1 ≤ off) && decide (off < e.2.1 + e.2.2.length)).map
    fun e => e.2.2.getD (off - e.2.1) 0

/-- R142 `INSTANCE` within one program: two kinds on one instance, or a `KIND` set otherwise by record 0x0206. -/
def State.instBad (s : State) (l : List PIns) : Bool :=
  let u := instancesOf l
  u.any fun x => (u.any fun y => x.1 == y.1 && x.2.1 == y.2.1 && x.2.2 != y.2.2) ||
    (x.1 != 6 && (match s.initByte x.1 (x.2.1 * 16 + 15) with | some k => k.toNat != x.2.2 | none => false))

/-- R142. The first reason of Table 4.16 for which the program of task `t` is refused, with the word index. `shared`: another task
uses an instance of it (R127). `full`: with it the native programs exceed the store. A reason of the whole program (paths of unequal
depth, `CALLS`, `PATHS`, `INSTANCE`, `SIZE`, the nesting of `DX4_SUBSET`) carries the word index 0 (DESIGN CHOICE, log 142). -/
def State.verify (s : State) (t : Nat) (dx4 shared full : Bool) (ws : List Nat) : Option (Nat × Nat) :=
  let l := scanProg ws 0 0
  let words := l.map fun p => (s.wordReason t dx4 p.op p.area p.off p.lit, p.idx)
  let at_ (r : Nat) : Option (Nat × Nat) := words.find? fun x => x.1 == r
  let first (xs : List (Option (Nat × Nat))) : Option (Nat × Nat) := xs.findSome? id
  let whole (c : Bool) (r : Nat) : Option (Nat × Nat) := if c then some (r, 0) else none
  let dm := depths l (fuelOf l) [(0, 0)] []
  let deep (max r : Nat) : Option (Nat × Nat) := dm.bind fun m => (depthBad l m max).map fun i => (r, i)
  let target := (l.find? fun p => (decide (0x70 ≤ p.op) && decide (p.op ≤ 0x73)) && (insAt l p.off).isNone).map
    fun p => (0x06, p.idx)
  let subs := (l.filter fun p => p.op == 0x73).map (·.off)
  first [
    at_ 0x01, at_ 0x02, at_ 0x03,
    whole dm.isNone 0x04, deep 16 0x04,
    (branchBad l).map fun i => (0x05, i),
    target,
    whole (target.isNone && !nestOk l 8 0) 0x07,
    whole (pathsBad l 0 true || subs.any (fun e => pathsBad l e false)) 0x08,
    whole (s.instBad l || shared) 0x09,
    at_ 0x0A, at_ 0x0B,
    if dx4 then deep 8 0x0B else none, whole (dx4 && !nestOk l 4 0) 0x0B,
    whole ((dx4 && decide (65536 < ws.length)) || full) 0x0C,
    at_ 0x0D, at_ 0x0E]

end Sys2Proof.Machine
end

