-- ==== Sys2Proof/Machine/Change.lean ====
section
/-! DEFINITION. Online change (R171 to R188): the native method, the two program slots and the swap method, probation and
REVERT, carry-over, and the events of this chapter. The verbs of this chapter are in Verbs.lean. -/

namespace Sys2Proof.Machine

/-! ### Results -/

/-- Table 6.5. -/
abbrev gDone : Nat := 0x01
abbrev gPending : Nat := 0x02
abbrev gDisabled : Nat := 0x0F
abbrev gGenMismatch : Nat := 0x10
abbrev gNotTunable : Nat := 0x11
abbrev gOutOfRange : Nat := 0x12
abbrev gTooMany : Nat := 0x13
abbrev gBusy : Nat := 0x14
abbrev gPointRange : Nat := 0x15
abbrev gInProbation : Nat := 0x20
abbrev gBaseMismatch : Nat := 0x21
abbrev gNotDx4 : Nat := 0x22
abbrev gGenNotNewer : Nat := 0x23
abbrev gSetTooLarge : Nat := 0x24
abbrev gSetCrc : Nat := 0x25
abbrev gVerify : Nat := 0x26
abbrev gIidTable : Nat := 0x27
abbrev gIidKind : Nat := 0x28
abbrev gStoreFull : Nat := 0x29
abbrev gNoVerifiedSet : Nat := 0x2A
abbrev gNotInProbation : Nat := 0x2B
abbrev gPeerNoAck : Nat := 0x30
abbrev gAborted : Nat := 0x31

/-- Verb codes of the change verbs (Table 13.7). -/
abbrev vWriteParam : Nat := 0x0020
abbrev vLoad : Nat := 0x0021
abbrev vSwitch : Nat := 0x0022
abbrev vRevert : Nat := 0x0023

/-- R180, R183. The program that task `t` runs from its next activation on. -/
def State.nowProg (s : State) (t : Nat) : Prog := mget {} (if bit s.eng.switchPend t then s.eng.goal else s.eng.prog) t

/-- R187. The record of a result: method (1 native, 2 swap), generation, task. -/
def State.chgRecord (s : State) (code method gen task : Nat) : State :=
  s.record code (leBytes 1 method ++ leBytes 4 gen ++ leBytes 1 task)

/-- The promised reply of a change verb in the session that asked, if one did: `DONE` or a result code. -/
def State.chgReply (s : State) (x : Option Nat) (verb code : Nat) : State :=
  match x with
  | some x => if code = gDone then s.replyNow x verb rDone 0 [] else s.replyNow x verb rResult code []
  | none => s

/-- Serial comparison of 32-bit numbers. -/
def newer32 (a b : Nat) : Bool :=
  let d := (a + 2 ^ 32 - b % 2 ^ 32) % 2 ^ 32
  decide (1 ≤ d) && decide (d < 2 ^ 31)

/-- R179. Serial comparison of program generations. -/
def newer16 (a b : Nat) : Bool :=
  let d := (a + 65536 - b % 65536) % 65536
  decide (1 ≤ d) && decide (d ≤ 32767)

/-- R174, R180. The first sample-grid index at or after the instant `t`. -/
def gridAfter (t : Nat) : Nat := (t + 24999) / 25000

/-! ### The parameter overlay -/

/-- R440. Base of the overlay; a ring record; an entry's copy. -/
abbrev ovlBase : Nat := 0x10310000
def ringAt (i : Nat) : Nat := ovlBase + i % 16 * 1024
def ovlCopy (id k : Nat) : Nat := ovlBase + 0x4000 + id * 32 + k * 16

/-- R440. A copy is an `APPLIED` one with a valid CRC. -/
def State.ovlOk (s : State) (a : Nat) : Bool :=
  s.mrN (a + 2) 1 == 2 && s.mrN (a + 12) 4 == crc32c (mslice 0 s.mram a 12)

/-- R440. The copy that holds an entry's value, if one does. -/
def State.ovlBest (s : State) (id : Nat) : Option Nat :=
  let a := ovlCopy id 0
  let b := ovlCopy id 1
  if s.ovlOk a && !(s.ovlOk b && newer32 (s.mrN (b + 8) 4) (s.mrN (a + 8) 4)) then some a
  else if s.ovlOk b then some b else none

/-- R440. Writes an entry into the copy that does not hold the newer generation. -/
def State.ovlWrite (s : State) (id v gen : Nat) : State :=
  let a := if s.ovlBest id = some (ovlCopy id 0) then ovlCopy id 1 else ovlCopy id 0
  let b := leBytes 2 id ++ [2, 0] ++ leBytes 4 v ++ leBytes 4 gen
  s.mwBytes a (b ++ leBytes 4 (crc32c b))

/-- R440. Writes ring record `i` as `PENDING`. DESIGN CHOICE: state, entry count, generation, point, entries. -/
def State.ringWrite (s : State) (i point : Nat) (es : List (Nat × Nat)) : State :=
  s.mwBytes (ringAt i) (leBytes 1 1 ++ leBytes 1 es.length ++ [0, 0] ++ leBytes 4 (s.fget Reg.PARAM_GEN_GEN) ++
    leBytes 8 point ++ (es.map fun e => leBytes 2 e.1 ++ [0, 0] ++ leBytes 4 e.2).flatten)

/-- R440. Sets the state of ring record `i`. -/
def State.ringState (s : State) (i st : Nat) : State := s.mwN (ringAt i) 1 st

/-! ### The native method -/

/-- R172. The tunable with an identifier. -/
def State.tunable (s : State) (id : Nat) : Option (List Byte) :=
  (s.entries 0x0208 0 16).find? fun e => leAt e 0 2 == id

/-- Table 6.8. A value lies within the limits of a tunable. -/
def tunRange (e : List Byte) (v : Nat) : Bool :=
  if bit (leAt e 3 1) 2 then decide (sgn 32 (leAt e 8 4) ≤ sgn 32 v) && decide (sgn 32 v ≤ sgn 32 (leAt e 12 4))
  else decide (leAt e 8 4 ≤ v) && decide (v ≤ leAt e 12 4)

/-- Index of the first element that satisfies `p`. -/
def firstIdx {α : Type} (p : α → Bool) : List α → Nat → Option Nat
  | [], _ => none
  | a :: t, i => if p a then some i else firstIdx p t (i + 1)

/-- R173. The identifier of an entry is no tunable, or appears earlier in the list. -/
def State.badIds (s : State) : List (Nat × Nat) → List Nat → Nat → Option Nat
  | [], _, _ => none
  | e :: t, seen, i =>
    if (s.tunable e.1).isNone || seen.contains e.1 then some i else s.badIds t (e.1 :: seen) (i + 1)

/-- R173. Limits of a requested point, as instants, with the least lead `lo`. -/
def State.pointOk (s : State) (lo point : Nat) : Bool :=
  decide (s.time.dev + lo ≤ samplePt point) && decide (samplePt point ≤ s.time.dev + 10000000000)

/-- R174. Least lead of an application point, in ns. -/
def State.lead (s : State) : Nat := if s.duplexNow then 20000000 else 1000000

/-- R184. Least lead, in ns, of a point that the active module has named: the standby's own acknowledgement is due 10 ms before it
(DEDUCED: the lead of R174 and R180 is counted from the acceptance in the active module). -/
abbrev namedLead : Nat := 10000000

/-- R184. A point armed now waits for the standby's acknowledgement. -/
def State.asksPeer (s : State) : Bool := s.driving && s.duplexNow

/-- R173. The checks in the order of its list: result and offending entry; 0: passed. -/
def State.nativeCheck (s : State) (named : Bool) (expGen point : Nat) (es : List (Nat × Nat)) : Nat × Nat :=
  if expGen ≠ s.fget Reg.PARAM_GEN_GEN then (gGenMismatch, 0)
  else
    match s.badIds es [] 0 with
    | some i => (gNotTunable, i)
    | none =>
      match firstIdx (fun e => match s.tunable e.1 with | some r => !tunRange r e.2 | none => true) es 0 with
      | some i => (gOutOfRange, i)
      | none =>
        if es.length = 0 ∨ 64 < es.length then (gTooMany, 0)
        else if s.chg.txn.isSome then (gBusy, 0)
        else if !(if named then s.pointOk namedLead point else point == 0 || s.pointOk s.lead point) then
          (gPointRange, 0)
        else if s.topoN 0x0209 0 0 1 1 = 0 then (gDisabled, 0)
        else (0, 0)

/-- Sets `NATIVE_RES`. -/
def State.nativeRes (s : State) (code entry detail : Nat) : State :=
  ((s.fset Reg.NATIVE_RES_RESULT code).fset Reg.NATIVE_RES_ENTRY entry).fset Reg.NATIVE_RES_DETAIL detail

/-- R184. The rope form of a change: kind, point, bytes. -/
def State.sendChange (s : State) (kind point : Nat) (b : List Byte) : State :=
  s.ropeSendAll 0x06 (beBytes 1 kind ++ beBytes 8 point ++ b)

/-- R173, R174. A native transaction: refused, or accepted and written to the overlay as `PENDING`. `x`: the session that
waits; at a standby none. -/
def State.writeParam (s : State) (x : Option Nat) (expGen point : Nat) (es : List (Nat × Nat)) : State :=
  let (code, i) := s.nativeCheck x.isNone expGen point es
  if code ≠ 0 then
    ((s.nativeRes code i 0).chgRecord cCHG_REFUSED 1 (s.fget Reg.PARAM_GEN_GEN) 0).chgReply x vWriteParam code
  else
    let p := if point = 0 then gridAfter (s.time.dev + s.lead) else point
    let ring := s.chg.ring % 16
    let t : Txn := { point := p, entries := es, sess := x, ring, acked := !s.asksPeer }
    let s := { (s.ringWrite ring p es) with chg := { s.chg with txn := some t, ring := (ring + 1) % 16 } }
    let s := ((s.nativeRes gPending 0 0).fon Reg.CHG_STAT_NATIVE_PEND).fset Reg.P_LO_P_LO p
    let s := s.fset Reg.P_HI_P_HI (p / 2 ^ 32)
    if s.asksPeer then
      s.sendChange 0 p (beBytes 4 expGen ++ beBytes 1 es.length ++ (es.map fun e => beBytes 2 e.1 ++ beBytes 4 e.2).flatten)
    else s

/-- R174, step 1. Writes one tunable value into K or M. -/
def State.putTunable (s : State) (e : List Byte) (v : Nat) : State :=
  s.outWrs ((if leAt e 2 1 = 3 then mBase else kBase) + leAt e 4 4) (leBytes (2 ^ (leAt e 3 1 % 4)) v)

/-- The pending native transaction ends. -/
def State.nativeEnd (s : State) (t : Txn) (ringSt : Nat) : State :=
  let s := { (s.ringState t.ring ringSt) with chg := { s.chg with txn := none } }
  ((s.fset Reg.CHG_STAT_NATIVE_PEND 0).fset Reg.P_LO_P_LO 0).fset Reg.P_HI_P_HI 0

/-- R184, R185. The pending transaction is aborted. -/
def State.nativeAbort (s : State) (code detail : Nat) : State :=
  match s.chg.txn with
  | some t =>
    (((s.nativeEnd t 0).nativeRes code 0 detail).chgRecord cCHG_REFUSED 1 (s.fget Reg.PARAM_GEN_GEN) 0).chgReply t.sess
      vWriteParam code
  | none => s

/-- Enabled tasks, as a mask. -/
def State.taskMask (s : State) : Nat := (taskNums.filter fun t => s.taskOn t).foldl (fun m t => m + 2 ^ t) 0

/-- R174. The application point, steps 1 to 5. -/
def State.paramApply (s : State) : State :=
  match s.chg.txn with
  | none => s
  | some t =>
    if !t.acked then s.nativeAbort gPeerNoAck 0
    else
      let gen := let g := (s.fget Reg.PARAM_GEN_GEN + 1) % 2 ^ 32; if g = 0 then 1 else g
      let s := t.entries.foldl (fun s e => match s.tunable e.1 with | some r => s.putTunable r e.2 | none => s) s
      let s := s.fset Reg.PARAM_GEN_GEN gen
      let s := t.entries.foldl (fun s e => s.ovlWrite e.1 e.2 gen) s
      let s := (s.nativeEnd t 2).nativeRes gDone 0 0
      let s := { s with eng := { s.eng with parPend := s.taskMask } }
      (s.chgRecord cCHG_APPLIED 1 gen 0).chgReply t.sess vWriteParam gDone

/-- PARAM_APPLY (R174): at P. -/
def execParamApply (s : State) : Out :=
  match s.chg.txn with
  | some t => .next ((s.toDev (samplePt t.point)).paramApply)
  | none => .next s

/-! ### Program slots -/

/-- Table 6.1. Base of slot `i`. -/
def slotBase (i : Nat) : Nat := 0x10000000 + i * 0x100000

/-- Table 6.1. Slot states. -/
abbrev slEmpty : Nat := 0
abbrev slLoading : Nat := 1
abbrev slVerified : Nat := 2
abbrev slProbation : Nat := 3
abbrev slActive : Nat := 4
abbrev slInactive : Nat := 5

/-- `STATE` of slot `i`. -/
def State.slotState (s : State) (i : Nat) : Nat := s.mrN (slotBase i + 4) 1

/-- Table 6.7. The slot fields of `CHG_STAT` follow the slots. -/
def State.slotRegs (s : State) : State :=
  let act := [0, 1].find? fun i => s.slotState i == slActive
  let s := (s.fset Reg.CHG_STAT_SLOT0_STATE (s.slotState 0)).fset Reg.CHG_STAT_SLOT1_STATE (s.slotState 1)
  let s := s.fput Reg.CHG_STAT_PROBATION ([0, 1].any fun i => s.slotState i == slProbation)
  (s.fput Reg.CHG_STAT_SLOT_USED act.isSome).fset Reg.CHG_STAT_ACT_SLOT (act.getD 0)

/-- Sets `STATE` of slot `i`. -/
def State.setSlot (s : State) (i st : Nat) : State := (s.mwN (slotBase i + 4) 1 st).slotRegs

/-- The slot in a state. -/
def State.slotIn (s : State) (st : Nat) : Option Nat := [0, 1].find? fun i => s.slotState i == st

/-- R180. The slot of the running program set: the one in probation, else the `ACTIVE` one. -/
def State.runningSlot (s : State) : Option Nat := (s.slotIn slProbation).or (s.slotIn slActive)

/-- A task entry: task, generation, body. -/
abbrev SetEntry := Nat × Nat × List Byte

/-- Table 6.2. Task entries of a byte string; `none`: they do not fill it. -/
def parseSet : Nat → List Byte → Option (List SetEntry)
  | _, [] => some []
  | 0, _ => none
  | n + 1, l =>
    let len := leAt l 4 4
    if l.length < 8 ∨ l.length < 8 + len ∨ len % 4 ≠ 0 ∨ leAt l 1 1 ≠ 0 then none
    else (parseSet n (l.drop (8 + len))).map fun t => (leAt l 0 1, leAt l 2 2, sub_ l 8 len) :: t

/-- A task entry as bytes. -/
def entryBytes (e : SetEntry) : List Byte :=
  leBytes 1 e.1 ++ [0] ++ leBytes 2 e.2.1 ++ leBytes 4 e.2.2.length ++ e.2.2

/-- The set in slot `i`. -/
def State.slotSet (s : State) (i : Nat) : List SetEntry :=
  (parseSet 24 (mslice 0 s.mram (slotBase i + 64) (s.mrN (slotBase i + 36) 4))).getD []

/-- R170, R180. Generation and body of the program of task `t` outside any probation: the `ACTIVE` slot's or the image's. -/
def State.provenBody (s : State) (t : Nat) : Nat × List Byte :=
  let img := (s.topoN 0x0202 t 22 2 1, match s.topo? 0x0207 t with | some r => r.data | none => [])
  match s.slotIn slActive with
  | some i => match (s.slotSet i).find? fun e => e.1 == t with
    | some e => e.2
    | none => img
  | none => img

/-- Table 5.11. Words of a body. -/
def bodyWords (b : List Byte) : List Nat := (List.range (leAt b 0 4)).map fun i => leAt b (4 + 4 * i) 4

/-- R177. `IID_TABLE` of a body: identifier, area, kind, instance. -/
def bodyIids (b : List Byte) : List (Nat × Nat × Nat × Nat) :=
  let o := 4 + 4 * leAt b 0 4
  (List.range (leAt b o 4)).map fun i =>
    (leAt b (o + 4 + 8 * i) 4, leAt b (o + 8 + 8 * i) 1, leAt b (o + 9 + 8 * i) 1, leAt b (o + 10 + 8 * i) 2)

/-- Programs whose space in the store is in use (R178, R183). -/
def State.storeUse (s : State) : List (Nat × Nat) :=
  ((s.eng.prog ++ s.eng.next ++ s.eng.prev ++ s.eng.goal.filter fun p => bit s.eng.switchPend p.1).map fun p => (p.2.base, p.2.words)).filter fun r => r.2 != 0

/-- First free place of `n` words in the store, beside the ranges in use. -/
def storePlace (used : List (Nat × Nat)) (n : Nat) : Option Nat :=
  (0 :: used.map fun r => r.1 + r.2).find? fun b =>
    decide (b + n ≤ 262144) && used.all fun r => decide (b + n ≤ r.1) || decide (r.1 + r.2 ≤ b)

/-- Places the programs of a set one after the other; `none`: the store cannot hold one. -/
def placeAll : List (Nat × Nat) → List SetEntry → Option (List (Nat × Prog))
  | _, [] => some []
  | used, e :: t =>
    let n := leAt e.2.2 0 4
    match storePlace used n with
    | none => none
    | some b => (placeAll ((b, n) :: used) t).map fun l =>
        (e.1, ({ base := b, words := n, gen := e.2.1, iids := bodyIids e.2.2 } : Prog)) :: l

/-- Writes the words of a set into the program store. -/
def State.storeWrite (s : State) (ps : List (Nat × Prog)) (es : List SetEntry) : State :=
  ps.foldl (fun s p =>
    match es.find? fun e => e.1 == p.1 with
    | some e => { s with sram := mput 0 s.sram (progBase + 4 * p.2.base) (sub_ e.2.2 4 (4 * p.2.words)) }
    | none => s) s

/-! ### The checks of a loaded set -/

/-- R177. An `IID_TABLE` by itself, against the instances its program uses. -/
def iidBad (b : List Byte) : Bool :=
  let tab := bodyIids b
  let used := instancesOf (scanProg (bodyWords b) 0 0)
  decide (5120 < tab.length) || b.length != 4 + 4 * leAt b 0 4 + 4 + 8 * tab.length ||
    (tab.zip (tab.drop 1)).any (fun p => decide (p.2.1 ≤ p.1.1)) ||
    tab.any (fun e => e.1 == 0 ||
      !(if e.2.1 = 4 ∨ e.2.1 = 5 then decide (1 ≤ e.2.2.1) && decide (e.2.2.1 ≤ 3) && decide (e.2.2.2 < 512)
        else e.2.1 == 6 && e.2.2.1 == 0 && decide (e.2.2.2 < 4096)) ||
      (tab.filter fun f => f.2.1 == e.2.1 && f.2.2.2 == e.2.2.2).length != 1) ||
    used.any fun u => !tab.any fun e => e.2.1 == u.1 && e.2.2.2 == u.2.1 && e.2.2.1 == u.2.2

/-- R178. Instances that a task other than `t` uses, with the set `es` in force. -/
def State.othersUse (s : State) (es : List SetEntry) (t : Nat) : List (Nat × Nat) :=
  ((taskNums.filter fun u => u != t && s.taskOn u).map fun u =>
    let b := match es.find? fun e => e.1 == u with | some e => e.2.2 | none => (s.provenBody u).2
    ((instancesOf (scanProg (bodyWords b) 0 0)).map fun x => (x.1, x.2.1)) ++
      (if s.isDx4 u then (bodyIids b).map fun e => (e.2.1, e.2.2.2) else [])).flatten

/-- R178. The result of the checks of the set `new` (received entries) within `es` (the whole set) in slot `i`: code, task,
reason, and the programs where it passes. An instance that another task uses is `IID_TABLE` (R178 names it there), no `VERIFY`. -/
def State.loadCheck (s : State) (lineage gen i : Nat) (new es : List SetEntry) : Nat × Nat × Nat × List (Nat × Prog) :=
  let base := match s.boot.image with | some m => m.lineage == lineage && m.gen == gen | none => false
  let bad (code : Nat) (p : SetEntry → Bool) : Option (Nat × Nat × Nat × List (Nat × Prog)) :=
    (new.find? p).map fun e => (code, e.1, 0, [])
  let len : Nat := (es.map fun e => 8 + e.2.2.length).sum
  let place := placeAll s.storeUse new
  let steps : List (Option (Nat × Nat × Nat × List (Nat × Prog))) := [
    if base then none else some (gBaseMismatch, 0, 0, []),
    bad gNotDx4 fun e => !(s.taskOn e.1 && s.isDx4 e.1),
    bad gGenNotNewer fun e => e.2.1 == 0 || !newer16 e.2.1 (s.nowProg e.1).gen,
    if 1048512 < len then some (gSetTooLarge, 0, 0, []) else none,
    if s.mrN (slotBase i + 40) 4 ≠ crc32c (mslice 0 s.mram (slotBase i + 64) (s.mrN (slotBase i + 36) 4)) then
      some (gSetCrc, 0, 0, []) else none,
    new.findSome? fun e => (s.verify e.1 true false false (bodyWords e.2.2)).map fun r => (gVerify, e.1, r.1, []),
    bad gIidTable fun e => iidBad e.2.2 ||
      (bodyIids e.2.2).any fun x => (s.othersUse es e.1).contains (x.2.1, x.2.2.2),
    bad gIidKind fun e => (bodyIids e.2.2).any fun x => (s.nowProg e.1).iids.any fun y =>
      x.1 == y.1 && (x.2.1 != y.2.1 || x.2.2.1 != y.2.2.1),
    if place.isNone then some (gStoreFull, 0, 0, []) else none]
  (steps.findSome? id).getD (0, 0, 0, place.getD [])

/-- R178. Whether a set can be taken at all: `DISABLED`, `IN_PROBATION`, `BUSY`. -/
def State.loadGate (s : State) : Nat :=
  if s.topoN 0x0209 0 1 1 1 = 0 then gDisabled
  else if (s.slotIn slProbation).isSome then gInProbation
  else if (s.slotIn slVerified).isSome || s.chg.switchAt.isSome then gBusy
  else 0

/-- R178. The slot a new set is built in. -/
def State.freeSlot (s : State) : Option Nat :=
  [0, 1].find? fun i => s.slotState i == slEmpty || s.slotState i == slInactive

/-- Sets `SWAP_RES`. -/
def State.swapRes (s : State) (code task reason : Nat) : State :=
  ((s.fset Reg.SWAP_RES_RESULT code).fset Reg.SWAP_RES_TASK task).fset Reg.SWAP_RES_REASON reason

/-- R187. The record of a swap result: the generation of the task concerned. DESIGN CHOICE: a result that concerns no single task
carries task 0 and the generation of task 0. -/
def State.swapRecord (s : State) (code task : Nat) : State := s.chgRecord code 2 (s.nowProg task).gen task

/-- R178. A chunk of a set: the first one marks the slot `LOADING`; the last one starts the checks. -/
def State.loadChunk (s : State) (x : Option Nat) (off : Nat) (last : Bool) (chunk : List Byte) : State :=
  let s :=
    if off = 0 then
      let i := if s.loadGate = 0 then s.freeSlot else none
      let s := match i with | some i => (s.setSlot i slLoading).fset Reg.CHG_STAT_SWAP_STATE 1 | none => s
      { s with chg := { s.chg with load := some (i.getD 2, chunk), peerVerified := false } }
    else
      match s.chg.load with
      | some (i, b) => { s with chg := { s.chg with load := some (i, b ++ chunk) } }
      | none => s
  let kept := match s.chg.load with | some (i, _) => decide (i < 2) | none => false
  let s := if s.asksPeer && kept then s.sendChange 1 off (beBytes 1 (b2n last) ++ chunk) else s
  if last then { s with chg := { s.chg with verify := true, loadSess := x } }
  else match x with | some x => s.replyNow x vLoad rDone 0 [] | none => s

/-- R178, R184. A load ends with a result. A refused set leaves its slot `EMPTY`, and is withdrawn at the standby; a set refused
before it got a slot (`i` = 2) leaves everything as it is. -/
def State.loadEnd (s : State) (i code task reason : Nat) : State :=
  let ok := decide (code = gDone)
  let s :=
    if 2 ≤ i then s
    else
      let s := (s.setSlot i (if ok then slVerified else slEmpty)).fset Reg.CHG_STAT_SWAP_STATE (if ok then 2 else 0)
      let s : State := { s with
        chg := { s.chg with fromPeer := ok && s.mode == mStandby }
        eng := { s.eng with next := if ok then s.eng.next else [] } }
      if !ok && s.asksPeer then s.sendChange 1 0 [] else s
  let s := (s.swapRes code task reason).swapRecord (if code = gDone then cCHG_APPLIED else cCHG_REFUSED) task
  let x := s.chg.loadSess
  let s := { s with chg := { s.chg with load := none, loadSess := none, verify := false } }
  s.chgReply x vLoad code

/-- R184. The active module withdraws a set: the standby gives up the one it is loading, or has verified, on its behalf. -/
def State.loadWithdrawn (s : State) : State :=
  match s.chg.load, s.slotIn slVerified with
  | some (i, _), _ => s.loadEnd i gPeerNoAck 0 0
  | none, some i => if s.chg.fromPeer && s.chg.switchAt.isNone then s.loadEnd i gPeerNoAck 0 0 else s
  | none, none => s

/-- R184. The standby's verification result of a set goes to the active module: CHANGE_ACK with the point 0. -/
def State.ackLoad (s : State) (code : Nat) : State :=
  if s.mode = mStandby then s.ropeSend 0x07 (beBytes 8 0 ++ beBytes 1 code) else s

/-- R178. Writes the set into slot `i` (Table 6.1). -/
def State.slotWrite (s : State) (i lineage gen : Nat) (es : List SetEntry) : State :=
  let body := (es.map entryBytes).flatten
  let seqs := ([0, 1].filter fun k => s.mrN (slotBase k) 4 == leNat [0x50, 0x53, 0x45, 0x54]).map fun k => s.mrN (slotBase k + 20) 4
  let prev := seqs.foldl (fun m v => if newer32 v m then v else m) 0
  let seq := let q := (prev + 1) % 2 ^ 32; if q = 0 then 1 else q
  s.mwBytes (slotBase i) ([0x50, 0x53, 0x45, 0x54, 1] ++ leBytes 1 es.length ++ [0, 0] ++ leBytes 8 lineage ++ leBytes 4 gen ++
    leBytes 4 seq ++ leBytes 8 0 ++ leBytes 4 (s.topoN 0x0209 0 4 4 300) ++ leBytes 4 body.length ++
    leBytes 4 (crc32c body) ++ leBytes 20 0 ++ body)

/-- R178. The whole set: the received entries and a copy of the running program of every other DX4 task, in task order. -/
def State.wholeSet (s : State) (new : List SetEntry) : List SetEntry :=
  (taskNums.filter fun t => new.any (fun e => e.1 == t) || (s.taskOn t && s.isDx4 t)).filterMap fun t =>
    match new.find? fun e => e.1 == t with
    | some e => some e
    | none => some (t, s.provenBody t)

/-- R178, R180. A set in the program store: the programs `ps` of its entries `new`, and every other task's program as it runs. -/
def State.setPrograms (s : State) (es : List SetEntry) (ps : List (Nat × Prog)) : List (Nat × Prog) :=
  es.map fun e => (e.1, match ps.find? fun p => p.1 == e.1 with | some p => p.2 | none => s.nowProg e.1)

/-- LOAD_VERIFY_DONE (R178). -/
def execLoadVerifyDone (s : State) : Out :=
  match s.chg.verify, s.chg.load with
  | true, some (i, b) =>
    let s := { s with chg := { s.chg with verify := false } }
    let new := (parseSet 24 (b.drop 12)).getD []
    let es := s.wholeSet new
    let gate := if i < 2 then 0 else if s.loadGate = 0 then gBusy else s.loadGate
    if gate ≠ 0 then .next ((s.loadEnd i gate 0 0).ackLoad gate)
    else
      let s := if (es.map fun e => 8 + e.2.2.length).sum ≤ 1048512 then s.slotWrite i (leAt b 0 8) (leAt b 8 4) es else s
      let (code, task, reason, ps) := s.loadCheck (leAt b 0 8) (leAt b 8 4) i new es
      if code ≠ 0 then .next ((s.loadEnd i code task reason).ackLoad code)
      else
        let s := { (s.storeWrite ps new) with eng := { s.eng with next := s.setPrograms es ps } }
        if s.asksPeer && !s.chg.peerVerified then
          .next ((s.setSlot i slVerified).fset Reg.CHG_STAT_SWAP_STATE 2)
        else .next ((s.loadEnd i gDone ((new.map (·.1)).headD 0) 0).ackLoad gDone)
  | _, _ => .next s

/-! ### Switching -/

/-- R185. An aborted switch leaves the set `VERIFIED` with `S_GRID` 0. -/
def State.switchAbort (s : State) (code detail : Nat) : State :=
  match s.chg.switchAt with
  | some _ =>
    let s := match s.slotIn slVerified with | some i => s.mwN (slotBase i + 24) 8 0 | none => s
    let x := s.chg.switchSess
    let s := { s with chg := { s.chg with switchAt := none, switchSess := none, acked := false } }
    let s := ((s.fset Reg.CHG_STAT_SWAP_STATE 2).fset Reg.S_LO_S_LO 0).fset Reg.S_HI_S_HI 0
    ((s.swapRes code 0 detail).swapRecord cCHG_REFUSED 0).chgReply x vSwitch code
  | none => s

/-- R185. An armed REVERT is aborted. -/
def State.revertAbort (s : State) (code detail : Nat) : State :=
  match s.chg.revertAt with
  | some _ =>
    let x := s.chg.revertSess
    let s := { s with chg := { s.chg with revertAt := none, revertSess := none, acked := false } }
    let s := ((s.fset Reg.CHG_STAT_SWAP_STATE 0).fset Reg.S_LO_S_LO 0).fset Reg.S_HI_S_HI 0
    ((s.swapRes code 0 detail).swapRecord cCHG_REFUSED 0).chgReply x vRevert code
  | none => s

/-- R184. A set whose verification the peer has not confirmed is given up. -/
def State.loadAbort (s : State) (code : Nat) : State :=
  match s.chg.load, s.slotIn slVerified with
  | some (i, _), some _ => if s.chg.verify then s else s.loadEnd i code 0 0
  | _, _ => s

/-- R185. Everything pending is aborted with `ABORTED` and its detail: 1 takeover, 2 SAFE, 3 PARK, 4 reset, 5 power loss. -/
def State.changeAbort (s : State) (detail : Nat) : State :=
  ((s.nativeAbort gAborted detail).switchAbort gAborted detail).revertAbort gAborted detail

/-- R180. Arms the switch, or refuses it. `x`: the session that waits; at a standby none. -/
def State.switchArm (s : State) (x : Option Nat) (point : Nat) : State :=
  let slot := s.slotIn slVerified
  let code :=
    if slot.isNone || s.chg.load.isSome then gNoVerifiedSet else if s.chg.switchAt.isSome then gBusy
    else if !(s.pointOk (if x.isNone then namedLead else 20000000) point) then gPointRange else 0
  if code ≠ 0 then ((s.swapRes code 0 0).swapRecord cCHG_REFUSED 0).chgReply x vSwitch code
  else
    let s := s.mwN (slotBase (slot.getD 0) + 24) 8 point
    let s := { s with chg := { s.chg with switchAt := some point, switchSess := x, acked := !s.asksPeer, fromPeer := false } }
    let s := ((s.fset Reg.CHG_STAT_SWAP_STATE 3).fset Reg.S_LO_S_LO point).fset Reg.S_HI_S_HI (point / 2 ^ 32)
    let s := s.swapRes gPending 0 0
    if s.asksPeer then s.sendChange 2 point [] else s

/-- R183. Arms REVERT, or refuses it. -/
def State.revertArm (s : State) (x : Option Nat) (point : Nat) : State :=
  let code :=
    if (s.slotIn slProbation).isNone then gNotInProbation else if s.chg.revertAt.isSome then gBusy
    else if !(s.pointOk (if x.isNone then namedLead else 20000000) point) then gPointRange else 0
  if code ≠ 0 then ((s.swapRes code 0 0).swapRecord cCHG_REFUSED 0).chgReply x vRevert code
  else
    let s := { s with chg := { s.chg with revertAt := some point, revertSess := x, acked := !s.asksPeer } }
    let s := ((s.fset Reg.CHG_STAT_SWAP_STATE 3).fset Reg.S_LO_S_LO point).fset Reg.S_HI_S_HI (point / 2 ^ 32)
    let s := s.swapRes gPending 0 0
    if s.asksPeer then s.sendChange 3 point [] else s

/-- DX4 tasks that are enabled, as a mask. -/
def State.dx4Mask (s : State) : Nat :=
  (taskNums.filter fun t => s.taskOn t && s.isDx4 t).foldl (fun m t => m + 2 ^ t) 0

/-- R183. `PROB_LEFT` at this instant, in s (DESIGN CHOICE: rounded up). -/
def State.probLeft (s : State) : State :=
  match s.chg.probEnd with
  | some e => s.fset Reg.PROB_LEFT_SECONDS ((samplePt e - s.time.dev + 999999999) / 1000000000)
  | none => s.fset Reg.PROB_LEFT_SECONDS 0

/-- R180. The switch point. -/
def State.programSwitch (s : State) : State :=
  match s.chg.switchAt, s.slotIn slVerified with
  | some p, some i =>
    if !s.chg.acked then s.switchAbort gPeerNoAck 0
    else
      let x := s.chg.switchSess
      let s := (s.mwN (slotBase i + 44) 4 0).setSlot i slProbation
      let fin := p + s.mrN (slotBase i + 32) 4 * 40000
      let s := { s with
        chg := { s.chg with switchAt := none, switchSess := none, acked := false, probEnd := some fin }
        eng := { s.eng with
          prev := taskNums.map fun t => (t, s.nowProg t)
          goal := s.eng.next, next := [], switchPend := s.dx4Mask, carried := 0, backPend := 0 } }
      let s := ((s.fset Reg.CHG_STAT_SWAP_STATE 0).fset Reg.S_LO_S_LO 0).fset Reg.S_HI_S_HI 0
      ((s.probLeft.swapRes gDone 0 0).swapRecord cCHG_APPLIED 0).chgReply x vSwitch gDone
  | _, _ => s

/-- R183. The REVERT point. -/
def State.revertApply (s : State) : State :=
  match s.chg.revertAt, s.slotIn slProbation with
  | some _, some i =>
    if !s.chg.acked then s.revertAbort gPeerNoAck 0
    else
      let x := s.chg.revertSess
      let s := s.setSlot i slInactive
      let s := { s with
        chg := { s.chg with revertAt := none, revertSess := none, acked := false, probEnd := none }
        eng := { s.eng with goal := s.eng.prev, prev := [], switchPend := s.eng.carried, backPend := s.eng.carried, carried := 0 } }
      let s := ((s.fset Reg.CHG_STAT_SWAP_STATE 0).fset Reg.S_LO_S_LO 0).fset Reg.S_HI_S_HI 0
      ((s.probLeft.swapRes gDone 0 0).swapRecord cCHG_APPLIED 0).chgReply x vRevert gDone
  | _, _ => s

/-- R183. Probation ends: the new slot is written `ACTIVE`, then the previous one `INACTIVE`. -/
def State.probationEnd (s : State) : State :=
  match s.slotIn slProbation with
  | some i =>
    let old := s.slotIn slActive
    let s := s.setSlot i slActive
    let s := match old with | some j => s.setSlot j slInactive | none => s
    let s := { s with
      chg := { s.chg with probEnd := none }
      eng := { s.eng with prev := [], carried := 0 } }
    (s.revertAbort gNotInProbation 0).probLeft
  | none => s

/-- PROGRAM_SWITCH (R180): at S. -/
def execProgramSwitch (s : State) : Out :=
  match s.chg.switchAt with
  | some p => .next ((s.toDev (samplePt p)).programSwitch)
  | none => .next s
/-- REVERT_APPLY (R183): at the REVERT point. -/
def execRevertApply (s : State) : Out :=
  match s.chg.revertAt with
  | some p => .next ((s.toDev (samplePt p)).revertApply)
  | none => .next s
/-- PROBATION_END (R183): at S + `PROB_S`. -/
def execProbationEnd (s : State) : Out :=
  match s.chg.probEnd with
  | some p => .next ((s.toDev (samplePt p)).probationEnd)
  | none => .next s

/-- R174, R180, R183. Changes whose point lies at or before the sample-grid index `g` take effect before any task samples. -/
def State.changesAt (s : State) (g : Nat) : State :=
  let due (o : Option Nat) : Bool := match o with | some p => decide (p ≤ g) | none => false
  let s := if due (s.chg.txn.map (·.point)) then s.paramApply else s
  let s := if due s.chg.probEnd then s.probationEnd else s
  let s := if due s.chg.switchAt then s.programSwitch else s
  if due s.chg.revertAt then s.revertApply else s

/-- R184. The points that the standby has not acknowledged, earliest first at equal kinds: point and kind (0 native, 2 switch,
3 REVERT). -/
def State.unacked (s : State) : List (Nat × Nat) :=
  ((s.chg.txn.filter fun t => !t.acked).map fun t => (t.point, 0)).toList ++
    (if s.chg.acked then [] else (s.chg.switchAt.map fun p => (p, 2)).toList ++ (s.chg.revertAt.map fun p => (p, 3)).toList)

/-- PEER_NO_ACK (R184): 10 ms before the point of a change that the standby has not acknowledged; the earliest goes first. -/
def execPeerNoAck (s : State) : Out :=
  .next (
    match s.unacked.find? fun u => s.unacked.all fun v => decide (u.1 ≤ v.1) with
    | none => s
    | some (p, kind) =>
      let s := (s.toDev (samplePt p - 10000000)).sendChange kind 0 []
      if kind = 0 then s.nativeAbort gPeerNoAck 0
      else if kind = 2 then s.switchAbort gPeerNoAck 0 else s.revertAbort gPeerNoAck 0)

/-! ### Carry-over -/

/-- R181. The places of an instance: its bytes in memory, or for an edge its bit and its seed bit. -/
def instAddr (area inst : Nat) : Nat := (if area = 4 then tBase else cBase) + 16 * inst

/-- A bit of memory. -/
def State.rdBit (s : State) (base i : Nat) : Bool := bit (s.rd (base + i / 8)).toNat (i % 8)

/-- Sets a bit of memory, with the dirty bits of R165 but no journal entry. -/
def State.chgBit (s : State) (base i : Nat) (b : Bool) : State :=
  let a := base + i / 8
  let s := if inData a then (s.preserve (blkOf a)).setDirty (blkOf a) else s
  s.wr a (BitVec.ofNat 8 (putBit (s.rd a).toNat (i % 8) b))

/-- Writes bytes with the dirty bits of R165 but no journal entry. -/
def State.chgBytes (s : State) (a : Nat) : List Byte → State
  | [] => s
  | v :: vs =>
    let s := if inData a then (s.preserve (blkOf a)).setDirty (blkOf a) else s
    (s.wr a v).chgBytes (a + 1) vs

/-- R181. One instance of the new table, read from the state `old` as it was before the carry-over. -/
def State.carryOne (old : State) (from_ : List (Nat × Nat × Nat × Nat)) (s : State) (e : Nat × Nat × Nat × Nat) : State :=
  let (id, area, kind, inst) := e
  match from_.find? fun f => f.1 == id with
  | some (_, _, _, oi) =>
    if area = 6 then (s.chgBit eBase inst (old.rdBit eBase oi)).chgBit seedBase inst (old.rdBit seedBase oi)
    else s.chgBytes (instAddr area inst) (mslice 0 old.sram (instAddr area oi) 16)
  | none =>
    if area = 6 then (s.chgBit eBase inst false).chgBit seedBase inst false
    else s.chgBytes (instAddr area inst) (leBytes 15 0 ++ leBytes 1 kind)

/-- R181, R183. Task `t` takes the program of the other set at its first new activation: the state, whether a carry-over ran,
and the clocks it took (R182). -/
def State.takeProgram (s : State) (t : Nat) : State × Bool × Nat :=
  if !bit s.eng.switchPend t then (s, false, 0)
  else
    let old := mget ({} : Prog) s.eng.prog t
    let new := s.nowProg t
    let back := bit s.eng.backPend t
    let e := s.eng
    let s := { s with eng := { e with
      switchPend := putBit e.switchPend t false, backPend := putBit e.backPend t false, prog := mset {} e.prog t new } }
    let s' := new.iids.foldl (s.carryOne old.iids) s
    let clocks := (new.iids.map fun x => if x.2.1 = 6 then 1 else 4).sum
    let s' :=
      if back then s'
      else
        let s' := { s' with eng := { s'.eng with carried := putBit s'.eng.carried t true } }
        match s'.slotIn slProbation with
        | some i => s'.mwN (slotBase i + 44) 4 s'.eng.carried
        | none => s'
    (s', true, clocks)

end Sys2Proof.Machine
end

