-- ==== Sys2Proof/Machine/Intlk.lean ====
section
/-! DEFINITION. The interlock unit (R256 to R268) as one evaluation of an ended activation of `IL_TASK`, and the handover
(R410). -/

namespace Sys2Proof.Machine

/-- Triggers of `MODE_CHANGE` other than a SAFE reason (0x80 + reason). DESIGN CHOICE: the spec gives no numbers. -/
abbrev trReset : Nat := 1
abbrev trBootEnd : Nat := 2
abbrev trClaim : Nat := 3
abbrev trPark : Nat := 4
abbrev trEnter : Nat := 5
abbrev trLeave : Nat := 6
abbrev trIdle : Nat := 7
abbrev trZsLost : Nat := 8
abbrev trTeOn : Nat := 9
abbrev trWake : Nat := 10

/-- R410. The module hands over with a cause of Table 14.7, if it may. -/
def State.handover (s : State) (cause : Nat) : State :=
  if !s.driving || !s.fbit Reg.MODE_STAT_DUPLEX && cause ≠ 5 then s
  else if (cause = 1 ∨ cause = 4) ∧ s.fbit Reg.DUP_STAT_PEER_READY = false then
    ((s.fsat Reg.HANDOVER_DECLINED).fon Reg.DUP_FLAGS_DECLINED_SEEN).record cHANDOVER_DECLINED (leBytes 1 cause)
  else (s.fset Reg.HANDOVER_LAST_CAUSE cause).enterSafe 0x07 cause

/-! ### The record and its inputs -/

/-- Record 0x0401 is present. -/
def State.ilOn (s : State) : Bool := (s.topo? 0x0401 0).isSome

/-- A field of record 0x0401 (Table 9.6). -/
def State.ilN (s : State) (off n d : Nat) : Nat := s.topoN 0x0401 0 off n d

/-- R257. `IL_TASK`. -/
def State.ilTask (s : State) : Option Nat := if s.ilOn then some (s.ilN 0 1 0) else none

/-- Record 0x0301. `ROLE` of channel `k`. -/
def State.ilRole (s : State) (k : Nat) : Nat := s.topoN 0x0301 k 0 1 0

/-- Record 0x0303. `PAIR_DOOR` of step `k`. -/
def State.pairDoor (s : State) (k : Nat) : Option Nat :=
  match s.topo? 0x0303 k with
  | some r => if leAt r.data 14 1 = 0xFF then none else some (leAt r.data 14 1)
  | none => none

/-- R263. The channels that count. -/
def State.ilChans (s : State) : List Nat := (List.range 12).filter fun k => s.ilRole k == 1 || s.ilRole k == 2

/-- R263. A `STATE` admitted for a door or a step. -/
def secureState (role st : Nat) : Bool :=
  if role = 1 then st == dLocked || st == dIsolated else st == tStowed || st == tIsolated

/-- The valid block of a slot at the activation's SAMPLE. -/
def Act.block (a : Act) (n : Nat) : Option (List Byte) := (a.blocks.find? fun p => p.1 == n).map (·.2)

/-- R256. Field input `n` (DI0 to DI63) as sampled, if its die is valid. -/
def Act.di (a : Act) (n : Nat) : Option Bool := (a.block (6 + n / 32)).map fun b => bit (leAt b 8 4) (n % 32)

/-- R258. Speed of fast input `n` in 0.01 km/h, if its die is valid. -/
def State.ilSpeed (s : State) (a : Act) (n ppr : Nat) : Option Nat :=
  (a.block (6 + n / 32)).map fun b =>
    let f := leAt b (20 + 8 * (n % 32)) 4
    (((f * s.ilN 14 2 500 * 36 : Nat) : Rat) * piQ / ((ppr * 100000 : Nat) : Rat)).floor.toNat

/-- R264. The outputs of the four halves as DO numbers; none where there is no door-loop pair. -/
def State.halfOut (s : State) (h : Nat) : Option Nat :=
  if !s.ilOn then none
  else
    match h with
    | 0 => some (s.ilN 3 1 0)
    | 1 => some (s.ilN 4 1 31)
    | 2 => if s.ilN 5 1 0xFF = 0xFF then none else some (s.ilN 5 1 0xFF)
    | _ => if s.ilN 6 1 0xFF = 0xFF then none else some (s.ilN 6 1 0xFF)

/-- R53, R266. Read-back of half `h` as sampled, if its die is valid. -/
def State.halfBack (s : State) (a : Act) (h : Nat) : Option Bool :=
  match s.halfOut h with
  | some o => (a.block (6 + o / 16)).map fun b => bit (leAt b 12 2) (o % 16)
  | none => none

/-! ### Transitions that last -/

/-- Changes the unit's own state. -/
def State.modIl (s : State) (f : Il → Il) : State := { s with il := f s.il }

/-- A duration of sampled time that began at `t` has lasted `ms`. -/
def State.lasted (s : State) (t : Option Nat) (ms : Nat) : Bool :=
  match t with
  | some t => decide (t + ms * 1000000 ≤ s.il.sampT)
  | none => false

/-- R258. Zero speed becomes proven. -/
def State.zsProve (s : State) : State :=
  if s.ilOn && s.fbit Reg.IL_STAT_ZS_A_LOW && s.fbit Reg.IL_STAT_ZS_B_LOW && !s.fbit Reg.IL_STAT_ZS_DISCREPANT &&
      s.lasted s.il.lowAt (s.ilN 18 2 2000) then s.fon Reg.IL_STAT_ZS_PROVEN
  else s

/-- The two speeds as record data. -/
def State.speedData (s : State) : List Byte :=
  leBytes 2 (s.fget Reg.IL_SPEED_SPEED_A) ++ leBytes 2 (s.fget Reg.IL_SPEED_SPEED_B)

/-- A record of the unit. -/
def State.ilRecord (s : State) (code : Nat) (data : List Byte) : State := s.recordFrom code 0 (s.ilN 0 1 0) data

/-- R259. `ZS_DISCREPANT` is set. -/
def State.zsDisc (s : State) : State :=
  if s.ilOn && !s.fbit Reg.IL_STAT_ZS_DISCREPANT && s.lasted s.il.discAt (s.ilN 20 2 5000) then
    let s := ((s.fon Reg.IL_STAT_ZS_DISCREPANT).fset Reg.IL_STAT_ZS_PROVEN 0).fon Reg.IL_FLAGS_ZS_DISC_SEEN
    s.ilRecord cZS_DISCREPANT s.speedData
  else s

/-- R259. `ZS_DISCREPANT` clears. -/
def State.zsClear (s : State) : State :=
  if s.ilOn && s.fbit Reg.IL_STAT_ZS_DISCREPANT && s.lasted s.il.moveAt 1000 then s.fset Reg.IL_STAT_ZS_DISCREPANT 0 else s

/-- R260. `REL_DISCREPANT` is recorded for a side: 0 left, 1 right. -/
def State.relDisc (s : State) (side : Nat) : State :=
  if s.ilOn && !s.il.relRec.getD side false && s.lasted (s.il.relAt.getD side none) (s.ilN 30 2 5000) then
    let s := s.modIl fun i => { i with relRec := i.relRec.set side true }
    (s.fon Reg.IL_FLAGS_REL_DISC_SEEN).ilRecord cREL_DISCREPANT (leBytes 1 side)
  else s

/-- R266. A read-back fault of half `h`; in duplex the active module hands over. -/
def State.rbFault (s : State) (h : Nat) : State :=
  let f := if h < 2 then Reg.IL_STAT_TE_RB_FAULT else Reg.IL_STAT_LOOP_RB_FAULT
  if s.ilOn && !s.fbit f && s.lasted (s.il.rbAt.getD h none) (s.ilN 22 2 100) then
    let dir := fieldOf (s.fget Reg.IL_RB_RB_NOW) h 1
    let s := (s.fon f).fon Reg.IL_FLAGS_RB_SEEN
    let s := if h < 2 then (s.fset Reg.IL_STAT_TE_GRANT 0).modIl fun i => { i with te := false }
      else s.modIl fun i => { i with loop := false }
    let s := s.ilRecord (if h < 2 then cTE_READBACK else cLOOP_READBACK) (leBytes 1 h ++ leBytes 1 dir)
    s.handover (if h < 2 then 2 else 3)
  else s

/-- ZS_PROVEN (R258). -/
def execZsProven (s : State) : Out := .next s.zsProve
/-- ZS_DISCREPANT (R259). -/
def execZsDiscrepant (s : State) : Out := .next s.zsDisc
/-- ZS_DISCREPANT_CLEAR (R259). -/
def execZsDiscrepantClear (s : State) : Out := .next s.zsClear
/-- REL_DISCREPANT (R260). -/
def execRelDiscrepant (right : Bool) (s : State) : Out := .next (s.relDisc (b2n right))
/-- TE_READBACK (R266). -/
def execTeReadback (half : Fin 4) (s : State) : Out := .next (s.rbFault half)

/-! ### The evaluation -/

/-- R258, R259. Zero speed. -/
def State.ilZero (s : State) (a : Act) : State :=
  let t := samplePt a.g
  let va := s.ilSpeed a (s.ilN 1 1 0) (s.ilN 10 2 100)
  let vb := s.ilSpeed a (s.ilN 2 1 32) (s.ilN 12 2 100)
  let zs := s.ilN 16 2 20 * 10
  let low (v : Option Nat) : Bool := match v with | some x => decide (x < zs) | none => false
  let high (v : Option Nat) : Bool := match v with | some x => decide (2 * zs ≤ x) | none => false
  let s := (s.fset Reg.IL_SPEED_SPEED_A (clip 16 (va.getD 0))).fset Reg.IL_SPEED_SPEED_B (clip 16 (vb.getD 0))
  let s := (s.fput Reg.IL_STAT_ZS_A_LOW (low va)).fput Reg.IL_STAT_ZS_B_LOW (low vb)
  let keep (on : Bool) (old : Option Nat) : Option Nat := if on then some (old.getD t) else none
  let s := s.modIl fun i => { i with
    discAt := keep ((high va && low vb) || (high vb && low va)) i.discAt
    moveAt := keep (high va && high vb) i.moveAt, sampT := t }
  let s := s.zsDisc.zsClear
  let ok := low va && low vb && !s.fbit Reg.IL_STAT_ZS_DISCREPANT
  let s := s.modIl fun i => { i with lowAt := keep ok i.lowAt }
  if ok then s.zsProve else s.fset Reg.IL_STAT_ZS_PROVEN 0

/-- R260. One side: network and hardwired source. -/
def State.ilSide (s : State) (a : Act) (side : Nat) : State :=
  let net := (a.sigs.getD side none).map fun v => v != 0
  let hw := a.di (s.ilN (8 + side) 1 0)
  let s := if side = 0 then
      (s.fput Reg.IL_STAT_REL_L_NET (net.getD false)).fput Reg.IL_STAT_REL_L_HW (hw.getD false)
    else (s.fput Reg.IL_STAT_REL_R_NET (net.getD false)).fput Reg.IL_STAT_REL_R_HW (hw.getD false)
  let differ := match net, hw with | some x, some y => x != y | _, _ => false
  let s := s.modIl fun i => { i with
    relAt := i.relAt.set side (if differ then some ((i.relAt.getD side none).getD (samplePt a.g)) else none)
    relRec := i.relRec.set side (differ && i.relRec.getD side false) }
  s.relDisc side

/-- R260. A side is released. -/
def State.sideOpen (s : State) (side : Nat) : Bool :=
  if side = 0 then s.fbit Reg.IL_STAT_REL_L_NET && s.fbit Reg.IL_STAT_REL_L_HW
  else s.fbit Reg.IL_STAT_REL_R_NET && s.fbit Reg.IL_STAT_REL_R_HW

/-- R261. An invalid or unknown profile number: recorded once per episode. -/
def State.rejectProfile (s : State) (n valid : Nat) : State :=
  let s := if s.il.profRej then s
    else (s.fon Reg.IL_FLAGS_PROF_REJ_SEEN).ilRecord cPROFILE_REJECTED (leBytes 1 n ++ leBytes 1 valid)
  s.modIl fun i => { i with profLast := none, profRej := true }

/-- R261. The platform profile. -/
def State.ilProfile (s : State) (a : Act) : State :=
  match (a.sigs.getD 2 none).map (· % 16) with
  | some n =>
    if (s.topo? 0x0405 n).isSome then
      let s := if s.il.profLast = some n then
          ((s.fset Reg.IL_STAT_PROFILE n).fon Reg.IL_STAT_PROF_OK).modIl fun i => { i with profRej := false }
        else s
      s.modIl fun i => { i with profLast := some n }
    else s.rejectProfile n 1
  | none => s.rejectProfile 0 0

/-- R263. Channel `k` is secure. -/
def State.ilSecure (s : State) (a : Act) (k : Nat) : Bool :=
  match a.block (1 + k / 4) with
  | some b =>
    let o := 8 + 32 * (k % 4)
    bit (leAt b (o + 3) 1) 3 && secureState (s.ilRole k) (leAt b o 1)
  | none => false

/-- R267. The bypass input. -/
def State.ilBypass (s : State) (a : Act) : State :=
  let n := s.ilN 7 1 0xFF
  let on := n != 0xFF && (a.di n).getD false
  let s := if on && !s.fbit Reg.IL_STAT_BYPASS then
      (s.fon Reg.IL_FLAGS_BYPASS_SEEN).ilRecord cLOOP_BYPASS (leBytes 2 (s.fget Reg.IL_DOORS_SECURE) ++ s.speedData)
    else s
  s.fput Reg.IL_STAT_BYPASS on

/-- R266. The read-backs against the committed values: an invalid one is no agreement, and the traction grant stays 0 until
`RB_MS` has passed without a mismatch (DEDUCED from its case); in STANDBY the output comparison takes their place. -/
def State.ilReadback (s : State) (a : Act) : State :=
  let hs := [0, 1, 2, 3].filter fun h => (s.halfOut h).isSome
  let rb (h : Nat) : Bool := (s.halfBack a h).getD false
  let now := hs.foldl (fun m h => m + b2n (rb h) * 2 ^ h) 0
  let s := (s.fset Reg.IL_RB_RB_NOW now).fset Reg.IL_RB_CMT_NOW a.halves
  if s.mode == mStandby then s
  else
    let byp := s.fbit Reg.IL_STAT_BYPASS
    let mis : Nat → Bool := fun h =>
      match s.halfBack a h with
      | some r => r != bit a.halves h && !(byp && r && !bit a.halves h)
      | none => false
    let s := if hs.any mis then s.fsat Reg.IL_RB_RB_MISMATCH else s
    let rbAt := [0, 1, 2, 3].map fun h =>
      if hs.contains h && mis h then some ((s.il.rbAt.getD h none).getD (samplePt a.g)) else none
    let t := samplePt a.g
    let doubt :=
      if (s.halfBack a 0).isNone || (s.halfBack a 1).isNone then some t
      else
        match s.il.doubtAt with
        | some d => if mis 0 || mis 1 then some t else if d + s.ilN 22 2 100 * 1000000 ≤ t then none else some d
        | none => none
    let s := s.modIl fun i => { i with rbAt := rbAt, doubtAt := doubt }
    s.each hs fun s h => s.rbFault h

/-- R262. The release grant of channel `k`; a step takes its door's. -/
def State.relGrant (s : State) (k : Nat) : Bool :=
  let zs := s.fbit Reg.IL_STAT_ZS_PROVEN
  if s.mode == mMaint then zs
  else if s.mode == mActive || s.mode == mStandby then
    zs && s.sideOpen (s.topoN 0x0402 k 11 1 0) && s.fbit Reg.IL_STAT_PROF_OK &&
      bit (s.topoN 0x0405 (s.fget Reg.IL_STAT_PROFILE) 4 2 0) k
  else false

/-- R262, R263, R265. The grants, and the values staged for the pairs. -/
def State.ilGrant (s : State) (a : Act) : State :=
  let rel := (s.ilChans.filter fun k => s.ilRole k == 1 && s.relGrant k).foldl (fun m k => m + 2 ^ k) 0
  let loop := s.ilChans.all fun k => bit (s.fget Reg.IL_DOORS_SECURE) k
  let q := s.ilN 32 4 0xFFFFFFFF
  let te := loop && !s.fbit Reg.IL_STAT_TE_RB_FAULT && s.il.doubtAt.isNone && (s.mode == mActive || s.mode == mStandby) &&
    !s.fbit Reg.MODE_STAT_DEBUG_UNBOUND && (q == 0xFFFFFFFF || bit (s.rd (qBase + q / 8)).toNat (q % 8))
  let s := ((s.fset Reg.IL_DOORS_REL_GRANT rel).fput Reg.IL_STAT_LOOP_GRANT loop).fput Reg.IL_STAT_TE_GRANT te
  let held := match s.il.dropAt with | some d => decide (samplePt a.g ≤ d) | none => false
  if held then s
  else
    let s := s.fset Reg.IL_STAT_IL_STALE 0
    let s := if te || loop then s.fset Reg.IL_STAT_FAST_DROP 0 else s
    s.modIl fun i => { i with dropAt := none, te := te, loop := loop && !s.fbit Reg.IL_STAT_LOOP_RB_FAULT }

/-- Table 2.2. MAINTENANCE ends when zero speed is no longer proven or a traction half reads back on. -/
def State.ilLeave (s : State) (a : Act) : State :=
  if s.mode == mMaint && s.modeReq.isNone then
    if !s.fbit Reg.IL_STAT_ZS_PROVEN then { s with modeReq := some { mode := mActive, trig := trZsLost } }
    else if (s.halfBack a 0).getD false || (s.halfBack a 1).getD false then
      { s with modeReq := some { mode := mActive, trig := trTeOn } }
    else s
  else s

/-- R256. One evaluation, for the ended activation `a` of `IL_TASK`: 120 clocks. -/
def State.ilEval (s : State) (a : Act) : State :=
  let s := s.clocks (s.ilTask.getD 0) 120
  let s := ((s.ilZero a).ilSide a 0).ilSide a 1
  let s := s.ilProfile a
  let s := s.fset Reg.IL_DOORS_SECURE ((s.ilChans.filter fun k => s.ilSecure a k).foldl (fun m k => m + 2 ^ k) 0)
  let s := (s.ilBypass a).ilReadback a
  let s := ((s.ilGrant a).ilLeave a).fset Reg.IL_EVAL_CYCLE a.cyc
  s.modIl fun i => { i with evalAt := some s.time.dev }

end Sys2Proof.Machine
end

