-- ==== Sys2Proof/Machine/Belay.lean ====
section
/-! DEFINITION. Output sets of the dies as the commit unit stages them (R153, R226, R233, R264, R388, R389), the release of
ended activations to the STAGE frames (R155), and the belay set (R403 to R405). -/

namespace Sys2Proof.Machine

/-! ### Output sets -/

/-- The mode that holds from the next commit point on. -/
def State.comingMode (s : State) : Nat := match s.modeReq with | some r => r.mode | none => s.mode

/-- R153. The bound bytes of slot `n` as released. -/
def State.boundOut (s : State) (n : Nat) : Bytes :=
  ((s.entries 0x0205 0 8).filter fun e => leAt e 4 1 == n).foldl (fun b e =>
    mput 0 b (leAt e 6 2) (mslice 0 s.eng.qOut (leAt e 0 2) (leAt e 2 2))) []

/-- R37. The die of slot `n` is valid now: neither orphaned nor with inputs held invalid. -/
def State.dieValid (s : State) (n : Nat) : Bool :=
  s.admitted n && !s.fbit (Reg.LINK_STAT_ORPHAN n) && !(s.link n).inputsBad

/-- Byte `i` of channel `k` in the most recent valid INPUT block of its die. -/
def State.chanIn (s : State) (k i : Nat) : Nat := leAt (s.link (chSlot k)).lastOk (8 + 32 * (k % 4) + i) 1

/-- R233. The step paired with door `k`. -/
def State.pairStep (s : State) (k : Nat) : Option Nat := (List.range 12).find? fun j => s.pairDoor j == some k

/-- R261. `PROFILE` as staged for channel `k`; without the interlock, the Q value. -/
def State.outProfile (s : State) (q : Nat) : Nat :=
  if s.ilOn then (if s.fbit Reg.IL_STAT_PROF_OK then s.fget Reg.IL_STAT_PROFILE else 0) else q

/-- R233. `STEP_CLEAR` of door `k` under profile `p`. -/
def State.stepClear (s : State) (k p : Nat) : Bool :=
  match s.pairStep k with
  | none => true
  | some j =>
    s.topoN 0x0405 p 1 1 0 == 0 || s.topoN 0x0405 p 2 2 0 == 0 || (s.dieValid (chSlot j) && s.chanIn j 0 == tDeployed)

/-- R233. `DOOR_CLEAR` of step `k`. -/
def State.doorClear (s : State) (k : Nat) : Bool :=
  match s.pairDoor k with
  | none => true
  | some d => s.dieValid (chSlot d) && (s.chanIn d 0 == dLocked || s.chanIn d 0 == dIsolated) && bit (s.chanIn d 3) 3

/-- R262. The grant that gates `RELEASE` of channel `k`. -/
def State.outGrant (s : State) (k m : Nat) : Bool :=
  if !s.ilOn then true
  else if m = mSafe then false
  else
    let rel (d : Nat) : Bool := bit (s.fget Reg.IL_DOORS_REL_GRANT) d
    if s.ilRole k = 2 then
      match s.pairDoor k with
      | some d => rel d
      | none => s.fbit Reg.IL_STAT_ZS_PROVEN && (m == mMaint || s.fbit Reg.IL_STAT_PROF_OK)
    else rel k

/-- R226, R261. What the commit unit writes into every staged and resynchronised command block of channel `k` in mode `m`, here the one
in `b` at `o`: `MAINT`, `STEP_CLEAR`, `DOOR_CLEAR`, `PROFILE` and `SAFE_HOLD`. -/
def State.outFixed (s : State) (k m o : Nat) (b : Bytes) : Bytes :=
  let ctrl := (mget 0 b (o + 2)).toNat
  let prof := s.outProfile (mget 0 b (o + 3)).toNat
  let ctrl := putBit ctrl 2 (m == mMaint)
  let ctrl := putBit ctrl 5 (s.ilRole k == 1 && s.stepClear k prof)
  let ctrl := putBit ctrl 6 (s.ilRole k == 2 && s.doorClear k)
  let b := mput 0 b (o + 2) (leBytes 1 ctrl ++ leBytes 1 prof)
  mset 0 b (o + 5) (BitVec.ofNat 8 (b2n (m == mSafe)))

/-- R226, R262, R389. The command block of channel `k` in mode `m`, from its block in `b` at `o`. -/
def State.outDoor (s : State) (k m o : Nat) (b : Bytes) : Bytes :=
  let ctrl := (mget 0 b (o + 2)).toNat
  let b := s.outFixed k m o (mset 0 b (o + 2) (BitVec.ofNat 8 (putBit ctrl 0 (bit ctrl 0 && s.outGrant k m))))
  match mget none s.net.holds k with
  | some h =>
    if h.phase = 2 then mset 0 b o 0 else mput 0 b o (leBytes 1 h.cmd ++ leBytes 1 h.seq)
  | none => b

/-- R56, R61, R264, R388. The outputs of field die `n` in mode `m`, from the bound set `b`. -/
def State.outField (s : State) (n m : Nat) (b : Bytes) : Bytes :=
  let q := leNat (mslice 0 b 0 2)
  let last := leNat (mslice 0 (s.link n).sentOut 0 2)
  let dbg := s.fbit Reg.MODE_STAT_DEBUG_UNBOUND
  let off := m == mSafe || dbg
  let v := (List.range 16).foldl (fun v c =>
    let d := 16 * (n - 6) + c
    let x :=
      if s.halfOut 0 = some d ∨ s.halfOut 1 = some d then s.il.te && !off && m != mMaint
      else if s.halfOut 2 = some d ∨ s.halfOut 3 = some d then s.il.loop && !off
      else if m = mSafe ∨ (dbg ∧ bit (s.topoN 0x0604 (n - 6) (4 * c + 2) 1 4) 0) then s.osafeBit n c (bit last c)
      else if m = mMaint ∧ mget 0 s.net.forces (64 + d) ≠ 0 then mget 0 s.net.forces (64 + d) == 2
      else bit q c
    v + b2n x * 2 ^ c) 0
  mset 0 (mput 0 b 0 (leBytes 2 v)) 3 0

/-- R61, R294, R388. The outputs of load die `n` in mode `m`. -/
def State.outLoad (s : State) (n m : Nat) (b : Bytes) : Bytes :=
  if m = mSafe then s.safeOut n
  else
    (List.range 12).foldl (fun b c =>
      let f := if m = mMaint then mget 0 s.net.forces (12 * (n - 4) + c) else 0
      let on := if f ≠ 0 then f == 2 else bit (mget 0 b c).toNat 0
      mset 0 b c (BitVec.ofNat 8 (b2n on))) b

/-- R226, R264. The complete output set of slot `n` as the commit unit would stage it now. -/
def State.dieOut (s : State) (n : Nat) : Bytes :=
  let m := s.comingMode
  let b := if m = mSafe then (s.link n).sentOut else s.boundOut n
  if n ≤ 3 then
    [0, 1, 2, 3].foldl (fun b c =>
      if s.ilRole (4 * (n - 1) + c) = 0 then b else s.outDoor (4 * (n - 1) + c) m (16 * c) b) b
  else if n ≤ 5 then s.outLoad n m b
  else s.outField n m b

/-- R226, R412. An output set that goes out as it was committed, from the belay set or adopted: for a door die with what the commit unit
writes into every command block. -/
def State.outAgain (s : State) (n : Nat) (b : Bytes) : Bytes :=
  if 3 < n then b
  else [0, 1, 2, 3].foldl (fun b c =>
    if s.ilRole (4 * (n - 1) + c) = 0 then b else s.outFixed (4 * (n - 1) + c) s.comingMode (16 * c) b) b

/-! ### From END to STAGE -/

/-- R155. Slots whose output set the changes of an ended activation touch. -/
def State.touched (s : State) (e : Ended) : List Nat :=
  let il := s.ilTask == some e.task
  satSlots.filter fun n => s.admitted n &&
    ((il && (decide (n ≤ 3) || decide (6 ≤ n))) ||
      (s.entries 0x0205 0 8).any fun b => leAt b 4 1 == n && e.chg.any fun c =>
        decide (leAt b 0 2 ≤ c.1) && decide (c.1 < leAt b 0 2 + leAt b 2 2))

/-- R157. From the power-fail warning on, ended activations wait until the power-fail task has ended or been abandoned. -/
def State.pfWait (s : State) : Bool :=
  s.power.crossAt.isSome && (List.range' 16 8).any fun t =>
    s.taskOn t && s.topoN 0x0202 t 3 1 0 == 7 && (bit s.eng.pend t || (s.act t).isSome)

/-- R155. Releases the ended activations whose dies have no STAGE in flight and can be staged in time. Those of one task go in their
order. -/
def State.releaseEnded (s : State) : State :=
  s.eng.ended.foldl (fun s e =>
    if e.out || s.pfWait || (s.eng.ended.takeWhile (· != e)).any (fun f => f.task == e.task && !f.out) then s
    else
      let q := e.chg.foldl (fun q c => mset 0 q c.1 c.2) s.eng.qOut
      let r := { s with eng := { s.eng with
        qOut := q, ended := s.eng.ended.map fun f => if f == e then { f with out := true } else f } }
      if !s.time.emitted && (s.mode == mStandby || (s.touched e).all fun n =>
          (s.link n).stageNum.isNone && s.stageFits (r.stageLoad n (r.dieOut n)).length) then r
      else s) s

/-- R155, R156. Each admitted die without a STAGE in flight is brought to its output set; in STANDBY nothing is staged. -/
def State.stageAll (s : State) : State :=
  if s.driving || s.mode == mSafe then
    s.each (satSlots.filter fun n => s.admitted n) fun s n => s.stageTo n (s.dieOut n)
  else s

/-- Releases and stages what can go now. -/
def State.stageNow (s : State) : State := s.releaseEnded.stageAll

/-! ### The belay set -/

/-- Table 14.3. The output part: the sets of all dies. -/
def outPart (f : Nat → Bytes) : List Byte := (satSlots.map fun n => mslice 0 (f n) 0 (outLen n)).flatten ++ leBytes 32 0

/-- Place of the set of slot `n` in the output part. -/
def outPos (n : Nat) : Nat := if n ≤ 3 then 64 * (n - 1) else if n ≤ 5 then 192 + 12 * (n - 4) else 216 + 4 * (n - 6)

/-- R460. A ledger record of door `k`; the valid byte and the CRC stand once it has ended. -/
def State.ledgerBytes (s : State) (k : Nat) (r : LRec) (done : Bool) : List Byte :=
  let ms (t : Nat) : List Byte := leBytes 2 (clip 16 (t / 1000000))
  let cs (t : Nat) : List Byte := leBytes 2 (clip 16 (t / 10000000))
  let b := leBytes 4 (clip 32 (s.fget (Reg.LT_CYCLES_CYCLES k) + 1)) ++ leBytes 4 r.opSec ++ cs r.tWait ++ ms r.tUnlock ++ ms r.tOpen ++
    cs r.tDwell ++ ms r.tClose ++ ms r.tLock ++ leBytes 2 (clip 16 r.fPeak) ++ leBytes 1 (clip 8 r.obst) ++ leBytes 1 r.flags ++
    leBytes 2 (clip 16 r.energy) ++ leBytes 2 r.vdcMin ++ leBytes 1 r.stepAct
  if done then b ++ [0xA5] ++ leBytes 2 (crc16 b) else b ++ [0, 0, 0]

/-- Table 14.3. The door part: as the door dies reported. -/
def State.doorPart (s : State) : List Byte :=
  ((List.range 12).map fun k =>
    let c (i : Nat) : List Byte := leBytes 1 (s.chanIn k i)
    c 0 ++ c 1 ++ c 14 ++ c 15 ++ c 4 ++ c 5 ++ c 8 ++ c 9 ++ leBytes 24 0).flatten

/-- Pads to a whole number of 64-byte blocks. -/
def pad64 (l : List Byte) : List Byte := l ++ leBytes ((64 - l.length % 64) % 64) 0

/-- Table 4.2. Base of a data area: M, T, C, E. -/
def dataBase (a : Nat) : Nat := if a = 3 then mBase else if a = 4 then tBase else if a = 5 then cBase else eBase

/-- R165, R404. `n` blocks from block `b` in the rollback view. -/
def State.viewBlocks (s : State) (b n : Nat) : List Byte := ((List.range n).map fun i => s.rollView (b + i)).flatten

/-- R403. The data-area ranges of record 0x0902 as (first block, blocks). -/
def State.belayRanges (s : State) : List (Nat × Nat) :=
  (s.entries 0x0902 0 8).map fun e => (blkOf (dataBase (leAt e 0 1) + leAt e 4 4), leAt e 2 2)

/-- R404. The belay set of the last commit, after the header: the output sets the commit unit staged for it, and the ranges captured. -/
def State.belayBody (s : State) : List Byte :=
  outPart (fun n => mget [] s.cnext.outs n) ++ s.doorPart ++
    ((List.range 12).map fun k =>
      if (mget {} s.ledger k).isOpen then s.ledgerBytes k (mget {} s.ledger k) false else leBytes 32 0).flatten ++
    pad64 (((s.telsOf 1).map fun i => leBytes 4 (s.fget (Reg.TEL_SEQ_SEQ i)) ++ leBytes 4 (s.tel i).ssc).flatten) ++
    s.dup.ranges

/-- R404. The data ranges in the rollback view of this instant, at which the STAGE set of a commit closes. -/
def State.captureRanges (s : State) : State :=
  if s.driving && s.duplexCfg then
    { s with dup := { s.dup with ranges := (s.belayRanges.map fun r => s.viewBlocks r.1 r.2).flatten } }
  else s

/-- Table 14.3. The header for generation `gen`. -/
def State.belayHead (s : State) (gen len : Nat) : List Byte :=
  let seq := s.runningSlot.map fun i => s.mrN (slotBase i + 20) 4
  let applied := satSlots.foldl (fun m n => m + s.fget (Reg.LINK_STAT_APPLIED n) * 2 ^ n) 0
  leBytes 4 gen ++ leBytes 8 (s.time.gc - 1) ++ leBytes 2 (s.fget Reg.COMMIT_NUM_CCOUNT) ++ leBytes 1 applied ++ [0] ++
    leBytes 4 len ++ leBytes 4 (s.fget Reg.PARAM_GEN_GEN) ++ leBytes 4 (seq.getD 0) ++ leBytes 36 0

/-- The successor of a 32-bit generation: 0 is skipped. -/
def nextGen (g : Nat) : Nat := if (g + 1) % 2 ^ 32 = 0 then 1 else (g + 1) % 2 ^ 32

/-- R398, R399. Nanoseconds that a payload of `n` bytes takes on the Rope link with its frame bytes: 5.0 Gbit/s, or half of it on one lane. -/
def State.ropeNs (s : State) (n : Nat) : Nat :=
  (n + 14 * (n / 2048 + 1)) * 8 / 5 * (if s.fbit Reg.DUP_STAT_ROPE_DEGRADED then 2 else 1)

/-- R405. At the publish point, unless the previous delta is still in transfer: a delta of the blocks that have changed since then, with
the manifest. The header block goes with every delta; by itself it makes none where only its grid index and counter differ (DEDUCED). -/
def State.belayDelta (s : State) : State :=
  if !(s.driving && s.duplexNow) || decide (s.time.mono < s.dup.txUntil) then s
  else
    let body := s.belayBody
    let gen := s.fget Reg.BELAY_GEN_GEN
    let head := s.belayHead (nextGen gen) (64 + body.length)
    let old := s.dup.set
    let n := body.length / 64 + 1
    let new := head ++ body
    let diff := (List.range n).filter fun i => sub_ new (64 * i) 64 != mslice 0 old (64 * i) 64
    let still := sub_ head 18 46 == mslice 0 old 18 46 && diff.all fun i => i == 0
    if still && s.dup.manifest.isEmpty then s
    else
      let man := s.dup.manifest.take 24
      let p := leBytes 4 (nextGen gen) ++ leBytes 4 gen ++ sub_ head 4 10 ++ leBytes 1 man.length ++ [0] ++
        (man.map fun m => leBytes 1 m.1 ++ [0, 0, 0] ++ leBytes 4 m.2).flatten ++
        (diff.map fun i => leBytes 2 i ++ [0, 0] ++ sub_ new (64 * i) 64).flatten
      let s := { s with dup := { s.dup with
        set := mput 0 old 0 new, manifest := s.dup.manifest.drop 24, txUntil := s.time.mono + s.ropeNs p.length } }
      let s := (s.fset Reg.BELAY_GEN_GEN (nextGen gen)).fset Reg.BELAY_SIZE_BYTES (64 + body.length)
      s.ropeSendAll 0x02 p

end Sys2Proof.Machine
end

