-- ==== Sys2Proof/Machine/CairnStore.lean ====
section
/-! DEFINITION. The writing of Cairn records into MRAM (R445 to R448, R450). -/

namespace Sys2Proof.Machine

/-- R445. Base of the main area and of the last-words ring. -/
abbrev cairnMain : Nat := 0x10350000
abbrev cairnRing : Nat := 0x103CF800

/-- Table 16.1. A record as stored. -/
def State.recBytes (s : State) (r : CRec) : List Byte :=
  let b := leBytes 1 (r.sev + 8 * r.slot + 64 * s.fget Reg.PWR_CYC_PC_SAT) ++ leBytes 2 (r.code + 1024 * r.task) ++ leBytes 4 r.opSec ++
    leBytes 3 (s.fget Reg.PWR_CYC_COUNT) ++ leBytes 1 r.suppr ++ leBytes 4 r.cyc ++ leBytes 2 r.frac ++
    (r.data ++ List.replicate 12 0).take 12
  [0xA5] ++ b ++ leBytes 2 (crc16 b)

/-- R446, R447. A record goes to the fill point of the main area; the last slot takes only `CAIRN_FULL`. -/
def State.cairnPut (s : State) (r : CRec) : State :=
  let fill := s.fget Reg.CAIRN_STAT_FILL
  if 16320 ≤ fill then (s.fsat Reg.CAIRN_LOST_DISCARDED).fon Reg.CAIRN_FLAGS_DISCARD_SEEN
  else if fill = 16319 then
    let f : CRec := { sev := 2, slot := 0, code := cCAIRN_FULL, task := 31, opSec := s.opSec, frac := s.opCount % 65536, suppr := 0
                      cyc := s.refCycle, data := leBytes 2 (s.cairn.queue.length + 1) }
    let s := s.mwBytes (cairnMain + 32 * 16319) (s.recBytes f)
    let s := ((s.fset Reg.CAIRN_STAT_FILL 16320).fon Reg.CAIRN_STAT_FULL).fmod Reg.CAIRN_CNT_WRITTEN
    (s.fsat Reg.CAIRN_LOST_DISCARDED).fon Reg.CAIRN_FLAGS_DISCARD_SEEN
  else
    ((s.mwBytes (cairnMain + 32 * fill) (s.recBytes r)).fset Reg.CAIRN_STAT_FILL (fill + 1)).fmod Reg.CAIRN_CNT_WRITTEN

/-- R448. A fatal record goes into the last-words ring as well. -/
def State.lastWords (s : State) (r : CRec) : State :=
  if r.sev ≠ 3 then s
  else
    let n := s.fget Reg.CAIRN_STAT_LW_NEXT
    (s.mwBytes (cairnRing + 32 * n) (s.recBytes r)).fset Reg.CAIRN_STAT_LW_NEXT ((n + 1) % 64)

/-- R446. The record at the head of the queue is written. -/
def State.cairnNext (s : State) : State :=
  match s.cairn.queue with
  | r :: t => (({ s with cairn := { s.cairn with queue := t } }).cairnPut r).lastWords r
  | [] => s

/-- Every queued record is written (R74, R100). -/
def State.cairnAll (s : State) : Nat → State
  | 0 => s
  | n + 1 => if s.cairn.queue.isEmpty then s else (s.cairnNext).cairnAll n

end Sys2Proof.Machine
end

