-- ==== Sys2Proof/Machine/DoorCmds.lean ====
section
/-! DEFINITION. The commands of the door dies (chapters 8 and 9): what happens on a land, at a loop instant, or when a timer
of Table 8.5 expires. A timer's command moves time to the expiry where that lies ahead and has no effect where the timer
does not run. -/

namespace Sys2Proof.Machine

/-- Applies `f`, after which the plausibility timer follows the disagreement (R497), and raises `PROOF_LOST` where `CLOSED_LOCKED`
fell by it. -/
def State.watch (s : State) (k : Nat) (f : State → State) : State := ((f s).plaus k).proofCheck k (s.closedLocked k)

/-- The timer started at `t` expires after `n` ns: time moves there and `f` acts; without a start nothing happens. -/
def State.expire (s : State) (t : Option Nat) (n : Nat) (f : State → State) : State :=
  match t with
  | some t0 => f (s.toMono (t0 + n))
  | none => s

/-- R212. `Dk_FLT_N`. -/
def execGateFault (k : DCh) (low : Bool) (s : State) : Out :=
  let s := s.modDoor k fun d => { d with flt := low }
  .next (if low then (s.gatesOff k).fault k zGateFault else s)

/-- R213, R220 to R223, R225, Table 8.4. -/
def execCurrentLoopTick (k : DCh) (iu iv vdc : List Bool) (s : State) : Out :=
  .next (
    if s.chOn k && !s.chShadow k then
      let (v, s) := s.bitVolts k vdc
      s.currentLoop k (s.bitCurrent k iu) (s.bitCurrent k iv) v
    else s)

/-- R217, R220, R223, R238. -/
def execSpeedLoopTick (k : DCh) (s : State) : Out :=
  .next (
    if !s.chOn k then s
    else
      let s := s.toMono (s.nextTick (s.door k).speedAt 500000)
      let s := (s.modDoor k fun d => { d with speedAt := s.time.mono }).speedLoop k
      let far := s.chShadow k &&
        decide (2000 < (s.pos k - sgn 16 (s.fget (Reg.DRV_CH_SHADOW1_SH_POS (k / 4) (k % 4))) * 10).natAbs)
      s.modDoor k fun d => { d with divAt := since d.divAt far s.time.mono })

/-- R224. -/
def execProfileTick (k : DCh) (s : State) : Out :=
  .next (
    if !s.chOn k || s.frozenCh k || s.resuming k then s
    else
      let s := s.toMono (s.nextTick (s.door k).profAt 1000000)
      (s.modDoor k fun d => { d with profAt := s.time.mono }).replan k)

/-- R214. -/
def execOffsetWait (k : DCh) (s : State) : Out :=
  let d := s.door k
  .next (
    if !s.chOn k || s.chShadow k || d.en || d.offAt.isSome then s
    else s.expire d.lowAt 10000000 fun s => s.modDoor k fun d => { d with offAt := some s.time.mono })

/-- R214. 4,096 samples of 0.8 µs each. -/
def execOffsetMeasured (k : DCh) (iu iv : List Bool) (s : State) : Out :=
  .next (s.expire (s.door k).offAt 3276800 fun s =>
    let ou := s.bitOffset k iu
    let ov := s.bitOffset k iv
    let bad := decide (s.iFs k < 20 * ou.natAbs) || (!s.brushed k && decide (s.iFs k < 20 * ov.natAbs))
    let s := s.modDoor k fun d => { d with offAt := none, lowAt := some s.time.mono, offBad := bad }
    if bad then s.fault k zDsmOffset
    else s.modDoor k fun d => { d with offU := ou, offV := ov, offValid := true })

/-- R215. In shadow mode the check is off. -/
def execDsmLoss (k : DCh) (gone : Bool) (s : State) : Out :=
  .next (
    if !s.chOn k || s.chShadow k then s
    else if gone then s.modDoor k fun d => { d with dsm := false }
    else (s.modDoor k fun d => { d with dsm := true }).fault k zDsmLoss)

/-- R216. The sector of a legal Hall code (C, B, A). PRESUMED: the order of forward rotation is 1, 3, 2, 6, 4, 5. -/
def hallSector : Nat → Nat
  | 1 => 0 | 3 => 1 | 2 => 2 | 6 => 3 | 4 => 4 | _ => 5

/-- R216. A Hall edge: counts, the angle, and the check of the encoder angle. -/
def State.hallEdge (s : State) (k code : Nat) : State :=
  let d := s.door k
  let fb := s.drvN k 3 1 0
  let was := d.hall
  let s := s.modDoor k fun d => { d with hall := code }
  if fb = 2 then s
  else if code = 0 ∨ code = 7 then s.fault k zHall
  else if was = 0 ∨ was = 7 ∨ was = code then s
  else
    let a := hallSector was
    let b := hallSector code
    let step : Int := if (a + 1) % 6 = b then 1 else if (b + 1) % 6 = a then -1 else 0
    let edge := ((if step = -1 then a else b) * 65536 / 6 + s.drvN k 38 2 0) % 65536
    let diff := ((edge : Int) - (d.ang : Nat) + 32768) % 65536 - 32768
    let off := if fb = 1 ∧ 10922 < diff.natAbs then d.encOff + 1 else 0
    let s := s.modDoor k fun d =>
      { d with ang := edge, encOff := off, hallAt := s.time.mono
               cnt := if fb = 0 then d.cnt + s.dirSign k * step else d.cnt }
    if 3 ≤ off then s.fault k zEncoder else s

/-- R216. -/
def execHall (k : DCh) (code : BitVec 3) (s : State) : Out :=
  .next (if s.chOn k && !s.loopsIn 7 k then s.watch k fun s => s.hallEdge k code.toNat else s)

/-- R216. Position of a quadrature state (B, A) in its cycle. PRESUMED: A leads B in positive rotation. -/
def quadPhase : Nat → Nat
  | 0 => 0 | 1 => 1 | 3 => 2 | _ => 3

/-- R216. One ×4 count. -/
def State.encStep (s : State) (k code : Nat) : State :=
  let d := s.door k
  let a := quadPhase d.enc
  let b := quadPhase code
  let step : Int := if (a + 1) % 4 = b then 1 else if (b + 1) % 4 = a then -1 else 0
  let fb := s.drvN k 3 1 0
  let cpr : Int := (s.drvN k 36 2 0 : Nat)
  let pp : Int := (s.drvN k 2 1 4 : Nat)
  let raw := s.dirSign k * d.cnt
  let turn := pp * 65536 * (raw + step) / cpr - pp * 65536 * raw / cpr
  s.modDoor k fun d =>
    { d with enc := code, encCnt := unsgn 16 (d.encCnt + step)
             cnt := if fb = 0 then d.cnt else d.cnt + s.dirSign k * step
             ang := if fb = 0 then d.ang else unsgn 16 (d.ang + turn) }

/-- R216. The fault is taken at the third consecutive edge that is off. -/
def execEncoder (k : DCh) (code : BitVec 2) (s : State) : Out :=
  .next (if s.chOn k && !s.loopsIn 7 k then s.watch k fun s =>
      let s := s.encStep k code.toNat
      if 3 ≤ (s.door k).encOff then s.fault k zEncoder else s
    else s)

/-- R230, Table 8.4. -/
def execDcHigh (k : DCh) (high : Bool) (s : State) : Out :=
  .next (
    if !s.chOn k || s.chShadow k then s
    else
      let s := s.modDoor k fun d => { d with dcHigh := high }
      if high then s.fault k zDcHigh else s)

/-- R236, Table 8.4. -/
def execDcLow (k : DCh) (s : State) : Out :=
  .next (
    if !s.chOn k || s.chShadow k || (s.door k).dcLow then s
    else
      let s := (s.gatesOff k).fon (Reg.DRV_CH_FLT_DC_LOW_SEEN (k / 4) (k % 4))
      (s.modDoor k fun d => { d with dcLow := true, strokeOk := false }).repause k)

/-- R236, Table 8.4. -/
def execDcRecovery (k : DCh) (s : State) : Out :=
  .next (if (s.door k).dcLow then ((s.modDoor k fun d => { d with dcLow := false }).repause k).enable k else s)

/-- R219, Table 8.10. The debounced level of input `i` becomes `lvl`. -/
def State.setLocal (s : State) (k i : Nat) (lvl : Bool) : State :=
  let loc := putBit (s.door k).loc i lvl
  let s := s.modDoor k fun d =>
    { d with loc, rise := if lvl then d.rise ||| 2 ^ i else d.rise
             both := since d.both (bit loc 0 && bit loc 1) s.time.mono }
  if i = 6 ∧ lvl ∧ s.isDoor k then s.doorEvent k vPushbutton
  else if i = 2 ∧ lvl ∧ s.isDoor k then s.doorEvent k vEgress
  else if i = 3 then s.doorEvent k vIsolation
  else s

/-- R219, Table 8.5. Sets the debounce timer of input `i`. -/
def State.setDeb (s : State) (k i : Nat) (t : Option Nat) : State := s.modDoor k fun d => { d with debAt := mset none d.debAt i t }

/-- R219. The debounce of input `i` ends: its level, if it still differs, becomes the debounced one. -/
def State.debounced (s : State) (k i : Nat) : State :=
  let lvl := s.rawLocal k i
  (s.setDeb k i none).watch k fun s => if bit (s.door k).loc i = lvl then s else s.setLocal k i lvl

/-- R219, Table 8.5. The raw level of input `i` is `raw`. A change of it starts the timer where it now differs from the debounced level,
and stops it where it has returned; an unchanged level lets a running timer expire. `DEB_US` = 0 passes each level at once. -/
def execLocalInputDebounce (k : DCh) (i : Fin 8) (raw : Bool) (s : State) : Out :=
  .next (
    if !s.chOn k || s.loopsIn 7 k then s
    else
      let moved := bit (s.door k).raw i != raw
      let s := s.modDoor k fun d => { d with raw := putBit d.raw i raw }
      let s :=
        if !moved then s
        else s.setDeb k i (if bit (s.door k).loc i = s.rawLocal k i then none else some s.time.mono)
      let ns := s.inDeb k i * 1000
      if moved && ns != 0 then s else s.expire (mget none (s.door k).debAt i) ns fun s => s.debounced k i)

/-- R243, R251. -/
def execForceEstimate (k : DCh) (s : State) : Out :=
  .next (
    if !s.chOn k || s.frozenCh k then s
    else
      let s := s.toMono (s.nextTick (s.door k).forceAtT 500000)
      (s.modDoor k fun d => { d with forceAtT := s.time.mono }).estimate k)

/-- R251, R254, R255. The reaction of the channel's role, where a criterion is met. -/
def State.tryDetect (s : State) (k : Nat) : State :=
  if !s.detected k || (s.door k).react != 0 then s
  else if s.isDoor k then s.reactDoor k else s.reactStep k

/-- R251. -/
def execObstacle (k : DCh) (s : State) : Out :=
  .next (
    if !s.chOn k || s.frozenCh k || !s.armed k then s
    else s.expire (s.door k).forceAt (s.detNs k) fun s => s.tryDetect k)

/-- R251. -/
def execSpeedDeficit (k : DCh) (s : State) : Out :=
  .next (
    if !s.chOn k || s.frozenCh k || !s.armed k || !s.deficitOn k then s
    else s.expire (s.door k).defAt (s.defNs k) fun s => s.tryDetect k)

/-- R230, R232. One evaluation at its 500 µs instant. -/
def State.evalTick (s : State) (k : Nat) : State :=
  let s := s.toMono (s.nextTick (s.door k).evalAt 500000)
  (s.modDoor k fun d => { d with evalAt := s.time.mono }).watch k fun s => s.evalCh k

/-- R230. -/
def execDoorEval (k : DCh) (s : State) : Out :=
  .next (if s.chOn k && s.isDoor k && !s.chShadow k then s.evalTick k else s)

/-- R232. -/
def execStepEval (k : DCh) (s : State) : Out :=
  .next (if s.chOn k && !s.isDoor k && !s.chShadow k then s.evalTick k else s)

/-- R218, R229. Plausibility (R497) comes first. -/
def execHomeConfirm (k : DCh) (s : State) : Out :=
  .next (
    if !s.chOn k then s
    else s.expire (s.door k).both (s.plausNs k) fun s =>
      let s := s.plaus k
      let st := (s.door k).state
      if ranFor (s.door k).plausAt (s.plausNs k) s.time.mono && !s.chShadow k then s
      else if !s.frozenCh k && ([dHalted, tHalted, tStowing].contains st || (st == dLocking && decide (s.pos k ≤ s.lockZone k))) then
        s.lockNow k
      else s.homePos k)

/-- R497. The timer runs only while the disagreement lasts (`State.watch`). -/
def execProofPlaus (k : DCh) (s : State) : Out :=
  .next (if !s.chOn k || s.chShadow k then s else s.expire (s.door k).plausAt (s.plausNs k) fun s => s.fault k zProofPlaus)

/-- Table 8.5. A motion timer of one of the states `sts` expires. -/
def State.motionTimeout (s : State) (k : Nat) (sts : List Nat) : State :=
  let d := s.door k
  if s.chOn k && !s.frozenCh k && sts.contains d.state then (s.toMono (d.entAt + s.moveNs k)).haltCh k zTimeout else s

/-- R230. -/
def execLockMoveTimeout (k : DCh) (s : State) : Out := .next (s.motionTimeout k [dUnlocking, dLocking])

/-- R230, R232. -/
def execStrokeTimeout (k : DCh) (s : State) : Out :=
  .next (s.motionTimeout k [dOpening, dClosing, tDeploying, tStowing])

/-- R232. -/
def execStepContact (k : DCh) (s : State) : Out :=
  .next (
    if !s.chOn k || s.frozenCh k || (s.door k).state != tDeploying then s
    else s.expire (s.door k).contAt 10000000 fun s =>
      let s := (s.drive k 2).arrive k tDeployed
      (s.modDoor k fun d => { d with contact := true }).doorEvent k vContact)

/-- R254. -/
def execReverseWaitEnd (k : DCh) (s : State) : Out :=
  let d := s.door k
  .next (
    if s.chOn k && !s.frozenCh k && d.state == dReversing && d.react == 3 then
      (s.toMono (d.waitAt + s.waitNs k)).reverseEnd k
    else s)

/-- R250. -/
def execTestHoldEnd (k : DCh) (s : State) : Out :=
  let d := s.door k
  .next (
    if s.chOn k && !s.frozenCh k && d.run == 1 && d.goal == 2 then
      (s.toMono (d.holdAt + 2000000000)).modDoor k fun d => { d with goal := 4 }
    else s)

/-- R235. The silence timer of door die `d` expires. -/
def execDoorSilence (d : Drv) (s : State) : Out :=
  let n := 1 + d.val
  .next (
    if !s.present n || !(s.sat n).everCommit || s.fbit (Reg.DRV_STAT_SILENT d) then s
    else
      let s := s.toMono ((s.sat n).lastCommit + 1000000)
      let s := (s.fon (Reg.DRV_STAT_SILENT d)).fon (Reg.DRV_FLAGS_SILENCE_TRIP d)
      s.each ([4 * d.val, 4 * d.val + 1, 4 * d.val + 2, 4 * d.val + 3].filter fun k => s.role k != 0) fun s k => s.setPassive k true)

/-- R228, R236. -/
def execDoorEventFlush (k : DCh) (s : State) : Out :=
  .next (
    match (s.door k).evPend with
    | some ev => if s.linkIsUp (chSlot k) then s.expire (s.door k).evAt 250000 fun s => s.sendDoorEvent k ev else s
    | none => s)

/-- R240. A 16-byte sample: local time in 6 bytes, then `POS`, `SPEED`, `IQ`, `FORCE`, `VDC` (DESIGN CHOICE: the order, and
that a frame carries the channel and one sample). One that the link has no `room` for is dropped. -/
def execTraceSample (kr : DCh × Bool) (s : State) : Out :=
  let k := kr.1
  let d := s.door k
  let en := bit (s.dieN (chSlot k) 0x0305 (k / 4) 0 1 0) (k.val % 4)
  .next (
    if !s.chOn k || !en || !inMotion d.state then s
    else
      let div := s.dieN (chSlot k) 0x0305 (k / 4) 1 1 1
      let s := s.modDoor k fun d => { d with traceDiv := (d.traceDiv + 1) % div }
      if (s.door k).traceDiv ≠ 0 then s
      else if !kr.2 || !s.linkIsUp (chSlot k) then s.fon (Reg.DRV_FLAGS_TRACE_OVF (k / 4))
      else s.satSend (chSlot k) 0x0B (leBytes 1 k ++ leBytes 6 (s.localTime (chSlot k)) ++ leBytes 2 (unsgnSat 16 (s.pos k / 10)) ++
        leBytes 2 (unsgnSat 16 d.speed) ++ leBytes 2 (unsgnSat 16 (d.iq / 2)) ++ leBytes 2 (unsgnSat 16 d.force.floor) ++
        leBytes 2 d.vdc))

/-! ### Shadow mode -/

/-- R238. A channel in shadow mode shows what its shadow registers mirror. -/
def State.shadowTake (s : State) (k : Nat) : State :=
  let n := k / 4
  let c := k % 4
  if s.role k = 0 then s
  else s.modDoor k fun d =>
    { d with state := s.fget (Reg.DRV_CH_SHADOW0_SH_STATE n c), cause := s.fget (Reg.DRV_CH_SHADOW0_SH_CAUSE n c)
             attempt := s.fget (Reg.DRV_CH_SHADOW0_SH_ATTEMPT n c), acted := s.fget (Reg.DRV_CH_SHADOW0_SH_SEQ n c) }

/-- R238, R239. `SHADOW` of door die `n` changes. -/
def State.setShadow (s : State) (n : Nat) (b : Bool) : State :=
  if s.fbit (Reg.DRV_MODE_SHADOW n) = b then s
  else
    let s := (s.fput (Reg.DRV_MODE_SHADOW n) b).fput (Reg.DRV_STAT_SHADOW n) b
    s.each ([4 * n, 4 * n + 1, 4 * n + 2, 4 * n + 3].filter fun k => s.role k != 0) fun s k =>
      if b then (((s.gatesOff k).shadowTake k).modDoor k fun d => { d with awaits := false, resumeAt := none }).repause k
      else s.watch k fun s =>
        let s := s.modDoor k fun d =>
          if d.diverge then
            { d with ofs := sgn 16 (s.fget (Reg.DRV_CH_SHADOW1_SH_POS n (k % 4))) * 10, cnt := 0, hist := [], posValid := false }
          else d
        (s.modDoor k fun d => { d with resumeAt := some s.time.mono, awaits := true, rise := 0, divAt := none
                                       drv := if inMotion d.state then 1 else d.drv }).repause k

/-- R238. -/
def execDrvModeWrite (d : Drv) (shadow : Bool) (s : State) : Out :=
  .next (if s.present (1 + d) then s.setShadow d shadow else s)

/-- R239. -/
def execShadowResume (k : DCh) (s : State) : Out :=
  .next (s.expire (s.door k).resumeAt (3 * 2 ^ (4 + s.drvN k 8 1 2) * 50) fun s =>
    let iq := sgn 16 (s.fget (Reg.DRV_CH_SHADOW1_SH_IQREF (k / 4) (k.val % 4))) * 2
    let s := s.resumeDrive k
    let s := s.modDoor k fun d =>
      { d with resumeAt := none, wi := (iq : Rat), iqRef := (iq : Rat), vRef := d.speed * 1000, vCmd := (d.speed * 1000 : Int) }
    s.enable k)

/-- R238. -/
def execShadowDiverge (k : DCh) (s : State) : Out :=
  .next (
    if !s.chShadow k || (s.door k).diverge then s
    else s.expire (s.door k).divAt 100000000 fun s => s.watch k fun s =>
      let s := (s.modDoor k fun d => { d with diverge := true, posValid := false }).fon (Reg.DRV_FLAGS_SHADOW_DIVERGE (k / 4))
      s.doorEvent k vShadowDiverge)

/-! ### Profiles -/

/-- R249. The die takes the profiles written into its window. They carry adapted values alone: a die that has no learned baseline of its
own takes them as the baseline too (DESIGN CHOICE). -/
def State.baseLoad (s : State) (n : Nat) : State :=
  s.each ([4 * n, 4 * n + 1, 4 * n + 2, 4 * n + 3].filter fun k => (s.door k).winSet) fun s k =>
    s.modDoor k fun d =>
      { d with adap := d.window, base := if d.learned then d.base else d.window, ref := true, learned := true, window := [], winSet := false }

/-- R249. -/
def execBaseLoaded (d : Drv) (s : State) : Out := .next (if s.present (1 + d) then s.baseLoad d else s)

end Sys2Proof.Machine
end

