-- ==== Sys2Proof/Machine/FieldOps.lean ====
section
/-! DEFINITION. Field dies: records 0x06xx as loaded, the outputs as driven (R302, R311, R321 to R324), fast inputs (R307 to
R309), registers and input block (Tables 11.6, 11.8), events (R306, R331). -/

namespace Sys2Proof.Machine

/-- The die. -/
def State.fio (s : State) (f : Nat) : Field := mget {} s.fields f

/-- R313. The die runs in mode C. -/
def State.modeC (s : State) (f : Nat) : Bool := s.fbit (Reg.FIO_STAT_MODE_C f)

/-- Table 11.10. `DEB_US` and `IFLAGS` of local input `c`. -/
def State.inFlags (s : State) (f c : Nat) : Nat := s.dieN (6 + f) 0x0602 f (4 * c + 2) 1 0

/-- Table 11.12. `OMODE`, `OSAFE`, `OFLAGS` of local output `c`. -/
def State.outMode (s : State) (f c : Nat) : Nat := s.dieN (6 + f) 0x0604 f (4 * c) 1 0
def State.outSafe (s : State) (f c : Nat) : Nat := s.dieN (6 + f) 0x0604 f (4 * c + 1) 1 0
def State.outFlags (s : State) (f c : Nat) : Nat := s.dieN (6 + f) 0x0604 f (4 * c + 2) 1 4

/-- Table 11.11. A field of the record of fast input `j`. -/
def State.fastN (s : State) (f j off n d : Nat) : Nat := s.dieN (6 + f) 0x0603 (32 * f + j) off n d

/-- The die is powered and configured. -/
def State.fioOn (s : State) (f : Nat) : Bool := s.present (6 + f) && s.fbit (Reg.FIO_STAT_CONFIGURED f)

/-- R58, Table 2.5. The logic side of the barrier, its frames and its heartbeat run in every mode but PARK. -/
def State.fioRuns (s : State) (f : Nat) : Bool := s.fioOn f && s.mode != mPark

/-! ### Outputs -/

/-- R302, R310, R311, R320 to R324. Output `c` is driven on. -/
def State.outOn (s : State) (f c : Nat) : Bool :=
  let x := s.fio f
  if !s.fioOn f || x.stopped || x.viLow || s.fbit (Reg.FIO_STAT_RELEASED f) || x.relWait || s.fbit (Reg.FIO_MODE_STBY f) ||
      s.outMode f c == 0 || bit x.ovl c then false
  else if x.safeAct || (s.modeC f && x.hbLost) then
    match s.outSafe f c with
    | 0 => false
    | 1 => true
    | _ => bit x.fdo c
  else x.hasSet && bit x.fdo c

/-- The 16 outputs as driven. -/
def State.outsOn (s : State) (f : Nat) : Nat := ((List.range 16).map fun c => b2n (s.outOn f c) * 2 ^ c).sum

/-! ### Fast inputs -/

/-- R308. T_avg in ns: the mean of the last `F_AVG` periods; `none` where fewer are complete. -/
def State.tAvg (s : State) (f j : Nat) (x : Fast) : Option Nat :=
  let n := s.fastN f j 2 1 4
  if x.periods.length < n then none else some ((x.periods.take n).sum / n)

/-- R305, R315. The last sample-grid point, the instant of the latch. -/
def State.latchAt (s : State) : Nat := s.time.mono - s.time.dev % 25000

/-- R308. `FREQ` at a latch and whether the timeout has passed. -/
def State.freqAt (s : State) (f j : Nat) (x : Fast) : Nat × Bool :=
  let now := s.latchAt - x.sinceAt
  let over_ := decide (s.fastN f j 4 2 1000 * 1000000 < now)
  if over_ then (0, true)
  else
    match s.tAvg f j x with
    | none => (0, false)
    | some t => (1000000000000 / max t now, false)

/-- R307. `GLITCH` of fast input `j` in ns. -/
def State.glitchNs (s : State) (f j : Nat) : Nat := ([0, 500, 1000, 2000] : List Nat).getD (s.fastN f j 1 1 1) 0

/-- R307. A raw change that has lasted for the filter's time passes; a rise is an active edge, of the time of the raw change (DEDUCED,
log 84). -/
def Fast.settle (x : Fast) (glitch now : Nat) : Fast :=
  match x.chgAt with
  | some t => if t + glitch ≤ now then { x with level := !x.level, chgAt := none, edges := if x.level then x.edges else t :: x.edges } else x
  | none => x

/-- R307. The raw level after `INV` becomes `level`. -/
def Fast.change (x : Fast) (glitch now : Nat) (level : Bool) : Fast :=
  let x := x.settle glitch now
  ({ x with chgAt := if level = x.level then none else some now }).settle glitch now

/-- R308, R309. The instant of an edge as measured: in 1/1,024 of 25 µs before the latch in mode S, in 20 ns in mode C. -/
def edgeTime (modeC : Bool) (latch t : Nat) : Nat := if modeC then t / 20 * 20 else latch - (latch - t) * 1024 / 25000 * 25000 / 1024

/-- R308. Complete periods of the edges `l`, newest first: in mode S the IN carries the last edge and their number only. -/
def Fast.newPeriods (x : Fast) (modeC : Bool) (l : List Nat) (last : Nat) : List Nat :=
  let l := if x.edge then l ++ [x.sinceAt] else l
  let n := l.length - 1
  if modeC then (l.zip (l.drop 1)).map fun p => p.1 / 20 * 20 - p.2 / 20 * 20
  else List.replicate (min n 64) ((last - l.getLastD last) / max n 1)

/-- R307, R308, R309. The latch at `latch` closes the interval of the edges up to it; an edge within one unit of it belongs to it. -/
def State.fastEdges (s : State) (f j latch : Nat) (x : Fast) : Fast :=
  let modeC := s.modeC f
  let x := x.settle (s.glitchNs f j) s.time.mono
  let l := x.edges.filter fun t => decide (t ≤ latch + (if modeC then 20 else 24))
  let x := { x with edges := x.edges.filter fun t => !l.contains t }
  match l with
  | [] => x
  | t :: _ =>
    if s.fastN f j 0 1 0 = 0 then x
    else
      let gap := !modeC && decide (7 < l.length)
      let n := (l.filter fun t => decide (x.clrAt < t)).length
      let last := edgeTime modeC latch t
      { x with count := (x.count + if modeC then n else min n 7) % 2 ^ 32, sinceAt := last, edge := true, ftmo := false
               periods := if gap || s.fastN f j 0 1 0 != 2 then [] else (x.newPeriods modeC l last ++ x.periods).take 64
               gap := x.gap || gap }

/-- R309. An interval of edges cannot be accounted for: a gap, which restarts the collection of periods. -/
def Fast.lose (x : Fast) : Fast := { x with gap := true, periods := [], edge := false, edges := [] }

/-! ### Registers and input block -/

/-- R308. Latches the frequency of every fast input. -/
def State.latchFast (s : State) (f : Nat) (l : List Fast) : List Fast :=
  (List.range 8).map fun j =>
    let x := l.getD j {}
    if s.fastN f j 0 1 0 = 2 then
      let (v, t) := s.freqAt f j x
      { x with freq := v, ftmo := t }
    else x

/-- Table 11.8. The registers of die `f` show its state. -/
def State.fieldView (s : State) (f : Nat) : State :=
  let x := s.fio f
  let outs := s.outsOn f
  let s := s.fput (Reg.FIO_STAT_VI_LOW f) x.viLow
  let s := s.fput (Reg.FIO_STAT_SAFE_ACT f) x.safeAct
  let s := s.fset (Reg.FIO_VI_VI f) x.vi
  let s := s.fset (Reg.FIO_DI_NOW_DI f) x.di
  let s := s.fset (Reg.FIO_DO_NOW_DO f) outs
  let s := s.fset (Reg.FIO_DO_NOW_RB f) x.rb
  let s := s.fset (Reg.FIO_DO_OVL_OVL f) (if s.modeC f then 0 else x.ovl)
  s.each (List.range 8) fun s j =>
    let y := x.fast.getD j {}
    let open_ := if s.modeC f && s.fastN f j 0 1 0 != 0 then (y.edges.filter fun t => decide (y.clrAt < t)).length else 0
    let s := s.fset (Reg.FIO_FAST_CNT_COUNT f j) ((y.count + open_) % 2 ^ 32)
    let s := s.fset (Reg.FIO_FAST_FREQ_FREQ f j) y.freq
    let s := s.fset (Reg.FIO_FAST_PER_T_AVG_NS f j) (min (2 ^ 32 - 1) ((s.tAvg f j y).getD 0))
    let s := s.fput (Reg.FIO_FAST_STAT_GAP f j) y.gap
    let s := s.fput (Reg.FIO_FAST_STAT_FTMO f j) y.ftmo
    s.fset (Reg.FIO_FAST_STAT_PERIODS f j) y.periods.length

/-- Sets a die and its registers. -/
def State.setField (s : State) (f : Nat) (x : Field) : State := ({ s with fields := mset {} s.fields f x }).fieldView f

/-- Updates a die. -/
def State.modField (s : State) (f : Nat) (g : Field → Field) : State := s.setField f (g (s.fio f))

/-- One bit of each fast input. -/
def fastBits (l : List Fast) (p : Fast → Bool) : Nat := ((List.range 8).map fun j => b2n (p (l.getD j {})) * 2 ^ j).sum

/-- Table 11.6. The input block of die `f`, 80 bytes. -/
def State.fieldInput (s : State) (f : Nat) : List Byte :=
  let x := s.fio f
  leBytes 1 (b2n (s.modeC f) + 2 * b2n x.viLow + 4 * b2n x.safeAct + 8 * s.fget (Reg.FIO_MODE_STBY f) +
      16 * s.fget (Reg.FIO_STAT_RELEASED f)) ++ leBytes 1 (min 255 (x.vi / 20)) ++ leBytes 2 x.evCount ++
    leBytes 1 (fastBits x.fast (·.gap)) ++ leBytes 1 (fastBits x.fast (·.ftmo)) ++ [0, 0] ++ leBytes 4 x.ldi ++ leBytes 2 x.rb ++
    leBytes 2 (if s.modeC f then 0 else x.ovl) ++
    ((List.range 8).map fun j => leBytes 4 (x.fast.getD j {}).count ++ leBytes 4 (x.fast.getD j {}).freq).flatten

/-! ### Events -/

/-- R331. Sends an EVENT frame with 6 data bytes, and counts it. -/
def State.sendFieldEvent (s : State) (f ev ix : Nat) (data : List Byte) : State :=
  let s := s.modField f fun x => { x with evCount := (x.evCount + 1) % 65536 }
  s.satSend (6 + f) 0x09 (leBytes 2 (ev + ix * 256) ++ (data ++ List.replicate 6 0).take 6)

/-- R331. An event other than `EDGE`: its data carry `DO`. While the link is DOWN it is held. -/
def State.fieldEvent (s : State) (f ev ix : Nat) : State :=
  if s.linkIsUp (6 + f) then s.sendFieldEvent f ev ix (leBytes 2 (s.outsOn f))
  else s.modField f fun x => { x with evHeld := (x.evHeld.filter (· != (ev, ix))) ++ [(ev, ix)] }

/-- R306. Sends the `EDGE` frame of input `c`. -/
def State.sendEdge (s : State) (f c : Nat) (level : Bool) (t : Nat) : State :=
  let s := s.modField f fun x =>
    { x with evAt := mset 0 x.evAt c (s.time.mono + 1), evPend := x.evPend.filter fun p => p.1 != c }
  s.sendFieldEvent f 1 c (leBytes 1 (b2n level) ++ leBytes 5 t)

/-- R306. An enabled edge: sent, or merged into the next frame of the input. -/
def State.fieldEdge (s : State) (f c : Nat) (level : Bool) : State :=
  let x := s.fio f
  if !(if level then bit x.evRise c else bit x.evFall c) then s
  else
    let t := s.localTime (6 + f)
    let last := mget 0 x.evAt c
    if s.linkIsUp (6 + f) ∧ (last = 0 ∨ last - 1 + 25000 ≤ s.time.mono) then s.sendEdge f c level t
    else s.modField f fun x => { x with evPend := (x.evPend.filter fun p => p.1 != c) ++ [(c, level, t)] }

/-! ### Applied sets -/

/-- R307, R311, R322, R324. The field side applies a set at a COMMIT: counters clear on the rise of their bit, safe state
and release end, overloads re-arm. -/
def State.fieldTake (s : State) (f out clr : Nat) : State :=
  s.modField f fun x =>
    let rise := clr &&& (255 - x.fclr)
    let off := x.ovl &&& (65535 - out)
    let rearm := (x.rearm ||| off) &&& x.ovl
    let back := ((List.range 16).map fun c => b2n (bit rearm c && bit out c && !bit (s.outFlags f c) 2 && !bit x.hot c) * 2 ^ c).sum
    { x with fdo := out, fclr := clr, hasSet := true, bare := false, safeAct := false, applyAt := s.time.mono, everApply := true
             relWait := if s.fbit (Reg.FIO_STAT_RELEASED f) then x.relWait else false
             rearm := rearm - back, ovl := x.ovl - (x.ovl &&& back)
             fast := (List.range 8).map fun j =>
               let y := x.fast.getD j {}
               if bit rise j then { y with count := 0, gap := false, clrAt := s.time.mono } else y }

/-- R328. `DO` and `CNT_CLR` of an output set. -/
def setDo (b : Bytes) : Nat := (mget 0 b 0).toNat + 256 * (mget 0 b 1).toNat
def setClr (b : Bytes) : Nat := (mget 0 b 2).toNat

/-- R66, R333. The die has been configured: outputs are off until a set is applied; mode and silence time are taken. -/
def State.fieldConfigured (s : State) (f : Nat) : State :=
  let x := s.fio f
  let s := s.fput (Reg.FIO_STAT_MODE_C f) (s.dieN (6 + f) 0x0601 f 0 1 0 == 1)
  let s := s.fset (Reg.FIO_SILENCE_SILENCE_MS f) (s.dieN (6 + f) 0x0601 f 2 2 50)
  let lvl (c : Nat) : Bool := bit x.raw c != bit (s.inFlags f c) 0
  let fast := (List.range 8).map fun j => ({ sinceAt := s.time.mono, level := lvl j } : Fast)
  s.setField f
    { vi := x.vi, lowAt := x.lowAt, okAt := x.okAt, stopped := x.stopped, viLow := x.viLow, raw := x.raw, outTx := x.outTx
      outRx := x.outRx, inTx := x.inTx, inRx := x.inRx, inAt := s.time.mono, applyTickAt := s.time.mono
      debAt := ((List.range 32).filter lvl).foldl (fun m c => mset none m c (some s.time.mono)) []
      evCount := x.evCount, fast, relWait := x.relWait }

/-- R306. The ROM enables the edges that tasks of trigger kind 2 name, on both dies. -/
def State.enableEdges (s : State) : State :=
  s.each [0, 1] fun s f =>
    let args := ((List.range' 16 8).filter fun t => s.taskOn t && s.topoN 0x0202 t 3 1 0 == 2).map fun t => s.topoN 0x0202 t 8 4 0
    let mask (b : Nat) : Nat :=
      args.foldl (fun m a => if a % 64 / 32 = f ∧ bit (a / 256) b then m ||| 2 ^ (a % 32) else m) 0
    s.modField f fun x => { x with evRise := mask 0, evFall := mask 1 }

end Sys2Proof.Machine
end

