-- ==== Sys2Proof/Machine/FieldCmds.lean ====
section
/-! DEFINITION. The commands of the field dies (chapter 11). -/

namespace Sys2Proof.Machine

/-- R302. A measurement of VI and its timers. -/
def State.takeVi (s : State) (f vi : Nat) : State :=
  s.modField f fun x =>
    { x with vi, lowAt := since x.lowAt (decide (vi < 1500)) s.time.mono, okAt := since x.okAt (decide (1600 ≤ vi)) s.time.mono }

/-- R302, R331. `VI_LOW` rises: every output is off. -/
def State.viFalls (s : State) (f : Nat) : State :=
  if (s.fio f).viLow then s
  else ((s.modField f fun x => { x with viLow := true }).fon (Reg.FIO_FLAGS_VI_LOW_SEEN f)).fieldEvent f 5 0x1F

/-- R302. Time moves to the end of the timer started at `t`, where it runs. -/
def State.toEnd (s : State) (t : Option Nat) (n : Nat) : State := s.expire t n id

/-- R302. VI is below 15.0 V for 100 µs. -/
def execViLow (f : Fio) (vi : BitVec 16) (s : State) : Out :=
  .next (
    if !s.present (6 + f) then s
    else
      let s := (s.toEnd (s.fio f).lowAt 100000).takeVi f vi.toNat
      if ranFor (s.fio f).lowAt 100000 s.time.mono then s.viFalls f else s)

/-- R302. VI is at or above 16.0 V for 10 ms. -/
def execViRecover (f : Fio) (vi : BitVec 16) (s : State) : Out :=
  .next (
    if !s.present (6 + f) || (s.fio f).stopped then s
    else
      let s := (s.toEnd (s.fio f).okAt 10000000).takeVi f vi.toNat
      if ranFor (s.fio f).okAt 10000000 s.time.mono then s.modField f fun x => { x with viLow := false } else s)

/-- R302. Below 12.0 V the field side stops. -/
def execFieldSideStop (f : Fio) (vi : BitVec 16) (s : State) : Out :=
  .next (
    if !s.present (6 + f) then s
    else
      let s := s.takeVi f vi.toNat
      if 1200 ≤ vi.toNat then s else s.modField f fun x => { x with stopped := true, held := none, ackw := none })

/-- R302. The field side restarts, with `VI_LOW`; in mode S it has no output set and no commit number. -/
def execFieldSideRestart (f : Fio) (vi : BitVec 16) (s : State) : Out :=
  .next (
    if !(s.fio f).stopped then s
    else
      let s := s.takeVi f vi.toNat
      if vi.toNat < 1200 then s
      else
        (s.modField f fun x =>
          { x with stopped := false, held := none, applyTickAt := s.time.mono, bare := !s.modeC f
                   hasSet := s.modeC f && x.hasSet, fnum := if s.modeC f then x.fnum else none
                   safeAct := s.modeC f && x.safeAct }).viFalls f)

/-! ### Inputs -/

/-- R304. The raw level of local input `c` after `INV`. -/
def State.rawIn (s : State) (f c : Nat) : Bool := bit (s.fio f).raw c != bit (s.inFlags f c) 0

/-- R304, R306. The debounce of input `c` ends: its level, if it still differs, becomes the debounced one. -/
def State.inputSettles (s : State) (f c : Nat) : State :=
  let level := s.rawIn f c
  let s := s.modField f fun x => { x with debAt := mset none x.debAt c none }
  if bit (s.fio f).di c = level then s
  else (s.modField f fun x => { x with di := putBit x.di c level }).fieldEdge f c level

/-- R304, R307. The terminal of input `c` has level `raw`. A change of it starts the debounce where it now differs from the debounced level,
and stops it where it has returned; it reaches the glitch filter of a fast input. An unchanged level lets a running debounce end. `DEB_US` = 0
passes each level at once. -/
def execFieldInputDebounce (f : Fio) (c : Fin 32) (raw : Bool) (s : State) : Out :=
  .next (
    if !s.fioOn f || (s.fio f).stopped then s
    else
      let moved := bit (s.fio f).raw c != raw
      let s := s.modField f fun x => { x with raw := putBit x.raw c raw }
      let s :=
        if !moved then s
        else s.modField f fun x =>
          { x with debAt := mset none x.debAt c (if bit x.di c = s.rawIn f c then none else some s.time.mono)
                   fast := if c.val < 8 then x.fast.modify c.val fun y => y.change (s.glitchNs f c) s.time.mono (s.rawIn f c) else x.fast }
      let ns := s.dieN (6 + f) 0x0602 f (4 * c) 2 1000 * 1000
      if moved && ns != 0 then s else s.expire (mget none (s.fio f).debAt c) ns fun s => s.inputSettles f c)

/-- R308. -/
def execFtmo (f : Fio) (j : Fin 8) (s : State) : Out :=
  .next (
    if !s.fioOn f || s.fastN f j 0 1 0 != 2 || ((s.fio f).fast.getD j {}).ftmo then s
    else
      let s := s.toMono (((s.fio f).fast.getD j {}).sinceAt + s.fastN f j 4 2 1000 * 1000000)
      s.modField f fun x => { x with fast := x.fast.modify j fun y => { y with ftmo := true, freq := 0 } })

/-- R311. Output `c` turns off in overload; in mode C nothing of it is reported. -/
def State.outOverload (s : State) (f c : Nat) (hot : Bool) : State :=
  let s := s.modField f fun x =>
    { x with ovl := putBit x.ovl c true, hot := if hot then putBit x.hot c true else x.hot
             rearm := putBit x.rearm c false, retryAt := mset 0 x.retryAt c (s.time.mono + 100000000) }
  if s.modeC f then s
  else
    let s := (s.fset (Reg.FIO_DO_OVL_OVL_HIST f) (s.fget (Reg.FIO_DO_OVL_OVL_HIST f) ||| 2 ^ c)).fon (Reg.FIO_FLAGS_OVL_SEEN f)
    s.fieldEvent f 2 c

/-- R311. -/
def execOvl (f : Fio) (c : Fin 16) (s : State) : Out :=
  .next (if s.outOn f c then s.outOverload f c false else s)

/-- R311. -/
def execOvlRetry (f : Fio) (c : Fin 16) (success : Bool) (s : State) : Out :=
  let x := s.fio f
  .next (
    if !bit x.ovl c || !bit (s.outFlags f c) 2 || !bit x.fdo c || bit x.hot c then s
    else
      let s := s.toMono (mget 0 x.retryAt c)
      if success then s.modField f fun x => { x with ovl := putBit x.ovl c false, rearm := putBit x.rearm c false }
      else s.modField f fun x => { x with retryAt := mset 0 x.retryAt c (s.time.mono + 100000000) })

/-- R311. -/
def execOutputOvertemp (f : Fio) (c : Fin 16) (s : State) : Out :=
  .next (if s.fioOn f && s.outMode f c != 0 && !bit (s.fio f).hot c then s.outOverload f c true else s)

/-- R311. -/
def execOutputCooled (f : Fio) (c : Fin 16) (s : State) : Out :=
  .next (
    if !bit (s.fio f).hot c then s
    else s.modField f fun x =>
      let back := bit x.rearm c && bit x.fdo c && !bit (s.outFlags f c) 2
      { x with hot := putBit x.hot c false, ovl := if back then putBit x.ovl c false else x.ovl
               rearm := if back then putBit x.rearm c false else x.rearm })

/-! ### Crossing the barrier -/

/-- R317. A damaged item is discarded and counted. -/
def State.badItem (s : State) (f : Nat) : State := s.fsat (Reg.FIO_XERR_CRC_ERR f)

/-- R317. `SEQ` of a received item: a repeat is discarded, a gap is counted. The new state and whether it is taken. -/
def State.seqItem (s : State) (f last seq : Nat) : State × Bool :=
  if seq = last then (s, false)
  else if seq = (last + 1) % 256 then (s, true)
  else (s.fsat (Reg.FIO_XERR_SEQ_ERR f), true)

/-- R314, R316. OUT carries the complete set for the coming point. -/
def execOutItem (f : Fio) (rx : Rx) (s : State) : Out :=
  let n := 6 + f.val
  .next (
    if !s.fioRuns f || s.modeC f then s
    else
      let st := (s.sat n).staged
      let item : OutItem :=
        { target := (match st with | some (t, true, _, _) => t | _ => (s.sat n).ccount + 1) % 256
          stby := s.fbit (Reg.FIO_MODE_STBY f), resync := (match st with | some (_, full, _, _) => full | none => false)
          out := setDo (s.comingSet n), clr := setClr (s.comingSet n) }
      let s := s.modField f fun x => { x with outTx := (x.outTx + 1) % 256 }
      if (s.fio f).stopped then s
      else if rx ≠ .ok then s.badItem f
      else
        let (s, ok) := s.seqItem f (s.fio f).outRx (s.fio f).outTx
        s.modField f fun x => { x with outRx := x.outTx, held := if ok then some item else x.held })

/-- R314, R315. APPLY at a commit instant at which the die applies a COMMIT. -/
def execApplyItem (f : Fio) (rx : Rx) (s : State) : Out :=
  let x := s.fio f
  .next (
    match x.applyNum with
    | none => s
    | some n =>
      if x.stopped then s
      else if rx ≠ .ok then s.badItem f
      else
        let s := s.modField f fun x => { x with fieldLoss := false, applyTickAt := s.time.mono }
        match x.held with
        | some o =>
          if (o.target = n % 256 ∧ x.fnum.map (fun k => (k + 1) % 256) = some (n % 256)) ∨ o.resync then
            let s := s.fieldTake f o.out o.clr
            s.modField f fun x => { x with fnum := some (n % 256), ackw := some (some (n % 256)), held := some { o with resync := false } }
          else s.modField f fun x => { x with ackw := some x.fnum }
        | none => s.modField f fun x => { x with ackw := some x.fnum })

/-- R315. TICK: nothing is applied. -/
def execTickItem (f : Fio) (rx : Rx) (s : State) : Out :=
  let x := s.fio f
  .next (
    if x.applyNum.isSome || x.stopped || !s.fioRuns f || s.modeC f then s
    else if rx ≠ .ok then s.badItem f
    else s.modField f fun x => { x with fieldLoss := false, applyTickAt := s.time.mono, ackw := some x.fnum })

/-- R316. Only an echo of n advances the commit counter; a CONFIRM goes out either way. -/
def execAckw (f : Fio) (rx : Rx) (s : State) : Out :=
  let x := s.fio f
  .next (
    match x.applyNum with
    | none => if rx ≠ .ok then s.badItem f else s.modField f fun x => { x with ackw := none }
    | some n =>
      let s := s.modField f fun x => { x with applyNum := none, ackw := none }
      if rx ≠ .ok then (s.badItem f).sendConfirm (6 + f)
      else if x.ackw = some (some (n % 256)) then (s.satApply (6 + f)).sendConfirm (6 + f)
      else s.sendConfirm (6 + f))

/-- R305, R312, R317. The values of the latch reach the logic side; where a SAMPLE waits for them, INPUT goes out. Edges that fell while the
crossing is lost are not counted (R309). -/
def State.fieldLatch (s : State) (f rb : Nat) : State :=
  let lost := s.fbit (Reg.FIO_STAT_XLOSS f)
  let at_ := s.latchAt
  let fast := (List.range 8).map fun j =>
    let x := (s.fio f).fast.getD j {}
    if lost then { x.settle (s.glitchNs f j) s.time.mono with edges := [] } else s.fastEdges f j at_ x
  let fast := s.latchFast f fast
  let due := (s.fio f).sampleDue && !lost
  let s := s.modField f fun x =>
    { x with ldi := x.di, rb, fast, sampleDue := false, inAt := s.time.mono, goodAt := since x.goodAt lost s.time.mono }
  if due then (s.setSat (6 + f) { s.sat (6 + f) with latched := s.fieldInput f }).satSend (6 + f) 0x01 (s.fieldInput f) else s

/-- R309, R317. No IN was taken for the latch: no INPUT goes out, and its interval of edges cannot be accounted for (DEDUCED, log 174). -/
def State.noLatch (s : State) (f : Nat) : State :=
  s.modField f fun x =>
    { x with sampleDue := false, goodAt := none
             fast := (List.range 8).map fun j => let y := x.fast.getD j {}; if s.fastN f j 0 1 0 = 0 then y else y.lose }

/-- R305, R317, R319. The latch: IN in mode S, the logic side's own latch in mode C. VI is measured with it (R302). -/
def execInItem (f : Fio) (rx : Rx) (vi : BitVec 16) (rb : BitVec 16) (s : State) : Out :=
  .next (
    if !s.fioRuns f then s
    else if s.modeC f then (s.takeVi f vi.toNat).fieldLatch f rb.toNat
    else if (s.fio f).stopped then s.modField f fun x => { x with sampleDue := false, goodAt := none }
    else
      let s := (s.takeVi f vi.toNat).modField f fun x => { x with inTx := (x.inTx + 1) % 256 }
      if rx ≠ .ok then (s.badItem f).noLatch f
      else
        let (s, ok) := s.seqItem f (s.fio f).inRx (s.fio f).inTx
        let s := s.modField f fun x => { x with inRx := x.inTx }
        if ok then s.fieldLatch f rb.toNat else s.noLatch f)

/-- R318, R320. The logic side loses the crossing. -/
def State.loseCrossing (s : State) (f : Nat) : State :=
  if s.fbit (Reg.FIO_STAT_XLOSS f) then s
  else
    let s := (s.fon (Reg.FIO_STAT_XLOSS f)).fon (Reg.FIO_FLAGS_XLOSS_SEEN f)
    (s.modField f fun x => { x with fast := x.fast.map Fast.lose }).fieldEvent f 3 0x1F

/-- R308, R318. The crossing is regained: t_since of every fast input counts from here. -/
def State.regainCrossing (s : State) (f : Nat) : State :=
  if !s.fbit (Reg.FIO_STAT_XLOSS f) then s
  else
    let s := s.fset (Reg.FIO_STAT_XLOSS f) 0
    s.modField f fun x => { x with goodAt := none, fast := x.fast.map fun y => { y with sinceAt := s.time.mono, edge := false, edges := [] } }

/-- R318. 100 µs after the last valid item of its side the crossing is lost there; time moves to that instant. -/
def execXloss (f : Fio) (field : Bool) (s : State) : Out :=
  .next (
    if !s.fioOn f || s.modeC f then s
    else if field then (s.toMono ((s.fio f).applyTickAt + 100000)).modField f fun x => { x with fieldLoss := true }
    else if s.fbit (Reg.FIO_STAT_XLOSS f) then s
    else (s.toMono ((s.fio f).inAt + 100000)).loseCrossing f)

/-- R318. Valid IN items have again arrived for 100 µs. -/
def execCrossingRestore (f : Fio) (s : State) : Out :=
  .next (
    if s.modeC f || s.mode == mPark || !s.fbit (Reg.FIO_STAT_XLOSS f) then s
    else s.expire (s.fio f).goodAt 100000 fun s => s.regainCrossing f)

/-- R320. -/
def execHeartbeatLoss (f : Fio) (field : Bool) (s : State) : Out :=
  .next (
    if !s.fioOn f || !s.modeC f then s
    else if field then s.modField f fun x => { x with hbLost := true } else s.loseCrossing f)

/-- R302, R320. The heartbeats are received again; the field side sends none while `VI_LOW` is set. -/
def execHeartbeatRestore (f : Fio) (s : State) : Out :=
  .next (
    if !s.modeC f || (s.fio f).stopped || s.mode == mPark then s
    else
      let s := s.modField f fun x => { x with hbLost := false }
      if (s.fio f).viLow then s else s.regainCrossing f)

/-! ### Silence, modes, release -/

/-- R321, R322. The timer does not run while `STBY` or `FIO_REL` holds the outputs, before a first applied COMMIT, nor after a
restart without a set (R302). -/
def execFioSilence (f : Fio) (s : State) : Out :=
  let x := s.fio f
  .next (
    if !s.fioOn f || x.safeAct || !x.everApply || !x.hasSet || x.stopped || s.fbit (Reg.FIO_MODE_STBY f) ||
        s.fbit (Reg.FIO_STAT_RELEASED f) then s
    else
      let s := s.toMono (x.applyAt + s.fget (Reg.FIO_SILENCE_SILENCE_MS f) * 1000000)
      let s := (s.modField f fun x => { x with safeAct := true }).fon (Reg.FIO_FLAGS_SAFE_SEEN f)
      (s.fsat (Reg.FIO_SILENCE_SAFE_COUNT f)).fieldEvent f 4 0x1F)

/-- R323. -/
def State.setFioStby (s : State) (f : Nat) (b : Bool) : State :=
  ((s.fput (Reg.FIO_MODE_STBY f) b).fput (Reg.FIO_STAT_STBY f) b).fieldView f

/-- R323. -/
def execFioModeWrite (f : Fio) (stby : Bool) (s : State) : Out :=
  .next (if s.present (6 + f) then s.setFioStby f stby else s)

/-- R324. `FIO_REL` is asserted. -/
def State.assertFioRel (s : State) (f : Nat) : State :=
  if s.fbit (Reg.FIO_STAT_RELEASED f) || !s.present (6 + f) then s
  else
    let s := (s.fon (Reg.FIO_STAT_RELEASED f)).fon (Reg.FIO_FLAGS_RELEASE_SEEN f)
    (s.modField f fun x => { x with relWait := true }).fieldEvent f 6 0x1F

/-- R324. `FIO_REL` is negated: the outputs stay off until a COMMIT or RESYNC is applied. -/
def State.negateFioRel (s : State) (f : Nat) : State := (s.fset (Reg.FIO_STAT_RELEASED f) 0).fieldView f

/-- R306. The merged `EDGE` frame of input `c`. -/
def execFieldEventFlush (f : Fio) (c : Fin 32) (s : State) : Out :=
  .next (
    match (s.fio f).evPend.find? fun p => p.1 == c.val with
    | some (_, level, t) =>
      if s.linkIsUp (6 + f) then (s.toMono (mget 0 (s.fio f).evAt c - 1 + 25000)).sendEdge f c level t else s
    | none => s)

end Sys2Proof.Machine
end

