-- ==== Sys2Proof/Machine/LoadOps.lean ====
section
/-! DEFINITION. Load channels: records 0x05xx as loaded into the die, measurements, registers and input block (Tables 10.12,
10.15), events (R297), and the state machine of Table 10.3. -/

namespace Sys2Proof.Machine

/-- Table 10.2. -/
abbrev lOff : Nat := 0
abbrev lOn : Nat := 1
abbrev lInrush : Nat := 2
abbrev lDeferred : Nat := 3
abbrev lDipOff : Nat := 4
abbrev lThermal : Nat := 5
abbrev lTripped : Nat := 6
abbrev lReleased : Nat := 7
abbrev lSlave : Nat := 8
abbrev lStandbyOff : Nat := 9
abbrev lUnused : Nat := 0xFF

/-- Table 10.13. -/
abbrev qShort : Nat := 1
abbrev qWire : Nat := 2
abbrev qDt : Nat := 3
abbrev qTj : Nat := 4
abbrev qReverse : Nat := 5
abbrev qFwMissing : Nat := 6
abbrev qClampOver : Nat := 7
abbrev qInrushLong : Nat := 8
abbrev qDipNoRestore : Nat := 9
abbrev qPairImbalance : Nat := 10
abbrev qRelease : Nat := 11

/-- Table 10.14. -/
abbrev wTrip : Nat := 1
abbrev wThermal : Nat := 2
abbrev wRestart : Nat := 3
abbrev wDiag : Nat := 4
abbrev wBand : Nat := 5
abbrev wRelease : Nat := 6

/-- Slot and die index of load channel `x`. -/
def ldSlot (x : Nat) : Nat := 4 + x / 12

/-- The channel. -/
def State.load (s : State) (x : Nat) : Load := mget {} s.loads x

/-- Table 10.16. A field of the record of channel `x`. -/
def State.ldN (s : State) (x off n d : Nat) : Nat := s.dieN (ldSlot x) 0x0501 x off n d

/-- Table 10.17. A field of the die's record. -/
def State.ldDieN (s : State) (x off n d : Nat) : Nat := s.dieN (ldSlot x) 0x0502 (x / 12) off n d

/-- R271. 0 single, 1 lower half, 2 upper half. -/
def State.pair (s : State) (x : Nat) : Nat := s.ldN x 10 1 0

/-- R271. The channel whose state machine serves `x`: the lower half of a pair. -/
def State.lowerOf (s : State) (x : Nat) : Nat := if s.pair x = 2 then x - 1 else x

/-- R270. Local channels 0 to 3 are heavy. -/
def heavy (x : Nat) : Bool := decide (x % 12 < 4)

/-- R272, R294. The applied `ON` bit; a pair takes that of its lower channel. -/
def State.ldOn (s : State) (x : Nat) : Bool := bit (mget 0 (s.sat (ldSlot x)).applied (s.lowerOf x % 12)).toNat 0

/-- Table 10.8. -/
def State.band (s : State) (x : Nat) : Nat := s.fget (Reg.LSW_STAT_BAND (x / 12))

/-- R272. The die is powered and configured, and the channel has a record. -/
def State.ldUsed (s : State) (x : Nat) : Bool :=
  s.present (ldSlot x) && s.fbit (Reg.LSW_STAT_CONFIGURED (x / 12)) && (s.dieRec (ldSlot x) 0x0501 x).isSome

/-! ### Values of a record -/

/-- I_R in mA. -/
def State.iR (s : State) (x : Nat) : Nat := s.ldN x 2 2 0 * 10

/-- Table 10.5. I_W in mA and τ in s. -/
def iW (w : Nat) : Nat := ([5000, 6500, 8000, 11000, 15000, 20000] : List Nat).getD w 5000
def tauW (w : Nat) : Nat := ([10, 13, 16, 22, 34, 50] : List Nat).getD w 10

/-- Table 10.7. -/
def typeInrush (t : Nat) : Nat := ([0, 100, 20, 10, 300, 0, 50] : List Nat).getD t 0
def typeLow (t : Nat) : Bool := t == 2
def typeDip (t : Nat) : Bool := !(t == 3 || t == 4)

/-- `INRUSH_MS` in ns. -/
def State.inrushNs (s : State) (x : Nat) : Nat :=
  let v := s.ldN x 4 2 0xFFFF
  (if v = 0xFFFF then typeInrush (s.ldN x 0 1 0) else v) * 1000000

/-- The low sense range is selected. -/
def State.lowRange (s : State) (x : Nat) : Bool :=
  let v := s.ldN x 8 1 0xFF
  if v = 0xFF then typeLow (s.ldN x 0 1 0) else v == 1

/-- `LFLAGS` bit `i`: 1 `SAFE_OFF`, 2 `FW_EXT`, 3 `SHARED`, 4 `OFF_DIAG`. -/
def State.lflag (s : State) (x i : Nat) : Bool := bit (s.ldN x 9 1 0x30) i

/-- `DIP_RESTORE`, from the type where `DIP_DEFAULT` is set. -/
def State.dipRestore (s : State) (x : Nat) : Bool :=
  if s.lflag x 5 then typeDip (s.ldN x 0 1 0) else s.lflag x 0

/-- R277. The trip level of Q: (1.2 × I_R / I_W)². -/
def State.tripLevel (s : State) (x : Nat) : Rat :=
  let r : Rat := (12 * s.iR x : Nat) / (10 * iW (s.ldN x 1 1 0) : Nat)
  r * r

/-- R278. Q at power-up: (I_R / I_W)². -/
def State.qStart (s : State) (x : Nat) : Rat :=
  let r : Rat := (s.iR x : Nat) / (iW (s.ldN x 1 1 0) : Nat)
  r * r

/-! ### Measurements of a channel or pair -/

/-- The halves of the channel: itself, or both halves of a pair. -/
def State.halves (s : State) (x : Nat) : List Nat := if s.pair x = 1 then [x, x + 1] else [x]

/-- R271. The current of the channel in µA, or the sum of a pair. -/
def State.ldUa (s : State) (x : Nat) : Int := ((s.halves x).map fun h => (s.load h).ua).sum

/-- R271. Either half. -/
def State.ldAny (s : State) (x : Nat) (p : Load → Bool) : Bool := (s.halves x).any fun h => p (s.load h)

/-- R286. Mean current of the last 1 ms in µA. -/
def State.ldMean (s : State) (x : Nat) : Int :=
  ((s.halves x).map fun h => let l := (s.load h).hist; if l.isEmpty then 0 else l.sum / (l.length : Nat)).sum

/-- R286. Full scale in µA. -/
def State.fullScale (s : State) (x : Nat) : Nat :=
  1000 * (if s.lowRange x then 250 else if s.pair x = 1 then (if heavy x then 24000 else 9000) else if heavy x then 12000 else 4500)

/-- R286. The 12-bit code. -/
def State.senseCode (s : State) (x : Nat) : Nat :=
  let l := s.load x
  if l.state = lUnused ∨ l.state = lSlave then 0
  else if l.state = lTripped ∨ s.ldAny x (·.senseBad) then 0xFFF
  else
    let code := (s.ldMean x).toNat * 4096 / s.fullScale x
    if l.state = lInrush then min code 0xFFD
    else if 0xFFD < code ∨ s.ldAny x (·.limit) then 0xFFE else code

/-! ### Registers and input block -/

/-- Table 10.12. `DIAG`. -/
def Load.diag (l : Load) : Nat :=
  b2n l.openOn + 2 * b2n l.openOff + 4 * b2n l.shortVf + 8 * b2n l.reverse + 16 * b2n l.peerDriven + 32 * b2n l.rearmWait +
    64 * b2n l.bandWait + 128 * b2n l.winExt

/-- R284. Remaining inrush window in ms. -/
def State.winLeft (s : State) (x : Nat) : Nat :=
  match (s.load x).winEnd with
  | some e => (e - s.time.mono + 999999) / 1000000
  | none => 0

/-- Table 10.15. The registers of channel `x` show its state. -/
def State.loadView (s : State) (x : Nat) : State :=
  let l := s.load x
  let n := x / 12
  let c := x % 12
  let code := s.senseCode x
  let tl := s.tripLevel x
  let s := s.fset (Reg.LSW_CH_STAT_STATE n c) l.state
  let s := s.fset (Reg.LSW_CH_STAT_CAUSE n c) l.cause
  let s := s.fset (Reg.LSW_CH_STAT_DIAG n c) l.diag
  let s := s.fset (Reg.LSW_CH_STAT_DT_K n c) (min 255 l.dt)
  let s := s.fset (Reg.LSW_CH_SENSE_CODE n c) code
  let s := s.fset (Reg.LSW_CH_SENSE_LOW n c) (b2n (l.state != lUnused && s.lowRange x))
  let s := s.fset (Reg.LSW_CH_MODEL_Q_FRAC n c) (if tl > 0 then min 65535 (l.q / tl * 32768).floor.toNat else 0)
  let s := s.fset (Reg.LSW_CH_MODEL_TJ n c) l.tj
  let s := s.fmax (Reg.LSW_CH_PEAK_PEAK n c) code
  s.fset (Reg.LSW_CH_WIN_WIN_LEFT_MS n c) (s.winLeft x)

/-- Sets a channel and its registers. -/
def State.setLoad (s : State) (x : Nat) (l : Load) : State := ({ s with loads := mset {} s.loads x l }).loadView x

/-- Updates a channel. -/
def State.modLoad (s : State) (x : Nat) (f : Load → Load) : State := s.setLoad x (f (s.load x))

/-- Table 10.12. The 8 bytes of a channel. -/
def State.loadBlock (s : State) (x : Nat) : List Byte :=
  let l := s.load x
  let tl := s.tripLevel x
  leBytes 1 l.state ++ leBytes 1 l.cause ++ leBytes 2 (s.senseCode x + 4096 * b2n (l.state != lUnused && s.lowRange x)) ++
    leBytes 1 (if tl > 0 then min 255 (l.q / tl * 100).floor.toNat else 0) ++ leBytes 1 (min 255 l.dt) ++ leBytes 1 l.diag ++
    leBytes 1 l.tj

/-- Table 10.12. The input block of load die `n`, 104 bytes. -/
def State.loadInput (s : State) (n : Nat) : List Byte :=
  leBytes 2 (s.fget (Reg.LSW_VF_VF n)) ++ leBytes 1 (s.fget (Reg.LSW_STAT_BAND n)) ++ leBytes 1 (s.fget (Reg.LSW_TEMP_CASE_T n)) ++
    leBytes 2 (mget {} s.ldies n).evCount ++ [0, 0] ++ ((List.range 12).map fun c => s.loadBlock (12 * n + c)).flatten

/-! ### Events -/

/-- R297. Sends an EVENT frame of load die `n`: event and local channel `c` (0xF: die-wide). A die-wide event carries the band in the place
of `STATE` (DESIGN CHOICE, log 170). -/
def State.sendLoadEvent (s : State) (n c ev : Nat) : State :=
  let x := 12 * n + c
  let body := if c = 15 then leBytes 4 (s.fget (Reg.LSW_STAT_BAND n)) else leBytes 1 (s.load x).state ++ leBytes 1 (s.load x).cause ++ leBytes 2 (s.senseCode x)
  let ld := mget {} s.ldies n
  let s := { s with ldies := mset {} s.ldies n { ld with evCount := (ld.evCount + 1) % 65536 } }
  let s := s.satSend (4 + n) 0x09 (leBytes 2 (ev + c * 256) ++ body ++ leBytes 2 (s.fget (Reg.LSW_VF_VF n)))
  if c = 15 then s else s.modLoad x fun l => { l with evAt := some s.time.mono, evPend := none }

/-- R297. A channel's event: at most one frame per 250 µs, later events are merged. -/
def State.loadEvent (s : State) (x ev : Nat) : State :=
  let s := s.modLoad x fun l => { l with evPend := some ev }
  let free := match (s.load x).evAt with | none => true | some t => decide (t + 250000 ≤ s.time.mono)
  if s.linkIsUp (ldSlot x) && free then s.sendLoadEvent (x / 12) (x % 12) ev else s

/-- R297. A die-wide event. -/
def State.dieEvent (s : State) (n ev : Nat) : State :=
  if s.linkIsUp (4 + n) then s.sendLoadEvent n 15 ev
  else
    let ld := mget {} s.ldies n
    { s with ldies := mset {} s.ldies n { ld with evHeld := (ld.evHeld.filter (· != ev)) ++ [ev] } }

/-- R297. The `DIAG` bits after a change: event `DIAG` where one of bits 3 to 0 rose, and the sticky bits. -/
def State.loadDiag (s : State) (x : Nat) (f : Load → Load) : State :=
  let old := (s.load x).diag
  let s := s.modLoad x f
  let rose := fieldOf ((s.load x).diag) 0 4 &&& (15 - fieldOf old 0 4)
  let fld := Reg.LSW_CH_FLT_DIAGS (x / 12) (x % 12)
  if rose = 0 then s else (s.fset fld (s.fget fld ||| rose)).loadEvent x wDiag

/-! ### State changes -/

/-- The output is on. -/
def Load.isOn (l : Load) : Bool := l.state == lOn || l.state == lInrush

/-- Sticky bit of a cause. -/
def State.loadCause (s : State) (x cause : Nat) : State :=
  if cause = 0 then s
  else
    let fld := Reg.LSW_CH_FLT_CAUSES (x / 12) (x % 12)
    s.fset fld (s.fget fld ||| 2 ^ (cause - 1))

/-- The channel takes state `st` and shows cause `cause`; turning off is noted, and starts the period of the off-state check
(DEDUCED, log 171). The trip latch outlasts `RELEASED` (R292) and `STANDBY_OFF` (R274). -/
def State.loadTo (s : State) (x st cause : Nat) : State :=
  s.modLoad x fun l =>
    let off := l.isOn && st != lOn && st != lInrush
    { l with
      state := st, cause, offAt := if off then s.time.mono else l.offAt, chkAt := if off then s.time.mono else l.chkAt
      limAt := none, revAt := none, openAt := none, slotAt := if st = lDipOff ∨ st = lDeferred then l.slotAt else none
      rearmWait := if st = lDeferred then l.rearmWait else false
      bandWait := if st = lDeferred then l.bandWait else false
      restart := if st = lDeferred ∨ st = lDipOff then l.restart || l.state == lThermal else false
      winEnd := if st = lOn ∨ st = lOff ∨ st = lTripped then none else l.winEnd
      winExt := if st = lInrush then l.winExt else false
      latch := if st = lTripped then some cause else if st = lReleased ∨ st = lStandbyOff then l.latch else none }

/-- Table 10.4, R297. Entry to `TRIPPED`, which starts the re-arm timer. -/
def State.enterTripped (s : State) (x cause : Nat) : State :=
  let s := (s.loadTo x lTripped cause).modLoad x fun l => { l with tripAt := some s.time.mono }
  let s := (s.fsat (Reg.LSW_CH_CNT_TRIPS (x / 12) (x % 12))).fon (Reg.LSW_FLAGS_TRIP_SEEN (x / 12))
  s.loadEvent x wTrip

/-- R273. The cause occurs, and the channel trips with it. -/
def State.trip (s : State) (x cause : Nat) : State := (s.loadCause x cause).enterTripped x cause

/-- R283. A turn-on with a fresh inrush window. -/
def State.turnOn (s : State) (x : Nat) : State :=
  let w := s.inrushNs x
  let now := s.time.mono
  (s.loadTo x (if w = 0 then lOn else lInrush) 0).modLoad x fun l =>
    { l with winStart := now, winEnd := if w = 0 then none else some (now + w), winExt := false, tripAt := none,
             rearmWait := false, bandWait := false }

/-- R284. A turn-on under R280 or R290: within the window it is extended by the time off, to 2 × `INRUSH_MS` at most. -/
def State.turnOnAgain (s : State) (x : Nat) : State :=
  let l := s.load x
  let now := s.time.mono
  match l.winEnd with
  | some e =>
    if l.offAt < e then
      let e' := min (e + (now - l.offAt)) (l.winStart + 2 * s.inrushNs x)
      if now < e' then
        (s.loadTo x lInrush 0).modLoad x fun l => { l with winEnd := some e', winExt := true }
      else s.turnOn x
    else s.turnOn x
  | none => s.turnOn x

/-- R280. A turn-on that is a thermal restart counts and raises `RESTART`, when it is taken. -/
def State.restarted (s : State) (x : Nat) (thermal : Bool) : State :=
  if thermal then (s.fsat (Reg.LSW_CH_CNT_RESTARTS (x / 12) (x % 12))).loadEvent x wRestart else s

/-- R274. Re-arm conditions: `REARM_MS` since the trip, and the wire model below half its trip level. -/
def State.rearmed (s : State) (x : Nat) : Bool :=
  match (s.load x).tripAt with
  | none => true
  | some t => decide (t + s.ldN x 16 2 1000 * 1000000 ≤ s.time.mono) && decide (2 * (s.load x).q < s.tripLevel x)

/-- Table 10.3. The `OFF` rows for the applied `ON`. -/
def State.offRows (s : State) (x : Nat) : State :=
  if !s.ldOn x then (if (s.load x).state = lOff then s else s.loadTo x lOff 0)
  else if s.band x = 3 then s.loadTo x lDipOff 0
  else if s.rearmed x ∧ s.band x < 2 then s.turnOn x
  else
    let rw := !s.rearmed x
    let bw := decide (s.band x = 2)
    (s.loadTo x lDeferred 0).modLoad x fun l => { l with rearmWait := rw, bandWait := bw }

/-- Table 10.3, R280. A deferred channel whose waits have cleared turns on; a thermal restart goes on in its window (R284). -/
def State.deferredRow (s : State) (x : Nat) : State :=
  let l := s.load x
  let rw := l.rearmWait && !s.rearmed x
  let bw := l.bandWait || decide (s.band x = 2)
  if rw || bw then s.modLoad x fun l => { l with rearmWait := rw, bandWait := bw }
  else if l.restart then (s.turnOnAgain x).restarted x true
  else s.turnOn x

/-- R292. `LSW_REL` is asserted on the die of channel `x`. -/
def State.lswRel (s : State) (x : Nat) : Bool := s.fbit (Reg.LSW_STAT_RELEASED (x / 12))

/-- R293. `STBY` is set on the die of channel `x`. -/
def State.stby (s : State) (x : Nat) : Bool := s.fbit (Reg.LSW_MODE_STBY (x / 12))

/-- R292. The channel is released. -/
def State.releaseCh (s : State) (x : Nat) : State :=
  (s.loadTo x lReleased ((s.load x).latch.getD qRelease)).loadCause x qRelease

/-- R274, R292. A channel that leaves `RELEASED` or `STANDBY_OFF`: a latched one returns to `TRIPPED` where the applied `ON` is 1. -/
def State.backFrom (s : State) (x : Nat) : State :=
  match (s.load x).latch with
  | some c => if s.ldOn x then s.enterTripped x c else s.loadTo x lOff 0
  | none => s.offRows x

/-- R293. The channel is off while `STBY` is set; the applied `ON` = 0 ends its trip latch (R274). -/
def State.standOff (s : State) (x : Nat) : State :=
  let s := if (s.load x).state = lStandbyOff then s else s.loadTo x lStandbyOff ((s.load x).latch.getD 0)
  if !s.ldOn x && (s.load x).latch.isSome then s.modLoad x fun l => { l with latch := none, cause := 0 } else s

/-- R292, R293. The first COMMIT or RESYNC applied after negation; with `STBY` set the channel stays off (DEDUCED, log 172). -/
def State.unrelease (s : State) (x : Nat) : State := if s.stby x then s.standOff x else s.backFrom x

/-- R281. Reverse conduction in the present state. -/
def State.inReverse (s : State) (x : Nat) : Bool :=
  if (s.load x).isOn then decide (s.ldUa x < 0)
  else s.ldAny x fun h => decide ((s.fget (Reg.LSW_VF_VF (x / 12)) : Int) + 30 < h.out)

/-- R273. The causes whose conditions hold for a channel that is on, in the order of Table 10.3. -/
def State.heldCauses (s : State) (x : Nat) : List Nat :=
  let l := s.load x
  let now := s.time.mono
  let c (b : Bool) (q : Nat) : List Nat := if b then [q] else []
  if !l.isOn then []
  else
    c (ranFor l.limAt 50001 now) qShort ++ c (s.ldAny x fun h => decide (60 ≤ h.dt)) qDt ++
      c (s.ldAny x fun h => decide (215 ≤ h.tj)) qTj ++ c (decide (s.tripLevel x ≤ l.q)) qWire ++ c (ranFor l.revAt 1000000 now) qReverse ++
      c (l.state == lInrush && decide (l.winEnd.getD 0 ≤ now) && s.ldAny x (·.limit)) qInrushLong

/-- Table 10.3, R273. The first row that applies to channel `x` (the lower half of a pair), given the causes that hold. -/
def State.firstRow (s : State) (x : Nat) (held : List Nat) : State :=
  let l := s.load x
  let on := l.isOn
  if l.state = lUnused ∨ l.state = lSlave then s
  else if s.lswRel x then (if l.state = lReleased then s else s.releaseCh x)
  else if s.stby x && l.state != lReleased then s.standOff x
  else if (on ∨ l.state = lDeferred) ∧ s.band x = 3 then
    (if l.state = lOn ∧ s.ldAny x (·.limit) then s.trip x qShort else s.loadTo x lDipOff 0)
  else
    match held with
    | c :: _ => if c = qDt ∨ c = qTj then (((s.loadCause x c).loadTo x lThermal c).loadEvent x wThermal) else s.trip x c
    | [] =>
      if l.state = lInrush ∧ l.winEnd.getD 0 ≤ s.time.mono then s.loadTo x lOn 0
      else if l.state = lOff then (if s.ldOn x then s.offRows x else s)
      else if l.state = lDeferred ∧ s.ldOn x then (if l.slotAt.isSome then s else s.deferredRow x)
      else if l.state = lThermal ∧ s.ldOn x ∧ !(s.ldAny x fun h => decide (40 ≤ h.dt) || decide (190 ≤ h.tj)) then
        if s.band x < 2 then (s.turnOnAgain x).restarted x true
        else if s.band x = 2 then (s.loadTo x lDeferred 0).modLoad x fun l => { l with bandWait := true }
        else s.loadTo x lDipOff 0
      else if (l.state ∈ [lDeferred, lDipOff, lThermal, lTripped] ∨ on) ∧ !s.ldOn x then s.loadTo x lOff 0
      else if l.state = lStandbyOff then s.backFrom x
      else s

/-- R273. One evaluation: the first row sets state and cause; the other conditions that hold as the channel turns off are kept in
`CH_FLT`. -/
def State.loadRows (s : State) (x : Nat) : State :=
  let held := s.heldCauses x
  let s := s.firstRow x held
  if (s.load x).isOn then s else held.foldl (fun s c => s.loadCause x c) s

/-- R294. Load die `n` has applied a COMMIT or RESYNC. -/
def State.loadApply (s : State) (n : Nat) : State :=
  s.each ((List.range 12).map (12 * n + ·)) fun s x =>
    if (s.load x).state = lReleased ∧ !s.lswRel x then s.unrelease x else s.loadRows x

/-- R66, R278, R293. A load die has been configured: every channel is off; Q starts at power-up (`cold`) or where the wire
class has changed. -/
def State.loadConfigured (s : State) (n : Nat) (cold : Bool) (oldWire : Nat → Option Nat) : State :=
  s.each ((List.range 12).map (12 * n + ·)) fun s x =>
    let used := (s.dieRec (ldSlot x) 0x0501 x).isSome
    let keep := !cold && oldWire x == some (s.ldN x 1 1 0)
    let l := s.load x
    s.setLoad x
      { state := if !used then lUnused else if s.lswRel x then lReleased else if s.pair x = 2 then lSlave else lOff
        ua := l.ua, dt := l.dt, tj := l.tj, out := l.out, senseBad := l.senseBad
        q := if !used then 0 else if keep then l.q else s.qStart x
        offAt := s.time.mono, chkAt := s.time.mono }

end Sys2Proof.Machine
end

