-- ==== Sys2Proof/Machine/LoadCmds.lean ====
section
/-! DEFINITION. The commands of the load dies (chapter 10). -/

namespace Sys2Proof.Machine

/-- R293. -/
def State.setStby (s : State) (n : Nat) (b : Bool) : State :=
  let s := (s.fput (Reg.LSW_MODE_STBY n) b).fput (Reg.LSW_STAT_STBY n) b
  s.each ((List.range 12).map (12 * n + ·)) fun s x => s.loadRows x

/-- R293. -/
def execLswModeWrite (d : Lsw) (stby : Bool) (s : State) : Out :=
  .next (if s.present (4 + d) then s.setStby d stby else s)

/-- R282. The channel trips by the clamp check; off in `RELEASED` or `STANDBY_OFF`, it is latched there. -/
def State.clampTrip (s : State) (y c : Nat) : State :=
  let st := (s.load y).state
  if st = lTripped then s.loadCause y c
  else if st = lReleased ∨ st = lStandbyOff then (s.loadCause y c).modLoad y fun l => { l with latch := some c, cause := c }
  else s.trip y c

/-- R282. The checks of an ended turn-off of `x`, whose channel is `y`: clamp energy and free-wheel path. -/
def State.clampCheck (s : State) (x y : Nat) (ended : Option (Nat × Bool)) : State :=
  match ended with
  | none => s
  | some (uj, fw) =>
    let ext := s.lflag y 2
    let n := if ext ∧ fw then (s.load x).fwCount + 1 else 0
    let s := s.modLoad x fun l => { l with fwCount := n }
    if (if heavy x then 60000 else 20000) < uj then s.clampTrip y qClampOver
    else if ext ∧ s.ldDieN y 2 1 3 ≤ n then s.clampTrip y qFwMissing else s

/-- Table 10.8. The lower limit of a band in 10 mV, and its return level with its time in ns. -/
def bandLow (b : Nat) : Nat := ([1680, 900, 600] : List Nat).getD b 0
def bandReturn : Nat → Nat × Nat
  | 0 => (1730, 1000000) | 1 => (900, 10000000) | _ => (650, 1000000)

/-- R289. The timer of the return to the band above, for the measured VF. -/
def State.riseWatch (s : State) (n : Nat) : State :=
  let b := s.fget (Reg.LSW_STAT_BAND n)
  let ld := mget {} s.ldies n
  let up := b != 0 && decide ((bandReturn (b - 1)).1 ≤ s.fget (Reg.LSW_VF_VF n))
  { s with ldies := mset {} s.ldies n { ld with riseAt := since ld.riseAt up s.time.mono } }

/-- R289, R298. A measurement of VF: its registers and the timers of the bands. -/
def State.takeVf (s : State) (n vf : Nat) : State :=
  let s := s.fset (Reg.LSW_VF_VF n) vf
  let s := s.fset (Reg.LSW_VFMIN_VF_MIN n) (min (s.fget (Reg.LSW_VFMIN_VF_MIN n)) vf)
  let ld := mget {} s.ldies n
  let low := (List.range 3).map fun b => since (ld.lowAt.getD b none) (decide (vf < bandLow b)) s.time.mono
  ({ s with ldies := mset {} s.ldies n { ld with lowAt := low } }).riseWatch n

/-- R273, R280, R281, R286, R287, R289. The measurements of one 10 µs instant, then the rows of Table 10.3. -/
def execLoadEval (x : LCh) (vf : BitVec 16) (ua : Int) (temps : Byte × Byte) (out : Int) (limit bad : Bool) (ended : Option (Nat × Bool))
    (s : State) : Out :=
  let (dt, tj) := temps
  let s := if s.present (ldSlot x) then s.takeVf (x / 12) vf.toNat else s
  .next (
    if !s.ldUsed x then s
    else
      let s := s.modLoad x fun l =>
        { l with ua, dt := dt.toNat, tj := tj.toNat, out, limit, senseBad := bad
                 hist := (max ua 0 :: l.hist).take 100, qSum := l.qSum + ua, qN := l.qN + 1 }
      let s := s.fset (Reg.LSW_TEMP_CASE_T (x / 12)) (tj.toNat - dt.toNat)
      let y := s.lowerOf x
      let now := s.time.mono
      let l := s.load y
      let sum := s.ldUa y
      let rev := l.isOn && decide (sum < 0) && decide ((s.iR y * 1000 : Nat) < 10 * (-sum))
      let low := decide (s.ldMean y < (s.ldN y 12 2 0 * 1000 : Nat))
      let watch := l.state == lOn && decide (s.band y = 0) && s.ldN y 12 2 0 != 0
      let iN : Nat := if heavy y then 16000000 else 6000000
      let s := s.modLoad y fun l =>
        { l with limAt := since l.limAt (l.state == lOn && s.ldAny y (·.limit)) now
                 revAt := since l.revAt rev now
                 openAt := since l.openAt (watch && low) now
                 pairAt := since l.pairAt (s.pair y == 1 && !l.pairDone && decide ((iN : Int) < 5 * sum)) now }
      let s := s.loadDiag y fun l =>
        { l with reverse := s.inReverse y, openOn := if watch && !low then false else l.openOn }
      (s.clampCheck x y ended).loadRows y)

/-- R279. -/
def execLoadShort (x : LCh) (s : State) : Out :=
  let y := s.lowerOf x
  .next (if (s.load y).state = lOn then s.expire (s.load y).limAt 50001 fun s => s.trip y qShort else s)

/-- R277. The 100 µs update of Q from the mean current; in every state. -/
def execWireModel (x : LCh) (s : State) : Out :=
  .next (
    if !s.ldUsed x || s.pair x == 2 then s
    else
      let mean : Rat := ((s.halves x).map fun h => let l := s.load h; if l.qN = 0 then (l.ua : Rat) else (l.qSum : Rat) / l.qN).sum
      let w := s.ldN x 1 1 0
      let r := mean / (1000 * iW w : Nat)
      let s := s.each (s.halves x) fun s h => s.modLoad h fun l => { l with qSum := 0, qN := 0 }
      let s := s.modLoad x fun l => { l with q := l.q + (r * r - l.q) / (10000 * tauW w : Nat) }
      if (s.load x).isOn ∧ s.tripLevel x ≤ (s.load x).q then s.trip x qWire else s)

/-- R281. -/
def execLoadReverse (x : LCh) (s : State) : Out :=
  let y := s.lowerOf x
  .next (if (s.load y).isOn then s.expire (s.load y).revAt 1000000 fun s => s.trip y qReverse else s)

/-- R283. -/
def execInrushEnd (x : LCh) (regulating : Bool) (s : State) : Out :=
  let y := s.lowerOf x
  .next (
    if (s.load y).state ≠ lInrush then s
    else s.expire (s.load y).winEnd 0 fun s =>
      let s := s.modLoad y fun l => { l with limit := regulating }
      if regulating then s.trip y qInrushLong else s.loadTo y lOn 0)

/-- R274. -/
def execRearm (x : LCh) (s : State) : Out :=
  .next (
    if (s.load x).state = lDeferred ∧ (s.load x).rearmWait then
      s.expire (s.load x).tripAt (s.ldN x 16 2 1000 * 1000000) fun s => s.deferredRow x
    else s)

/-- R287. -/
def execOpenOn (x : LCh) (s : State) : Out :=
  .next (s.expire (s.load x).openAt (s.ldN x 14 2 100 * 1000000) fun s => s.loadDiag x fun l => { l with openOn := true })

/-- R288, Table 10.4. The check of the period `OFF_DIAG_MS`, with the output in 10 mV without and with the source; time moves to its instant.
Where it is suspended the period still passes. -/
def execOffStateCheck (x : LCh) (out1 out2 : Int) (s : State) : Out :=
  .next (
    if !s.ldUsed x || s.pair x == 2 || (s.load x).isOn || !s.lflag x 4 then s
    else
      let s := s.toMono (s.nextTick (s.load x).chkAt (s.ldDieN x 0 2 100 * 1000000))
      let s := s.modLoad x fun l => { l with chkAt := s.time.mono }
      if s.band x != 0 || decide (s.time.mono < (s.load x).offAt + 100000000) then s
      else
        let shared := s.lflag x 3
        let high := decide (400 < out1)
        let opn := !shared && !high && decide (400 < out2)
        s.loadDiag x fun l =>
          { l with chkHigh := high, chkOpen := opn
                   shortVf := if high = l.chkHigh then high && !shared else l.shortVf
                   peerDriven := if high = l.chkHigh then high && shared else l.peerDriven
                   openOff := if opn = l.chkOpen then opn else l.openOff })

/-- R289. The band changes to `b`; the timer of the next return counts from this entry. -/
def State.setBand (s : State) (n b : Nat) : State :=
  let s := s.fset (Reg.LSW_STAT_BAND n) b
  let ld : LoadDie := mget {} s.ldies n
  let s := { s with ldies := mset {} s.ldies n { ld with riseAt := none } }
  (s.riseWatch n).dieEvent n wBand

/-- R289, R290. The earliest of the running 50 µs timers of the present band's limit and the lower ones expires; the band becomes the lowest
whose timer has expired. -/
def execBandDrop (d : Lsw) (vf : BitVec 16) (s : State) : Out :=
  let low (s : State) (b : Nat) : Option Nat := (mget ({} : LoadDie) s.ldies d).lowAt.getD b none
  let from_ := (List.range 3).filter (s.fget (Reg.LSW_STAT_BAND d) ≤ ·)
  .next (
    match (if s.present (4 + d) then (from_.filterMap (low s)).min? else none) with
    | none => s
    | some t =>
      let s := (s.toMono (t + 50000)).takeVf d vf.toNat
      match (from_.filter fun b => ranFor (low s b) 50000 s.time.mono).max? with
      | none => s
      | some b =>
        let s := (s.setBand d (b + 1)).fon (Reg.LSW_FLAGS_BAND_DROP d)
        s.each ((List.range 12).map (12 * d.val + ·)) fun s x =>
          (s.modLoad x fun l => { l with openAt := none, slotAt := if 1 ≤ b then none else l.slotAt }).loadRows x)

/-- R289, R290. One step up; the entry to `NO_OL` is the restore point. -/
def execBandRise (d : Lsw) (vf : BitVec 16) (s : State) : Out :=
  let b := s.fget (Reg.LSW_STAT_BAND d) - 1
  .next (
    if !s.present (4 + d) then s
    else s.expire (mget ({} : LoadDie) s.ldies d).riseAt (bandReturn b).2 fun s =>
      let s := s.takeVf d vf.toNat
      if (mget ({} : LoadDie) s.ldies d).riseAt = none then s
      else if b ≠ 1 then s.setBand d b
      else (s.setBand d b).each ((List.range 12).map (12 * d.val + ·)) fun s x =>
        let l := s.load x
        if l.state = lDipOff ∨ (l.state = lDeferred ∧ l.bandWait) then
          s.modLoad x fun l => { l with slotAt := some (s.time.mono + (x % 12) * 500000) }
        else s)

/-- R290. -/
def execDipRestore (x : LCh) (s : State) : Out :=
  .next (s.expire (s.load x).slotAt 0 fun s =>
    let s := s.modLoad x fun l => { l with slotAt := none }
    let l := s.load x
    if 2 ≤ s.band x ∨ s.lswRel x then s
    else if l.state = lDipOff then
      if !s.ldOn x then s.loadTo x lOff 0
      else if s.dipRestore x then (s.turnOnAgain x).restarted x l.restart else s.trip x qDipNoRestore
    else if l.state = lDeferred then (s.modLoad x fun l => { l with bandWait := false }).deferredRow x
    else s)

/-- R271. -/
def execPairImbalance (x : LCh) (lo hi : Int) (s : State) : Out :=
  .next (
    if s.pair x ≠ 1 ∨ (s.load x).pairDone then s
    else s.expire (s.load x).pairAt 10000000 fun s =>
      let s := (s.modLoad x fun l => { l with ua := lo, pairDone := true, pairAt := none }).modLoad (x.val + 1) fun l => { l with ua := hi }
      let bad (h : Load) : Bool := decide (4 * h.ua < s.ldUa x) || decide (3 * s.ldUa x < 4 * h.ua)
      if s.ldAny x bad && (s.load x).isOn then s.trip x qPairImbalance else s)

/-- R297. -/
def execLoadEventFlush (x : LCh) (s : State) : Out :=
  .next (
    match (s.load x).evPend with
    | some ev =>
      if s.linkIsUp (ldSlot x) then s.expire (s.load x).evAt 250000 fun s => s.sendLoadEvent (x / 12) (x.val % 12) ev else s
    | none => s)

/-- R292. `LSW_REL` is asserted. -/
def State.assertLswRel (s : State) (n : Nat) : State :=
  if s.fbit (Reg.LSW_STAT_RELEASED n) || !s.present (4 + n) then s
  else
    let s := (s.fon (Reg.LSW_STAT_RELEASED n)).fon (Reg.LSW_FLAGS_RELEASE_SEEN n)
    let s := s.each ((List.range 12).map (12 * n + ·)) fun s x => s.loadRows x
    s.dieEvent n wRelease

/-- R292. `LSW_REL` is negated: the channels wait for a COMMIT or RESYNC. -/
def State.negateLswRel (s : State) (n : Nat) : State := s.fset (Reg.LSW_STAT_RELEASED n) 0

end Sys2Proof.Machine
end

