-- ==== Sys2Proof/Machine/Commit.lean ====
section
/-! DEFINITION. The commit unit: misses, exclusion and readmission (R31, R35, R36), COMMIT and the commit point (R23, R27, R28),
and the switch of the committed image (R30). -/

namespace Sys2Proof.Machine

/-! ### Misses and readmission -/

/-- R36, R35. Excludes the die of slot `n`: cause 1 orphanings, 2 latency (DESIGN CHOICE: the numbers). An active module of a
pair hands over when its peer reports that slot's link up. -/
def State.exclude (s : State) (n cause : Nat) : State :=
  if s.fbit (Reg.LINK_STAT_EXCLUDED n) then s
  else
    let s := ((s.fon (Reg.LINK_STAT_EXCLUDED n)).fset (Reg.LINK_STAT_ADMITTED n) 0).fon Reg.COMMIT_FLAGS_DIE_EXCLUDED
    let s := s.recordFrom cDIE_EXCLUDED n 31 (leBytes 1 n ++ leBytes 1 cause)
    if fieldOf (mget 0 s.regs 0x40050068) (8 + n) 1 = 1 then s.handover 4 else s

/-- R33. Tasks that read the die of slot `n`. -/
def State.readers (s : State) (n : Nat) : List Nat :=
  taskNums.filter fun t => s.taskOn t && (s.entries 0x0203 t 16).any fun e => leAt e 2 1 == 1 && leAt e 3 1 == n

/-- R36, Table 1.12. `MISS_60S` from the orphanings of the last 60 s. -/
def State.missWindow (s : State) (n : Nat) : State :=
  let at_ := (s.link n).orphanAt.filter fun t => decide (s.time.mono < t + 60000000000)
  (s.setLink n { s.link n with orphanAt := at_ }).fset (Reg.LINK_STAT_MISS_60S n) (min 15 at_.length)

/-- R35. Sends the RESYNC with the complete set `out` to slot `n`. -/
def State.resyncTo (s : State) (n : Nat) (out : Bytes) : State :=
  let t := (s.fget Reg.COMMIT_NUM_CCOUNT + 1) % 65536
  let p := mslice 0 out 0 (outLen n) ++ leBytes 2 t
  let s := s.ctlSend n 0x0A p
  s.setLink n { s.link n with
    stageNum := some t, stageAt := s.time.mono + 8 * (p.length + 14), stageResent := false, resync := true, acked := none
    ackWrong := false, sentOut := out }

/-- R35. Readmission of an orphan begins once its link is `UP` and measured: with the die's intended set, and in STANDBY with
the all-off set it holds. -/
def State.sendResync (s : State) (n : Nat) : State :=
  let l := s.link n
  if s.linkIsUp n && s.fbit (Reg.LINK_STAT_ORPHAN n) && !s.fbit (Reg.LINK_STAT_EXCLUDED n) && l.failSince.isNone &&
      !l.measuring && l.stageNum.isNone && s.stageFits (outLen n + 2) then
    s.resyncTo n (if s.mode = mStandby then l.sentOut else s.dieOut n)
  else s

/-- R31. The die of slot `n` misses a commit: 1 no ACK, 2 a wrong ACK, 3 no CONFIRM, 4 a wrong counter, 5 a link reset. -/
def State.miss (s : State) (n cause : Nat) : State :=
  let s := (((s.fset (Reg.LINK_STAT_ADMITTED n) 0).fset (Reg.LINK_STAT_APPLIED n) 0).fon (Reg.LINK_STAT_ORPHAN n)).fon
    Reg.COMMIT_FLAGS_DIE_MISS
  let s := (s.lsat (Reg.LINK_MISS_MISSED_COMMITS n)).recordFrom cDIE_MISS n 31 (leBytes 1 n ++ leBytes 1 cause)
  let s := s.setLink n { s.link n with
    stageNum := none, resync := false, acked := none, ackWrong := false, lresetMiss := false, inputsBad := true
    missPend := (s.readers n).foldl (fun m t => putBit m t true) 0, orphanAt := s.time.mono :: (s.link n).orphanAt }
  let s := { s with time := { s.time with sentTo := putBit s.time.sentTo n false, confirmed := putBit s.time.confirmed n false } }
  let s := match s.dup.prep with
    | some m => { s with dup := { s.dup with prep := some (putBit m n false) } }
    | none => s
  let s := s.missWindow n
  if 8 ≤ (s.link n).orphanAt.length then s.exclude n 1 else s

/-! ### COMMIT -/

/-- R27, R61, R69, R74. The commit unit sends COMMIT in this state. -/
def State.commits (s : State) : Bool :=
  (s.running || s.mode == mSafe) && !s.power.committed && !s.power.hold

/-- R27, R31. COMMIT goes out to every admitted die that has not missed, and to every orphan whose RESYNC is acknowledged. -/
def State.emitCommit (s : State) : State :=
  if !s.commits || s.time.emitted then s
  else
    let s := (s.toDev (commitPt s.time.gc - 2000)).captureRanges
    let s := s.each (satSlots.filter fun n => s.admitted n) fun s n =>
      let l := s.link n
      if l.lresetMiss then s.miss n 5
      else if l.ackWrong then s.miss n 2
      else if l.stageNum.isSome && l.acked.isNone && decide (l.stageAt + 10000 ≤ s.time.mono) then s.miss n 1
      else s
    let out := satSlots.filter fun n => s.admitted n || (s.fbit (Reg.LINK_STAT_ORPHAN n) && (s.link n).resync && (s.link n).acked.isSome)
    let s := (out.filter fun n => s.linkIsUp n).foldl (fun s n => s.setLink n { s.link n with commitDue := true }) s
    let s := if s.dup.prep = some 0 ∧ s.mode = mStandby then
        { s with modeReq := some { mode := mActive, trig := trClaim } }
      else s
    { s with
      time := { s.time with emitted := true, sentTo := (out.map fun n => 2 ^ n).sum, confirmed := 0 }
      dup := { s.dup with commitAt := s.time.mono } }

/-- COMMIT_EMIT (R27). -/
def execCommitEmit (s : State) : Out := .next s.emitCommit

/-! ### The commit point -/

/-- R418. A peer event of the pair. -/
def State.peerEvent (s : State) (code : Nat) : State :=
  let s := { s with dup := { s.dup with evCode := code, evCount := (s.dup.evCount + 1) % 65536 } }
  s.triggerAll 6 fun _ => true

/-- R238, R293, R323. `SHADOW` of a door die, `STBY` of a load or field die. -/
def State.standBy (s : State) (n : Nat) (b : Bool) : State :=
  if !s.present n then s
  else if n ≤ 3 then s.setShadow (n - 1) b
  else if n ≤ 5 then s.setStby (n - 4) b
  else s.setFioStby (n - 6) b

/-- R51, R388. Forces and the runs of verbs end at any exit from MAINTENANCE; `MAINT` falls with the mode, and the door dies
abort (R231). -/
def State.endMaint (s : State) : State :=
  let holds := s.net.holds.map fun p => (p.1, p.2.map fun h => { h with phase := 2 })
  let s := { s with net := { s.net with forces := [], holds := holds, maintSess := none } }
  let s := s.each ctlNums fun s c => s.fset (Reg.CAN_STAT_LOOP c) 0
  match s.tap.lb with
  | some l =>
    if l.quiet then s
    else { ((s.fset Reg.LB_STAT_RESULT 6).fset Reg.LB_STAT_BUSY 0) with tap := { s.tap with lb := none } }
  | none => s

/-- R69, R433. PARK: the links rest, the CAN controllers leave their schedules (Table 2.5), and only the always-on domain runs; the data
area is signed, and the records that still wait are written. The satellites' orphanings are not recorded. -/
def State.setPark (s : State) : State :=
  let s := (s.fset Reg.PARK_SIG_SIG (crc32c (mslice 0 s.sram 0x20000 0x40000))).fset Reg.PARK_MARK_MARK 1
  let s := s.each satSlots fun s n =>
    let l := s.link n
    (((s.setLink n { l with down := [], up := [], stageNum := none, resync := false, acked := none, regQ := [], regAt := none, commitDue := false,
                            latchDue := false, inputDue := false }).fset (Reg.LINK_STAT_UP n) 0).fset (Reg.LINK_STAT_ADMITTED n) 0)
  let s := s.each ctlNums fun s c => s.setCtl c { s.ctl c with joined := false, bus := none, refs := 0 }
  let s := { s with
    power := { s.power with park := 4, parkStop := false, parkAt := s.time.mono }
    time := { s.time with slew := 0, slewAcc := 0, confirmDue := false, publishDue := false, sampled := false } }
  s.cairnAll s.cairn.queue.length

/-- R37, R53. Read-back of half `h` now, if it is valid. -/
def State.backNow (s : State) (h : Nat) : Option Bool :=
  match s.halfOut h with
  | some o => if s.dieValid (6 + o / 16) then some (bit (leAt (s.link (6 + o / 16)).lastOk 12 2) (o % 16)) else none
  | none => none

/-- R53, R68. Both traction halves read back off, validly. -/
def State.tractionOff (s : State) : Bool := s.backNow 0 == some false && s.backNow 1 == some false

/-- R51. A mode change takes effect at this commit point; a PARK entry under way is given up. -/
def State.changeMode (s : State) (r : ModeReq) : State :=
  let old := s.mode
  let s := { s.parkCancel with modeReq := none }
  let s := if old = mMaint then s.endMaint else s
  if r.mode = mSafe then
    let s := (s.nowSafe r.reason r.detail r.trig).changeAbort 2
    s.each ctlNums fun s c => if s.canOn c then s.canListen c else s
  else if r.mode = mActive ∧ old = mStandby then
    let took := match s.dup.claim with | some (_, t) => t | none => false
    let s := s.setMode mActive r.trig
    let s := s.each ctlNums fun s c => (s.setCtl c { s.ctl c with listenWait := false }).fset (Reg.CAN_STAT_LISTEN c) 0
    let s := { s with dup := { s.dup with
      claim := none, prep := none, claimCommit := if took then some s.time.mono else none, relDue := true
      firstAfter := if took then taskNums.foldl (fun m t => if s.taskOn t then putBit m t true else m) 0 else s.dup.firstAfter } }
    if took then ((s.fon Reg.DUP_FLAGS_TAKEOVER_SEEN).fsat Reg.TKO_STAT_TAKEOVERS).peerEvent 3 else s
  else
    let s := s.setMode r.mode r.trig
    if r.mode = mMaint then { s with ledger := s.ledger.map fun p => (p.1, { p.2 with flags := if p.2.isOpen then p.2.flags ||| 8 else p.2.flags }) }
    else s

/-- R412. The enabled cyclic task of the shortest period. -/
def State.fastTask (s : State) : Option Nat :=
  let ts := (List.range 16).filter fun t => s.taskOn t
  let p (t : Nat) : Nat := s.topoN 0x0202 t 4 2 0
  ts.find? fun t => ts.all fun u => decide (p t ≤ p u)

/-- R412. The takeover ends with the commit of the first activation of the fastest task that sampled after the claim commit. -/
def State.takeoverEnd (s : State) (done : List Ended) : State :=
  match s.dup.claimCommit with
  | some c =>
    let at_ := s.time.dev - (s.time.mono - c)
    if done.any fun (e : Ended) => s.fastTask == some e.task && decide (at_ < samplePt e.g) then
      let us := clip 16 ((s.time.mono - s.dup.lostAt) / 1000)
      let s := ({ s with dup := { s.dup with claimCommit := none } }).fset Reg.TKO_STAT_LAST_TKO_US us
      s.record cTAKEOVER (leBytes 4 (s.fget Reg.BELAY_GEN_GEN) ++ leBytes 4 us)
    else s
  | none => s

/-- R53, R54. A change into MAINTENANCE waits until both traction halves are staged off. -/
def State.modeReady (s : State) (r : ModeReq) : Bool :=
  r.mode != mMaint || [0, 1].all fun h =>
    match s.halfOut h with
    | some d => !bit (leNat (mslice 0 (s.link (6 + d / 16)).sentOut 0 2)) (d % 16)
    | none => true

/-- R53. At the commit of a change into MAINTENANCE zero speed is no longer proven, or a traction half no longer reads back off: the
refusal code. -/
def State.enterRefused (s : State) (r : ModeReq) : Option Nat :=
  if r.mode ≠ mMaint then none
  else if !s.fbit Reg.IL_STAT_ZS_PROVEN then some 0x04
  else if !s.tractionOff then some 0x05
  else none

/-- R51, R53. The mode change that waits takes effect, is refused and changes nothing, or waits on. -/
def State.takeModeReq (s : State) : State :=
  match s.modeReq with
  | some r =>
    match s.enterRefused r with
    | some c =>
      let s := { s with modeReq := none, net := { s.net with atCommit := s.net.atCommit.filter fun p => p.2 != vSetMode } }
      match s.net.maintSess with
      | some x => ({ s with net := { s.net with maintSess := none } }).refuseLate x vSetMode c
      | none => s
    | none => if s.modeReady r then s.changeMode r else s
  | none => s

/-- R385. The replies that waited for this commit point. A SET_MODE that a SAFE entry or PARK has overtaken is refused; one whose change
waits on keeps waiting. -/
def State.replyCommit (s : State) : State :=
  let held (p : Nat × Nat) : Bool := p.2 == vSetMode && s.modeReq.isSome
  let due := s.net.atCommit.filter fun p => !held p
  let s : State := { s with net := { s.net with atCommit := s.net.atCommit.filter held } }
  due.foldl (fun (s : State) (p : Nat × Nat) =>
    if p.2 = vSetMode ∧ !s.driving then s.refuseLate p.1 p.2 0x01 else s.replyNow p.1 p.2 rDone 0 []) s

/-- R389. The run that a verb holds in the block of channel `k` moves on, given that the die's last set is settled. -/
def State.holdStep (s : State) (k : Nat) (h : Hold) : State :=
  let o := 16 * (k % 4)
  let sent := (s.link (chSlot k)).sentOut
  let b (i : Nat) : Nat := (mget 0 sent (o + i)).toNat
  let put (h : Option Hold) : State := { s with net := { s.net with holds := mset none s.net.holds k h } }
  match h.phase with
  | 0 =>
    if b 0 = h.cmd ∧ b 1 = h.seq then
      let s := put (some { h with phase := if h.cmd = 3 then 2 else 1, sess := none })
      match h.sess with
      | some (x, verb) => s.replyNow x verb rDone 0 []
      | none => s
    else s
  | 1 =>
    let st := s.chanIn k 0
    let done :=
      if h.cmd = 6 then s.chanIn k 15 == h.seq && !(s.fbit Reg.LEARN_STAT_BUSY && s.fget Reg.LEARN_STAT_CHANNEL == k)
      else !inMotion st && st != dReversing && st != h.from_
    if done then put (some { h with phase := 2 }) else s
  | _ => if b 0 = 0 ∧ b 1 = (mget 0 (s.boundOut (chSlot k)) (o + 1)).toNat then put none else s

/-- R155, R355. The activations whose changes this commit carries: their requests are made, and they publish with it. -/
def State.commitEnded (s : State) : State :=
  let done := s.eng.ended.filter fun (e : Ended) => e.out
  let s := { s with eng := { s.eng with
    ended := s.eng.ended.filter fun (e : Ended) => !e.out
    pubDue := s.eng.pubDue ++ done.map fun (e : Ended) => (e.task, e.cyc) } }
  let s : State := s.takeoverEnd done
  let s : State := if s.power.park = 1 ∧ (done.any fun (e : Ended) => e.task == s.power.parkTask && e.cyc == s.power.parkCyc) = true then
      { s with power := { s.power with parkStop := true } }
    else s
  let s : State := if s.driving && s.duplexNow then
      { s with dup := { s.dup with manifest := s.dup.manifest ++ done.map fun (e : Ended) => (e.task, e.cyc) } }
    else s
  if s.mode = mStandby then s
  else done.foldl (fun s e => e.reqs.foldl (fun s r => s.canRequest e.g r.1 r.2.1 r.2.2) s) s

/-- R27, R28, R33. Die n's part in a commit point that carries its staged set: the set is spent, an orphaned die is readmitted, and a
RESYNC acknowledged in STANDBY puts the die in stand-by. -/
def State.carriedDie (s : State) (n : Nat) : State :=
  let l := s.link n
  let sync := l.resync && l.acked.isSome
  let back := s.fbit (Reg.LINK_STAT_ORPHAN n)
  let s : State := if l.stageNum.isSome && l.acked.isNone then s
    else s.setLink n { l with
      stageNum := none, resync := false, acked := none, inputsBad := l.inputsBad && !back
      profWait := l.profWait || (back && decide (n ≤ 3)) }
  let s : State := if back then (s.fset (Reg.LINK_STAT_ORPHAN n) 0).fon (Reg.LINK_STAT_ADMITTED n) else s
  if sync && s.mode == mStandby && s.dup.prep.isNone then s.standBy n true else s

/-- R51, R69. The park commit: entered from ACTIVE or STANDBY only. -/
def State.parkCommit (s : State) (num : Nat) : State :=
  if s.power.park = 3 ∧ num = s.power.parkNum ∧ (s.mode = mActive ∨ s.mode = mStandby) then
    (((s.setMode mPark trPark).changeAbort 3).setClaim false).setPark
  else s

/-- R35, R36. What each commit point does to the holds and the sessions that read their result. -/
def State.holdsStep (s : State) : State :=
  let s := s.each (List.range 12) fun s k =>
    match mget none s.net.holds k with
    | some h => if s.admitted (chSlot k) && (s.link (chSlot k)).stageNum.isNone then s.holdStep k h else s
    | none => s
  { s with net := { s.net with sess := s.net.sess.map fun (p : Nat × Option Sess) =>
      (p.1, p.2.map fun (v : Sess) => { v with reading := false }) } }

/-- R33. A RESYNC an orphaned die did not acknowledge is given up and a new one goes out. -/
def State.resyncAgain (s : State) (n : Nat) : State :=
  let l := s.link n
  (if l.resync && l.acked.isNone then s.setLink n { l with stageNum := none, resync := false } else s).sendResync n

/-- R23. Time and the control die's own image at a commit point that carries `carried`. -/
def State.commitImage (s : State) (num : Nat) (carried : List Nat) : State :=
  let s : State := s.fset Reg.COMMIT_NUM_CCOUNT num
  let outs := carried.foldl (fun (m : List (Nat × Bytes)) (n : Nat) => mset [] m n (s.link n).sentOut) s.cnext.outs
  let gc := max (s.time.gc + 1) ((s.time.dev + 12500) / 25000)
  { s with
    time := { s.time with gc, emitted := false, confirmDue := true, publishDue := true }
    cnext := { s.cnext with outs, q := s.eng.qOut, ccount := num } }

/-- The commit point (R23, R27, R28): the control die applies its share. -/
def State.commitPoint (s : State) : State :=
  let s := s.emitCommit
  if !s.commits then s
  else
    let s := s.toDev (commitPt s.time.gc)
    let num := (s.fget Reg.COMMIT_NUM_CCOUNT + 1) % 65536
    let carried := satSlots.filter fun n => bit s.time.sentTo n
    let s := (s.commitImage num carried).each carried State.carriedDie
    let s := (s.takeModeReq.commitEnded.parkCommit num).holdsStep.replyCommit
    let s := (satSlots.filter fun n => s.fbit (Reg.LINK_STAT_ORPHAN n)).foldl State.resyncAgain s
    s.stageNow

/-- COMMIT_POINT (R23). -/
def execCommitPoint (s : State) : Out := .next s.commitPoint

end Sys2Proof.Machine
end

