-- ==== Sys2Proof/Machine/Access.lean ====
section
/-! DEFINITION. Access to registers and memory from outside (R12, R22, R47, R104 to R106, R425 to R429, R496): the access types,
the protection windows, the object map word by word, and the register spaces of the satellites. -/

namespace Sys2Proof.Machine

/-! ### Access types (Table 0.3) -/

/-- The bits of a register that lie in a field whose access type `p` admits. -/
def bitsOf (fs : List FieldRow) (p : Acc → Bool) : Nat :=
  (fs.filter fun f => p f.acc).foldl (fun m f => m + (2 ^ (f.hi + 1 - f.lo) - 1) * 2 ^ f.lo) 0

/-- What a read of a register whose content is `v` returns: reserved and write-only bits read 0 (R13). -/
def readValue (fs : List FieldRow) (v : Nat) : Nat := v &&& bitsOf fs fun a => a != .wo

/-- The content of a register after a read: `RC` fields are cleared to their reset values (DEDUCED, log 173: `VF_MIN` starts anew). -/
def afterRead (fs : List FieldRow) (v : Nat) : Nat :=
  v - (v &&& bitsOf fs fun a => a == .rc) + ((fs.filter fun f => f.acc == .rc).map fun f => f.reset * 2 ^ f.lo).sum

/-- The content of a register `v` after a write of `w`. -/
def afterWrite (fs : List FieldRow) (v w : Nat) : Nat :=
  let rw := bitsOf fs fun a => a == .rw
  let keep := v - (v &&& rw) + (w &&& rw)
  keep - (keep &&& w &&& bitsOf fs fun a => a == .w1c)

/-- R46. An `RC` read of a snapshot field takes what it returned off the live count, and off a capture under way. -/
def liveTaken (fs : List FieldRow) (shown live : Nat) : Nat :=
  (fs.filter fun f => f.acc == .rc).foldl (fun x f =>
    let n := f.hi + 1 - f.lo
    putField x f.lo n (fieldOf x f.lo n - fieldOf shown f.lo n)) live

/-- R356, R390. A block of the control die whose offsets without a register read 0: a CAN controller's, the network block. Elsewhere such
an address is unmapped (R47). -/
def openBlock (a : Nat) : Bool :=
  (decide (0x40030000 ≤ a) && decide (a < 0x40034000)) || (decide (0x40040000 ≤ a) && decide (a < 0x40050000))

/-- R426. `ARB_MAX` of a bank: which masters met in which cycle is not modelled, so that a read returns a free value within the bound of
R426: 16 CLK_FAB cycles, in UNBOUND 64. -/
def State.arbRead (s : State) : Option Nat × State :=
  let (v, s) := s.takeFree 8
  (some (v % (if s.laneState = laneUnbound then 65 else 17)), s)

/-- R12, R48. A read of the control-die register at `a`; `none`: nothing is mapped there. -/
def State.ctlRead (s : State) (a : Nat) : Option Nat × State :=
  if a = 0x40000000 then (some (dieType 0 + s.board.steps.getD 0 0 % 256 * 256), s)
  else if 0x40090050 ≤ a ∧ a < 0x40090064 ∧ a % 4 = 0 then s.arbRead
  else
    match ctlFields a with
    | some fs =>
      let v := mget 0 s.regs a
      (some (readValue fs v), { s with
        regs := mset 0 s.regs a (afterRead fs v)
        live := mset 0 s.live a (liveTaken fs v (mget 0 s.live a))
        capt := mset 0 s.capt a (liveTaken fs v (mget 0 s.capt a)) })
    | none => (if openBlock a then some 0 else none, s)

/-- R12. A write of `w` to the control-die register at `a`, by its access types alone; `false`: nothing is mapped there. -/
def State.ctlWrite (s : State) (a w : Nat) : Bool × State :=
  if a = 0x40000000 then (true, s)
  else
    match ctlFields a with
    | some fs => (true, { s with regs := mset 0 s.regs a (afterWrite fs (mget 0 s.regs a) w) })
    | none => (openBlock a, s)

/-! ### Satellite registers -/

/-- Table 1.9. Base of the register space of slot `n`. -/
def satBase (n : Nat) : Nat := 0x41000000 + (n - 1) * 0x1000000

/-- R12, R48, R241, R298, R332. A read at offset `off` of the register space of slot `n`, at the die: value and status. An offset without
a register reads 0, with the status of a register that is there (DEDUCED, log 148). -/
def State.satRead (s : State) (n off : Nat) : Nat × Nat × State :=
  if off = 0 then (dieType n + s.board.steps.getD n 0 % 256 * 256 + n * 65536, 0, s)
  else if n ≤ 3 ∧ 0x1000 ≤ off ∧ off ≤ 0x2000 ∧ off % 4 = 0 then (0, 0, s)
  else
    let a := satBase n + off
    match satFields a with
    | some fs =>
      let v := mget 0 s.regs a
      (readValue fs v, 0, { s with regs := mset 0 s.regs a (afterRead fs v) })
    | none => (0, 0, s)

/-- R249. One entry of the profile window of door die `n`: entry `i` counts channels by 512 and directions by 256. -/
def State.winPut (s : State) (n i v : Nat) : State :=
  let k := 4 * n + i / 512
  s.modDoor k fun d => { d with window := mset 0 d.window (i % 512) (sgn 16 v), winSet := true }

/-- R12, R238, R241, R249, R293, R323. A write of `w` at offset `off` of the register space of slot `n`, at the die: status. -/
def State.satWrite (s : State) (n off w : Nat) : Nat × State :=
  if off = 0 then (0, s)
  else if n ≤ 3 ∧ 0x1000 ≤ off ∧ off < 0x2000 ∧ off % 4 = 0 then
    let i := (off - 0x1000) / 2
    (0, ((s.winPut (n - 1) i (w % 65536)).winPut (n - 1) (i + 1) (w / 65536 % 65536)))
  else if n ≤ 3 ∧ off = 0x2000 then (0, s.baseLoad (n - 1))
  else
    let a := satBase n + off
    match satFields a with
    | some fs =>
      let shadowReg := decide (n ≤ 3) && decide (0x100 ≤ off) && (off % 0x40 == 0x18 || off % 0x40 == 0x1C)
      if n ≤ 3 ∧ off = 0x14 then (0, s.setShadow (n - 1) (bit w 0))
      else if (n = 4 ∨ n = 5) ∧ off = 0x1C then (0, s.setStby (n - 4) (bit w 0))
      else if 6 ≤ n ∧ off = 0x14 then (0, s.setFioStby (n - 6) (bit w 0))
      else if shadowReg && !s.fbit (Reg.DRV_MODE_SHADOW (n - 1)) then (0, s)
      else
        let s := { s with regs := mset 0 s.regs a (afterWrite fs (mget 0 s.regs a) w) }
        (0, if shadowReg then s.shadowTake (4 * (n - 1) + (off - 0x100) / 0x40) else s)
    | none => (0, s)

/-! ### Register accesses over a link (R22) -/

/-- R22. The next waiting access of slot `n` goes out, when none is outstanding. -/
def State.regSend (s : State) (n : Nat) : State :=
  let l := s.link n
  match l.regQ, l.regAt with
  | r :: _, none =>
    let s := if r.write then s.ctlSend n 0x06 (leBytes 4 r.off ++ leBytes 4 r.data) else s.ctlSend n 0x07 (leBytes 4 r.off)
    s.setLink n { s.link n with regAt := some s.time.mono }
  | _, _ => s

/-- R22. Hands an access to the link of slot `n`. -/
def State.regSubmit (s : State) (n : Nat) (r : RegAcc) : State :=
  (s.setLink n { s.link n with regQ := (s.link n).regQ ++ [r] }).regSend n

/-- R249. First 4 bytes of the SHA-256 of the records 0x0301 and 0x0302 or 0x0303 of channel `k`. -/
def State.geoHash (s : State) (k : Nat) : List Byte :=
  let data (r : Option Rec) : List Byte := match r with | some r => r.data | none => []
  (sha256 (data (s.topo? 0x0301 k) ++ data ((s.topo? 0x0302 k).or (s.topo? 0x0303 k)))).take 4

/-- R249. After readmission of a door die: its stored profiles, then `BASE_LOADED`. -/
def State.sendProfiles (s : State) (n : Nat) : State :=
  let cs := (List.range 4).filter fun c => s.topoN 0x0301 (4 * (n - 1) + c) 0 1 0 ≠ 0 ∧ s.rdN (0x98080C + (4 * (n - 1) + c) * 0x1000) 1 % 2 = 1
  if cs.isEmpty then s
  else
    let q : List RegAcc := (cs.map fun c => (List.range 256).map fun (i : Nat) =>
      ({ req := 4, write := true, off := 0x1000 + c * 0x400 + 4 * i
         data := s.rdN (0x980400 + (4 * (n - 1) + c) * 0x1000 + 4 * i) 4 } : RegAcc)).flatten
    let l := s.link n
    (s.setLink n { l with regQ := l.regQ ++ q ++ [({ req := 4, write := true, off := 0x2000, data := 1 } : RegAcc)] }).regSend n

/-! ### Protection windows -/

/-- R106. Some enabled window of requester `q` covers the `n` bytes at `a` with the right to read or write; the window registers
and `PROT_STAT` are out of reach (R104). -/
def State.allowed (s : State) (q a n : Nat) (write : Bool) : Bool :=
  !((decide (a < 0x40000184) && decide (0x40000180 < a + n)) || (decide (a < 0x40000400) && decide (0x40000200 < a + n))) &&
    (List.range 8).any fun w =>
      let at_ := s.fget (Reg.WIN_ATTR_ATTR q w)
      bit at_ 2 && bit at_ (b2n write) && decide (s.fget (Reg.WIN_BASE_BASE q w) ≤ a) &&
        decide (a + n ≤ s.fget (Reg.WIN_LIMIT_LIMIT q w) + 1)

/-- R106. An access of requester `q` at `a` has been refused. -/
def State.violation (s : State) (q a : Nat) : State :=
  (s.fsat Reg.PROT_STAT_VIOL_COUNT).record cPROT_VIOLATION (leBytes 1 q ++ leBytes 4 a)

/-! ### The object map, word by word -/

/-- Status of a word access: the result codes of Table 16.5. -/
abbrev aOk : Nat := 0
abbrev aProtected : Nat := 4
abbrev aUnmapped : Nat := 5
abbrev aEcc : Nat := 6
abbrev aTimeout : Nat := 7

/-- Tables 1.9, 15.2, 15.4. The byte at `a` lies in a bank or in MRAM, outside the reserved ranges. -/
def memMapped (a : Nat) : Bool :=
  decide (a < 0xB44000) ||
    (decide (0x10000000 ≤ a) && decide (a < 0x11000000) && !(decide (0x103D0000 ≤ a) && decide (a < 0x10400000)) &&
      !(decide (0x10580000 ≤ a) && decide (a < 0x10600000)))

/-- The slot whose register space holds `a`. -/
def slotOfAddr (a : Nat) : Option Nat :=
  if 0x41000000 ≤ a ∧ a < 0x48000000 then some ((a - 0x41000000) / 0x1000000 + 1) else none

/-- Table 5.2, Table 15.2. Working storage whose byte layout the spec does not give: task contexts, journal, hold buffer, network
buffers, ledger working records, agent buffers, telegram and container tables. What a read of it returns is a free value. -/
def opaqueStore (a : Nat) : Bool :=
  [(0x74800, 0x78000), (0x88000, 0xA8000), (0x210000, 0x800000), (0x98C000, 0xA80000), (0xA90000, 0xB00000), (0xB30000, 0xB44000)].any
    fun p => decide (p.1 ≤ a) && decide (a < p.2)

/-- R443. Bank of an address: 0 to 4, 5 for MRAM. -/
def bankOf (a : Nat) : Nat :=
  if 0x10000000 ≤ a then 5 else if a < 0x200000 then 0 else if a < 0x800000 then 1 else if a < 0xA00000 then 2 else if a < 0xB00000 then 3 else 4

/-- R429. An uncorrectable error is met at `a`. -/
def State.eccUe (s : State) (a : Nat) : State :=
  let b := bankOf a
  (((s.fsat (Reg.ECC_CNT_UE b)).fset (Reg.ECC_ADDR_ADDR b) a).fon Reg.MEM_FLAGS_UE_SEEN).record cECC_UE (leBytes 1 b ++ leBytes 4 a)

/-- R496, R468, Table 15.2. The byte at `a` as an external requester reads it: the I and S areas, and for the Query Port (`qp`) the
committed image and the rollback view. -/
def State.extByte (s : State) (qp : Bool) (a : Nat) : Byte :=
  if a < 0x10000 then 0
  else if sBase ≤ a ∧ a < 0x74000 then (if a < sBase + 0x40 then 0 else mget 0 s.eng.sPub (a - sBase))
  else if qp ∧ a < 0x20000 then mget 0 s.cimg.q (a - qBase)
  else if qp ∧ imgsBase ≤ a ∧ a < 0x100000 then mget 0 s.cimg.inputs a
  else if qp ∧ inData a then (s.rollView (blkOf a)).getD ((a - 0x20000) % 64) 0
  else if ownBase ≤ a ∧ a < 0x88000 then BitVec.ofNat 8 ((s.qOwner (a - ownBase)).getD 0xFF)
  else if 0xB00000 ≤ a ∧ a < 0xB30000 then ((s.entries 0x0803 0 24).getD ((a - 0xB00000) / 24) []).getD ((a - 0xB00000) % 24) 0
  else if 0x10000000 ≤ a then mget 0 s.mram a
  else s.rd a

/-- R432. Nanoseconds of the zero-fill of bank `b`: 64 bytes in each CLK_FAB cycle of 2.5 ns. -/
def fillNs (b : Nat) : Nat := if b = 1 then 245760 else if b = 0 ∨ b = 2 then 81920 else 40960

/-- R432. The fill of bank `b` ends. -/
def State.fillEnd (s : State) (b : Nat) : State :=
  if bit (s.fget Reg.MEM_STAT_FILL_BUSY) b then
    let s := s.toMono (s.mem.fillAt + fillNs b)
    s.fset Reg.MEM_STAT_FILL_BUSY (putBit (s.fget Reg.MEM_STAT_FILL_BUSY) b false)
  else s

/-- R432. An access to `a` stalls until the fill of its bank is done. -/
def State.fillWait (s : State) (a : Nat) : State := if bankOf a < 5 then s.fillEnd (bankOf a) else s

/-- A read of the word at `a` (R47): its status and the word. An address in a satellite's register space is not answered here. -/
def State.objRead (s : State) (qp : Bool) (a : Nat) : Nat × Nat × State :=
  if memMapped a then
    let s := s.fillWait a
    if s.mem.bad.contains (a - a % 8) then (aEcc, 0, s.eccUe a)
    else if opaqueStore a then
      let (v, s) := s.takeFree 32
      (aOk, v, s)
    else (aOk, leNat ((List.range 4).map fun i => s.extByte qp (a + i)), s)
  else
    match s.ctlRead a with
    | (some v, s) => (aOk, v, s)
    | (none, s) => (aUnmapped, 0, s)

/-- R429. A write of the word at `a` heals it and cancels a write-back. -/
def State.healed (s : State) (a : Nat) : State :=
  { s with mem := { s.mem with bad := s.mem.bad.filter fun x => x != a - a % 8, wb := s.mem.wb.filter fun x => x != a - a % 8 } }

/-- R429, Table 15.3. One of the `n` bytes of MRAM from `a` on lies in a word that cannot be read. -/
def State.mramBad (s : State) (a n : Nat) : Bool := s.mem.bad.any fun w => decide (w + 8 > a) && decide (w < a + n)

/-- R163, R427. A write of the word `w` into memory at `a`. -/
def State.memWrite (s : State) (a w : Nat) : State :=
  let s := (s.fillWait a).healed a
  if 0x10000000 ≤ a then s.mwN a 4 w else s.outWrs a (leBytes 4 w)

end Sys2Proof.Machine
end

