-- ==== Sys2Proof/Machine/Loop.lean ====
section
/-! DEFINITION. Interfaces reset and tested on their own: the reset of a link's frame layer (R50), of the Rope link (R400) and of the
Query Port (R470), the snapshot (R46), the loop-backs (R489, R490), and the clock and supply events (R475 to R482). -/

namespace Sys2Proof.Machine

/-! ### Link reset and measurement -/

/-- R24. The next PROBE of the measurement of slot `n`. -/
def State.sendProbe (s : State) (n : Nat) : State :=
  let tag := ((s.link n).probeTag + 1) % 2 ^ 32
  (s.setLink n { s.link n with probeTag := tag }).ctlSend n 0x0C (leBytes 4 tag)

/-- R24. A measurement of slot `n` begins. -/
def State.measure (s : State) (n : Nat) : State := (s.setLink n { s.link n with rtts := [], measuring := true }).sendProbe n

/-- R50. LRESET on the link of slot `n`: both ends drop partial frames and restart their sequence numbers at 0. -/
def State.linkReset (s : State) (n : Nat) : State :=
  let l := s.link n
  let s := s.setLink n { l with
    down := [], up := [], ctlTx := 0, ctlRx := 0, satTx := 0, satRx := 0, ctlKept := [], satKept := [], ctlNaked := false, satNaked := false
    lresetMiss := l.lresetMiss || s.admitted n }
  let z (m : Nums) : Nums := mset 0 (mset 0 m (0x40020804 + n * 0x10) 0) (0x4002080C + n * 0x10) 0
  let s := { s with regs := z s.regs, live := z s.live, capt := z s.capt }
  if l.measuring then s.measure n else s

/-- LRESET (R50). -/
def execLreset (n : Slot) (s : State) : Out := if n.val = 0 then .next s else .next (s.linkReset n)

/-- SCOPED_RESET_LINK (R50, R65). -/
def execScopedResetLink (n : Slot) (s : State) : Out :=
  if n.val = 0 ∨ s.mode = mPark then .next s else .next (s.linkReset n)

/-! ### Rope and Query Port -/

/-- R406. The belay set is stale. -/
def State.belayStale (s : State) : State :=
  ({ s with dup := { s.dup with stale := true, full := none } }).fset Reg.DUP_STAT_BELAY_OK 0

/-- R418, R420. `HEALTHY` and `READY` of the peer; a change is a peer event. -/
def State.peerHealth (s : State) (healthy ready : Bool) : State :=
  if s.fbit Reg.DUP_STAT_PEER_HEALTHY == healthy && s.fbit Reg.DUP_STAT_PEER_READY == ready then s
  else ((s.fput Reg.DUP_STAT_PEER_HEALTHY healthy).fput Reg.DUP_STAT_PEER_READY ready).peerEvent 4

/-- R184, R400, R401, R418, Table 2.3. The peer becomes present or absent; a module with `DUPLEX` = 0 stays simplex. -/
def State.peerSet (s : State) (b : Bool) : State :=
  if s.fbit Reg.DUP_STAT_PRESENT == b then s
  else
    let s := (s.fput Reg.DUP_STAT_PRESENT b).fput Reg.MODE_STAT_DUPLEX (b && s.duplexCfg)
    if b then (({ s with dup := { s.dup with peerSeen := true } }).record cPEER_PRESENT []).peerEvent 2
    else ((((s.fon Reg.DUP_FLAGS_PEER_LOST_SEEN).fset Reg.DUP_STAT_TIME_SYNC 0).record cPEER_LOST []).loadAbort gPeerNoAck).peerEvent 1

/-- R18, R400. The Rope link leaves `UP`; the set is stale, and the peer absent. -/
def State.ropeFall (s : State) : State :=
  let s := if s.ropeUp then s.fon Reg.DUP_FLAGS_ROPE_DOWN_SEEN else s
  let s := ((s.fset Reg.DUP_STAT_ROPE_UP 0).fset Reg.ROPE_LAT_LANE_LOCK 0).fset Reg.DUP_STAT_TIME_SYNC 0
  let s := { s with dup := { s.dup with measuring := false, rtts := [], query := none, resyncWait := false } }
  (s.belayStale).peerSet false

/-- R400. The scoped reset of the Rope link: `SEQ` restarts at 0, the set is stale, and the link retrains. -/
def State.ropeReset (s : State) : State :=
  let s := s.ropeFall
  { s with dup := { s.dup with txSeq := 0, rxSeq := 0, naked := false, kept := [], resent := [] } }

/-- SCOPED_RESET_ROPE (R400). -/
def execScopedResetRope (s : State) : Out := .next (if s.mode = mPark then s else s.ropeReset)

/-- R470. The scoped reset of the Query Port begins. -/
def State.qpReset (s : State) : State := { s with qp := { s.qp with resetDue := true } }

/-- SCOPED_RESET_QP (R470). -/
def execScopedResetQp (s : State) : Out := .next (if s.mode = mPark then s else s.qpReset)

/-- SCOPED_RESET_CAN (R354). -/
def execScopedResetCan (c : Ctl) (s : State) : Out := .next (if s.mode = mPark then s else s.canReset c)

/-- R465, R467. `NEXT_TICKET` and `LIVE`. -/
def State.qpView (s : State) : State :=
  (s.fset Reg.QP_STAT_NEXT_TICKET s.qp.issued).fset Reg.QP_STAT_LIVE s.qp.ticks.length

/-- R467, R470. A write under way whose ticket goes completes: its words still to come are handed to the links. -/
def State.finishWrites (s : State) (gone : List QTick) : State :=
  (gone.filter fun k => k.write && k.done.isSome && k.res.isNone).foldl (fun s k =>
    (List.range (k.len / 4)).foldl (fun s i =>
      match slotOfAddr (k.addr + 4 * i) with
      | some n =>
        if i ≤ k.done.getD 0 || !s.fitted n then s
        else s.regSubmit n { req := 4, write := true, off := k.addr + 4 * i - satBase n, data := leAt k.data (4 * i) 4 }
      | none => s) s) s

/-- QP_RESET_DONE (R470). -/
def execQpResetDone (s : State) : Out :=
  if !s.qp.resetDue then .next s
  else
    let s := s.finishWrites s.qp.ticks
    let s := { s with qp := {}, regs := mset 0 (mset 0 s.regs 0x40070004 0) 0x40070008 0 }
    .next ((s.qpView.fon Reg.QP_STAT_RESET_SEEN).fset Reg.QP_STAT_CS_ACTIVE 0)

/-! ### Snapshots (R46) -/

/-- R406. The belay age in µs: device time since the commit of the set's generation. -/
def State.belayAge (s : State) : Nat :=
  let g := leNat (mslice 0 s.dup.set 4 8)
  if s.fget Reg.BELAY_GEN_GEN = 0 then 0 else clip 32 ((s.time.dev - commitPt g) / 1000)

/-- R46. Every snapshot field as it stands, by register address. -/
def State.captured (s : State) : Nums :=
  let put (m : Nums) (f : Fld) (v : Nat) : Nums := mset 0 m f.addr (putField (mget 0 m f.addr) f.lo (f.hi + 1 - f.lo) v)
  let m := put (put s.live Reg.DEVTIME_LO_NS_LO s.time.dev) Reg.DEVTIME_HI_NS_HI (s.time.dev / 2 ^ 32)
  let m := put (put m Reg.GRID_LO_POINT_LO (s.time.gs - 1)) Reg.GRID_HI_POINT_HI ((s.time.gs - 1) / 2 ^ 32)
  let m := put m Reg.JOURNAL_STAT_IN_USE s.journalLen
  let m := put m Reg.BELAY_AGE_AGE_US s.belayAge
  let m := ctlNums.foldl (fun m c =>
    if s.ttOn c then put m (Reg.CAN_TT_CYC_TIME c) ((s.time.mono - (s.ctl c).refAt) / max 1 (s.bitNs c)) else m) m
  put (put m Reg.OP_SEC_SECONDS s.opSec) Reg.OP_FRAC_FRAC (s.opCount % 65536)

/-- R46, R495. Supplies and temperatures are analog measurements, which the spec gives no value: a capture takes free values. The highest
junction temperature since boot is not below any captured one. -/
def State.measured (s : State) : State :=
  let old := s.fget Reg.THERM_T_CTL_MAX
  [(Reg.SUPPLY_VL_10MV, 16), (Reg.SUPPLY_VHU_10MV, 16), (Reg.SUPPLY2_VIO_10MV, 16), (Reg.SUPPLY2_VIOE_10MV, 16), (Reg.THERM_T_CTL, 8),
    (Reg.THERM_T_CTL_MAX, 8), (Reg.THERM_T_LID, 8)].foldl (fun s p =>
      let (v, s) := s.takeFree p.2
      s.fset p.1 (if p.1 = Reg.THERM_T_CTL_MAX then max v (max old (s.fget Reg.THERM_T_CTL)) else v)) s

/-- R46. The fields a capture delivers. -/
def snapFields : List Fld :=
  [Reg.DEVTIME_LO_NS_LO, Reg.DEVTIME_HI_NS_HI, Reg.GRID_LO_POINT_LO, Reg.GRID_HI_POINT_HI, Reg.JOURNAL_STAT_IN_USE,
    Reg.BELAY_AGE_AGE_US, Reg.OP_SEC_SECONDS, Reg.OP_FRAC_FRAC, Reg.PTP_OFS_OFFSET_NS, Reg.PTP_DELAY_PATH_NS,
    Reg.VTEST_T_LO_VT_LO, Reg.VTEST_T_HI_VT_HI, Reg.CAN_TT_CYC_TIME 0, Reg.CAN_TT_CYC_TIME 1, Reg.CAN_TT_CYC_TIME 2, Reg.CAN_TT_CYC_TIME 3] ++
  ((satSlots.map fun n => [Reg.LINK_ERR_CRC_ERRORS n, Reg.LINK_ERR_DROPS n, Reg.LINK_MISS_MISSED_COMMITS n,
    Reg.LINK_MISS_MISSED_INPUTS n]).flatten) ++
  (([0, 1, 2, 3].map fun p => [Reg.PORT_RX_RX_FRAMES p, Reg.PORT_TX_TX_FRAMES p, Reg.PORT_ERR_DROPPED p]).flatten) ++
  (([0, 1, 2].map fun l => [Reg.LANE_EVT_MIN_EVENTS l, Reg.LANE_EVT_REJOINS l, Reg.LANE_T_LO_T_LO l, Reg.LANE_T_HI_T_HI l]).flatten)

/-- R46. A snapshot request; ignored while one runs. -/
def State.snapReq (s : State) : State :=
  if s.fbit Reg.SNAP_CTRL_SNAP_BUSY then s
  else ({ s with capt := s.captured }).fon Reg.SNAP_CTRL_SNAP_BUSY

/-- SNAP_REQ (R46). -/
def execSnapReq (s : State) : Out := .next (if s.mode = mPark then s else s.snapReq)

/-- SNAP_DONE (R46). -/
def execSnapDone (s : State) : Out :=
  if !s.fbit Reg.SNAP_CTRL_SNAP_BUSY then .next s
  else
    let s := snapFields.foldl (fun s f => s.fset f (fieldOf (mget 0 s.capt f.addr) f.lo (f.hi + 1 - f.lo))) s
    .next (({ s.measured with capt := [] }.fset Reg.SNAP_CTRL_SNAP_BUSY 0).fmod Reg.SNAP_CTRL_SNAP_SEQ)

/-! ### Loop-backs (R489, R490) -/

/-- Table 17.10. The test is marked quiet. -/
def State.lbQuiet (s : State) (iface depth num : Nat) : Bool :=
  match iface with
  | 1 => depth == 3
  | 2 => depth == 3
  | 3 => s.topoN 0x0801 num 0 1 0 % 2 == 0
  | 4 => depth != 3
  | 5 => true
  | 6 => depth == 2
  | 8 => true
  | 9 => depth == 2
  | _ => false

/-- Table 17.10. The test is provided, on an instance that the interface has. DESIGN CHOICE: a request with a code that names no
test, the xSPI L3 test, which runs at boot step 5 only, and the Query Port L3 test, which the host makes, report result 5. -/
def lbProvided (iface depth num : Nat) : Bool :=
  decide (1 ≤ depth) && decide (depth ≤ 3) &&
    (match iface with
    | 1 => decide (1 ≤ num) && decide (num ≤ 7)
    | 2 => true
    | 3 => decide (num ≤ 3)
    | 4 => depth != 3
    | 5 => depth != 3
    | 6 => decide (num ≤ 11)
    | 7 => depth == 1 && decide (num ≤ 11)
    | 8 => decide (num ≤ 23)
    | 9 => decide (num ≤ 1) || (depth == 3 && decide (num ≤ 31))
    | _ => false)

/-- R489, R490. The state that the test asks of its channel or output. DESIGN CHOICE: an instance on an unfitted die, or a channel
without a role, is in the wrong state. -/
def State.lbState (s : State) (iface depth num arg : Nat) : Bool :=
  match iface with
  | 1 => s.fitted num
  | 6 =>
    s.chOn num && (depth != 3 ||
      ([dLocked, tStowed, dHalted, tHalted].contains (s.door num).state && (s.door num).speed == 0 && (s.door num).run == 0))
  | 7 => s.chOn num
  | 8 =>
    let l := s.load num
    s.ldUsed num && (if depth = 1 then !l.isOn else if depth = 2 then !l.isOn && s.band num == 0
      else l.state == lOn && l.winEnd.isNone)
  | 9 =>
    if depth = 3 then
      s.fitted (6 + num / 16) && decide (arg < 64) && !bit (s.topoN 0x0604 (num / 16) (4 * (num % 16) + 2) 1 4) 0 && !s.pairOuts.contains num
    else s.fitted (6 + num)
  | _ => true

/-- R490. A loop-back is requested. DESIGN CHOICE: a request while one runs changes nothing. -/
def State.lbStart (s : State) (iface depth num arg : Nat) : State :=
  if s.fbit Reg.LB_STAT_BUSY then s
  else
    let s := ((s.fset Reg.LB_STAT_LB_IFACE iface).fset Reg.LB_STAT_LB_DEPTH depth).fset Reg.LB_STAT_ERRORS 0
    let quiet := s.lbQuiet iface depth num
    if !lbProvided iface depth num then s.fset Reg.LB_STAT_RESULT 5
    else if s.mode ≠ mMaint ∧ !(quiet && (s.mode == mStandby || s.mode == mActive || s.mode == mSafe)) then s.fset Reg.LB_STAT_RESULT 3
    else if !s.lbState iface depth num arg then s.fset Reg.LB_STAT_RESULT 4
    else
      ({ s with tap := { s.tap with lb := some { iface, depth, num, quiet } } }.fset Reg.LB_STAT_RESULT 0).fset Reg.LB_STAT_BUSY 1

/-- R490. A request as the fields of `LB_CTRL` give it, which hold what was written. -/
def State.lbWrite (s : State) (iface depth num arg : Nat) : State :=
  let s := (((s.fset Reg.LB_CTRL_IFACE iface).fset Reg.LB_CTRL_DEPTH depth).fset Reg.LB_CTRL_INST num).fset Reg.LB_CTRL_ARG arg
  s.lbStart iface depth num arg

/-- LB_DIE_LINK (R490). -/
def execLbDieLink (depth : BitVec 2) (num : Byte) (s : State) : Out := .next (s.lbWrite 1 depth.toNat num.toNat 0)
/-- LB_ROPE (R490). -/
def execLbRope (depth : BitVec 2) (s : State) : Out := .next (s.lbWrite 2 depth.toNat 0 0)
/-- LB_ETHERNET (R490). -/
def execLbEthernet (depth : BitVec 2) (num : Byte) (s : State) : Out := .next (s.lbWrite 3 depth.toNat num.toNat 0)
/-- LB_XSPI (R490). -/
def execLbXspi (depth : BitVec 2) (s : State) : Out := .next (s.lbWrite 4 depth.toNat 0 0)
/-- LB_QUERY_PORT (R490). -/
def execLbQueryPort (depth : BitVec 2) (s : State) : Out := .next (s.lbWrite 5 depth.toNat 0 0)
/-- LB_DOOR_DRIVE (R490). -/
def execLbDoorDrive (depth : BitVec 2) (num : Byte) (s : State) : Out := .next (s.lbWrite 6 depth.toNat num.toNat 0)
/-- LB_DOOR_INPUTS (R490). -/
def execLbDoorInputs (depth : BitVec 2) (num : Byte) (s : State) : Out := .next (s.lbWrite 7 depth.toNat num.toNat 0)
/-- LB_LOAD_CHANNEL (R490). -/
def execLbLoadChannel (depth : BitVec 2) (num : Byte) (s : State) : Out := .next (s.lbWrite 8 depth.toNat num.toNat 0)
/-- LB_FIELD_IO (R490). -/
def execLbFieldIo (depth : BitVec 2) (num arg : Byte) (s : State) : Out := .next (s.lbWrite 9 depth.toNat num.toNat arg.toNat)

/-- LOOPBACK_DONE (R490): the test in hand ends with its result. -/
def execLoopbackDone (pass : Bool) (errors : BitVec 16) (s : State) : Out :=
  if !s.fbit Reg.LB_STAT_BUSY then .next s
  else
    let s := ((s.fset Reg.LB_STAT_RESULT (if pass then 1 else 2)).fset Reg.LB_STAT_ERRORS errors.toNat).fset Reg.LB_STAT_BUSY 0
    .next { s with tap := { s.tap with lb := none } }

/-- R490. A die-link L1 or L2 test holds the die of slot `n` off its link. -/
def State.looped (s : State) (n : Nat) : Bool :=
  match s.tap.lb with
  | some l => l.iface == 1 && decide (l.depth ≤ 2) && l.num == n
  | none => false

/-! ### Clocks and supplies -/

/-- REFCLK_LOSS (R481, R44): `CLOCK_FAIL`, with a domain number the spec does not give; the load dies go on on CLK_LRC. -/
def execRefclkLoss (s : State) : Out :=
  if s.mode = mPark then .next s
  else
    let (d, s) := s.takeFree 16
    let s := (s.fset Reg.CLK_STAT_REFCLK_OK 0).fon Reg.CLK_FLAGS_REFCLK_LOSS_SEEN
    let s := s.each (([0, 1] : List Nat).filter fun x => s.present (4 + x)) fun s x =>
      (s.fon (Reg.LSW_STAT_ON_LRC x)).fon (Reg.LSW_FLAGS_LRC_SEEN x)
    .next (s.enterSafe 0x08 d)

/-- PLL_UNLOCK (R60). DEDUCED: `DETAIL` numbers the domain as `PLL_LOCK` does. -/
def execPllUnlock (pll : Fin 8) (s : State) : Out :=
  if s.mode = mPark then .next s
  else
    let s := s.fset Reg.CLK_STAT_PLL_LOCK (putBit (s.fget Reg.CLK_STAT_PLL_LOCK) pll false)
    .next ((s.fon Reg.CLK_FLAGS_PLL_UNLOCK_SEEN).enterSafe 0x08 pll)

/-- XTAL_FAIL (R482). -/
def execXtalFail (s : State) : Out :=
  .next (((s.fset Reg.CLK_STAT_XTAL_OK 0).fon Reg.CLK_STAT_ON_RC).fon Reg.CLK_FLAGS_XTAL_FAIL)

/-- VHU_MEASURED (R476): at a cold boot, VHU rose from 2.0 V to 10.0 V in `us`. -/
def execVhuMeasured (us : Nat) (s : State) : Out :=
  if s.mode ≠ mBoot ∨ !s.boot.cold then .next s
  else
    let c := us * 3 / 80
    .next (((s.fset Reg.VHU_CAP_CAP_UF (clip 12 c)).fput Reg.VHU_CAP_VHU_WEAK (decide (c < 544))).fon Reg.VHU_CAP_MEASURED)

/-- IO_SUPPLY_VALID (R475): the lands of a supply are high-impedance, and the claim and release outputs deasserted, while it is
outside its range. -/
def execIoSupplyValid (eth valid : Bool) (s : State) : Out :=
  if eth then .next { s with tap := { s.tap with vioEth := valid } }
  else
    let s := { s with tap := { s.tap with vio := valid } }
    let s := s.fput Reg.MODE_STAT_CLAIM_OUT (s.dup.claimOut && valid)
    let s := if s.board.seatB then s.fput Reg.DUP_STAT_CLAIM_B_LAND (s.dup.claimOut && valid)
      else s.fput Reg.DUP_STAT_CLAIM_A_LAND (s.dup.claimOut && valid)
    .next (s.fput Reg.DUP_STAT_REL_OUT (s.dup.relAt.isSome && valid))

end Sys2Proof.Machine
end

