-- ==== Sys2Proof/Machine/Objects.lean ====
section
/-! DEFINITION. Requests of the external masters on the object map: writes to registers with their effects, READ_OBJ (R384), and the
Query Port (R464 to R470). -/

namespace Sys2Proof.Machine

/-! ### Writes -/

/-- R65, Table 2.8. The scoped resets that a write of `w` to `SCOPED_RESET` starts. -/
def State.scopedResets (s : State) (w : Nat) : State :=
  let s := s.each (ctlNums.filter fun c => bit w c) fun s c => s.canReset c
  let s := if bit w 4 then s.qpReset else s
  let s := if bit w 5 then s.ropeReset else s
  s.each (satSlots.filter fun n => bit w (7 + n)) fun s n => s.linkReset n

/-- R12. A write of the control-die register at `a` with all its effects; `false`: no register there. -/
def State.regWrite (s : State) (a w : Nat) : Bool × State :=
  let (ok, s) := s.ctlWrite a w
  (ok,
    if a = 0x40000010 then s.scopedResets w
    else if a = Reg.SNAP_CTRL_SNAP_REQ.addr ∧ bit w 0 then s.snapReq
    else if a = Reg.LB_CTRL_START.addr ∧ bit w 31 then s.lbStart (fieldOf w 0 4) (fieldOf w 4 2) (fieldOf w 8 8) (fieldOf w 16 8)
    else s)

/-- R47, R496. A write of the word `w` at `a` by an external requester: its status. An address in a satellite's register space is
not answered here. -/
def State.objWrite (s : State) (a w : Nat) : Nat × State :=
  if a < 0x10000 ∨ (sBase ≤ a ∧ a < 0x74000) then (aProtected, s)
  else if memMapped a then (aOk, s.memWrite a w)
  else
    let (ok, s) := s.regWrite a w
    (if ok then aOk else aUnmapped, s)

/-- REGISTER_WRITE (R12): on the control die at once, on a satellite over its link (R22). -/
def execRegisterWrite (addr : Word) (v : Word) (s : State) : Out :=
  if s.mode = mPark then .next s
  else
    match slotOfAddr addr.toNat with
    | some n =>
      if s.fitted n then .next (s.regSubmit n { req := 0, write := true, off := addr.toNat - satBase n, data := v.toNat }) else .next s
    | none => .next (s.regWrite addr.toNat v.toNat).2

/-- RC_READ (R12). -/
def execRcRead (addr : Word) (s : State) : Out :=
  if s.mode = mPark then .next s
  else
    match slotOfAddr addr.toNat with
    | some n =>
      if s.fitted n then .next (s.regSubmit n { req := 0, write := false, off := addr.toNat - satBase n, data := 0 }) else .next s
    | none => .next (s.ctlRead addr.toNat).2

/-! ### READ_OBJ -/

/-- R384. Status of the reply to a READ_OBJ that meets access status `st`. -/
def replyOf (st : Nat) : Nat :=
  if st = aProtected then rProt else if st = aUnmapped then rUnmapped else if st = aEcc then rEcc else if st = aTimeout then rTimeout else rDone

/-- The code of READ_OBJ (Table 13.7). -/
abbrev vReadObj : Nat := 0x0010

/-- R384. A READ_OBJ ends, with its data or with the status of the first word that failed. -/
def State.readEnd (s : State) (x st : Nat) (data : List Byte) : State :=
  let s := { s with reads := mset none s.reads x none }
  s.replyNow x vReadObj (replyOf st) 0 (if st = aOk then data else [])

/-- R384, R22, R3. A READ_OBJ of session `x` goes on, for at most `fuel` words, until it ends or waits for a link. -/
def State.readGo (s : State) (x : Nat) : Nat → State
  | 0 => s
  | fuel + 1 =>
    match mget none s.reads x with
    | some j =>
      if j.len ≤ j.data.length then s.readEnd x aOk j.data
      else
        let a := j.addr + j.data.length
        match slotOfAddr a with
        | some n =>
          if s.fitted n then s.regSubmit n { req := 0, write := false, off := a - satBase n, data := x + 1 }
          else ({ s with reads := mset none s.reads x (some { j with data := j.data ++ leBytes 4 0 }) }).readGo x fuel
        | none =>
          let (st, v, s) := s.objRead false a
          if st = aOk then
            ({ s with reads := mset none s.reads x (some { j with data := j.data ++ leBytes 4 v }) }).readGo x fuel
          else s.readEnd x st []
    | none => s

/-- R384. READ_OBJ under way, the agent's windows passed. -/
def State.readStart (s : State) (x addr len : Nat) : State :=
  ({ s with reads := mset none s.reads x (some { addr, len, data := [] }) }).readGo x 257

/-! ### Query Port -/

/-- The ticket of number `t`, if it is live. -/
def State.qTick (s : State) (t : Nat) : Option QTick := s.qp.ticks.find? fun k => k.num == t

/-- Replaces a live ticket. -/
def State.setTick (s : State) (k : QTick) : State :=
  { s with qp := { s.qp with ticks := s.qp.ticks.map fun j => if j.num == k.num then k else j } }

/-- R468. Ticket `k` is served with result `res`. -/
def State.tickEnd (s : State) (k : QTick) (res : Nat) (data : List Byte) : State :=
  s.setTick { k with res := some res, data := if res = aOk ∧ !k.write then data else [], done := none }

/-- R468, R22, R3. A request goes on, for at most `fuel` words, until it ends or waits for a link. A write stops at the word that
fails. -/
def State.tickGo (s : State) (t : Nat) : Nat → State
  | 0 => s
  | fuel + 1 =>
    match s.qTick t with
    | some k =>
      let i := 4 * k.done.getD 0
      if k.len ≤ i then s.tickEnd k aOk k.data
      else
        let a := k.addr + i
        match slotOfAddr a with
        | some n =>
          if s.fitted n then
            s.regSubmit n { req := 1, write := k.write, off := a - satBase n, data := if k.write then leAt k.data i 4 else t }
          else (s.setTick { k with done := some (i / 4 + 1), data := if k.write then k.data else k.data ++ leBytes 4 0 }).tickGo t fuel
        | none =>
          if k.write then
            let (st, s) := s.objWrite a (leAt k.data i 4)
            if st = aOk then (s.setTick { k with done := some (i / 4 + 1) }).tickGo t fuel else s.tickEnd k st []
          else
            let (st, v, s) := s.objRead true a
            if st = aOk then (s.setTick { k with done := some (i / 4 + 1), data := k.data ++ leBytes 4 v }).tickGo t fuel
            else s.tickEnd k st []
    | none => s

/-- R106, R468. A request begins, at the publish point whose commit counter and reference cycle its result carries. -/
def State.tickStart (s : State) (k : QTick) : State :=
  let k := { k with ccount := s.cimg.ccount, cyc := s.refCycle }
  if !s.allowed 1 k.addr k.len k.write then (s.violation 1 k.addr).tickEnd k aProtected []
  else (s.setTick { k with done := some 0, data := if k.write then k.data else [] }).tickGo k.num 257

/-- The first ticket that has not been served. -/
def State.qNext (s : State) : Option QTick := s.qp.ticks.find? fun k => k.res.isNone

/-- R468. Requests in ticket order, up to `left` bytes; one that waits for a link holds those after it. -/
def State.qServe (s : State) : Nat → Nat → State
  | 0, _ => s
  | fuel + 1, left =>
    match s.qNext with
    | some k =>
      if k.done.isSome ∨ left < k.len then s
      else (s.tickStart k).qServe fuel (left - k.len)
    | none => s

/-- R468. The service at a publish point, with the protection lock set (R104). -/
def State.qpService (s : State) : State := if s.fbit Reg.PROT_STAT_PROT_LOCK then s.qServe 16 4096 else s

/-- R464. The port answers: VIO is valid and the module is not in PARK. -/
def State.qpOn (s : State) : Bool := s.tap.vio && s.mode != mPark && !s.tap.held && !s.tap.pinLow && !s.power.hold && !s.power.peerHold

/-- R465. The status word that `QP_MISO` carries first. -/
def State.qpStatus (s : State) : List Byte :=
  let any := s.qp.ticks.any fun k => k.res.isSome && !k.rep
  [0x5C] ++ leBytes 1 s.qp.issued ++
    leBytes 1 (s.qp.ticks.length % 32 + 32 * b2n (s.fbit Reg.QP_STAT_RESET_SEEN) + 64 * b2n s.qp.rejected + 128 * b2n any) ++
    leBytes 1 (s.mode + 8 * b2n (s.fbit Reg.PROT_STAT_PROT_LOCK))

/-- What a transaction carried on `QP_MISO`. -/
def State.qpMiso (s : State) (more : List Byte) : State := { s with qp := { s.qp with miso := s.qpStatus ++ more } }

/-- R466. A frame is rejected. -/
def State.qpReject (s : State) : State :=
  ({ s with qp := { s.qp with rejected := true } }).fsat Reg.QP_CNT_FRAME_ERR

/-- R466, R467. An accepted submission takes the next ticket; the ticket 16 before it expires. -/
def State.submit (s : State) (write : Bool) (addr len : Nat) (data : List Byte) : State :=
  let t := s.qp.issued % 256
  let on (k : QTick) : Bool := decide ((t + 1 + 256 - k.num) % 256 ≤ 16)
  let live := s.qp.ticks.filter on
  let s := s.finishWrites (s.qp.ticks.filter fun k => !on k)
  let s := { s with qp := { s.qp with
    ticks := live ++ [({ num := t, write, addr, len, data } : QTick)], issued := s.qp.issued + 1, rejected := false } }
  ((s.fset Reg.QP_STAT_RESET_SEEN 0).fmod Reg.QP_CNT_SUBMITS).qpView

/-- R466. The checks of a submission on address and length. -/
def submitOk (addr len : Nat) : Bool := addr % 4 == 0 && decide (4 ≤ len) && decide (len ≤ 1024) && len % 4 == 0

/-- SUBMIT_READ (R466). -/
def execSubmitRead (whole : Bool) (crc : BitVec 16) (addr : Word) (len : BitVec 16) (s : State) : Out :=
  if !s.qpOn || s.qp.resetDue then .next s
  else
    let s := s.qpMiso []
    let f : List Byte := [0x10, 0] ++ beBytes 4 addr.toNat ++ beBytes 2 len.toNat
    .next (if whole ∧ crc16 f = crc.toNat ∧ submitOk addr.toNat len.toNat then s.submit false addr.toNat len.toNat [] else s.qpReject)

/-- SUBMIT_WRITE (R466). -/
def execSubmitWrite (whole : Bool) (crc : BitVec 16) (addr : Word) (len : BitVec 16) (data : List Byte) (s : State) : Out :=
  if !s.qpOn || s.qp.resetDue then .next s
  else
    let s := s.qpMiso []
    let d := data.take len.toNat
    let f : List Byte := [0x11, 0] ++ beBytes 4 addr.toNat ++ beBytes 2 len.toNat ++ d
    .next (if whole ∧ d.length = len.toNat ∧ crc16 f = crc.toNat ∧ submitOk addr.toNat len.toNat then
      s.submit true addr.toNat len.toNat d else s.qpReject)

/-- R467. What the number of a ticket that is not live reads as: 2 `EXPIRED`, 3 `UNKNOWN`. -/
def State.deadTick (s : State) (t : Nat) : Nat :=
  if t < s.qp.issued then 2 else 3

/-- Table 16.5. The result of ticket `t`. -/
def State.qpResult (s : State) (t : Nat) : List Byte :=
  let mk (res fl len cc cyc : Nat) (d : List Byte) : List Byte :=
    let f := beBytes 1 t ++ beBytes 1 res ++ beBytes 1 fl ++ [0] ++ beBytes 2 len ++ beBytes 2 cc ++ beBytes 4 cyc ++ d
    f ++ beBytes 2 (crc16 f)
  match s.qTick t with
  | some k =>
    match k.res with
    | some r => mk r (b2n k.rep + 2 * b2n k.write) k.data.length k.ccount k.cyc k.data
    | none => mk 1 (2 * b2n k.write) 0 0 0 []
  | none => mk (s.deadTick t) 0 0 0 0 []

/-- FETCH (R469): `whole`: the rise of `QP_CS_N` came after the last `CRC` bit. -/
def execFetch (ticket : Byte) (whole : Bool) (s : State) : Out :=
  if !s.qpOn || s.qp.resetDue then .next s
  else
    let t := ticket.toNat
    let s := (s.qpMiso (s.qpResult t)).fmod Reg.QP_CNT2_FETCHES
    match s.qTick t with
    | some k => .next (if whole ∧ k.res.isSome then s.setTick { k with rep := true } else s)
    | none => .next (if s.deadTick t = 2 then s.fsat Reg.QP_CNT2_EXPIRED_READS else s)

/-- ACK (R469). -/
def execQpAck (ticket : Byte) (crc : BitVec 16) (s : State) : Out :=
  if !s.qpOn || s.qp.resetDue then .next s
  else
    let s := s.qpMiso []
    let ok := crc16 [0x21, ticket] == crc.toNat &&
      (match s.qTick ticket.toNat with | some k => k.res.isSome | none => false)
    if ok then
      .next ({ s with qp := { s.qp with ticks := s.qp.ticks.filter fun k => k.num != ticket.toNat } }).qpView
    else .next (s.fsat Reg.QP_CNT_FRAME_ERR)

/-- STATUS (R465). -/
def execStatus (s : State) : Out := .next (if s.qpOn then s.qpMiso [] else s)

/-- QP_RESET (R470): accepted with its three bytes and its CRC. -/
def execQpReset (magic : BitVec 24) (crc : BitVec 16) (s : State) : Out :=
  if !s.qpOn then .next s
  else
    let s := s.qpMiso []
    let f : List Byte := [0xF0] ++ beBytes 3 magic.toNat
    .next (if magic.toNat = 0x515052 ∧ crc16 f = crc.toNat then s.qpReset else s.qpReject)

/-- A transaction with a command of no row of Table 16.4 (R466). -/
def execQpUnknownCommand (cmd : Byte) (s : State) : Out :=
  if !s.qpOn || s.qp.resetDue || [0x10, 0x11, 0x20, 0x21, 0x30, 0xF0].contains cmd.toNat then .next s else .next (s.qpMiso []).qpReject

/-! ### Ends of register accesses (R22) -/

/-- R22. The access of slot `n` in hand ends with status `st` and value `v`; its requester hears of it and the next goes out. -/
def State.regEnd (s : State) (n st v : Nat) : State :=
  match (s.link n).regQ with
  | r :: rest =>
    let s := s.setLink n { s.link n with regQ := rest, regAt := none }
    let s :=
      match r.req with
      | 0 =>
        let x := r.data - 1
        if r.write ∨ r.data = 0 then s
        else
          match mget none s.reads x with
          | some j =>
            if st = aOk then
              ({ s with reads := mset none s.reads x (some { j with data := j.data ++ leBytes 4 v }) }).readGo x 257
            else s.readEnd x st []
          | none => s
      | 1 =>
        let t := if r.write then (match s.qNext with | some k => k.num | none => 0) else r.data
        match s.qTick t with
        | some k =>
          if k.done.isNone ∨ k.res.isSome then s
          else if st ≠ aOk then s.tickEnd k st []
          else
            (s.setTick { k with done := some (k.done.getD 0 + 1), data := if k.write then k.data else k.data ++ leBytes 4 v }).tickGo t 257
        | none => s
      | 2 => { s with tap := { s.tap with tdo := leBytes 4 v ++ leBytes 1 st } }
      | 4 =>
        match s.dup.prep with
        | some m =>
          if st = aOk ∧ r.write ∧ r.data = 0 ∧ (r.off = 0x14 ∨ r.off = 0x1C) then
            { s with dup := { s.dup with prep := some (putBit m n false) } }
          else s
        | none => s
      | _ => s
    s.regSend n
  | [] => s

end Sys2Proof.Machine
end

