-- ==== Sys2Proof/Machine/Ledger.lean ====
section
/-! DEFINITION. The cycle ledger (R459 to R462): the open record of each door, built from the frames of its die, and the record
written at the end of a cycle. -/

namespace Sys2Proof.Machine

/-- The open record of door `k`. -/
def State.lrec (s : State) (k : Nat) : LRec := mget {} s.ledger k

/-- Sets the record of door `k` and shows whether a cycle is open. -/
def State.setRec (s : State) (k : Nat) (r : LRec) : State :=
  ({ s with ledger := mset {} s.ledger k r }).fput (Reg.LDG_STAT_OPEN k) r.isOpen

/-- Table 15.4. Place of the ledger head and lifetime counters of door `k` in the system headers. DESIGN CHOICE: the spec names the
region, not the layout: cycles, obstacles, halts and kJ, 4 bytes each, then the energy remainder in 0.1 J (4). -/
def ledgerHead (k : Nat) : Nat := hdrBase + 0x2000 + k * 32

/-- R462. The ledger head and the counters in the system headers. -/
def State.saveLedger (s : State) (k : Nat) : State :=
  ((((s.mwN (ledgerHead k) 4 (s.fget (Reg.LT_CYCLES_CYCLES k))).mwN (ledgerHead k + 4) 4 (s.fget (Reg.LT_OBST_OBSTACLES k))).mwN
    (ledgerHead k + 8) 4 (s.fget (Reg.LT_HALTS_HALTS k))).mwN (ledgerHead k + 12) 4 (s.fget (Reg.LT_ENERGY_KJ k)))

/-- R462. The head and the counters as the system headers hold them. -/
def State.loadLedger (s : State) (k : Nat) : State :=
  let n := s.mrN (ledgerHead k) 4
  let s := (((s.fset (Reg.LT_CYCLES_CYCLES k) n).fset (Reg.LT_OBST_OBSTACLES k) (s.mrN (ledgerHead k + 4) 4)).fset (Reg.LT_HALTS_HALTS k)
    (s.mrN (ledgerHead k + 8) 4)).fset (Reg.LT_ENERGY_KJ k) (s.mrN (ledgerHead k + 12) 4)
  (s.fput (Reg.LDG_STAT_EMPTY k) (decide (n = 0))).fset (Reg.LDG_STAT_NEWEST k) (if n = 0 then 0 else (n - 1) % 4096)

/-- R462. The cycle of door `k` ends with the record `r`: written to its slot, then head and counters. -/
def State.closeRec (s : State) (k : Nat) (r : LRec) : State :=
  let slot := s.fget (Reg.LT_CYCLES_CYCLES k) % 4096
  let s := s.mwBytes (0x10400000 + k * 0x20000 + slot * 32) (s.ledgerBytes k r true)
  let e := s.mrN (ledgerHead k + 16) 4 + clip 16 r.energy
  let s := s.mwN (ledgerHead k + 16) 4 (e % 10000)
  let s := (((s.fsat (Reg.LT_CYCLES_CYCLES k)).fsat (Reg.LT_OBST_OBSTACLES k) (min 255 r.obst)).fsat (Reg.LT_HALTS_HALTS k)
    (r.flags / 2 % 2)).fsat (Reg.LT_ENERGY_KJ k) (e / 10000)
  let s := (s.fset (Reg.LDG_STAT_NEWEST k) slot).fset (Reg.LDG_STAT_EMPTY k) 0
  (s.saveLedger k).setRec k { state := r.state, at_ := r.at_ }

/-- R460. Time `dt` ns spent in state `st`. -/
def LRec.spent (r : LRec) (st dt : Nat) : LRec :=
  if st = dReleased then { r with tWait := r.tWait + dt }
  else if st = dUnlocking then { r with tUnlock := r.tUnlock + dt }
  else if st = dOpening then { r with tOpen := r.tOpen + dt }
  else if st = dClosing ∨ st = dReversing then { r with tClose := r.tClose + dt }
  else if st = dLocking then { r with tLock := r.tLock + dt }
  else { r with tDwell := r.tDwell + dt }

/-- R459. A record opens for door `k`, in state `st` entered at local time `t`. -/
def State.openRec (s : State) (k st t flags : Nat) : State :=
  let prof := s.outProfile ((mget 0 (s.boundOut (chSlot k)) (16 * (k % 4) + 3)).toNat)
  s.setRec k { isOpen := true, state := st, at_ := t, opSec := s.opSec, flags := flags + 8 * b2n (s.mode == mMaint), stepAct := prof % 16 * 16 }

/-- R461. A state change of door `k`: the state entered, local time [39:0], and peak force, energy (0.1 J) and lowest V_DC of the
state just left. -/
def State.ledgerChange (s : State) (k st t peak energy vdc : Nat) : State :=
  let r := s.lrec k
  if !r.isOpen then
    if st = dReleased ∧ (r.state = dLocked ∨ r.state = 0xFF) then s.openRec k st t 0
    else s.setRec k { r with state := st, at_ := t }
  else
    let old := r.state
    let r := r.spent old ((t + 2 ^ 40 - r.at_ % 2 ^ 40) % 2 ^ 40)
    let r := if inMotion old ∨ old = dReversing then { r with energy := r.energy + energy, vdcMin := min r.vdcMin vdc } else r
    let r := if old = dClosing then { r with fPeak := max r.fPeak peak } else r
    let r := if st = dReversing then { r with obst := r.obst + 1 } else r
    let fl := b2n (st == dOpening) + 2 * b2n (st == dHalted) + 8 * b2n (s.mode == mMaint) + 32 * b2n (s.door k).ledGap
    let r := { r with state := st, at_ := t, flags := r.flags ||| fl }
    let s := s.modDoor k fun d => { d with ledGap := false }
    if st = dLocked then s.closeRec k r else s.setRec k r

/-- R462. After a boot, or a takeover without a belay set, a door of die `n` that its first block `p` shows in any state but `LOCKED`
opens a record with `RESUMED`. -/
def State.resumeRecs (s : State) (n : Nat) (p : List Byte) : State :=
  let s := { s with boot := { s.boot with resume := putBit s.boot.resume n false } }
  s.each [0, 1, 2, 3] fun s c =>
    let k := 4 * (n - 1) + c
    let st := leAt p (8 + 32 * c) 1
    if s.ilRole k == 1 && st != dLocked && !(s.lrec k).isOpen then s.openRec k st (s.localTime n % 2 ^ 40) 128 else s

/-- R460. Marks the open record of door `k` with `END_FLAGS` bits and `STEP_ACT` bits. -/
def State.markRec (s : State) (k flags step : Nat) : State :=
  let r := s.lrec k
  if r.isOpen then s.setRec k { r with flags := r.flags ||| flags, stepAct := r.stepAct ||| step } else s

/-- R460. What an INPUT block of door die `n` says of steps: `STEP_ACT` of the paired doors, from the block before and the new one. -/
def State.stepActs (s : State) (n : Nat) (old new : List Byte) : State :=
  s.each [0, 1, 2, 3] fun s c =>
    let k := 4 * (n - 1) + c
    let o := leAt old (8 + 32 * c) 1
    let v (i : Nat) : Nat := leAt new (8 + 32 * c + i) 1
    if s.ilRole k = 1 then (if bit (v 3) 7 then s.markRec k 0 4 else s)
    else
      match s.pairDoor k with
      | some d =>
        s.markRec d 0 (b2n (v 0 == tDeployed && o != tDeployed) + 2 * b2n (v 0 == tStowed && o != tStowed) +
          8 * b2n (bit (v 18) 2 || decide (0 < v 14)))
      | none => s

end Sys2Proof.Machine
end

