-- ==== Sys2Proof/Machine/EngineBits.lean ====
section
/-! DEFINITION. Bit operands and the bit, edge, timer and counter instructions (R114, R118 to R129). -/

namespace Sys2Proof.Machine

/-! ### Bit operands -/

/-- R114, R137. The operand bit, and the error of an exchange object that is not locked. -/
def LaneView.bitOf (v : LaneView) (area off : Nat) : Bool × Option Nat :=
  if area = 0 then (bit off 0, none)
  else if area = 9 then
    let obj := off / 2 ^ 10
    if v.locked obj then ((v.xWord obj (off / 32 % 32)).toNat.testBit (off % 32), none) else (false, some 0x03)
  else (bit (v.byte area (off / 8)).toNat (off % 8), none)

/-- R116. An instruction marked "E on X" writes E when its area is X. -/
def LaneOut.eOnX (o : LaneOut) (area : Nat) (e : Option Nat) : LaneOut :=
  if area = 9 then (o.sf { o.ctx.sf with e := e.isSome }).error e else o

/-- The next instruction. -/
def LaneOut.next (o : LaneOut) (n : Nat := 1) : LaneOut := o.pc (o.ctx.pc + n)

/-- R118. An instruction that combines the operand bit with `CR`. -/
def laneBit (g : Bool → Bool → Bool) (o : Opnd) (v : LaneView) (c : Ctx) : LaneOut :=
  let (b, e) := v.bitOf o.area.toNat o.off.toNat
  ((({ ctx := c : LaneOut }).cr (g c.cr b)).eOnX o.area.toNat e).next

/-- A store of a bit into Q or M: `b` under the mask of the bit; `go` false stores nothing. -/
def laneStore (g : Ctx → Bool) (go : Ctx → Bool) (o : Opnd) (_v : LaneView) (c : Ctx) : LaneOut :=
  let adr := areaBase o.area.toNat + o.off.toNat / 8
  let m : Byte := BitVec.ofNat 8 (2 ^ (o.off.toNat % 8))
  let r : LaneOut := { ctx := c }
  (if go c then r.store adr (if g c then m else 0) m else r).next

/-- LD (R118). -/
def execLd (l : Lane) (o : Opnd) (s : State) : Out := s.instr l 1 (opndOk 0x01 o) (laneBit (fun _ b => b) o) noPost
/-- LDN (R118). -/
def execLdn (l : Lane) (o : Opnd) (s : State) : Out := s.instr l 1 (opndOk 0x02 o) (laneBit (fun _ b => !b) o) noPost
/-- AND (R118). -/
def execAnd (l : Lane) (o : Opnd) (s : State) : Out := s.instr l 1 (opndOk 0x03 o) (laneBit (fun c b => c && b) o) noPost
/-- ANDN (R118). -/
def execAndn (l : Lane) (o : Opnd) (s : State) : Out := s.instr l 1 (opndOk 0x04 o) (laneBit (fun c b => c && !b) o) noPost
/-- OR (R118). -/
def execOr (l : Lane) (o : Opnd) (s : State) : Out := s.instr l 1 (opndOk 0x05 o) (laneBit (fun c b => c || b) o) noPost
/-- ORN (R118). -/
def execOrn (l : Lane) (o : Opnd) (s : State) : Out := s.instr l 1 (opndOk 0x06 o) (laneBit (fun c b => c || !b) o) noPost
/-- XOR (R118). -/
def execXor (l : Lane) (o : Opnd) (s : State) : Out := s.instr l 1 (opndOk 0x07 o) (laneBit (fun c b => c != b) o) noPost

/-- AB (R118). -/
def execAb (l : Lane) (s : State) : Out :=
  s.instr l 1 (wordOk 0x08 0 0) (fun _ c => (({ ctx := c : LaneOut }).defer true).next) noPost
/-- OB (R118). -/
def execOb (l : Lane) (s : State) : Out :=
  s.instr l 1 (wordOk 0x09 0 0) (fun _ c => (({ ctx := c : LaneOut }).defer false).next) noPost
/-- BE (R118). -/
def execBe (l : Lane) (s : State) : Out :=
  s.instr l 1 (wordOk 0x0A 0 0) (fun _ c => (({ ctx := c : LaneOut }).takeBack).next) noPost

/-- ST (R118). -/
def execSt (l : Lane) (o : Opnd) (s : State) : Out :=
  s.instr l 1 (opndOk 0x10 o) (laneStore (·.cr) (fun _ => true) o) noPost
/-- STN (R118). -/
def execStn (l : Lane) (o : Opnd) (s : State) : Out :=
  s.instr l 1 (opndOk 0x11 o) (laneStore (fun c => !c.cr) (fun _ => true) o) noPost
/-- SET (R118). -/
def execSet (l : Lane) (o : Opnd) (s : State) : Out :=
  s.instr l 1 (opndOk 0x12 o) (laneStore (fun _ => true) (·.cr) o) noPost
/-- RST (R118). -/
def execRst (l : Lane) (o : Opnd) (s : State) : Out :=
  s.instr l 1 (opndOk 0x13 o) (laneStore (fun _ => false) (·.cr) o) noPost

/-! ### Edges -/

/-- R120, R121. `rise`: `PE`, else `NE`; an unseeded instance takes `CR` and yields 0. -/
def laneEdge (rise : Bool) (o : Opnd) (v : LaneView) (c : Ctx) : LaneOut :=
  let i := o.off.toNat
  let m : Byte := BitVec.ofNat 8 (2 ^ (i % 8))
  let prev := bit (v.mem (eBase + i / 8)).toNat (i % 8)
  let seeded := bit (v.mem (seedBase + i / 8)).toNat (i % 8)
  let out := seeded && (if rise then c.cr && !prev else prev && !c.cr)
  let r := ({ ctx := c : LaneOut }).store (eBase + i / 8) (if c.cr then m else 0) m
  let r := if seeded then r else r.store (seedBase + i / 8) m m
  (r.cr out).next

/-- PE (R120). -/
def execPe (l : Lane) (o : Opnd) (s : State) : Out := s.instr l 1 (opndOk 0x14 o) (laneEdge true o) noPost
/-- NE (R120). -/
def execNe (l : Lane) (o : Opnd) (s : State) : Out := s.instr l 1 (opndOk 0x15 o) (laneEdge false o) noPost

/-! ### Timers -/

/-- A timer instance (Table 4.8). -/
structure TInst where
  et : Nat
  pt : Nat
  start : Nat
  q : Bool
  inPrev : Bool
  running : Bool
  done : Bool
  seeded : Bool
deriving DecidableEq, Repr

/-- Reads 16 bytes as a timer instance. -/
def TInst.of (l : List Byte) : TInst :=
  let f := leAt l 14 1
  { et := leAt l 0 4, pt := leAt l 4 4, start := leAt l 8 6, q := bit f 0, inPrev := bit f 1, running := bit f 2, done := bit f 3,
    seeded := bit f 4 }

/-- The first 15 bytes of a timer instance; `KIND` stays. -/
def TInst.bytes (x : TInst) : List Byte :=
  leBytes 4 x.et ++ leBytes 4 x.pt ++ leBytes 6 x.start ++
    leBytes 1 (b2n x.q + 2 * b2n x.inPrev + 4 * b2n x.running + 8 * b2n x.done + 16 * b2n x.seeded)

/-- R123. Elapsed time in ns at grid index `g`, modulo 2⁴⁸ in the grid index. -/
def TInst.elapsed (x : TInst) (g : Nat) : Nat := (g + 2 ^ 48 - x.start % 2 ^ 48) % 2 ^ 48 * 25000

/-- A timer that starts at `g` with output `q0` while it runs and `q1` once reached: with PT = 0 at once. -/
def TInst.begin (x : TInst) (g pt : Nat) (q0 q1 : Bool) : TInst :=
  if pt = 0 then { x with start := g % 2 ^ 48, et := 0, q := q1, running := false, done := true }
  else { x with start := g % 2 ^ 48, et := 0, q := q0, running := true, done := false }

/-- A running timer: `q1` and done once reached, else `ET` follows. -/
def TInst.run (x : TInst) (g pt : Nat) (q1 : Bool) : TInst :=
  if pt * 1000000 ≤ x.elapsed g then { x with q := q1, et := pt, running := false, done := true }
  else { x with et := min (x.elapsed g / 1000000) pt }

/-- Table 4.9, `TON`. -/
def TInst.ton (x : TInst) (i : Bool) (g pt : Nat) : TInst :=
  if !i then { x with q := false, et := 0, running := false, done := false }
  else if x.done then x
  else if x.running then x.run g pt true
  else x.begin g pt false true

/-- Table 4.9, `TOF`: idle with IN = 0 stays idle; held is Q = 1 without `RUNNING` and `DONE`. -/
def TInst.tof (x : TInst) (i : Bool) (g pt : Nat) : TInst :=
  if i then { x with q := true, et := 0, running := false, done := false }
  else if x.done then x
  else if x.running then x.run g pt false
  else if x.q then x.begin g pt true false
  else x

/-- Table 4.9, `TP`: an unseeded instance takes IN and starts no pulse, and is seeded (R121); the other two kinds leave `SEEDED` alone. -/
def TInst.tp (x : TInst) (i : Bool) (g pt : Nat) : TInst :=
  let y := { x with seeded := true }
  if x.running then y.run g pt false
  else if x.done then (if i then y else { y with et := 0, done := false })
  else if x.seeded && i && !x.inPrev then y.begin g pt true false
  else y

/-- R123, R124. A timer evaluation with the state change `f`. -/
def laneTimer (f : TInst → Bool → Nat → Nat → TInst) (o : Opnd) (v : LaneView) (c : Ctx) : LaneOut :=
  let adr := tBase + o.off.toNat % 2048 * 16
  let x := TInst.of ((List.range 16).map fun i => v.mem (adr + i))
  let r : LaneOut := { ctx := c }
  if c.wa.toInt < 0 then
    (((r.cr x.q).wa (BitVec.ofNat 32 x.et)).sf { c.sf with e := true }).error (some 0x06) |>.next
  else
    let pt := c.wa.toNat
    let y := f x c.cr v.a.g pt
    let y := { y with pt, inPrev := c.cr }
    ((((r.stores adr y.bytes).cr y.q).wa (BitVec.ofNat 32 y.et)).sf { c.sf with e := false }).next

/-- TON (R123). -/
def execTon (l : Lane) (o : Opnd) (s : State) : Out := s.instr l 3 (opndOk 0x20 o) (laneTimer TInst.ton o) noPost
/-- TOF (R123). -/
def execTof (l : Lane) (o : Opnd) (s : State) : Out := s.instr l 3 (opndOk 0x21 o) (laneTimer TInst.tof o) noPost
/-- TP (R123). -/
def execTp (l : Lane) (o : Opnd) (s : State) : Out := s.instr l 3 (opndOk 0x22 o) (laneTimer TInst.tp o) noPost

/-! ### Counters -/

/-- R128. A latch form: stores `CR` in the instance's latch bit `b`. -/
def laneLatch (i b : Nat) (_v : LaneView) (c : Ctx) : LaneOut :=
  let m : Byte := BitVec.ofNat 8 (2 ^ b)
  (({ ctx := c : LaneOut }).store (cBase + i * 16 + 12) (if c.cr then m else 0) m).next

/-- R128. The activation remembers which instances' latches it has set. -/
def postLatch (i : Nat) : State → Nat → LaneOut → State := fun s t _ =>
  match s.act t with
  | some a => s.setAct t (some { a with latches := if a.latches.contains i then a.latches else i :: a.latches })
  | none => s

/-- A count up or down by one within the limits (R129). -/
def countUp (cv : Int) : Int := if cv < 2147483647 then cv + 1 else cv
/-- A count down. -/
def countDown (cv : Int) : Int := if -2147483648 < cv then cv - 1 else cv

/-- R129. A form-0 evaluation: `kind` 1 `CTU`, 2 `CTD`, 3 `CTUD`. -/
def laneCount (kind i : Nat) (v : LaneView) (c : Ctx) : LaneOut :=
  let adr := cBase + i * 16
  let l := (List.range 16).map fun j => v.mem (adr + j)
  let f := leAt l 12 1
  let cv := sgn 32 (leAt l 0 4)
  let pv := c.wa.toInt
  let seeded := bit f 4
  let riseA := seeded && c.cr && !bit f (if kind = 2 then 3 else 2)
  let cd := bit f 7
  let riseD := seeded && cd && !bit f 3
  let cv' :=
    if kind = 1 then (if bit f 5 then 0 else if riseA then countUp cv else cv)
    else if kind = 2 then (if bit f 6 then pv else if riseA then countDown cv else cv)
    else if bit f 5 then 0
    else if bit f 6 then pv
    else if riseA && !riseD then countUp cv
    else if riseD && !riseA then countDown cv
    else cv
  let q := if kind = 2 then decide (cv' ≤ 0) else decide (pv ≤ cv')
  let qd := kind == 3 && decide (cv' ≤ 0)
  let cuPrev := if kind = 2 then bit f 2 else c.cr
  let cdPrev := if kind = 1 then bit f 3 else if kind = 2 then c.cr else cd
  let fl := b2n q + 2 * b2n (if kind = 3 then qd else bit f 1) + 4 * b2n cuPrev + 8 * b2n cdPrev + 16
  let r := ({ ctx := c : LaneOut }).stores adr (leBytes 4 (unsgn 32 cv') ++ leBytes 4 c.wa.toNat)
  let r := ((r.store (adr + 12) (BitVec.ofNat 8 fl) 0xFF).cr q).wa (BitVec.ofNat 32 (unsgn 32 cv'))
  (if kind = 3 then r.sf { c.sf with c := qd } else r).next

/-- CTU, form 0 (R129). -/
def execCtu (l : Lane) (i : BitVec 11) (s : State) : Out :=
  s.instr l 3 (wordOk 0x24 5 i.toNat) (laneCount 1 i.toNat) noPost
/-- CTU.R, form 1 (R128). -/
def execCtuR (l : Lane) (i : BitVec 11) (s : State) : Out :=
  s.instr l 1 (wordOk 0x24 5 (0x800 + i.toNat)) (laneLatch i.toNat 5) (postLatch i.toNat)
/-- CTD, form 0 (R129). -/
def execCtd (l : Lane) (i : BitVec 11) (s : State) : Out :=
  s.instr l 3 (wordOk 0x25 5 i.toNat) (laneCount 2 i.toNat) noPost
/-- CTD.L, form 2 (R128). -/
def execCtdL (l : Lane) (i : BitVec 11) (s : State) : Out :=
  s.instr l 1 (wordOk 0x25 5 (0x1000 + i.toNat)) (laneLatch i.toNat 6) (postLatch i.toNat)
/-- CTUD, form 0 (R129). -/
def execCtud (l : Lane) (i : BitVec 11) (s : State) : Out :=
  s.instr l 3 (wordOk 0x26 5 i.toNat) (laneCount 3 i.toNat) noPost
/-- CTUD.R, form 1 (R128). -/
def execCtudR (l : Lane) (i : BitVec 11) (s : State) : Out :=
  s.instr l 1 (wordOk 0x26 5 (0x800 + i.toNat)) (laneLatch i.toNat 5) (postLatch i.toNat)
/-- CTUD.L, form 2 (R128). -/
def execCtudL (l : Lane) (i : BitVec 11) (s : State) : Out :=
  s.instr l 1 (wordOk 0x26 5 (0x1000 + i.toNat)) (laneLatch i.toNat 6) (postLatch i.toNat)
/-- CTUD.D, form 3 (R128). -/
def execCtudD (l : Lane) (i : BitVec 11) (s : State) : Out :=
  s.instr l 1 (wordOk 0x26 5 (0x1800 + i.toNat)) (laneLatch i.toNat 7) (postLatch i.toNat)

end Sys2Proof.Machine
end

