-- ==== Sys2Proof/Machine/EngineWords.lean ====
section
/-! DEFINITION. Word operands and flags, and the word, arithmetic, compare, block and atomic instructions (R116, R130
to R135). -/

namespace Sys2Proof.Machine

/-! ### Flags and operands -/

/-- R116. Z and N of a result word. -/
def Sf.zn (f : Sf) (w : Word) : Sf := { f with z := w == 0, n := w.msb }

/-- R114, R137. The operand word at a byte or object offset, and the error of an object that is not locked. -/
def LaneView.wordOf (v : LaneView) (o : Opnd) : Word × Option Nat :=
  let area := o.area.toNat
  let off := o.off.toNat
  if area = 0 then (o.lit, none)
  else if area = 9 then
    if v.locked (off / 2 ^ 10) then (v.xWord (off / 2 ^ 10) (off % 2 ^ 10), none) else (0, some 0x03)
  else (v.wordAt area (4 * off), none)

/-- Words the instruction occupies: two with a literal. -/
def opndLen (o : Opnd) : Nat := if o.area = 0 then 2 else 1

/-- Bytes of a word, little-endian. -/
def wordBytes (w : Word) : List Byte := leBytes 4 w.toNat

/-- The 32-bit encoding of an exact result, wrapping. -/
def word32 (i : Int) : Word := BitVec.ofInt 32 i

/-- V: the exact result does not fit in 32 bits. -/
def ovf (i : Int) : Bool := decide (i < -2147483648) || decide (2147483647 < i)

/-! ### Loads and stores -/

/-- A load: `WB` takes the old `WA`. -/
def LaneOut.load (o : LaneOut) (w : Word) : LaneOut := (o.wb o.ctx.wa).wa w

/-- LW (R130): Z, N; E on X. -/
def laneLw (o : Opnd) (v : LaneView) (c : Ctx) : LaneOut :=
  let (w, e) := v.wordOf o
  let f := c.sf.zn w
  let f := if o.area = 9 then { f with e := e.isSome } else f
  (((({ ctx := c : LaneOut }).load w).sf f).error e).next

/-- LWK (R130). -/
def laneLwk (lit : Word) (_v : LaneView) (c : Ctx) : LaneOut :=
  ((({ ctx := c : LaneOut }).load lit).sf (c.sf.zn lit)).next 2

/-- R136, R337. The words of an object that a program may write: words 1 to 18 of a transmit buffer. -/
def xWritable (s : State) (obj w : Nat) : Bool :=
  decide (0x100 ≤ obj) && s.bufTx (obj - 0x100) && decide (1 ≤ w) && decide (w ≤ 18)

/-- SW (R130, R136, R337): E on X. -/
def laneSw (o : Opnd) (v : LaneView) (c : Ctx) : LaneOut :=
  let r : LaneOut := { ctx := c }
  let off := o.off.toNat
  if o.area = 9 then
    let obj := off / 2 ^ 10
    let w := off % 2 ^ 10
    if v.locked obj then
      let r := if xWritable v.s obj w then r.xstore obj w (if w = 2 then c.wa &&& 0x7F else c.wa) else r
      (r.eOnX 9 none).next
    else (r.eOnX 9 (some 0x03)).next
  else (r.stores (areaBase o.area.toNat + 4 * off) (wordBytes c.wa)).next

/-- R130. Byte offset of an indexed operand, if the word lies within the area. -/
def idxOff (o : Opnd) (c : Ctx) : Option Nat :=
  let off := 4 * (o.off.toNat + c.ix.toNat)
  if off + 4 ≤ areaSize o.area.toNat then some off else none

/-- LWX (R130). -/
def laneLwx (o : Opnd) (v : LaneView) (c : Ctx) : LaneOut :=
  let r : LaneOut := { ctx := c }
  match idxOff o c with
  | some off =>
    let w := v.wordAt o.area.toNat off
    ((r.load w).sf { c.sf.zn w with e := false }).next
  | none => (((r.load 0).sf { c.sf.zn 0 with e := true }).error (some 0x02)).next

/-- R152. Task `t` owns the `n` Q bytes from `off` on. -/
def State.ownsQ (s : State) (t off n : Nat) : Bool := (List.range n).all fun i => s.qOwner (off + i) == some t

/-- SWX (R130). -/
def laneSwx (o : Opnd) (v : LaneView) (c : Ctx) : LaneOut :=
  let r : LaneOut := { ctx := c }
  match idxOff o c with
  | some off =>
    if o.area = 2 ∧ !v.s.ownsQ v.t off 4 then ((r.sf { c.sf with e := true }).error (some 0x02)).next
    else ((r.stores (areaBase o.area.toNat + off) (wordBytes c.wa)).sf { c.sf with e := false }).next
  | none => ((r.sf { c.sf with e := true }).error (some 0x02)).next

/-- LW (R130). -/
def execLw (l : Lane) (o : Opnd) (s : State) : Out := s.instr l 2 (opndOk 0x30 o) (laneLw o) noPost
/-- LWK (R130). -/
def execLwk (l : Lane) (lit : Word) (s : State) : Out := s.instr l 2 (wordOk 0x31 0 0) (laneLwk lit) noPost
/-- SW (R130). -/
def execSw (l : Lane) (o : Opnd) (s : State) : Out := s.instr l 2 (opndOk 0x32 o) (laneSw o) noPost
/-- LWX (R130). -/
def execLwx (l : Lane) (o : Opnd) (s : State) : Out := s.instr l 3 (opndOk 0x33 o) (laneLwx o) noPost
/-- SWX (R130). -/
def execSwx (l : Lane) (o : Opnd) (s : State) : Out := s.instr l 3 (opndOk 0x34 o) (laneSwx o) noPost
/-- LIX (R115). -/
def execLix (l : Lane) (s : State) : Out :=
  s.instr l 1 (wordOk 0x35 0 0) (fun _ c => (({ ctx := c : LaneOut }).ix (c.wa.setWidth 16)).next) noPost

/-! ### Arithmetic -/

/-- R116, R131. `ADD`: Z, N, V and the unsigned carry. -/
def addFlags (f : Sf) (a x : Word) : Sf :=
  { f.zn (a + x) with v := ovf (a.toInt + x.toInt), c := decide (2 ^ 32 ≤ a.toNat + x.toNat) }

/-- R116. `SUB` and `CMP`: Z, N, V and the unsigned borrow. -/
def subFlags (f : Sf) (a x : Word) : Sf :=
  { f.zn (a - x) with v := ovf (a.toInt - x.toInt), c := decide (a.toNat < x.toNat) }

/-- An ALU instruction: the operand is read and the body writes the result. -/
def laneAlu (g : LaneOut → Word → Word → LaneOut) (o : Opnd) (v : LaneView) (c : Ctx) : LaneOut :=
  (g { ctx := c } c.wa (v.wordOf o).1).next (opndLen o)

/-- ADD (R131). -/
def aluAdd (r : LaneOut) (a x : Word) : LaneOut := (r.wa (a + x)).sf (addFlags r.ctx.sf a x)
/-- SUB (R131). -/
def aluSub (r : LaneOut) (a x : Word) : LaneOut := (r.wa (a - x)).sf (subFlags r.ctx.sf a x)
/-- MUL (R131): C := 0. -/
def aluMul (r : LaneOut) (a x : Word) : LaneOut :=
  let p := a.toInt * x.toInt
  let hi : Word := word32 (p / 2 ^ 32)
  ((r.wa (word32 p)).wb hi).sf { r.ctx.sf.zn (word32 p) with v := ovf p, c := false }
/-- DIV (R131): truncation towards zero. -/
def aluDiv (r : LaneOut) (a x : Word) : LaneOut :=
  if x = 0 then (((r.wa 0).wb a).sf { r.ctx.sf.zn 0 with v := false, e := true }).error (some 0x01)
  else
    let q := Int.tdiv a.toInt x.toInt
    ((r.wa (word32 q)).wb (word32 (Int.tmod a.toInt x.toInt))).sf { r.ctx.sf.zn (word32 q) with v := ovf q, e := false }
/-- MOD (R131): the remainder has the sign of the dividend; a divisor of 0 gives `WA` := 0, `WB` := the dividend. -/
def aluMod (r : LaneOut) (a x : Word) : LaneOut :=
  if x = 0 then (((r.wa 0).wb a).sf { r.ctx.sf.zn 0 with v := false, e := true }).error (some 0x01)
  else
    let q := Int.tdiv a.toInt x.toInt
    let m := word32 (Int.tmod a.toInt x.toInt)
    ((r.wa m).wb (word32 q)).sf { r.ctx.sf.zn m with v := ovf q, e := false }
/-- A compare (R132): `CR` and the flags of `WA` − x. -/
def aluCmp (p : Int → Int → Bool) (r : LaneOut) (a x : Word) : LaneOut :=
  (r.cr (p a.toInt x.toInt)).sf (subFlags r.ctx.sf a x)

/-- ADD (R131). -/
def execAdd (l : Lane) (o : Opnd) (s : State) : Out := s.instr l 2 (opndOk 0x40 o) (laneAlu aluAdd o) noPost
/-- SUB (R131). -/
def execSub (l : Lane) (o : Opnd) (s : State) : Out := s.instr l 2 (opndOk 0x41 o) (laneAlu aluSub o) noPost
/-- MUL (R131). -/
def execMul (l : Lane) (o : Opnd) (s : State) : Out := s.instr l 4 (opndOk 0x42 o) (laneAlu aluMul o) noPost
/-- DIV (R131). -/
def execDiv (l : Lane) (o : Opnd) (s : State) : Out := s.instr l 18 (opndOk 0x43 o) (laneAlu aluDiv o) noPost
/-- MOD (R131). -/
def execMod (l : Lane) (o : Opnd) (s : State) : Out := s.instr l 18 (opndOk 0x44 o) (laneAlu aluMod o) noPost
/-- CMP.EQ (R132). -/
def execCmpEq (l : Lane) (o : Opnd) (s : State) : Out :=
  s.instr l 2 (opndOk 0x48 o) (laneAlu (aluCmp fun a x => a == x) o) noPost
/-- CMP.NE (R132). -/
def execCmpNe (l : Lane) (o : Opnd) (s : State) : Out :=
  s.instr l 2 (opndOk 0x49 o) (laneAlu (aluCmp fun a x => a != x) o) noPost
/-- CMP.LT (R132). -/
def execCmpLt (l : Lane) (o : Opnd) (s : State) : Out :=
  s.instr l 2 (opndOk 0x4A o) (laneAlu (aluCmp fun a x => decide (a < x)) o) noPost
/-- CMP.LE (R132). -/
def execCmpLe (l : Lane) (o : Opnd) (s : State) : Out :=
  s.instr l 2 (opndOk 0x4B o) (laneAlu (aluCmp fun a x => decide (a ≤ x)) o) noPost
/-- CMP.GT (R132). -/
def execCmpGt (l : Lane) (o : Opnd) (s : State) : Out :=
  s.instr l 2 (opndOk 0x4C o) (laneAlu (aluCmp fun a x => decide (x < a)) o) noPost
/-- CMP.GE (R132). -/
def execCmpGe (l : Lane) (o : Opnd) (s : State) : Out :=
  s.instr l 2 (opndOk 0x4D o) (laneAlu (aluCmp fun a x => decide (x ≤ a)) o) noPost

/-! ### LIMIT, SCL, MOVB -/

/-- LIMIT (R133): a lower bound above the upper gives the upper bound. -/
def laneLimit (o : Opnd) (v : LaneView) (c : Ctx) : LaneOut :=
  let lo := v.wordAt o.area.toNat (4 * o.off.toNat)
  let hi := v.wordAt o.area.toNat (4 * o.off.toNat + 4)
  let w := if hi.toInt < lo.toInt then hi else if c.wa.toInt < lo.toInt then lo else if hi.toInt < c.wa.toInt then hi else c.wa
  ((({ ctx := c : LaneOut }).wa w).sf { c.sf.zn w with c := w != c.wa }).next

/-- SCL (R134): truncation towards zero, saturation with V, error 0x04 when in_hi = in_lo. Where the product does not
fit the 64-bit intermediate the spec states no result: the word and V are free values. -/
def laneScl (o : Opnd) (v : LaneView) (c : Ctx) : LaneOut :=
  let w (i : Nat) : Int := (v.wordAt o.area.toNat (4 * (o.off.toNat + i))).toInt
  let r : LaneOut := { ctx := c }
  if w 1 = w 0 then
    let y := word32 (w 2)
    (((r.wa y).sf { c.sf.zn y with v := false, e := true }).error (some 0x04)).next
  else
    let p := (c.wa.toInt - w 0) * (w 3 - w 2)
    let x := Int.tdiv p (w 1 - w 0) + w 2
    let fits := decide (-(2 ^ 63 : Int) ≤ p) && decide (p < (2 ^ 63 : Int))
    let y := if fits then word32 (max (-2147483648) (min 2147483647 x)) else BitVec.ofNat 32 (Config.freeNat v.s.free)
    let vf := if fits then ovf x else (Config.freeNat (v.s.free + 1)).testBit 0
    ((r.wa y).sf { c.sf.zn y with v := vf, e := false }).next

/-- MOVB (R134): source area and index in the literal, length in `WA`. -/
def laneMovb (o : Opnd) (v : LaneView) (c : Ctx) : LaneOut :=
  let r : LaneOut := { ctx := c }
  let n := c.wa.toNat
  let sa := o.lit.toNat / 2 ^ 28
  let so := 4 * (o.lit.toNat % 2 ^ 20)
  let d := 4 * o.off.toNat
  if 1 ≤ n ∧ n ≤ 1024 ∧ so + 4 * n ≤ areaSize sa ∧ d + 4 * n ≤ areaSize o.area.toNat ∧
      (o.area = 2 → v.s.ownsQ v.t d (4 * n)) then
    let bs := (List.range (4 * n)).map fun i => v.byte sa (so + i)
    ((r.stores (areaBase o.area.toNat + d) bs).sf { c.sf with e := false }).next 2
  else ((r.sf { c.sf with e := true }).error (some 0x05)).next 2

/-- R134. Clocks of a `MOVB`: 4 + length, or 4 when error 0x05 is raised; the length is lane A's, or the earliest live
lane's. -/
def State.movbClocks (s : State) (l : Nat) (o : Opnd) : Nat :=
  match s.current l with
  | some (t, a) =>
    let k := if s.laneState = laneUnbound then l else (lanesOf s.votingMask).headD 0
    let c := a.ctx.getD k {}
    match (laneMovb o ⟨s, t, a, s.eng.sbuf.getD k []⟩ c).err with
    | some _ => 4
    | none => 4 + c.wa.toNat
  | none => 4

/-- LIMIT (R133). -/
def execLimit (l : Lane) (o : Opnd) (s : State) : Out := s.instr l 3 (opndOk 0x50 o) (laneLimit o) noPost
/-- SCL (R134). -/
def execScl (l : Lane) (o : Opnd) (s : State) : Out :=
  s.instr l 20 (opndOk 0x51 o) (laneScl o) fun s _ _ => { s with free := s.free + 2 }
/-- MOVB (R134). -/
def execMovb (l : Lane) (o : Opnd) (s : State) : Out := s.instr l (s.movbClocks l o) (opndOk 0x52 o) (laneMovb o) noPost

/-! ### Atomic operations -/

/-- ATADD, ATSWP (R135, R191, R427): the bank returns the old word, once for all lanes. -/
def laneAtomic (add : Bool) (o : Opnd) (v : LaneView) (c : Ctx) : LaneOut :=
  let adr := mBase + 4 * o.off.toNat
  let old := ({ v with sb := [] } : LaneView).wordAt 3 (4 * o.off.toNat)
  let new := if add then old + c.wa else c.wa
  let f := if add then addFlags c.sf old c.wa else c.sf.zn old
  (((({ ctx := c : LaneOut }).stores adr (wordBytes new)).wa old).sf f).next

/-- ATADD (R135). -/
def execAtadd (l : Lane) (o : Opnd) (s : State) : Out := s.instr l 4 (opndOk 0x58 o) (laneAtomic true o) noPost
/-- ATSWP (R135). -/
def execAtswp (l : Lane) (o : Opnd) (s : State) : Out := s.instr l 4 (opndOk 0x59 o) (laneAtomic false o) noPost

end Sys2Proof.Machine
end

