-- ==== Sys2Proof/Machine/EngineFlow.lean ====
section
/-! DEFINITION. Exchange windows and the requests of the CAN objects (R136 to R138, R355), `WARN` and `FAULT` (R139), and
the flow instructions other than `END` (R140). -/

namespace Sys2Proof.Machine

/-! ### Locks -/

/-- R137. Whether `XLOCK` grants the object: the task holds it already, or nobody does and the task holds fewer than 4. -/
def lockGranted (v : LaneView) (obj : Nat) : Bool :=
  v.locked obj || (mget 0 v.s.eng.lockOf obj == 0 && decide (v.a.locks.length < 4))

/-- XLOCK on a lane. -/
def laneXlock (obj : Nat) (v : LaneView) (c : Ctx) : LaneOut :=
  ((({ ctx := c : LaneOut }).cr (lockGranted v obj)).sf { c.sf with e := false }).next

/-- R137. A granted lock is taken. -/
def postXlock (obj : Nat) : State → Nat → LaneOut → State := fun s t o =>
  match s.act t with
  | some a =>
    if o.ctx.cr && !a.locks.contains obj then
      let s := s.setAct t (some { a with locks := obj :: a.locks })
      { s with eng := { s.eng with lockOf := mset 0 s.eng.lockOf obj (t + 1) } }
    else s
  | none => s

/-- XFREE on a lane: error 0x03 without the lock. -/
def laneXfree (obj : Nat) (v : LaneView) (c : Ctx) : LaneOut :=
  let e := if v.locked obj then none else some 0x03
  ((({ ctx := c : LaneOut }).sf { c.sf with e := e.isSome }).error e).next

/-- R137, R338. The lock is released; of a message buffer the hold ends and `LOST` and `NEW` clear. -/
def postXfree (obj : Nat) : State → Nat → LaneOut → State := fun s t _ =>
  match s.act t with
  | some a =>
    if a.locks.contains obj then
      let s := s.setAct t (some { a with locks := a.locks.erase obj })
      let s := { s with eng := { s.eng with lockOf := mset 0 s.eng.lockOf obj 0 } }
      if 0x100 ≤ obj ∧ obj < 0x200 then s.canFree (obj - 0x100) else s
    else s
  | none => s

/-- XLOCK (R137). -/
def execXlock (l : Lane) (obj : BitVec 10) (s : State) : Out :=
  s.instr l 4 (wordOk 0x60 9 (obj.toNat * 1024)) (laneXlock obj.toNat) (postXlock obj.toNat)
/-- XFREE (R137). -/
def execXfree (l : Lane) (obj : BitVec 10) (s : State) : Out :=
  s.instr l 2 (wordOk 0x61 9 (obj.toNat * 1024)) (laneXfree obj.toNat) (postXfree obj.toNat)

/-! ### Requests -/

/-- The result of an unknown request code (R138, R355). -/
abbrev unknownReq : Nat := 0xFFFFFFFF

/-- Table 12.4 for a buffer object, from the object as frozen. -/
def bufReq (v : LaneView) (k code : Nat) : Nat :=
  let w0 := (v.s.buf k).froz.getD 0 0
  let boff := fieldOf ((mget [] (v.s.ctl (k / 64)).froz v.t).getD 0 0) 8 2 == 2
  if code = 1 then
    (if !bit w0 15 then 0x10 else if bit w0 10 then 0x11 else if boff then 0x13 else 1)
  else if code = 2 then (if !bit w0 15 then 0x10 else if !bit w0 10 then 0x12 else 1)
  else unknownReq

/-- Table 12.4 for a controller object. -/
def ctlReq (v : LaneView) (c code : Nat) : Nat :=
  let w0 := (mget [] (v.s.ctl c).froz v.t).getD 0 0
  if code = 1 then (if fieldOf w0 8 2 ≠ 2 then 0x14 else if bit w0 10 then 0x15 else 1)
  else if code = 2 then 1
  else unknownReq

/-- R191. The request code that reaches the object's owner, once for all lanes: in UNBOUND the lane's own, else the earliest voting
lane's (DEDUCED: nothing unvoted leaves a lane). -/
def LaneView.code (v : LaneView) (c : Ctx) : Nat :=
  if v.s.laneState = laneUnbound then c.wa.toNat else (v.a.ctx.getD ((lanesOf v.s.votingMask).headD 0) {}).wa.toNat

/-- XREQ on a lane: the result in `WA`, `CR` for accepted, E := 0. -/
def laneXreq (res : LaneView → Ctx → Nat) (v : LaneView) (c : Ctx) : LaneOut :=
  let r := res v c
  (((({ ctx := c : LaneOut }).wa (BitVec.ofNat 32 r)).cr (r == 1)).sf { c.sf with e := false }).next

/-- R355. An accepted request with the code `code` joins the activation's requests once. -/
def State.addReq (s : State) (t obj code : Nat) : State :=
  match s.act t with
  | some a =>
    if a.reqs.any fun r => r.1 == obj && r.2.1 == code then s
    else s.setAct t (some { a with reqs := a.reqs ++ [(obj, code, [])] })
  | none => s

/-- The request code the executing lanes hold in `WA`: the earliest voting lane's. -/
def State.reqCode (s : State) (l : Nat) : Nat :=
  match s.current l with
  | some (_, a) =>
    let k := if s.laneState = laneUnbound then l else (lanesOf s.votingMask).headD 0
    (a.ctx.getD k {}).wa.toNat
  | none => 0

/-- R355. Staging an accepted request. -/
def postXreq (obj code : Nat) : State → Nat → LaneOut → State := fun s t o =>
  if o.ctx.cr then s.addReq t obj code else s

/-- XREQ on an object of the CAN controllers. -/
def State.xreq (s : State) (l obj : Nat) (res : LaneView → Nat → Nat) : Out :=
  s.instr l 4 (wordOk 0x62 9 (obj * 1024)) (laneXreq fun v c => res v (v.code c)) (postXreq obj (s.reqCode l))

/-- XREQ_TRANSMIT (R342). -/
def execXreqTransmit (l : Lane) (c : Ctl) (b : Buf) (s : State) : Out :=
  s.xreq l (bufObj (c.val * 64 + b.val)) fun v k => bufReq v (c.val * 64 + b.val) k
/-- XREQ_CANCEL (R344). -/
def execXreqCancel (l : Lane) (c : Ctl) (b : Buf) (s : State) : Out :=
  s.xreq l (bufObj (c.val * 64 + b.val)) fun v k => bufReq v (c.val * 64 + b.val) k
/-- XREQ_RECOVER (R346). -/
def execXreqRecover (l : Lane) (c : Ctl) (s : State) : Out := s.xreq l (0x010 + c.val) fun v k => ctlReq v c.val k
/-- XREQ_RESET (R354). -/
def execXreqReset (l : Lane) (c : Ctl) (s : State) : Out := s.xreq l (0x010 + c.val) fun v k => ctlReq v c.val k

/-! ### WARN and FAULT -/

/-- R139. The record of `WARN` or `FAULT`. -/
def State.userRecord (s : State) (t sev user : Nat) (stop : Bool) (c : Ctx) : State :=
  let pc := (c.pc + 2 ^ 18 - 1) % 2 ^ 18
  s.recordAs sev (cUSER + user) 0 t (s.stampCycle t)
    (leBytes 1 t ++ leBytes 1 user ++ leBytes 3 pc ++ leBytes 1 (b2n c.cr + 2 * b2n stop) ++ leBytes 4 c.wa.toNat ++
      leBytes 2 c.wb.toNat)

/-- An instruction that only moves on. -/
def laneNop (_v : LaneView) (c : Ctx) : LaneOut := ({ ctx := c : LaneOut }).next

/-- WARN (R139). -/
def execWarn (l : Lane) (user : Byte) (s : State) : Out :=
  s.instr l 2 (wordOk 0x68 0 user.toNat) laneNop fun s t o =>
    if o.ctx.cr then s.userRecord t 1 user.toNat false o.ctx else s

/-- FAULT (R139): with stop the activation ends and the module enters SAFE with `PROGRAM_FAULT`. -/
def execFault (l : Lane) (user : Byte) (stop : Bool) (s : State) : Out :=
  s.instr l 2 (wordOk 0x69 0 (user.toNat + 256 * b2n stop)) laneNop fun s t o =>
    if o.ctx.cr then
      let s := s.userRecord t 2 user.toNat stop o.ctx
      if stop then s.enterSafe 0x0A t else s
    else s

/-! ### Flow -/

/-- A jump: the next `PC`. -/
def laneJump (take : Ctx → Bool) (target : Nat) (_v : LaneView) (c : Ctx) : LaneOut :=
  if take c then ({ ctx := c : LaneOut }).pc target else ({ ctx := c : LaneOut }).next

/-- Clocks of a conditional jump: 2 taken, 1 not; by the earliest voting lane. -/
def State.jumpClocks (s : State) (l : Nat) (want : Bool) : Nat :=
  match s.current l with
  | some (_, a) =>
    let k := if s.laneState = laneUnbound then l else (lanesOf s.votingMask).headD 0
    if (a.ctx.getD k {}).cr = want then 2 else 1
  | none => 1

/-- JMP (R140). -/
def execJmp (l : Lane) (target : BitVec 18) (s : State) : Out :=
  s.instr l 2 (wordOk 0x70 0 target.toNat) (laneJump (fun _ => true) target.toNat) noPost
/-- JC (R140). -/
def execJc (l : Lane) (target : BitVec 18) (s : State) : Out :=
  s.instr l (s.jumpClocks l true) (wordOk 0x71 0 target.toNat) (laneJump (·.cr) target.toNat) noPost
/-- JNC (R140). -/
def execJnc (l : Lane) (target : BitVec 18) (s : State) : Out :=
  s.instr l (s.jumpClocks l false) (wordOk 0x72 0 target.toNat) (laneJump (fun c => !c.cr) target.toNat) noPost
/-- CALL (R140). -/
def execCall (l : Lane) (target : BitVec 18) (s : State) : Out :=
  s.instr l 2 (wordOk 0x73 0 target.toNat)
    (fun _ c => (({ ctx := c : LaneOut }).push ((c.pc + 1) % 2 ^ 18)).pc target.toNat) noPost
/-- RET (R140). -/
def execRet (l : Lane) (s : State) : Out :=
  s.instr l 2 (wordOk 0x74 0 0)
    (fun _ c =>
      match c.rs with
      | n :: rest => (({ ctx := { c with rs := rest } : LaneOut }).ev 2 n).pc n
      | [] => ({ ctx := c : LaneOut }).next) noPost

end Sys2Proof.Machine
end

