-- ==== Sys2Proof/Machine/Tasks.lean ====
section
/-! DEFINITION. Tasks (chapter 5): SAMPLE and the creation of activations, the input image, END, overrun and abandonment; PARK
as a request (R68); the fast drop and the stale drop of the interlock (R265). -/

namespace Sys2Proof.Machine

/-! ### SAMPLE -/

/-- R69, R149. Task `t` may sample now. From the power-fail warning on only the power-fail task may, and once the activation whose PARK
request was accepted has committed none. -/
def State.maySample (s : State) (t : Nat) : Bool :=
  let pf := decide (16 ≤ t) && s.topoN 0x0202 t 3 1 0 == 7
  s.taskOn t && !s.power.parkStop && decide (s.power.park < 2) && (s.power.crossAt.isNone || pf) && !s.eng.frozen

/-- R26, R145, R148. Task `t` samples at grid index `g`, an activation still running apart. -/
def State.dueAt (s : State) (t g : Nat) : Bool :=
  let n := 10 * s.topoN 0x0202 t 4 2 0
  s.maySample t && (if t < 16 then n != 0 && g % n == 0 else bit s.eng.pend t)

/-- R26, R147. Task `t` samples at grid index `g`, or is an event task that a trigger recognised before the point lets sample there. -/
def State.mayBeDue (s : State) (t g : Nat) : Bool := s.dueAt t g || (decide (16 ≤ t) && s.maySample t)

/-- R151. Slots that task `t` reads. -/
def State.slotsOf (s : State) (t : Nat) : List Nat :=
  satSlots.filter fun n => (s.entries 0x0203 t 16).any fun e => leAt e 2 1 == 1 && leAt e 3 1 == n

/-- R151, R256. Task `t` waits for the network receive image. -/
def State.netBound (s : State) (t : Nat) : Bool :=
  s.ilTask == some t || (s.entries 0x0203 t 16).any fun e => leAt e 2 1 == 2

/-- Tasks run now, or BOOT has ended and waits for the first SAMPLE (R51). -/
def State.sampling (s : State) : Bool := s.running || (s.mode == mBoot && s.boot.step == 13)

/-- Table 1.4, step 1. SAMPLE goes out, 2,000 ns before the point, to every admitted die that a task sampling there reads. DEDUCED: an
event task samples at the first point after its trigger (R26), which may come as late as the point itself, so that the dies it reads
are told whether or not its trigger is in. -/
def State.emitSample (s : State) : State :=
  if !s.sampling || s.time.sampled then s
  else
    let s := s.toDev (samplePt s.time.gs - 2000)
    let due := taskNums.filter fun t => s.mayBeDue t s.time.gs
    let s := s.each satSlots fun s n =>
      let on := s.admitted n && due.any fun t => (s.slotsOf t).contains n
      s.setLink n { s.link n with latchDue := on || (s.link n).latchDue, inputDue := on, inputIn := false }
    { s with time := { s.time with sampled := true } }

/-- SAMPLE_EMIT (R24). -/
def execSampleEmit (s : State) : Out := .next s.emitSample

/-- SAMPLE_LATCH (R23, R25): at the sample point, 2,000 ns after SAMPLE went out, the satellite latches and sends INPUT; a field die
once its field side has answered (R317). -/
def execSampleLatch (n : Slot) (s : State) : Out :=
  let l := s.link n
  if n.val = 0 ∨ !l.latchDue then .next s
  else
    let s := s.setLink n { l with latchDue := false }
    let s := if s.time.sampled then s.toDev (samplePt s.time.gs) else s
    if !s.present n then .next s
    else if 6 ≤ n.val then .next (s.modField (n - 6) fun x => { x with sampleDue := true })
    else
      let b := if n.val ≤ 3 then s.doorInput (n - 1) else s.loadInput (n - 4)
      .next ((s.setSat n { s.sat n with latched := b }).satSend n 0x01 b)

/-! ### The image of an activation -/

/-- R33, R35. The inputs of slot `n` are valid for an activation of task `t` that samples now. -/
def State.validFor (s : State) (t n : Nat) : Bool := s.dieValid n && !bit (s.link n).missPend t

/-- R33, R296, R330. Byte `o` of the substituted INPUT block of slot `n`. -/
def State.substByte (s : State) (n o : Nat) : Byte :=
  let last := (s.link n).lastOk.getD o 0
  if n ≤ 3 then 0
  else if n ≤ 5 then
    if o < 8 then 0
    else
      let p := s.topoN 0x0501 (12 * (n - 4) + (o - 8) / 8) 11 1 0
      if p = 2 then last
      else if p = 1 then (if (o - 8) % 8 = 2 then 0xFF else if (o - 8) % 8 = 3 then 0x0F else 0)
      else 0
  else
    let f := n - 6
    let fl (c : Nat) : Nat := s.topoN 0x0602 f (4 * c + 2) 1 0
    if 8 ≤ o ∧ o < 12 then
      BitVec.ofNat 8 ((List.range 8).foldl (fun v i =>
        let c := 8 * (o - 8) + i
        let b := if fl c / 2 % 4 = 1 then bit (fl c) 3 else if fl c / 2 % 4 = 2 then bit last.toNat i else false
        v + b2n b * 2 ^ i) 0)
    else if 16 ≤ o then (if fl ((o - 16) / 8) / 2 % 4 = 2 then last else 0)
    else 0

/-- R409. The active module compares its read-back of the bytes of a query with its intent. -/
def State.readBackDiffers (s : State) (mask : Nat) : Bool :=
  (List.range 256).any fun p =>
    bit mask p &&
      (if p < 192 then
        let k := p / 16
        s.chanIn k 15 != (mget 0 (mget [] s.cimg.outs (chSlot k)) (16 * (k % 4) + 1)).toNat
      else if p < 216 then
        let n := 4 + (p - 192) / 12
        let c := (p - 192) % 12
        let st := leAt (s.link n).lastOk (8 + 8 * c) 1
        (st == 1 || st == 2) != bit (mget 0 (mget [] s.cimg.outs n) c).toNat 0
      else if p < 224 then
        let n := 6 + (p - 216) / 4
        let i := (p - 216) % 4
        decide (i < 2) && leAt (s.link n).lastOk (12 + i) 1 != (mget 0 (mget [] s.cimg.outs n) i).toNat
      else false)

/-- R409. The verdict on a query that named task `t`; it names the cycle of the query (DEDUCED). -/
def State.answerQuery (s : State) (t : Nat) : State :=
  match s.dup.asked.find? fun p => p.1 == t with
  | some (_, mask, cyc) =>
    let bad := s.driving && s.readBackDiffers mask
    let s := { s with dup := { s.dup with asked := s.dup.asked.filter fun p => p.1 != t } }
    let s := s.ropeSend 0x0A (leBytes 1 t ++ leBytes 1 (b2n bad) ++ [0, 0] ++ leBytes 4 cyc)
    if bad then s.handover 1 else s
  | none => s

/-- R112, R268, R418. What other chapters publish in the S area: the interlock's four words and `PEER_STAT`, with `first` its bit 4. -/
def State.sStatus (s : State) (first : Bool) : Bytes :=
  let peer := b2n (s.fbit Reg.DUP_STAT_PRESENT) + 2 * b2n (s.fbit Reg.DUP_STAT_PEER_HEALTHY) +
    4 * b2n (s.fbit Reg.DUP_STAT_PEER_READY) + 8 * b2n s.ropeUp + 16 * b2n first + s.dup.evCode * 256 + s.dup.evCount * 65536
  mput 0 ([0, 4, 8, 12].foldl (fun m o => mput 0 m (0x100 + o) (leBytes 4 (mget 0 s.regs (0x40020A00 + o)))) []) 0x120 (leBytes 4 peer)

/-- Table 4.4. The S area of an activation. -/
def State.sFields (s : State) (t : Nat) (a : Act) (flags valid : Nat) : Bytes :=
  let head := leBytes 1 t ++ leBytes 1 flags ++ [0] ++ leBytes 1 s.laneState ++ leBytes 4 a.cyc ++ leBytes 4 0 ++
    leBytes 1 s.mode ++ leBytes 1 (b2n s.duplexNow) ++ leBytes 1 (b2n s.board.seatB) ++ [0] ++ leBytes 1 valid ++ [0, 0, 0] ++
    leBytes 4 (s.fget Reg.PARAM_GEN_GEN) ++ leBytes 2 (mget ({} : Prog) s.eng.prog t).gen ++
    leBytes 2 (s.fget (Reg.TASK_SKIP_SKIPS t)) ++ leBytes 4 0 ++ leBytes 8 (samplePt a.g) ++
    leBytes 4 (if t < 16 then s.topoN 0x0202 t 4 2 0 * 250000 else 0) ++ leBytes 4 0 ++ leBytes 8 (mget 0 s.eng.prevTime t) ++
    leBytes 8 0
  mput 0 (s.sStatus (bit s.dup.firstAfter t)) 0 head

/-- R150, R151. One input binding of task `t` is copied. -/
def State.bindOne (s : State) (t valid : Nat) (a : Act) (e : List Byte) : State :=
  let base := s.imgAt t
  let len := leAt e 4 2
  let src := leAt e 8 4
  let n := leAt e 3 1
  let bs :=
    if leAt e 2 1 = 2 then mslice 0 s.sram (rxBase + src) len
    else
      match a.block n with
      | some b => if bit valid n then sub_ b src len else (List.range len).map fun i => s.substByte n (src + i)
      | none => (List.range len).map fun i => s.substByte n (src + i)
  let s := { s with sram := mput 0 s.sram (base + leAt e 0 2) bs }
  if leAt e 2 1 = 1 ∧ leAt e 12 4 ≠ 0xFFFFFFFF then s.wrBit base (leAt e 12 4) (bit valid n && (a.block n).isSome) else s

/-- R68. The conditions of PARK that do not come from a die, as they hold at a sample point: bit 0 ACTIVE, bit 1 zero speed proven, bit 2
debug attached, bit 3 the peer of a pair not in STANDBY and healthy. -/
def State.parkBits (s : State) : Nat :=
  b2n (s.mode == mActive) + 2 * b2n (s.fbit Reg.IL_STAT_ZS_PROVEN) + 4 * b2n (s.fbit Reg.MODE_STAT_DEBUG_UNBOUND) +
    8 * b2n (s.duplexNow && !(s.fget Reg.DUP_STAT_PEER_MODE == mStandby && s.fbit Reg.DUP_STAT_PEER_HEALTHY))

/-- R68, Table 2.12. `PARK_RESULT` for an activation whose sample point found `bits` and whose INPUT blocks are in (DESIGN CHOICE: the
first that applies in the order of R68). -/
def State.parkResult (s : State) (bits : Nat) : Nat :=
  if !bit bits 0 then 5
  else if !bit bits 1 || !s.tractionOff then 2
  else if (List.range 12).any fun k =>
      (s.ilRole k == 1 || s.ilRole k == 2) && !(s.dieValid (chSlot k) && secureState (s.ilRole k) (s.chanIn k 0)) then 3
  else if bit bits 2 then 4
  else if bit bits 3 then 6
  else 1

/-- R150, R151, R112. The inputs of the activation of task `t` are in: its image and its S area are filled, a changed program is
taken, and it is ready. -/
def State.fillAct (s : State) (t : Nat) : State :=
  match s.act t with
  | some a =>
    let (s, swapped, n) := if a.swap then s.takeProgram t else (s, false, 0)
    let s := if n = 0 then s else s.clocks t n
    let valid := (mget 0 a.sArea 0x10).toNat
    let s := { s with sram := mclear (s.imgAt t) (s.imgLen t) s.sram }
    let s := (s.entries 0x0203 t 16).foldl (fun s e => s.bindOne t valid a e) s
    let flags := b2n (bit s.boot.firstScan t) + 2 * b2n (bit s.eng.afterSkip t) + 8 * b2n swapped + 16 * b2n a.parChg
    let sa := s.sFields t a flags valid
    let s := { s with
      boot := { s.boot with firstScan := putBit s.boot.firstScan t false }
      dup := { s.dup with firstAfter := putBit s.dup.firstAfter t false }
      eng := { s.eng with
        afterSkip := putBit s.eng.afterSkip t false
        prevTime := mset 0 s.eng.prevTime t (samplePt a.g) } }
    let s := s.setAct t (some { a with ready := true, sArea := sa, park := s.parkResult a.park })
    (s.answerQuery t).preempt
  | none => s

/-- The activation is filled once it waits for nothing. -/
def State.fillIfIn (s : State) (t : Nat) : State :=
  match s.act t with
  | some a => if a.wait = 0 ∧ !a.waitNet ∧ !a.ready then s.fillAct t else s
  | none => s

/-! ### The sample point -/

/-- R158, R159. The activation of cyclic task `t` due at index `g` is skipped: the one before still runs. -/
def State.skip (s : State) (t g : Nat) : State :=
  match s.act t with
  | some a =>
    let cyc := g / (10 * s.topoN 0x0202 t 4 2 0) % 2 ^ 32
    let s := s.setAct t (some { a with late := true })
    let s := { s with eng := { s.eng with afterSkip := putBit s.eng.afterSkip t true } }
    let s := ((s.fsat (Reg.TASK_SKIP_SKIPS t)).fon Reg.SCHED_FLAGS_OVERRUN).fsat (Reg.TASK_STAT_OVR_RUN t)
    let s := s.recordFrom cTASK_OVERRUN 0 t (leBytes 1 t ++ leBytes 4 cyc)
    let k := s.fget Reg.OVR_CFG_OVR_LIMIT
    if k ≠ 0 ∧ k ≤ s.fget (Reg.TASK_STAT_OVR_RUN t) then s.enterSafe 0x06 t else s
  | none => s

/-- R266. Committed values of the halves at the last commit point at least 62.5 µs before device time `p`. -/
def State.halvesAt (s : State) (p : Nat) : Nat :=
  match s.il.pairs.find? fun x => decide (x.1 + 62500 ≤ p) with
  | some x => x.2
  | none => 0

/-- R26, R145, R151. An activation of task `t` samples at index `g`. -/
def State.startAct (s : State) (t g : Nat) : State :=
  let cyc := if t < 16 then g / (10 * s.topoN 0x0202 t 4 2 0) % 2 ^ 32 else (mget 0 s.eng.evCount t + 1) % 2 ^ 32
  let reads := s.slotsOf t
  let told := reads.filter fun n => (s.link n).inputDue
  let valid := 1 + ((satSlots.filter fun n =>
    if reads.contains n then s.validFor t n && (s.link n).inputDue else s.dieValid n).map fun n => 2 ^ n).sum
  let blocks := (told.filter fun n => (s.link n).inputIn && bit valid n).map fun n => (n, (s.link n).input)
  let a : Act := {
    cyc, g, at_ := s.time.mono
    wait := ((told.filter fun n => !(s.link n).inputIn).map fun n => 2 ^ n).sum
    waitNet := s.netBound t, ready := false, sArea := mset 0 [] 0x10 (BitVec.ofNat 8 valid), blocks
    halves := s.halvesAt (samplePt g), pf := s.power.crossAt.isSome, park := s.parkBits
    parChg := bit s.eng.parPend t, swap := bit s.eng.switchPend t }
  let s := { s with eng := { s.eng with parPend := putBit s.eng.parPend t false } }
  let s := reads.foldl (fun s n => s.setLink n { s.link n with missPend := putBit (s.link n).missPend t false }) s
  let s := if t < 16 then s
    else ({ s with eng := { s.eng with pend := putBit s.eng.pend t false, evCount := mset 0 s.eng.evCount t cyc } }).fset
      (Reg.TASK_STAT_PENDING t) 0
  let s := if a.pf then { s with power := { s.power with taskRun := true } } else s
  let s := ((s.setAct t (some a)).fset (Reg.TASK_CYC_CYCLE t) cyc).fon (Reg.TASK_STAT_ACTIVE_RUN t)
  s.canFreeze t (samplePt g)

/-- R409, R411. The data ranges of the belay set are written into the data area, as outside writes (R174, steps 1 to 3). -/
def State.applyRanges (s : State) : State :=
  let start := 1088 + (8 * (s.telsOf 1).length + 63) / 64 * 64
  (s.belayRanges.foldl (fun (p : State × Nat) r =>
    (p.1.outWrs (blkAddr r.1) (mslice 0 p.1.dup.set p.2 (64 * r.2)), p.2 + 64 * r.2)) (s, start)).1

/-- The sample point of index `gs` (R26). -/
def State.samplePoint (s : State) : State :=
  let s := (s.emitSample).toDev (samplePt s.time.gs)
  let g := s.time.gs
  let s := { s with time := { s.time with gs := max (g + 1) (s.time.dev / 25000 + 1), sampled := false } }
  if !s.running then s
  else
    let s := s.changesAt g
    let s := if s.dup.applyDue then
        let s := ({ s with dup := { s.dup with applyDue := false } }).applyRanges
        s.peerEvent 6
      else s
    let s := ((taskNums.filter fun t => s.dueAt t g).filter fun t => t < 16).foldl
      (fun s t => if (s.act t).isSome then s.skip t g else s) s
    if !s.running || s.eng.frozen then s
    else
      let ts := taskNums.filter fun t => (s.act t).isNone && s.dueAt t g
      let s := s.each satSlots fun s n =>
        s.setLink n { s.link n with inputDue := (s.link n).inputDue && ts.any fun t => (s.slotsOf t).contains n }
      let s := if ts.any fun t => s.netBound t then s.netFreeze s.time.mono else s
      let s := ts.foldl (fun s t => s.startAct t g) s
      ts.foldl (fun s t => s.fillIfIn t) s

/-! ### INPUT deadline, receive image -/

/-- INPUT_DEADLINE (R34). -/
def execInputDeadline (s : State) : Out :=
  if !s.running then .next s
  else
    let g := s.time.gs - 1
    let s := s.toDev (samplePt g + 20000)
    let late := satSlots.filter fun n => (s.link n).inputDue && !(s.link n).inputIn
    let s := late.foldl (fun s n =>
      let s := s.setLink n { s.link n with inputDue := false }
      ((s.lsat (Reg.LINK_MISS_MISSED_INPUTS n)).fon Reg.COMMIT_FLAGS_INPUT_MISS).recordFrom cINPUT_MISS n 31 (leBytes 1 n)) s
    .next ((taskNums.filter fun t => (s.act t).isSome).foldl (fun s t =>
      match s.act t with
      | some a =>
        if a.wait = 0 ∨ a.ready then s
        else
          let v := (mget 0 a.sArea 0x10).toNat
          let v := (satSlots.filter fun n => bit a.wait n).foldl (fun v n => putBit v n false) v
          (s.setAct t (some { a with wait := 0, sArea := mset 0 a.sArea 0x10 (BitVec.ofNat 8 v) })).fillIfIn t
      | none => s) s)

/-- RXIMG_DONE (R365): the checks and the walkers have ended, the receive image is rebuilt, and its readers go on. -/
def execRximgDone (wait : Nat) (s : State) : Out :=
  if !s.net.building then .next s
  else
    let s := s.scFinish
    let s := (s.toMono (s.net.walkAt + s.walkNs + wait)).rebuild
    let us := (s.time.mono - s.net.pAt) / 1000
    let s := (s.fset Reg.RXIMG_RXIMG_US (min 65535 us)).fmax Reg.RXIMG_RXIMG_MAX (min 65535 us)
    .next ((taskNums.filter fun t => (s.act t).isSome).foldl (fun s t =>
      match s.act t with
      | some a =>
        if !a.waitNet then s
        else
          let sigs := if s.ilTask = some t then
              [s.signal (s.ilN 24 2 0), s.signal (s.ilN 26 2 0), s.signal (s.ilN 28 2 0)] else []
          (s.setAct t (some { a with waitNet := false, sigs })).fillIfIn t
      | none => s) s)

/-! ### END -/

/-- R74. The power-fail task has ended or been abandoned. -/
def State.pfDone (s : State) : State := { s with power := { s.power with taskRun := false } }

/-- R342, R355. Requests of an ending activation: content written to transmit buffers, then what `XREQ` requested. -/
def State.endReqs (s : State) (a : Act) : List (Nat × Nat × List Nat) :=
  let objs := (a.xw.map fun p => p.1 / 1024).eraseDups.filter fun o => decide (0x100 ≤ o) && s.bufTx (o - 0x100)
  let words (o : Nat) : List Nat := (List.range' 1 18).map fun w =>
    let x := mget 0 a.xw (o * 1024 + w)
    if x = 0 then (s.buf (o - 0x100)).froz.getD w 0 else x - 1
  (objs.map fun o => (o, 0, words o)) ++ a.reqs.map fun r => (r.1, r.2.1, if 0x100 ≤ r.1 then words r.1 else [])

/-- R155, R161, R163. The activation of task `t` reaches `END`. -/
def State.endTask (s : State) (t : Nat) : State :=
  match s.act t with
  | some a =>
    let s := if s.ilTask = some t then s.ilEval a else s
    let s := (s.clearLatches t).journalEnd t
    let s := a.locks.foldl (fun s o => s.recordFrom cXLOCK_LEAK 0 t (leBytes 1 t ++ leBytes 2 o)) s
    let ns := s.engineNow t - a.at_
    let us := ns / 1000
    let s := (s.fset (Reg.TASK_EXEC_LAST_US t) (clip 16 us)).fmax (Reg.TASK_EXEC_MAX_US t) (clip 16 us)
    let bud := s.topoN 0x0202 t 12 4 0
    let s := if bud ≠ 0 ∧ bud * 1000 < ns then
        ((s.fsat (Reg.TASK_BUD_BUDGET_HITS t)).fon Reg.SCHED_FLAGS_BUDGET).recordFrom cTASK_BUDGET 0 t (leBytes 1 t ++ leBytes 4 us)
      else s
    let s := if a.late then s else s.fset (Reg.TASK_STAT_OVR_RUN t) 0
    let reqs := s.endReqs a
    let chg := (s.ownedBytes t).filterMap fun o =>
      if s.rd (qBase + o) = mget 0 s.eng.qStaged o then none else some (o, s.rd (qBase + o))
    let s : State := { s with eng := { s.eng with
      qStaged := chg.foldl (fun q (c : Nat × Byte) => mset 0 q c.1 c.2) s.eng.qStaged
      ended := s.eng.ended ++ [({ task := t, cyc := a.cyc, g := a.g, reqs, chg } : Ended)] } }
    let s := s.dropAct t
    let s := if a.pf then s.pfDone else s
    let s : State := s.stageNow
    let s : State := if s.mode = mStandby then
        let old := mget [] s.dup.own t
        let r : State := { s with eng := { s.eng with qOut := s.eng.qStaged } }
        { s with dup := { s.dup with own := mset [] s.dup.own t (((a.cyc, outPart fun n => r.dieOut n) :: old).take 4) } }
      else s
    s.taskBoundary.schedule
  | none => s

/-- R117, R189, R204. Clocks of `END`, with which an activation leaves the engine: outside UNBOUND the lag of lane C is added. -/
def State.endClocks (s : State) : Nat := if s.laneState = laneUnbound then 1 else 1 + 4

/-- END (R140). In UNBOUND it is reached when its lane has come to it. -/
def execEnd (l : Lane) (s : State) : Out :=
  s.instr l s.endClocks (wordOk 0x7F 0 0) laneNop fun s t _ => (s.toMono (s.engineNow t)).endTask t

/-- R160. What the abandonment of an event activation leaves: flag, record and count. -/
def State.etAbandoned (s : State) (t : Nat) : State :=
  ((s.fon Reg.SCHED_FLAGS_ET_ABANDON).recordFrom cET_ABANDON 0 t (leBytes 1 t)).fsat (Reg.TASK_STAT_OVR_RUN t)

/-- ET_ABANDON (R160). -/
def execEtAbandon (t : Task) (s : State) : Out :=
  match s.act t with
  | some a =>
    let d := s.topoN 0x0202 t 16 4 10000
    if t.val < 16 ∨ a.pf ∨ d = 0 then .next s
    else
      let s := ((s.toMono (a.at_ + d * 1000)).abandon (2 ^ t.val)).etAbandoned t
      let k := s.fget Reg.OVR_CFG_OVR_LIMIT
      .next (if k ≠ 0 ∧ k ≤ s.fget (Reg.TASK_STAT_OVR_RUN t) then s.enterSafe 0x06 t else s)
  | none => .next s

/-- USER_TIMER_TRIGGER (R147, kind 8): at the next grid point whose index is a multiple of 10 × `TRIG_ARG`. -/
def execUserTimerTrigger (t : Task) (s : State) : Out :=
  let n := 10 * s.topoN 0x0202 t 8 4 0
  if !s.running || !s.taskOn t || s.topoN 0x0202 t 3 1 0 != 8 || n == 0 then .next s
  else .next ((s.toDev (samplePt ((s.time.gs + n - 1) / n * n))).trigger t)

/-! ### PARK -/

/-- XREQ_PARK (R68, R69): code 1 on the system object. -/
def execXreqPark (l : Lane) (s : State) : Out :=
  let code := s.reqCode l
  s.instr l 4 (wordOk 0x62 9 0) (laneXreq fun v c => if v.code c = 1 then v.a.park else unknownReq) fun s t o =>
    if code ≠ 1 then s
    else
      let s := s.fset Reg.PARK_STAT_PARK_RESULT o.ctx.wa.toNat
      if o.ctx.cr && s.power.park == 0 && s.mode == mActive then 
        { s with power := { s.power with park := 1, parkTask := t, parkCyc := match s.act t with | some a => a.cyc | none => 0 } }
      else s

/-! ### Drops of the pairs -/

/-- R265. The commit unit drops both pairs on its own, stale or fast: a STAGE goes out to each field die, even where the pairs are off
already. -/
def State.dropPairs (s : State) (stale : Bool) (data : List Byte) : State :=
  let s := s.modIl fun i => { i with te := false, loop := false, dropAt := some s.time.dev }
  let s := s.each (if s.driving then [6, 7] else []) fun s n => s.setLink n { s.link n with pairsDue := true }
  let s := if stale then ((s.fon Reg.IL_STAT_IL_STALE).fon Reg.IL_FLAGS_STALE_SEEN).record cIL_STALE data
    else ((s.fon Reg.IL_STAT_FAST_DROP).fon Reg.IL_FLAGS_FAST_SEEN).record cIL_FAST_DROP data
  s.stageNow

/-- IL_STALE (R265): two periods of `IL_TASK` without a completed evaluation, counted before the first one from the end of BOOT. -/
def execIlStale (s : State) : Out :=
  match s.ilTask, s.il.evalAt with
  | some t, some e =>
    if !s.running || s.fbit Reg.IL_STAT_IL_STALE then .next s
    else .next ((s.toDev (e + 2 * s.topoN 0x0202 t 4 2 0 * 250000)).dropPairs true [])
  | _, _ => .next s

end Sys2Proof.Machine
end

