-- ==== Sys2Proof/Machine/Links.lean ====
section
/-! DEFINITION. Frames of the die links as they are received (R20 to R22), the miss rules that follow from them (R28 to R35),
measurement (R24), COMMIT at a satellite and CONFIRM (R28, R31), publication (R30), and local time (R40). -/

namespace Sys2Proof.Machine

/-! ### Receiving (R21) -/

/-- R21. The control die answers a discarded frame of slot `n` with NAK. -/
def State.ctlNak (s : State) (n : Nat) : State := s.ctlSend n 0x04 (leBytes 2 (s.link n).ctlRx)

/-- R21. The satellite of slot `n` answers a discarded frame with NAK. -/
def State.satNak (s : State) (n : Nat) : State := s.satSend n 0x04 (leBytes 2 (s.link n).satRx)

/-- R21. The control die discards the frame at the head of the link of slot `n`, behind which `rest` stands, and answers with NAK. The
second NAK of one `SEQ` makes the sender drop that frame, so that the receiver goes on behind it (DESIGN CHOICE). -/
def State.ctlDiscard (s : State) (n : Nat) (rest : List Frame) : State :=
  let s := s.ctlNak n
  let l := s.link n
  s.setLink n { l with up := rest, ctlNaked := !l.ctlNaked, ctlRx := if l.ctlNaked then (l.ctlRx + 1) % 65536 else l.ctlRx }

/-- R21. The satellite of slot `n` discards the frame at the head of its link, behind which `rest` stands, and answers with NAK; as the
control die does. -/
def State.satDiscard (s : State) (n : Nat) (rest : List Frame) : State :=
  let s := s.satNak n
  let l := s.link n
  s.setLink n { l with down := rest, satNaked := !l.satNaked, satRx := if l.satNaked then (l.satRx + 1) % 65536 else l.satRx }

/-- R20, R21. The control die receives the frame at the head of the link of slot `n`, which must be of type `typ` with a payload that
`p` admits: discarded, or acted on with its payload and `CCOUNT`. -/
def State.ctlTake (s : State) (n typ : Nat) (p : List Byte → Bool) (rx : Rx) (f : State → List Byte → Nat → State) : State :=
  match (s.link n).up with
  | h :: t =>
    let l := s.link n
    if h.typ ≠ typ ∨ !p h.payload ∨ s.looped n then s
    else if rx ≠ .ok ∨ !h.whole then (s.ctlDiscard n t).lsat (Reg.LINK_ERR_CRC_ERRORS n)
    else if h.seq ≠ l.ctlRx then s.ctlDiscard n t
    else f (s.setLink n { l with up := t, ctlRx := (l.ctlRx + 1) % 65536, ctlNaked := false }) h.payload h.ccount
  | [] => s

/-- R20, R21. The satellite of slot `n` receives the frame at the head of its link. -/
def State.satTake (s : State) (n typ : Nat) (rx : Rx) (f : State → List Byte → State) : State :=
  match (s.link n).down with
  | h :: t =>
    let l := s.link n
    if h.typ ≠ typ ∨ s.looped n ∨ !s.present n then s
    else if rx ≠ .ok ∨ !h.whole ∨ h.seq ≠ l.satRx then s.satDiscard n t
    else f (s.setLink n { l with down := t, satRx := (l.satRx + 1) % 65536, satNaked := false }) h.payload
  | [] => s

/-- FRAME_ABORT (R21): the frame is void. -/
def execFrameAbort (n : Slot) (toSat : Bool) (s : State) : Out :=
  let l := s.link n
  .next (
    if toSat then
      match l.down with
      | _ :: t => if !s.present n then s else s.satDiscard n t
      | [] => s
    else
      match l.up with
      | _ :: t => s.ctlDiscard n t
      | [] => s)

/-- R21, R22. A frame of slot `n` is dropped after its second NAK. -/
def State.linkDrop (s : State) (n typ : Nat) : State :=
  let s := ((s.lsat (Reg.LINK_ERR_DROPS n)).fon Reg.COMMIT_FLAGS_LINK_DROP).recordFrom cLINK_DROP n 31 (leBytes 1 n ++ leBytes 1 typ)
  if typ = 6 ∨ typ = 7 ∨ typ = 8 then s.regEnd n aTimeout 0 else s

/-- R21. A kept frame of `SEQ` `e` counts as NAKed and stands as it was resent. -/
def markNaked (e : Nat) (kept : List (Frame × Bool)) : List (Frame × Bool) :=
  kept.map fun k => if k.1.seq == e then (k.1.again, true) else k

/-- R21. A NAK of `SEQ` `e`: the frame is resent once; a second NAK drops it. -/
def State.nakTaken (s : State) (n e : Nat) (toSat : Bool) : State :=
  let l := s.link n
  match (if toSat then l.satKept else l.ctlKept).find? fun k => k.1.seq == e with
  | some (f, naked) =>
    if naked then s.linkDrop n f.typ
    else if toSat then s.setLink n { l with up := l.up ++ [f.again], satKept := markNaked e l.satKept }
    else s.setLink n { l with down := l.down ++ [f.again], ctlKept := markNaked e l.ctlKept }
  | none => s

/-- NAK (R21). -/
def execNak (n : Slot) (toSat : Bool) (rx : Rx) (s : State) : Out :=
  .next (
    if toSat then s.satTake n 0x04 rx fun s p => s.nakTaken n (leAt p 0 2) true
    else s.ctlTake n 0x04 (fun _ => true) rx fun s p _ => s.nakTaken n (leAt p 0 2) false)

/-! ### STAGE, RESYNC and their ACK (R28, R35) -/

/-- An output set after the runs of (offset, length, data) of a STAGE. -/
def stageBytes : Nat → List Byte → Bytes → Bytes
  | 0, _, m => m
  | k + 1, l, m =>
    if l.length ≤ 4 then m
    else
      let n := leAt l 2 2
      stageBytes k (l.drop (4 + n)) (mput 0 m (leAt l 0 2) (sub_ l 4 n))

/-- STAGE (R28). -/
def execStage (n : Slot) (rx : Rx) (s : State) : Out :=
  .next (s.satTake n 0x02 rx fun s p =>
    let x := s.sat n
    let t := leAt p 0 2
    if (x.ccount + 1) % 65536 = t then
      (s.setSat n { x with staged := some (t, false, stageBytes p.length (p.drop 2) x.applied, s.time.mono) }).satSend n 0x03 (leBytes 2 t)
    else s.satNak n)

/-- RESYNC (R28, R35): the complete set, with the commit number that the die's counter takes up. -/
def execResync (n : Slot) (rx : Rx) (s : State) : Out :=
  .next (s.satTake n 0x0A rx fun s p =>
    let x := s.sat n
    let t := leAt p (outLen n) 2
    let s := s.setSat n { x with ccount := (t + 65535) % 65536, staged := some (t, true, mput 0 [] 0 (p.take (outLen n)), s.time.mono) }
    (s.ccountView n).satSend n 0x03 (leBytes 2 t))

/-- R238, R293, R323, Table 14.8. On the ACK of its RESYNC, a die's `SHADOW` or `STBY` is cleared by REG_WR: of a die named in a
takeover, and in a driving module of a pair of any die, for one that missed the takeover still holds it. -/
def State.leaveStandby (s : State) (n : Nat) : State :=
  let clear := match s.dup.prep with | some m => bit m n | none => s.driving && s.duplexCfg
  if clear then s.regSubmit n { req := 4, write := true, off := if n = 4 ∨ n = 5 then 0x1C else 0x14, data := 0 } else s

/-- ACK (R28, R31). One that arrives after its commit point settles the STAGE. -/
def execAck (n : Slot) (rx : Rx) (s : State) : Out :=
  .next (s.ctlTake n 0x03 (fun _ => true) rx fun s p _ =>
    let l := s.link n
    let t := leAt p 0 2
    match l.stageNum with
    | some k =>
      if t ≠ k then s.setLink n { l with ackWrong := true }
      else if k = s.fget Reg.COMMIT_NUM_CCOUNT then (s.setLink n { l with stageNum := none, acked := none, resync := false }).stageNow
      else
        let s := s.setLink n { l with acked := some t }
        if l.resync then s.leaveStandby n else s
    | none => s)

/-- STAGE_RESEND (Table 1.4, step 5). -/
def execStageResend (n : Slot) (s : State) : Out :=
  let l := s.link n
  .next (
    if l.stageNum.isNone || l.acked.isSome || l.stageResent then s
    else
      let s := s.toMono (l.stageAt + 5000)
      match (s.link n).ctlKept.find? fun k => k.1.typ == 2 || k.1.typ == 0x0A with
      | some (f, _) =>
        s.setLink n { s.link n with
          stageResent := true, down := (s.link n).down ++ [f.again]
          ctlKept := (s.link n).ctlKept.map fun x => if x.1.seq == f.seq then (f.again, x.2) else x }
      | none => s)

/-- ACK_DEADLINE (R31): 10 µs after the STAGE ended. An orphan's RESYNC is given up (R35). -/
def execAckDeadline (n : Slot) (s : State) : Out :=
  let l := s.link n
  .next (
    if l.stageNum.isNone || l.acked.isSome then s
    else
      let s := s.toMono (l.stageAt + 10000)
      if l.resync && s.fbit (Reg.LINK_STAT_ORPHAN n) then s.setLink n { s.link n with stageNum := none, resync := false, ackWrong := false }
      else s.miss n (if l.ackWrong then 2 else 1))

/-- STAGE_DISCARD (R29). DESIGN CHOICE: a set that a RESYNC brought is discarded as one of a STAGE, on which alone the rule speaks. -/
def execStageDiscard (n : Slot) (s : State) : Out :=
  let x := s.sat n
  .next (
    match x.staged with
    | some (_, _, _, at_) => if !s.present n then s else (s.toMono (at_ + 50000)).setSat n { x with staged := none }
    | none => s)

/-! ### COMMIT at a satellite -/

/-- R27, Table 8.14. A COMMIT reaches door die `n`: its silence timer restarts, and the longest gap is kept. -/
def State.doorGap (s : State) (n : Nat) : State :=
  let x := s.sat n
  let s := if x.everCommit then s.fmax (Reg.DRV_SILENCE_MAX_GAP_US (n - 1)) ((s.time.mono - x.lastCommit) / 1000) else s
  s.fset (Reg.DRV_STAT_SILENT (n - 1)) 0

/-- COMMIT_APPLY (R23, R28): the die applies its staged set, and answers CONFIRM; a field die in mode S once its field side has
echoed (R314 to R316). -/
def execCommitApply (n : Slot) (s : State) : Out :=
  let l := s.link n
  .next (
    if !l.commitDue then s
    else
      let s := s.setLink n { l with commitDue := false }
      if !s.present n || s.looped n then s
      else
        let s := if s.time.emitted then s.toDev (commitPt s.time.gc) else s
        if n.val ≤ 3 then (((s.doorGap n).satApply n).doorApply (n - 1)).sendConfirm n
        else if n.val ≤ 5 then ((s.satApply n).loadApply (n - 4)).sendConfirm n
        else if s.modeC (n - 6) then
          let out := s.comingSet n
          ((s.fieldTake (n - 6) (setDo out) (setClr out)).satApply n).sendConfirm n
        else s.modField (n - 6) fun x => { x with applyNum := some (((s.sat n).ccount + 1) % 65536) })

/-- CONFIRM (R31). -/
def execConfirm (n : Slot) (rx : Rx) (s : State) : Out :=
  .next (s.ctlTake n 0x0E (fun _ => true) rx fun s _ c =>
    let s := s.fset (Reg.LINK_STAT_DIE_CCOUNT n) c
    if !s.time.confirmDue || !bit s.time.sentTo n then s
    else if c ≠ s.fget Reg.COMMIT_NUM_CCOUNT then s.miss n 4
    else { s with time := { s.time with confirmed := putBit s.time.confirmed n true } })

/-- R31. C + 5 µs: dies that have not confirmed miss. -/
def State.confirmEnd (s : State) : State :=
  if !s.time.confirmDue then s
  else
    let s := s.toDev (commitPt (s.time.gc - 1) + 5000)
    let s := { s with time := { s.time with confirmDue := false } }
    s.each (satSlots.filter fun n => bit s.time.sentTo n && !bit s.time.confirmed n) fun s n => s.miss n 3

/-- R31. The dies whose ACK deadline has passed with no ACK for the last commit point miss it. -/
def State.ackEnd (s : State) : State :=
  s.each (satSlots.filter fun n =>
    (s.link n).stageNum == some (s.fget Reg.COMMIT_NUM_CCOUNT) && (s.link n).acked.isNone && !(s.link n).resync) fun s n =>
      s.miss n (if (s.link n).ackWrong then 2 else 1)

/-- CONFIRM_DEADLINE (R31). -/
def execConfirmDeadline (s : State) : Out := .next s.confirmEnd

/-! ### Publication (R30) -/

/-- R393, R394, R414. `PEER_RELEASE_OUT` rises for `REL_MS`. -/
def State.relPulse (s : State) : State :=
  if s.dup.claimOut && !s.dup.claimIn && decide (s.dup.absentAt + 500000 ≤ s.time.mono) then
    ({ s with dup := { s.dup with relAt := some s.time.mono } }).fput Reg.DUP_STAT_REL_OUT s.tap.vio
  else s

/-- R30. The committed image: outputs as applied, Q bytes bound to a die as that die applies them, the input images. -/
def State.newImage (s : State) : CImage :=
  let outs := (satSlots.filter fun n => bit s.time.confirmed n).foldl (fun m n => mset [] m n (mget [] s.cnext.outs n)) s.cimg.outs
  let q := (s.entries 0x0205 0 8).foldl (fun q e =>
    mput 0 q (leAt e 0 2) (mslice 0 (mget [] outs (leAt e 4 1)) (leAt e 6 2) (leAt e 2 2))) s.cnext.q
  { outs, q, inputs := s.sram.filter fun c => decide (imgsBase ≤ c.1) && decide (c.1 < 0x100000), ccount := s.cnext.ccount }

/-- R266. Committed values of the four halves, and the device time of the commit. -/
def State.notePairs (s : State) : State :=
  if !s.ilOn then s
  else
    let v := ([0, 1, 2, 3].map fun h =>
      match s.halfOut h with
      | some d => b2n (bit (leNat (mslice 0 (mget [] s.cimg.outs (6 + d / 16)) 0 2)) (d % 16)) * 2 ^ h
      | none => 0).sum
    s.modIl fun i => { i with pairs := ((commitPt (s.time.gc - 1), v) :: i.pairs).take 4 }

/-- PUBLISH (R30): the committed image switches as one step; the Query Port, the belay set and the release pulse follow. -/
def execPublish (s : State) : Out :=
  .next (
    if !s.time.publishDue then s
    else
      let s := (s.confirmEnd.toDev (commitPt (s.time.gc - 1) + 5000)).ackEnd
      let s := { s with time := { s.time with publishDue := false } }
      let s := s.each satSlots fun s n => s.fput (Reg.LINK_STAT_APPLIED n) (bit s.time.confirmed n)
      let s := { s with
        cimg := s.newImage
        eng := { s.eng with
          pubCyc := s.eng.pubDue.foldl (fun m (p : Nat × Nat) => mset 0 m p.1 (p.2 + 1)) s.eng.pubCyc, pubDue := [], sPub := s.sStatus false } }
      let s := s.notePairs
      let s := s.each ((satSlots.filter fun n => n ≤ 3 && bit s.time.confirmed n) : List Nat) fun s n =>
        if (s.sat n).cfg.isEmpty || !(s.link n).profWait then s
        else (s.setLink n { s.link n with profWait := false }).sendProfiles n
      let s := s.belayDelta.qpService
      if s.dup.relDue then ({ s with dup := { s.dup with relDue := false } }).relPulse else s)

/-! ### Local time (R40) -/

/-- SYNC_SEND (R40). -/
def execSyncSend (s : State) : Out :=
  .next (
    if s.mode = mPark ∨ !satSlots.any (fun n => s.admitted n) then s
    else
      let s := s.toMono (s.time.lastSync + 100000)
      let s := { s with time := { s.time with lastSync := s.time.mono } }
      s.each (satSlots.filter fun n => s.admitted n) fun s n => s.ctlSend n 0x05 (leBytes 8 s.time.dev))

/-- SYNC (R40). -/
def execSync (n : Slot) (rx : Rx) (s : State) : Out :=
  .next (s.satTake n 0x05 rx fun s p =>
    s.setSat n { s.sat n with localBase := leAt p 0 8 + s.fget (Reg.LINK_LAT_LAT_NS n), localAt := s.time.mono })

/-! ### UP and DOWN (R18) -/

/-- R228, R297, R306, R331, R461. What the die of slot `n` held for its link goes out. -/
def State.flushHeld (s : State) (n : Nat) : State :=
  if !s.present n then s
  else if n ≤ 3 then
    s.each ([0, 1, 2, 3].map (4 * (n - 1) + ·)) fun s k =>
      let s := (s.door k).ledHeld.foldl (fun s f => s.satSend n 0x0B f) s
      let s := s.modDoor k fun d => { d with ledHeld := [] }
      match (s.door k).evPend with
      | some ev => if s.mayEvent k then s.sendDoorEvent k ev else s
      | none => s
  else if n ≤ 5 then
    let s := (mget ({} : LoadDie) s.ldies (n - 4)).evHeld.foldl (fun s ev => s.sendLoadEvent (n - 4) 15 ev) s
    let ld : LoadDie := mget {} s.ldies (n - 4)
    let s : State := { s with ldies := mset {} s.ldies (n - 4) { ld with evHeld := [] } }
    s.each (List.range 12) fun s c =>
      match (s.load (12 * (n - 4) + c)).evPend with
      | some ev =>
        let free := match (s.load (12 * (n - 4) + c)).evAt with | none => true | some t => decide (t + 250000 ≤ s.time.mono)
        if free then s.sendLoadEvent (n - 4) c ev else s
      | none => s
  else
    let f := n - 6
    let s := (s.fio f).evHeld.foldl (fun s p => s.sendFieldEvent f p.1 p.2 (leBytes 2 (s.outsOn f))) s
    let s := s.modField f fun x => { x with evHeld := [] }
    (s.fio f).evPend.foldl (fun s p => s.sendEdge f p.1 p.2.1 p.2.2) s

/-- LINK_UP (R18): sequence numbers start at 0, the link is measured (R24), and held events go out. -/
def execLinkUp (n : Slot) (s : State) : Out :=
  .next (
    if n.val = 0 || s.linkIsUp n || !s.present n || s.mode == mPark || s.looped n then s
    else
      let s := s.fon (Reg.LINK_STAT_UP n)
      let s := s.setLink n { s.link n with
        down := [], up := [], ctlTx := 0, ctlRx := 0, satTx := 0, satRx := 0, ctlKept := [], satKept := [], ctlNaked := false, satNaked := false }
      (s.measure n).flushHeld n)

/-- R18. The link of slot `n` is DOWN: what was on it is lost. -/
def State.linkFall (s : State) (n : Nat) : State :=
  let s := s.fset (Reg.LINK_STAT_UP n) 0
  s.setLink n { s.link n with down := [], up := [], latchDue := false, commitDue := false, measuring := false, rtts := [] }

/-- LINK_DOWN (R18). -/
def execLinkDown (n : Slot) (s : State) : Out := .next (if s.linkIsUp n then s.linkFall n else s)

/-- R18, R96. The image declares slot `n` fitted: `REQ_SLOTS` names it or a record uses it. -/
def State.declared (s : State) (n : Nat) : Bool :=
  (match s.boot.image with | some i => bit i.req n | none => false) || s.boot.topo.any fun r =>
    (r.ty == 0x0301 && r.inst / 4 + 1 == n && leAt r.data 0 1 != 0) || (r.ty == 0x0501 && r.inst / 12 + 4 == n) ||
      (r.ty == 0x0601 && r.inst + 6 == n)

/-- LINK_RETRAIN (R18): the link starts over. -/
def execLinkRetrain (n : Slot) (s : State) : Out :=
  .next (
    if n.val = 0 || s.linkIsUp n || !s.declared n || s.mode == mPark then s
    else s.setLink n { s.link n with
      down := [], up := [], ctlTx := 0, ctlRx := 0, satTx := 0, satRx := 0, ctlKept := [], satKept := [], ctlNaked := false, satNaked := false })

/-! ### Measurement (R24, R35) -/

/-- PROBE (R24): the tag returns. -/
def execProbe (n : Slot) (rx : Rx) (s : State) : Out := .next (s.satTake n 0x0C rx fun s p => s.satSend n 0x0D p)

/-- R23. Latency in ns as the mean over the round trips `r`, each with the turnaround of 400 ns. -/
def latencyOf (r : List Nat) : Nat := (r.foldl (· + ·) 0 - r.length * 400) / (2 * r.length)

/-- R24. A latency above 2,000 ns, or a spread of more than 40 ns. -/
def latencyBad (r : List Nat) : Bool :=
  let hi := r.foldl max 0
  decide (2000 < latencyOf r) || decide (40 < hi - r.foldl min hi)

/-- R24. The measurement of slot `n` has its 16 round trips. -/
def State.measured16 (s : State) (n : Nat) : State :=
  let r := (s.link n).rtts
  let lat := latencyOf r
  let bad := latencyBad r
  let s := (s.fset (Reg.LINK_LAT_LAT_NS n) (clip 12 lat)).fset (Reg.LINK_LAT_HOLD_NS n) ((2000 - lat) / 4 * 4)
  let s := s.setLink n { s.link n with
    measuring := false, rtts := [], failSince := if bad then some ((s.link n).failSince.getD s.time.mono) else none }
  if s.mode = mBoot then s else s.sendResync n

/-- ECHO (R24). -/
def execEcho (n : Slot) (rx : Rx) (rtt : Nat) (s : State) : Out :=
  .next (s.ctlTake n 0x0D (fun _ => true) rx fun s p _ =>
    let l := s.link n
    if !l.measuring || leAt p 0 4 != l.probeTag then s
    else
      let s := s.setLink n { l with rtts := rtt :: l.rtts }
      if (s.link n).rtts.length < 16 then s.sendProbe n else s.measured16 n)

/-- LATENCY_REMEASURE (R35). -/
def execLatencyRemeasure (n : Slot) (s : State) : Out :=
  .next (if (s.link n).failSince.isSome && s.linkIsUp n && !(s.link n).measuring && !s.fbit (Reg.LINK_STAT_EXCLUDED n) then s.measure n else s)

/-- LATENCY_EXCLUDE (R35): 60 s of failed measurements. -/
def execLatencyExclude (n : Slot) (s : State) : Out :=
  .next (
    match (s.link n).failSince with
    | some t => if s.mode = mBoot ∨ s.mode = mPark then s else (s.toMono (t + 60000000000)).exclude n 2
    | none => s)

/-! ### Register frames (R22) -/

/-- REG_WR (R22): the die answers with REG_RSP. -/
def execRegWr (n : Slot) (rx : Rx) (s : State) : Out :=
  .next (s.satTake n 0x06 rx fun s p =>
    let (st, s) := s.satWrite n (leAt p 0 4) (leAt p 4 4)
    s.satSend n 0x08 (leBytes 4 (leAt p 0 4) ++ leBytes 4 (leAt p 4 4) ++ leBytes 1 st))

/-- REG_RD (R22). -/
def execRegRd (n : Slot) (rx : Rx) (s : State) : Out :=
  .next (s.satTake n 0x07 rx fun s p =>
    let (v, st, s) := s.satRead n (leAt p 0 4)
    s.satSend n 0x08 (leBytes 4 (leAt p 0 4) ++ leBytes 4 v ++ leBytes 1 st))

/-- REG_RSP (R22). DESIGN CHOICE: one that arrives when no access is outstanding, or whose offset is not that of the access
outstanding, answers an access that has timed out and is ignored; a late one for the same offset is taken as the answer. -/
def execRegRsp (n : Slot) (rx : Rx) (s : State) : Out :=
  .next (s.ctlTake n 0x08 (fun _ => true) rx fun s p _ =>
    match (s.link n).regAt, (s.link n).regQ with
    | some _, r :: _ =>
      if leAt p 0 4 = r.off % 2 ^ 32 then s.regEnd n (if leAt p 8 1 = 0 then aOk else aUnmapped) (leAt p 4 4) else s
    | _, _ => s)

/-- REG_ACCESS_TIMEOUT (R22). -/
def execRegAccessTimeout (n : Slot) (s : State) : Out :=
  .next (
    match (s.link n).regAt with
    | some t => (s.toMono (t + 20000)).regEnd n aTimeout 0
    | none => s)

/-! ### EVENT (R147, R228, R265, R297, R306) -/

/-- R147, R265, R460. An event of channel `k`: `ev`, `STATE`, `CAUSE` and `SAFE_SEEN`. -/
def State.doorEventIn (s : State) (k ev st cause safe : Nat) : State :=
  let s := s.triggerAll 3 fun a => a % 16 == k && (a / 256 % 256 == ev || a / 256 % 256 == 0xFF)
  let s := if st = dHalted ∧ cause = zEgress then s.markRec k 4 0 else s
  if s.ilOn && s.ilChans.contains k && s.running && (ev == vProofLost || ev == vEgress || ev == vFault || !secureState (s.ilRole k) st ||
      !bit safe 0 || bit safe 1 || bit safe 2 || bit safe 3 || bit safe 4) then
    s.dropPairs false (leBytes 1 k ++ leBytes 1 ev ++ leBytes 1 st ++ leBytes 1 safe)
  else s

/-- R147, R297. An event of load die `n`, local channel `c`. -/
def State.loadEventIn (s : State) (n c ev : Nat) (p : List Byte) : State :=
  let x := 12 * n + c
  let body := leBytes 1 (if c = 15 then 0xFF else x) ++ sub_ p 2 6
  if ev = wTrip ∨ ev = wThermal ∨ ev = wDiag then
    let s := s.triggerAll 4 fun a => a % 32 == x || a % 32 == 31
    s.recordFrom (if ev = wTrip then cLOAD_TRIP else if ev = wThermal then cLOAD_THERMAL else cLOAD_DIAG) (4 + n) 31 body
  else if ev = wBand then s.recordFrom cLOAD_BAND (4 + n) 31 (leBytes 1 (4 + n) ++ sub_ p 2 1)
  else s

/-- R147, R306. An event of field die `f`, input or output `c`. -/
def State.fieldEventIn (s : State) (f c ev : Nat) (level : Bool) : State :=
  if ev = 1 then s.triggerAll 2 fun a => a % 64 == 32 * f + c && bit (a / 256) (if level then 0 else 1) else s

/-- EVENT (R147): recognised on arrival. -/
def execEvent (n : Slot) (rx : Rx) (s : State) : Out :=
  .next (s.ctlTake n 0x09 (fun _ => true) rx fun s p _ =>
    let b (i : Nat) : Nat := leAt p i 1
    if n.val ≤ 3 then s.doorEventIn (4 * (n - 1) + b 1 % 16 % 4) (b 0) (b 2) (b 3) (b 7)
    else if n.val ≤ 5 then s.loadEventIn (n - 4) (b 1 % 16) (b 0) p
    else s.fieldEventIn (n - 6) (b 1 % 32) (b 0) (bit (b 2) 0))

/-! ### INPUT (R34, R37) -/

/-- R421, R25. Field read-back in STANDBY against the active module's outputs of the belay set: a difference of 1 s fails the test. -/
def State.stReadBack (s : State) (n : Nat) (b : List Byte) : State :=
  if s.mode ≠ mStandby ∨ !s.fbit Reg.DUP_STAT_BELAY_OK then s
  else
    let f := n - 6
    let want := leNat (mslice 0 s.dup.set (64 + outPos n) 2)
    let got := leAt b 12 2
    let now := s.time.mono
    let s := s.each (List.range 16) fun s c =>
      let o := 16 * f + c
      let joined := bit (s.topoN 0x0604 f (4 * c + 2) 1 4) 1
      let old := s.dup.rbDiff.filter fun p => p.1 != o
      if joined && bit want c != bit got c then
        if s.dup.rbDiff.any fun p => p.1 == o then s else { s with dup := { s.dup with rbDiff := (o, now) :: old } }
      else { s with dup := { s.dup with rbDiff := old } }
    s.stTest 4 (s.dup.rbDiff.any fun p => decide (p.2 + 1000000000 ≤ now))

/-- R288, R421. Off-state checks of the load die of slot `n` in STANDBY, as its input block `b` reports them: `SHORT_VF` or `OPEN_OFF` on a
channel with `OFF_DIAG` and without `SHARED`. -/
def State.stLoads (s : State) (n : Nat) (b : List Byte) : State :=
  if s.mode ≠ mStandby then s
  else
    let bad := (List.range 12).any fun c =>
      let x := 12 * (n - 4) + c
      let d := leAt b (8 + 8 * c + 6) 1
      s.lflag x 4 && !s.lflag x 3 && (bit d 1 || bit d 2)
    s.stPart 3 (8 + n) 0x3000 bad

/-- INPUT (R20, R34): the block of the sample point in hand reaches the activations that wait for it. -/
def execInput (n : Slot) (rx : Rx) (s : State) : Out :=
  .next (s.ctlTake n 0x01 (fun _ => true) rx fun s p _ =>
    let l := s.link n
    if !l.inputDue || l.inputIn then s
    else
      let ok := s.dieValid n
      let s := s.setLink n { l with input := p, inputIn := true, lastOk := if ok then p else l.lastOk }
      let s := if n.val ≤ 3 && ok then s.stepActs n l.lastOk p else s
      let s := if n.val ≤ 3 && ok && bit s.boot.resume n then s.resumeRecs n p else s
      let s := if 6 ≤ n.val then s.stReadBack n p else if 4 ≤ n.val ∧ ok then s.stLoads n p else s
      let s := taskNums.foldl (fun s t =>
        match s.act t with
        | some a =>
          if !bit a.wait n then s
          else
            let valid := bit (mget 0 a.sArea 0x10).toNat n
            let blocks := if valid then a.blocks ++ [(n.val, p)] else a.blocks
            (s.setAct t (some { a with wait := putBit a.wait n false, blocks })).fillIfIn t
        | none => s) s
      s.stageNow)

/-! ### TRACE frames (R240, R249, R461) -/

/-- TRACE (R240): one sample into the ring of its channel. -/
def execTrace (n : Slot) (rx : Rx) (s : State) : Out :=
  .next (s.ctlTake n 0x0B (fun p => decide (leAt p 0 1 < 12)) rx fun s p _ =>
    let k := leAt p 0 1
    let i := mget 0 (s.link n).traceNext k
    let s := { s with sram := mput 0 s.sram (0x800000 + k * 0x20000 + 16 * i) (sub_ p 1 16) }
    s.setLink n { s.link n with traceNext := mset 0 (s.link n).traceNext k ((i + 1) % 8192) })

/-- R249. A direction of the profile of channel `k` goes into bank B2; it waits for its copy in MRAM. -/
def State.profTake (s : State) (k dir : Nat) (adapted : Bool) (vals : List Byte) : State :=
  let base := 0x980000 + k * 0x1000
  let s := { s with sram := mput 0 s.sram (base + (if adapted then 0x400 else 0) + dir * 0x200) (vals.take 512) }
  let s := { s with sram := mput 0 s.sram (base + 0x800) (s.geoHash k) }
  let s := if adapted then s.wrN (base + 0x808) 4 (min (2 ^ 32 - 1) (s.rdN (base + 0x808) 4 + 1))
    else (s.wrN (base + 0x804) 4 s.opSec).wrN (base + 0x808) 4 0
  let s := s.wrN (base + 0x80C) 1 (1 + 2 * b2n (bit (s.fget Reg.PROF_STAT_DRIFT) k))
  let s := s.fset Reg.PROF_STAT_LEARNED (putBit (s.fget Reg.PROF_STAT_LEARNED) k true)
  s.setLink (chSlot k) { s.link (chSlot k) with profDue := putBit (s.link (chSlot k)).profDue (k % 4) true }

/-- PROFILE_FRAME (R249); an active module of a pair forwards it (R407). -/
def execProfileFrame (n : Slot) (rx : Rx) (s : State) : Out :=
  .next (s.ctlTake n 0x0B (fun p => leAt p 0 1 == 0xF0) rx fun s p _ =>
    let k := leAt p 1 1
    if 12 ≤ k then s
    else
      let s := s.profTake k (leAt p 2 1 % 2) (leAt p 3 1 == 1) (p.drop 4)
      if s.driving && s.duplexNow then s.ropeSend 0x0E p else s)

/-- LEDGER_STATE_FRAME (R461). -/
def execLedgerStateFrame (n : Slot) (rx : Rx) (s : State) : Out :=
  .next (s.ctlTake n 0x0B (fun p => leAt p 0 1 == 0xF1) rx fun s p _ =>
    if 12 ≤ leAt p 1 1 ∨ s.mode = mStandby then s
    else s.ledgerChange (leAt p 1 1) (leAt p 2 1) (leAt p 3 5) (leAt p 8 2) (leAt p 10 2) (leAt p 12 2))

end Sys2Proof.Machine
end

