-- ==== Sys2Proof/Machine/Recorder.lean ====
section
/-! DEFINITION. Memory errors, scrub, fill and refresh (R429 to R437), the writing of Cairn records (R445 to R456), the operating
count (R449) and the profile store (R249). -/

namespace Sys2Proof.Machine

/-! ### Errors (R429, Table 15.3) -/

/-- R429. A correction at `a`: counted, recorded, and written back; more than the limit within 3,600 s raise the alarm. -/
def State.eccCe (s : State) (a : Nat) : State :=
  let b := bankOf a
  let s := (((s.fsat (Reg.ECC_CNT_CE b)).fset (Reg.ECC_ADDR_ADDR b) a).fon Reg.MEM_FLAGS_CE_SEEN).record cECC_CE (leBytes 1 b ++ leBytes 4 a)
  let now := s.time.dev
  let s := { s with mem := { s.mem with
    ceCount := s.mem.ceCount + 1
    wb := (a - a % 8) :: s.mem.wb.filter fun x => x != a - a % 8
    ceAt := now :: s.mem.ceAt.filter fun t => decide (now < t + 10800000000000) } }
  if s.fget Reg.MEM_CFG2_CE_ALARM_LIM < (s.mem.ceAt.filter fun t => decide (now < t + 3600000000000)).length ∧ !s.fbit Reg.MEM_FLAGS_CE_ALARM then
    (s.fon Reg.MEM_FLAGS_CE_ALARM).record cECC_CE_ALARM []
  else s

/-- ECC_WRITEBACK (R429): the corrected word is written back, unless it was written meanwhile. -/
def execEccWriteback (b : Fin 6) (addr : Word) (overwritten : Bool) (s : State) : Out :=
  let a := addr.toNat - addr.toNat % 8
  if bankOf a ≠ b.val ∨ !s.mem.wb.contains a then .next s
  else
    let s := { s with mem := { s.mem with wb := s.mem.wb.filter fun x => x != a } }
    .next (if overwritten then s.healed a else s)

/-- Instants of a list, newest first, at which more than `lim` of them ended to lie within 3,600 s: the last. -/
def overEnd (lim : Nat) (l : List Nat) : Nat :=
  ((List.range l.length).filter fun i => decide (l.getD i 0 < l.getD (i + lim) 0 + 3600000000000) && decide (i + lim < l.length)).foldl
    (fun m i => max m (l.getD (i + lim) 0 + 3600000000000)) 0

/-- CE_ALARM_CLEAR (R429). -/
def execCeAlarmClear (s : State) : Out :=
  if !s.fbit Reg.MEM_FLAGS_CE_ALARM then .next s
  else
    let t := overEnd (s.fget Reg.MEM_CFG2_CE_ALARM_LIM) s.mem.ceAt + 3600000000000
    .next ((s.toDev t).fset Reg.MEM_FLAGS_CE_ALARM 0)

/-- R429, Table 15.3. The word at `a` cannot be read until it is written. -/
def State.badWord (s : State) (a : Nat) : State :=
  { s with mem := { s.mem with bad := (a - a % 8) :: s.mem.bad.filter fun x => x != a - a % 8 } }

/-- R435. The 64-byte block at `a` is filled with zeros. -/
def State.zeroBlock (s : State) (a : Nat) : State := { s with sram := mclear (a - a % 64) 64 s.sram }

/-- Table 15.3. A program slot whose content cannot be read. -/
def State.slotBad (s : State) (i : Nat) : State :=
  let st := s.slotState i
  if st = slActive ∨ st = slProbation then (if s.running || s.mode == mSafe then s.enterSafe 0x09 5 else s)
  else if st = slVerified ∨ st = slInactive then ((s.setSlot i slEmpty).fon Reg.MEM_FLAGS_SLOT_LOST).record cSLOT_LOST (leBytes 1 i)
  else s

/-- Table 15.3, R440. A copy of an overlay entry is lost. -/
def State.overlayBad (s : State) (a : Nat) : State :=
  if a < ovlBase + 0x4000 ∨ ovlBase + 0x24000 ≤ a then s
  else
    let id := (a - ovlBase - 0x4000) / 32
    let had := (s.ovlBest id).isSome
    let c := a - a % 16
    let s := s.mwBytes c (leBytes 16 0)
    if had && (s.ovlBest id).isNone then (s.fon Reg.MEM_FLAGS_OVERLAY_LOST).record cOVERLAY_LOST (leBytes 2 id) else s

/-- Table 15.4. `VALID` of the Topo shadow in the system headers. DESIGN CHOICE: its place, and the value 0xA5. -/
def State.shadowValid (s : State) : Bool := s.mrN hdrBase 1 == 0xA5

/-- Table 15.3. An uncorrectable word at `a`. -/
def State.ueAct (s : State) (a : Nat) : State :=
  let w := a - a % 8
  let boot := s.mode == mBoot || s.mode == mPark
  if a < 0x200000 then
    if boot then ({ s with boot := { s.boot with dataUe := s.boot.dataUe || inData a } }).zeroBlock a else s.enterSafe 0x09 0
  else if a < 0x800000 then
    let s := { s with sram := mclear w 8 s.sram }
    if 0x210000 ≤ a ∧ a < 0x510000 then
      let i := (a - 0x210000) / 3072
      if (s.tel i).copy.isSome then s.setTel i { s.tel i with copy := none } else s
    else s
  else if a < 0xA00000 then
    if boot then
      let k := (a - 0x980000) / 0x1000
      let s := if 0x980000 ≤ a ∧ a < 0x98C000 then { s with boot := { s.boot with profUe := putBit s.boot.profUe k true } } else s
      s.zeroBlock a
    else if a < 0x980000 then { s with sram := mclear (a - a % 16) 16 s.sram }
    else if a < 0x98C000 then
      let b := a - a % 64
      { s with sram := mput 0 s.sram b (mslice 0 s.mram (0x10340000 + (b - 0x980000)) 64) }
    else s.badWord a
  else if a < 0xB00000 then
    let s := s.badWord a
    if 0xA80000 ≤ a ∧ a < 0xA90000 then s.belayStale else s
  else if a < 0xC00000 then { s with mem := { s.mem with badB4 := (a / 64) :: s.mem.badB4 } }
  else if 0x10000000 ≤ a ∧ a < 0x10200000 then s.slotBad ((a - 0x10000000) / 0x100000)
  else if 0x10310000 ≤ a ∧ a < 0x10340000 then s.overlayBad a
  else if 0x10600000 ≤ a ∧ a < 0x10A00000 then (s.mwN hdrBase 1 0).fset Reg.SHADOW_STAT_VALID 0
  else if 0x10A00000 ≤ a ∧ a < 0x10B00000 then s.belayStale
  else s.badWord a

/-- SCRUB (R430): a pass ends with the words it corrected and those it could not; the next begins. -/
def execScrub (ce ue : List Word) (s : State) : Out :=
  if s.mode = mPark then .next s
  else
    let ok (w : Word) : Bool := memMapped w.toNat
    let s := (ce.filter ok).foldl (fun s w => s.eccCe w.toNat) s
    let s := (ue.filter ok).foldl (fun s w => (s.eccUe w.toNat).ueAct w.toNat) s
    let s := if s.mode = mStandby then s.stTest 1 !(ue.filter ok).isEmpty else s
    .next ((s.fmod Reg.SCRUB_STAT_SCRUB_PASSES).fon Reg.MEM_STAT_SCRUB_BUSY)

/-- FILL_DONE (R432): time moves to the end of the fill of bank `b`. -/
def execFillDone (b : Fin 5) (s : State) : Out := .next (s.fillEnd b)

/-- R437. The refresh engine visits the block at `a`. -/
def State.refreshed (s : State) (a : Nat) : Bool :=
  (decide (0x10000000 ≤ a) && decide (a < 0x10200000) && s.slotState ((a - 0x10000000) / 0x100000) != slLoading) ||
    (decide (0x10340000 ≤ a) && decide (a < 0x1034C000)) || (decide (0x10350000 ≤ a) && decide (a < 0x103D0000)) ||
    (decide (0x10400000 ≤ a) && decide (a < 0x10580000)) || (decide (0x10600000 ≤ a) && decide (a < 0x10A00000)) ||
    (decide (0x10B00000 ≤ a) && decide (a < 0x11000000))

/-- R437. Age stamp of the 64 KiB region of `a`. DESIGN CHOICE: its place in the system headers, 4 bytes of operating seconds. -/
def stampAt (a : Nat) : Nat := hdrBase + 0x1000 + 4 * ((a - 0x10000000) / 65536)

/-- REFRESH (R437): the block is rewritten where it showed a correction or its region is old, which renews the stamp. -/
def execRefresh (addr : Word) (corrected passEnd : Bool) (s : State) : Out :=
  let a := addr.toNat
  if s.mode = mPark ∨ s.mode = mBoot ∨ s.power.crossAt.isSome ∨ !s.refreshed a then .next s
  else
    let s := if corrected then s.eccCe a else s
    let old := decide (s.mrN (stampAt a) 4 + s.fget Reg.MEM_CFG2_REFRESH_D * 86400 < s.opSec)
    let s := if corrected || old then s.mwN (stampAt a) 4 s.opSec else s
    .next (if passEnd then (s.fmod Reg.SCRUB_STAT_REFRESH_PASSES).fset Reg.MEM_STAT_REFRESH_BUSY 0 else s.fon Reg.MEM_STAT_REFRESH_BUSY)

/-! ### Cairn records (R446 to R448) -/

/-- CAIRN_WRITE (R446): during BOOT records wait until step 10 (R456). -/
def execCairnWrite (s : State) : Out :=
  .next (if s.mode = mPark ∨ (s.mode = mBoot ∧ s.boot.step < 10) then s else s.cairnNext)

/-- R447, R448. The fill point, `FULL` and the next slot of the ring, as boot step 10 finds them. -/
def State.cairnFind (s : State) : State :=
  let fill := ((List.range 16320).find? fun i => s.mrN (cairnMain + 32 * i) 1 != 0xA5).getD 16320
  let key (i : Nat) : Option Nat :=
    let b := mslice 0 s.mram (cairnRing + 32 * i) 32
    if leAt b 0 1 = 0xA5 ∧ leAt b 30 2 = crc16 (sub_ b 1 29) ∧ s.mramBad (cairnRing + 32 * i) 32 = false then
      some ((leAt b 8 3 * 2 ^ 32 + leAt b 4 4) * 65536 + leAt b 16 2)
    else none
  let best := (List.range 64).foldl (fun (m : Option (Nat × Nat)) i =>
    match key i, m with
    | some k, some (_, k') => if k' ≤ k then some (i, k) else m
    | some k, none => some (i, k)
    | none, _ => m) none
  let s := (s.fset Reg.CAIRN_STAT_FILL fill).fput Reg.CAIRN_STAT_FULL (decide (fill = 16320))
  s.fset Reg.CAIRN_STAT_LW_NEXT (match best with | some (i, _) => (i + 1) % 64 | none => 0)

/-- TOKEN_REFILL (R455): `REFILL_S` after the last token was counted, one more. -/
def execTokenRefill (code : BitVec 10) (s : State) : Out :=
  let c := code.toNat
  let n := mget 0 s.cairn.spent c
  if n = 0 then .next s
  else
    let s := s.toMono (mget 0 s.cairn.since c + (s.rateOf c).2 * 1000000000)
    .next { s with cairn := { s.cairn with spent := mset 0 s.cairn.spent c (n - 1), since := mset 0 s.cairn.since c s.time.mono } }

/-! ### The operating count (R449) -/

/-- R449. The operating count as the system headers hold it, 6 bytes (DESIGN CHOICE: their place). -/
def State.opSave (s : State) : State :=
  let s := s.mwN (hdrBase + 0x800) 6 s.opCount
  { s with power := { s.power with opSaved := s.opSec } }

/-- OP_COUNT_SAVE (R449): every 64 s of the count. -/
def execOpCountSave (s : State) : Out :=
  if s.mode = mPark ∨ !s.power.vlOk then .next s
  else
    let target := (s.power.opSaved + 64) * 65536
    let need := ((target - s.power.opBase + 1) / 2 * 1000000000 + 32767) / 32768
    .next (s.advance (need - s.power.opNs)).opSave

/-! ### Profiles (R249) -/

/-- R249. Profile area of channel `k` in B2 and in MRAM; its valid mark, 0xA5 at offset 0x810 (DESIGN CHOICE: its place). -/
def profB2 (k : Nat) : Nat := 0x980000 + k * 0x1000
def profMram (k : Nat) : Nat := 0x10340000 + k * 0x1000

/-- R249. The profile of channel `k` goes from B2 into MRAM, its valid mark last. -/
def State.profStore (s : State) (k : Nat) : State :=
  (s.mwBytes (profMram k) (mslice 0 s.sram (profB2 k) 0x810)).mwN (profMram k + 0x810) 1 0xA5

/-- PROFILE_STORE (R249). -/
def execProfileStore (k : DCh) (s : State) : Out :=
  let l := s.link (chSlot k)
  if !bit l.profDue (k.val % 4) ∨ s.mode = mPark then .next s
  else .next ((s.setLink (chSlot k) { l with profDue := putBit l.profDue (k.val % 4) false }).profStore k)

end Sys2Proof.Machine
end

