-- ==== Sys2Proof/Machine/Voter.lean ====
section
/-! DEFINITION. Reload of an excluded lane (R197), the voter self-test (R199 to R202), and lane A under debug (R206, R207): what it
executes, where its writes go, and the debug commands. -/

namespace Sys2Proof.Machine

/-! ### Debug: taking lane A out (R206, R207) -/

/-- R207. One live lane is left to run. -/
def State.soleLane (s : State) : Bool := (lanesOf s.execMask).length == 1

/-- R206. Lane A halts at an instruction boundary and leaves the vote, in the task and context in which it stands. -/
def State.haltLaneA (s : State) : State :=
  let t := (s.eng.run.getD 0 none).getD 31
  let c := match s.act t with | some a => a.ctx.getD 0 {} | none => {}
  let s := { s with eng := { s.eng with dbgOut := true, dbgWait := false }, tap := { s.tap with task := t, ctx := c, act := s.act t } }
  let s := (s.fon Reg.DEBUG_STAT_HALTED).syncVoting
  if s.soleLane && s.laneState != laneUnbound then s.fon Reg.DEBUG_STAT_SOLE_LANE else s

/-- R206, R207. A debug attach: `DEBUG_UNBOUND` at once; lane A halts, unless it is retired or waits for its reload. -/
def State.dbgAttach (s : State) : State :=
  if s.fbit Reg.DEBUG_STAT_ATTACHED then s
  else
    let s := (s.fon Reg.MODE_STAT_DEBUG_UNBOUND).fon Reg.DEBUG_STAT_ATTACHED
    let s := s.stageNow
    if !bit s.liveLanes 0 then s
    else if bit (s.fget Reg.VOTE_STAT_EXCLUDED) 0 then { s with eng := { s.eng with dbgWait := true } }
    else s.haltLaneA

/-! ### Reload (R197) -/

/-- LANE_REJOIN (R197): the excluded lane, past a task boundary or with the engine idle, takes the context of the earliest voting
lane and votes again. -/
def execLaneRejoin (l : Lane) (s : State) : Out :=
  let idle := s.eng.run.all fun r => r.isNone
  if !bit (s.fget Reg.VOTE_STAT_EXCLUDED) l || !(bit s.eng.boundary l || idle) || s.eng.frozen then .next s
  else if bit s.eng.retire l then .next (s.retireLane l)
  else
    let m := (lanesOf s.votingMask).headD 0
    let s : State := { s with eng := { s.eng with
      acts := s.eng.acts.map fun p => (p.1, p.2.map fun a => { a with ctx := a.ctx.set l (a.ctx.getD m {}) })
      sbuf := s.eng.sbuf.set l [], boundary := putBit s.eng.boundary l false } }
    let s := (s.fset Reg.VOTE_STAT_EXCLUDED (putBit (s.fget Reg.VOTE_STAT_EXCLUDED) l false)).syncVoting
    let s := s.lset (Reg.LANE_EVT_REJOINS l) (min 65535 (s.lget (Reg.LANE_EVT_REJOINS l) + 1))
    let s := (s.fon Reg.VOTE_FLAGS_REJOIN).record cLANE_REJOIN (leBytes 1 l)
    .next (if s.eng.dbgWait && l.val == 0 then s.haltLaneA else s)

/-! ### Self-test (R199 to R202) -/

/-- VOTER_SELFTEST (R199): a 10 s instant. The test waits for the first write event of its step; one that still waits is carried. -/
def execVoterSelftest (sound : Bool) (flags : Option (Lane × Fin 12)) (s : State) : Out :=
  .next (
    if s.laneState = laneUnbound ∨ !s.running ∨ s.eng.frozen ∨ s.soleLane then s
    else
      let last := s.lget Reg.VTEST_T_LO_VT_LO + s.lget Reg.VTEST_T_HI_VT_HI * 2 ^ 32
      let tens := 10000000000
      let s := s.toDev (max ((last / tens + 1) * tens) ((s.time.dev + tens - 1) / tens * tens))
      { s with eng := { s.eng with vtest := some (if sound then none else some (flags.map fun p => (p.1.val, p.2.val))) } })

/-! ### Lane A alone (R206) -/

/-- Table 4.6. The counter instructions by opcode and form. -/
def counterFn (op off : Nat) : LaneView → Ctx → LaneOut :=
  let i := off % 2048
  match off / 2048 % 8 with
  | 0 => laneCount (op - 0x23) i
  | 1 => laneLatch i 5
  | 2 => laneLatch i 6
  | _ => laneLatch i 7

/-- Table 4.6. What an instruction word does on a lane, by its opcode; `END` and what needs the shared engine only move on. -/
def laneFn (op : Nat) (o : Opnd) : LaneView → Ctx → LaneOut :=
  let off := o.off.toNat
  let obj := off / 2 ^ 10
  match op with
  | 0x01 => laneBit (fun _ b => b) o
  | 0x02 => laneBit (fun _ b => !b) o
  | 0x03 => laneBit (fun c b => c && b) o
  | 0x04 => laneBit (fun c b => c && !b) o
  | 0x05 => laneBit (fun c b => c || b) o
  | 0x06 => laneBit (fun c b => c || !b) o
  | 0x07 => laneBit (fun c b => c != b) o
  | 0x08 => fun _ c => (({ ctx := c : LaneOut }).defer true).next
  | 0x09 => fun _ c => (({ ctx := c : LaneOut }).defer false).next
  | 0x0A => fun _ c => (({ ctx := c : LaneOut }).takeBack).next
  | 0x10 => laneStore (·.cr) (fun _ => true) o
  | 0x11 => laneStore (fun c => !c.cr) (fun _ => true) o
  | 0x12 => laneStore (fun _ => true) (·.cr) o
  | 0x13 => laneStore (fun _ => false) (·.cr) o
  | 0x14 => laneEdge true o
  | 0x15 => laneEdge false o
  | 0x20 => laneTimer TInst.ton o
  | 0x21 => laneTimer TInst.tof o
  | 0x22 => laneTimer TInst.tp o
  | 0x24 => counterFn op off
  | 0x25 => counterFn op off
  | 0x26 => counterFn op off
  | 0x30 => laneLw o
  | 0x31 => laneLwk o.lit
  | 0x32 => laneSw o
  | 0x33 => laneLwx o
  | 0x34 => laneSwx o
  | 0x35 => fun _ c => (({ ctx := c : LaneOut }).ix (c.wa.setWidth 16)).next
  | 0x40 => laneAlu aluAdd o
  | 0x41 => laneAlu aluSub o
  | 0x42 => laneAlu aluMul o
  | 0x43 => laneAlu aluDiv o
  | 0x44 => laneAlu aluMod o
  | 0x48 => laneAlu (aluCmp fun a x => a == x) o
  | 0x49 => laneAlu (aluCmp fun a x => a != x) o
  | 0x4A => laneAlu (aluCmp fun a x => decide (a < x)) o
  | 0x4B => laneAlu (aluCmp fun a x => decide (a ≤ x)) o
  | 0x4C => laneAlu (aluCmp fun a x => decide (x < a)) o
  | 0x4D => laneAlu (aluCmp fun a x => decide (x ≤ a)) o
  | 0x50 => laneLimit o
  | 0x51 => laneScl o
  | 0x52 => laneMovb o
  | 0x58 => laneAtomic true o
  | 0x59 => laneAtomic false o
  | 0x60 => laneXlock obj
  | 0x61 => laneXfree obj
  | 0x62 => laneXreq fun v c =>
      let k := c.wa.toNat
      if obj = 0 then (if k = 1 then v.a.park else unknownReq) else if 0x100 ≤ obj then bufReq v (obj - 0x100) k else ctlReq v (obj - 0x010) k
  | 0x70 => laneJump (fun _ => true) off
  | 0x71 => laneJump (·.cr) off
  | 0x72 => laneJump (fun c => !c.cr) off
  | 0x73 => fun _ c => (({ ctx := c : LaneOut }).push ((c.pc + 1) % 2 ^ 18)).pc off
  | 0x74 => fun _ c =>
      match c.rs with
      | n :: rest => (({ ctx := { c with rs := rest } : LaneOut }).ev 2 n).pc n
      | [] => ({ ctx := c : LaneOut }).next
  | 0x7F => fun _ c => { ctx := c }
  | _ => laneNop

/-- Table 4.6. Clocks of an instruction on a lane; a conditional jump by `CR`, `MOVB` by its length, or 4 with an error. -/
def laneClk (op off : Nat) (c : Ctx) (bad : Bool) : Nat :=
  if op ∈ [0x20, 0x21, 0x22, 0x33, 0x34, 0x50] then 3
  else if op ∈ [0x24, 0x25, 0x26] then (if off / 2048 % 8 = 0 then 3 else 1)
  else if op ∈ [0x30, 0x31, 0x32, 0x40, 0x41, 0x48, 0x49, 0x4A, 0x4B, 0x4C, 0x4D, 0x61, 0x68, 0x69, 0x70, 0x73, 0x74] then 2
  else if op = 0x71 then (if c.cr then 2 else 1)
  else if op = 0x72 then (if c.cr then 1 else 2)
  else if op ∈ [0x42, 0x58, 0x59, 0x60, 0x62] then 4
  else if op = 0x43 ∨ op = 0x44 then 18
  else if op = 0x51 then 20
  else if op = 0x52 then (if bad then 4 else 4 + c.wa.toNat)
  else 1

/-- R206. The writes of one instruction as words (DESIGN CHOICE: a bit write gives the byte under its mask). -/
def dbgWords (o : LaneOut) : List (Nat × Word) :=
  (wordRuns o.wr.length o.wr).map fun g =>
    ((g.map (·.addr)).headD 0, BitVec.ofNat 32 (leNat (g.map fun (x : MemWr) => x.data &&& x.mask)))

/-- R206, Table 4.6. The memory accesses by which an instruction reads, each with its length: the operand bit's byte, operand words,
an instance. What it fetches, and objects, are none (DEDUCED). -/
def laneReads (op : Nat) (o : Opnd) (v : LaneView) (c : Ctx) (r : LaneOut) : List (Nat × Nat) :=
  let area := o.area.toNat
  let off := o.off.toNat
  let at_ (ar k : Nat) : Nat := if ar = 1 then v.s.imgAt v.t + k else areaBase ar + k
  let words (ar k n : Nat) : List (Nat × Nat) := (List.range n).map fun i => (at_ ar (k + 4 * i), 4)
  if op ∈ [0x14, 0x15] then [(eBase + off / 8, 1), (seedBase + off / 8, 1)]
  else if op ∈ [0x20, 0x21, 0x22] then [(tBase + off % 2048 * 16, 16)]
  else if op ∈ [0x24, 0x25, 0x26] then (if off / 2048 % 8 = 0 then [(cBase + off % 2048 * 16, 16)] else [])
  else if area = 0 ∨ area = 9 then []
  else if op ≤ 0x07 then [(at_ area (off / 8), 1)]
  else if op ∈ [0x30, 0x40, 0x41, 0x42, 0x43, 0x44, 0x48, 0x49, 0x4A, 0x4B, 0x4C, 0x4D, 0x58, 0x59] then words area (4 * off) 1
  else if op = 0x33 then (match idxOff o c with | some k => words area k 1 | none => [])
  else if op = 0x50 then words area (4 * off) 2
  else if op = 0x51 then words area (4 * off) (if r.err.isSome then 3 else 4)
  else if op = 0x52 then
    (if r.err.isSome then [] else words (o.lit.toNat / 2 ^ 28) (4 * (o.lit.toNat % 2 ^ 20)) c.wa.toNat)
  else []

/-- R206. The view of lane A with `gone`, a run of bytes, read as 0. -/
def LaneView.blank (v : LaneView) (gone : Nat × Nat) : LaneView :=
  let out (a : Nat) : Bool := !(decide (gone.1 ≤ a) && decide (a < gone.1 + gone.2))
  { v with s := { v.s with sram := v.s.sram.filter fun b => out b.1 }
           a := { v.a with sArea := v.a.sArea.filter fun b => out (areaBase 8 + b.1) } }

/-- R206. The activation lane A stands in: the running one, or, once that has ended, the one it was halted in. -/
def State.dbgAct (s : State) : Option Act := if (s.act s.tap.task).isSome then s.act s.tap.task else s.tap.act

/-- R206, R106. Lane A executes the instruction at its `PC`: a read within the debug windows, any other reading 0 and counted as a
violation; writes into the debug write buffer, which takes no more once it is full (DESIGN CHOICE). The clocks it took. -/
def State.dbgRun1 (s : State) : Nat × State :=
  match s.dbgAct with
  | none => (0, s)
  | some a =>
    let p := mget ({} : Prog) s.eng.prog s.tap.task
    let c := s.tap.ctx
    let at_ := progBase + 4 * (p.base + c.pc)
    let w := s.rdN at_ 4
    let op := w / 2 ^ 24
    let o : Opnd := { area := BitVec.ofNat 4 (w / 2 ^ 20), off := BitVec.ofNat 20 w, lit := BitVec.ofNat 32 (s.rdN (at_ + 4) 4) }
    let v : LaneView := ⟨s, s.tap.task, a, []⟩
    let refused := (laneReads op o v c (laneFn op o v c)).filter fun g => !s.allowed 2 g.1 g.2 false
    let r := laneFn op o (refused.foldl LaneView.blank v) c
    let s := refused.foldl (fun s g => s.violation 2 g.1) s
    let buf := (s.eng.dbgBuf ++ dbgWords r).take 64
    let s := { s with eng := { s.eng with dbgBuf := buf }, tap := { s.tap with ctx := r.ctx } }
    (laneClk op (w % 2 ^ 20) c r.err.isSome, s.fset Reg.DEBUG_STAT_DBG_WR_FILL buf.length)

/-- R206. A resumed lane A is followed up to this instant: it has executed for `n` clocks (DEDUCED: 5 ns each). -/
def State.dbgFollow (s : State) : Nat → Nat → State
  | 0, _ => s
  | f + 1, n =>
    let (k, s') := s.dbgRun1
    if k = 0 ∨ n < k then s else s'.dbgFollow f (n - k)

/-- R206. Lane A as it stands now. -/
def State.dbgNow (s : State) : State :=
  if s.fbit Reg.DEBUG_STAT_HALTED || !s.eng.dbgOut then s
  else
    let n := (s.time.mono - s.tap.ranFrom) / 5
    let s := s.dbgFollow n n
    { s with tap := { s.tap with ranFrom := s.time.mono } }

/-- R206, R207. Lane A is under debug control. -/
def State.dbgHas (s : State) : Bool := s.fbit Reg.DEBUG_STAT_ATTACHED && s.eng.dbgOut

/-- DBG_HALT (R206). -/
def State.dbgHaltNow (s : State) : State := if s.dbgHas then (s.dbgNow).fon Reg.DEBUG_STAT_HALTED else s

/-- DBG_STEP (R206). -/
def State.dbgStepNow (s : State) : State := if s.dbgHas && s.fbit Reg.DEBUG_STAT_HALTED then s.dbgRun1.2 else s

/-- DBG_RESUME (R206). -/
def State.dbgResumeNow (s : State) : State :=
  if s.dbgHas && s.fbit Reg.DEBUG_STAT_HALTED then
    { (s.fset Reg.DEBUG_STAT_HALTED 0) with tap := { s.tap with ranFrom := s.time.mono } }
  else s

/-- A register of lane A, as a word. -/
def dbgGet (c : Ctx) : DbgReg → Word
  | .cr => BitVec.ofNat 32 (b2n c.cr)
  | .wa => c.wa
  | .wb => c.wb
  | .sf => BitVec.ofNat 32 c.sf.num
  | .ix => c.ix.setWidth 32
  | .pc => BitVec.ofNat 32 c.pc
  | .br i => match c.br.reverse[i.val]? with | some p => BitVec.ofNat 32 (b2n p.1 + 2 * b2n p.2) | none => 0
  | .rs i => BitVec.ofNat 32 (c.rs.reverse.getD i 0)

/-- R206. A write of entry `i` of a stack, newest first: the entry, or the one above the newest (DESIGN CHOICE: none beyond). -/
def stackSet {α : Type} (l : List α) (i : Nat) (x : α) : List α :=
  if i < l.length then (l.reverse.set i x).reverse else if i = l.length then x :: l else l

/-- Writes a register of lane A. -/
def dbgSet (c : Ctx) (w : Word) : DbgReg → Ctx
  | .cr => { c with cr := bit w.toNat 0 }
  | .wa => { c with wa := w }
  | .wb => { c with wb := w }
  | .sf => let n := w.toNat; { c with sf := { z := bit n 0, n := bit n 1, v := bit n 2, c := bit n 3, e := bit n 4 } }
  | .ix => { c with ix := w.setWidth 16 }
  | .pc => { c with pc := w.toNat % 2 ^ 18 }
  | .br i => { c with br := stackSet c.br i (bit w.toNat 0, bit w.toNat 1) }
  | .rs i => { c with rs := stackSet c.rs i (w.toNat % 2 ^ 18) }

/-- R206. Reads or writes a register of lane A's register file. -/
def State.dbgReg (s : State) (r : DbgReg) (wr : Option Word) : State :=
  if !s.dbgHas then s
  else
    let s := s.dbgNow
    match wr with
    | some w => { s with tap := { s.tap with ctx := dbgSet s.tap.ctx w r } }
    | none => { s with tap := { s.tap with tdo := leBytes 4 (dbgGet s.tap.ctx r).toNat } }

/-- R206, R104 to R106, R3. A word of memory through the debug windows: its value and its status are shifted out. Before the lock an
access waits (R104). -/
def State.dbgMem (s : State) (addr : Nat) (wr : Option Word) : State :=
  let a := addr - addr % 4
  let answer (s : State) (v st : Nat) : State := { s with tap := { s.tap with tdo := leBytes 4 v ++ leBytes 1 st } }
  if !s.fbit Reg.DEBUG_STAT_ATTACHED then s
  else if !s.fbit Reg.PROT_STAT_PROT_LOCK then { s with tap := { s.tap with wait := s.tap.wait ++ [(addr, wr)] } }
  else if !s.allowed 2 a 4 wr.isSome then answer (s.violation 2 a) 0 aProtected
  else
    match slotOfAddr a, wr with
    | some n, some w =>
      if !s.fitted n then answer s 0 aOk
      else if s.linkIsUp n then s.regSubmit n { req := 2, write := true, off := a - satBase n, data := w.toNat }
      else answer s 0 aTimeout
    | some n, none =>
      if !s.fitted n then answer s 0 aOk
      else if s.linkIsUp n then s.regSubmit n { req := 2, write := false, off := a - satBase n, data := 0 }
      else answer s 0 aTimeout
    | none, some w =>
      let (st, s) := s.objWrite a w.toNat
      answer s 0 st
    | none, none =>
      let (st, v, s) := s.objRead false a
      answer s v st

/-- R104. The lock is set: the debug accesses that waited are carried out. -/
def State.dbgWaited (s : State) : State :=
  s.tap.wait.foldl (fun s p => s.dbgMem p.1 p.2) { s with tap := { s.tap with wait := [] } }

/-- R206. Entry `i` of the debug write buffer is shifted out: address, data. -/
def State.dbgEntry (s : State) (i : Nat) : State :=
  if !s.fbit Reg.DEBUG_STAT_ATTACHED then s
  else
    let s := s.dbgNow
    match s.eng.dbgBuf[i]? with
    | some (a, w) => { s with tap := { s.tap with tdo := leBytes 4 a ++ leBytes 4 w.toNat } }
    | none => { s with tap := { s.tap with tdo := leBytes 8 0 } }

end Sys2Proof.Machine
end

