-- ==== Sys2Proof/Machine/Power.lean ====
section
/-! DEFINITION. Checkpoints (R165, R166, R438, R439), device resets (R62 to R64), PARK and wake (R69 to R72, R433), the power-fail
save (R73 to R77, R157, R417), and the power-up of a satellite (R62). -/

namespace Sys2Proof.Machine

/-! ### Checkpoints (R165, R438, R439) -/

/-- Table 15.4. Data region and header of checkpoint slot `i`. -/
def ckData (i : Nat) : Nat := 0x10200000 + i * 0x40000
def ckHead (i : Nat) : Nat := 0x10300000 + i * 0x4000

/-- R439. The target of a cut: the slot after the last completed one; slot 0 where none has completed (DESIGN CHOICE). -/
def State.ckTarget (s : State) : Nat :=
  if s.fget Reg.CKPT_SEQ_SEQ = 0 then 0 else (s.fget Reg.CKPT_STAT_LAST_SLOT + 1) % 4

/-- The block numbers of a mask. -/
def blocksIn (m : Nat) : List Nat := (List.range 4096).filter fun b => m.testBit b

/-- R438. TRDP counter and `SSC` of each published telegram, in order. -/
def State.pubCounters (s : State) : List (Nat × Nat) := (s.telsOf 1).map fun i => (s.fget (Reg.TEL_SEQ_SEQ i), (s.tel i).ssc)

/-- R186. The carried mask of the set in probation. -/
def State.carriedMask (s : State) : Nat := match s.slotIn slProbation with | some _ => s.eng.carried | none => 0

/-- R439. Writes slot `c.slot` in its order: `VALID` 0, the blocks, the header, `VALID`. -/
def State.ckWrite (s : State) (c : Ckpt) : State :=
  let h := ckHead c.slot
  let s := s.mwN (h + 16380) 4 0
  let s := (blocksIn c.blks).foldl (fun s b =>
    s.mwBytes (ckData c.slot + 64 * b) (match c.hold.find? fun x => x.1 == b with | some x => x.2 | none => s.rollView b)) s
  let seq := nextGen (s.fget Reg.CKPT_SEQ_SEQ)
  let (lin, gen) := match s.boot.image with | some i => (i.lineage, i.gen) | none => (0, 0)
  let cnt := (c.pubs.map fun p => leBytes 4 p.1 ++ leBytes 4 p.2).flatten
  let b := leBytes 4 0x54504B43 ++ leBytes 4 seq ++ leBytes 8 c.gc ++ leBytes 8 lin ++ leBytes 4 gen ++ leBytes 4 c.parGen ++
    leBytes 4 c.carried ++ leBytes 1 c.flags ++ [0] ++ leBytes 2 c.pubs.length ++
    leBytes 4 (crc32c (mslice 0 s.mram (ckData c.slot) 0x40000))
  let s := s.mwBytes h (b ++ leBytes 4 (crc32c (b ++ cnt)) ++ leBytes 16 0 ++ cnt)
  let s := s.mwN (h + 16380) 4 0xA5A5A5A5
  let s := (s.fset Reg.CKPT_STAT_LAST_SLOT c.slot).fset Reg.CKPT_SEQ_SEQ seq
  ((s.fset Reg.CKPT_GRID_LO_GC_LO c.gc).fset Reg.CKPT_GRID_HI_GC_HI (c.gc / 2 ^ 32)).fmod Reg.CKPT_CNT_WRITTEN

/-- R165, R439. A cut at the last commit point into the target slot, with the blocks of its dirty map, which is then cleared. The slot's
`VALID` is 0 from here on. -/
def State.ckCut (s : State) (flags : Nat) : State :=
  let t := s.ckTarget
  let blks := s.eng.dirty.getD t 0
  let c : Ckpt := { slot := t, gc := s.time.gc - 1, blks, hold := [], flags, pubs := s.pubCounters
                    parGen := s.fget Reg.PARAM_GEN_GEN, carried := s.carriedMask }
  let s := s.mwN (ckHead t + 16380) 4 0
  ({ s with eng := { s.eng with ckpt := some c, dirty := s.eng.dirty.set t 0, cutDue := false, cutDeferred := false } }).fon Reg.CKPT_STAT_BUSY

/-- R165, R166. A cut is due at the last commit point: the first one after a multiple of `CKPT_MS`, or one that has been deferred. -/
def State.cutIsDue (s : State) : Bool :=
  decide (0 < s.time.gc) && (s.eng.cutDue || (s.time.gc - 1) % (40 * s.fget Reg.MEM_CFG_CKPT_MS) == 0)

/-- R69. Every activation has ended and committed: the park checkpoint can be cut. -/
def State.parkCut (s : State) : Bool :=
  (s.power.park == 1 || (s.power.park == 3 && s.mode == mStandby)) && s.actMask == 0 && s.eng.ended.isEmpty

/-- CHECKPOINT_CUT (R165, R166): at the commit point just made; deferred while an activation is non-atomic. -/
def execCheckpointCut (s : State) : Out :=
  .next (
    if s.eng.ckpt.isSome || !s.running || s.power.crossAt.isSome || s.time.gc == 0 ||
        (s.fget Reg.CKPT_SEQ_SEQ != 0 && s.fget Reg.CKPT_GRID_LO_GC_LO == (s.time.gc - 1) % 2 ^ 32) then s
    else if s.parkCut then s.ckCut 2
    else if !s.cutIsDue then s
    else if s.fbit Reg.CKPT_STAT_NONATOMIC_RUN then
      if s.eng.cutDeferred then s
      else
        let s := { s with eng := { s.eng with cutDue := true, cutDeferred := true } }
        (s.fon Reg.SCHED_FLAGS_CKPT_DEFERRED).record cCKPT_DEFERRED []
    else s.ckCut 0)

/-- R165, R439. The copy `c` has ended: the slot stands, and the flush of a PARK entry is done. -/
def State.ckDone (s : State) (c : Ckpt) : State :=
  let s := ({ (s.ckWrite c) with eng := { (s.ckWrite c).eng with ckpt := none } }).fset Reg.CKPT_STAT_BUSY 0
  if c.flags = 2 ∧ s.power.park = 1 then { s with power := { s.power with park := 2 } } else s

/-- CHECKPOINT_COMPLETE (R165, R439): the copy ends `ns` later. -/
def execCheckpointComplete (ns : Nat) (s : State) : Out :=
  .next (
    match s.eng.ckpt with
    | none => s
    | some c => (s.toMono (s.time.mono + ns)).ckDone c)

/-! ### Device resets (R62, R63) -/

/-- R62, R77, R414, R492. The control die is held in reset. -/
def State.inReset (s : State) : Bool := s.tap.held || s.tap.pinLow || s.power.hold || s.power.peerHold

/-- R72. Device time as it resumes after PARK: the value at park entry plus the interval in whole CLK_AON cycles. -/
def State.aonTime (s : State) : State :=
  let dt := s.time.mono - s.power.parkAt
  { s with time := { s.time with dev := s.time.dev - dt + dt * 32768 / 1000000000 * 1000000000 / 32768 } }

/-- What the always-on domain and the lands show whatever happens to the control die: the peer's claim and release lines. -/
def State.landViews (s old : State) : State :=
  let s := s.fput Reg.MODE_STAT_CLAIM_IN old.dup.claimIn
  let s := if s.board.seatB then s.fput Reg.DUP_STAT_CLAIM_A_LAND old.dup.claimIn else s.fput Reg.DUP_STAT_CLAIM_B_LAND old.dup.claimIn
  s.fset Reg.DUP_STAT_REL_IN (old.fget Reg.DUP_STAT_REL_IN)

/-- R185. A device reset aborts what was pending in the active module. DESIGN CHOICE: the abort stands in the first records after the
reset, the registers of Table 6.7 at their reset values. -/
def State.resetLost (s old : State) : State :=
  if !old.driving then s
  else
    let gen := old.fget Reg.PARAM_GEN_GEN
    let s := if old.chg.txn.isSome then s.chgRecord cCHG_REFUSED 1 gen 0 else s
    if old.chg.switchAt.isSome || old.chg.revertAt.isSome then s.chgRecord cCHG_REFUSED 2 (old.nowProg 0).gen 0 else s

/-- R12, R32, R62, R432. The control die restarts from the boot ROM; `prev` is the mode in which the reset found it, `cold` and `por`
the kind of boot. Satellites, the always-on domain and MRAM keep what they hold; what waited in bank B3 for the recorder is
lost. -/
def State.restart (s : State) (prev trig : Nat) (cold por : Bool) : State :=
  let p := s.power
  let t : Time := { s.time with
    dev := if cold then 0 else s.time.dev, emitted := false, sampled := false, sentTo := 0, confirmed := 0
    confirmDue := false, publishDue := false, lastSync := s.time.mono, slew := 0, slewAcc := 0 }
  let r : State := { s with
    time := t, regs := resetRegs s.board por s.regs, live := [], capt := [], modeReq := none
    boot := { step := 1, cold }
    power := {
      wdtAt := s.time.mono, hold := p.hold, peerHold := p.peerHold, opBase := if cold then s.mrN (hdrBase + 0x800) 6 else p.opBase
      opNs := if cold then 0 else p.opNs, vlOk := if cold then !p.hold else p.vlOk
      opSaved := if cold then s.mrN (hdrBase + 0x800) 6 / 65536 else p.opSaved }
    cairn := {}, ledger := [], links := [], eng := {}, chg := {}, ctls := [], bufs := [], cimg := {}, cnext := {}, net := {}, il := {}
    dup := { claimIn := s.dup.claimIn, absentAt := s.dup.absentAt, claimInAt := s.dup.claimInAt }
    mem := { bad := s.mem.bad.filter fun a => decide (0x10000000 ≤ a) || (!cold && keepBank a) }
    qp := {}, reads := []
    tap := if por then { vio := s.tap.vio, vioEth := s.tap.vioEth, pinLow := s.tap.pinLow }
      else { s.tap with lb := none, task := 31, ctx := {}, act := none, wait := [], ranFrom := 0 } }
  let r : State := if cold then { r with doors := r.doors.map fun p => (p.1, { p.2 with driftRec := false }) } else r
  let r := (r.landViews s).fset Reg.RESET_CAUSE_PREV_MODE (if por then 0 else prev)
  let r := { r with cairn := { queue := [bootRecord (if por then 0 else prev) trig r.opCount] } }
  (r.resetLost s).regrid

/-- R62, Table 2.7. A device reset by source `cause`. From PARK, device time takes up the always-on count, and `WAKE_SRC` shows 4. -/
def State.deviceReset (s : State) (cause : Nat) (prev : Nat := s.mode) : State :=
  let s := if s.mode = mPark then s.aonTime else s
  let s := (s.restart prev trReset (decide (cause ≤ 1)) (cause == 0)).fset Reg.RESET_CAUSE_CAUSE (2 ^ cause)
  if prev = mPark ∧ cause ≠ 0 then s.fset Reg.PARK_STAT_WAKE_SRC 4 else s

/-- POR (R62): the always-on domain was unpowered, and the seat strap is read (R392). -/
def execPor (seatB : Bool) (s : State) : Out :=
  .next (({ s with board := { s.board with seatB }, power := {} }).deviceReset 0)

/-- PFAIL (R77): the hold after a save ends. -/
def execPfail (s : State) : Out :=
  .next (
    if !s.power.hold then s
    else ({ s with power := { s.power with hold := false } }).deviceReset 1 (s.fget Reg.RESET_CAUSE_PREV_MODE))

/-- PIN (R62): the reset is held until `RESET_N` returns high. -/
def execPin (s : State) : Out :=
  .next (
    if s.tap.pinLow then s
    else
      let s := { s with tap := { s.tap with pinLow := true } }
      if s.power.hold || s.tap.held then s else s.deviceReset 2)

/-- RESET_N_RELEASE (R63): the boot starts. -/
def execResetNRelease (s : State) : Out :=
  .next (
    if s.tap.pinLow then { s with tap := { s.tap with pinLow := false }, power := { s.power with wdtAt := s.time.mono } } else s)

/-- R64. The watchdog's timeout in ns. -/
def State.wdtTime (s : State) : Nat := if s.mode = mBoot then 2000000000 else s.topoN 0x0101 0 2 2 5 * 1000000

/-- WDT (R64, R99): the watchdog expires. -/
def execWdt (s : State) : Out :=
  .next (
    if s.mode == mPark || s.inReset then s
    else
      let s := s.toMono (s.power.wdtAt + s.wdtTime)
      (if s.mode = mBoot then s.fsat Reg.BOOT_STAT_BOOT_LOOPS else s).deviceReset 3)

/-- SCHEDULER_TICK (R64, R168): the housekeeping of a 250 µs tick. -/
def execSchedulerTick (s : State) : Out :=
  .next (
    if s.mode == mBoot || s.mode == mPark || s.inReset then s
    else
      let s := s.toDev ((s.time.dev / 250000 + 1) * 250000)
      let s := s.each satSlots fun s n => s.missWindow n
      let sec := s.time.dev / 1000000000
      let s := if sec = s.eng.busySec then s
        else
          let pct := if sec = s.eng.busySec + 1 then min 100 (s.eng.busy / 2000000) else 0
          ({ s with eng := { s.eng with busy := 0, busySec := sec } }).fset Reg.SCHED_STAT_LOAD_PCT pct
      { s.probLeft with power := { s.power with wdtAt := s.time.mono } })

/-! ### PARK and wake (R69 to R72, R433) -/

/-- PARK_ENTRY (R69): the park commit is fixed; in duplex it is named to the peer. -/
def execParkEntry (s : State) : Out :=
  .next (
    if s.power.park ≠ 2 ∨ s.mode ≠ mActive then s
    else
      let num := (s.fget Reg.COMMIT_NUM_CCOUNT + (if s.duplexNow then 4 else 1)) % 65536
      let s := { s with power := { s.power with park := 3, parkNum := num } }
      if s.duplexNow then s.ropeSend 0x08 (leBytes 2 num) else s)

/-- R70 to R72, R433. A wake event ends PARK: a warm boot, in which the lane state and the park marker stand (Table 2.4). -/
def State.wakeBy (s : State) (src : Nat) : State :=
  let lanes := (s.laneState, s.fget Reg.VOTE_STAT_LIVE, s.fget Reg.VOTE_STAT_VOTING)
  let mark := s.fget Reg.PARK_MARK_MARK
  let s := s.aonTime.restart mPark trWake false false
  let s := ((s.setLaneState lanes.1).fset Reg.VOTE_STAT_LIVE lanes.2.1).fset Reg.VOTE_STAT_VOTING lanes.2.2
  let s := ((s.fset Reg.PARK_MARK_MARK mark).fset Reg.PARK_STAT_WAKE_SRC src).fon Reg.MEM_STAT_KEEP_WAIT
  { s with boot := { s.boot with wake := true }, power := { s.power with wakeAt := some s.time.mono } }

/-- R70. The module is parked and source `b` of `WAKE_EN` is enabled. -/
def State.wakeOn (s : State) (b : Nat) : Bool :=
  s.mode == mPark && !s.inReset && s.power.crossAt.isNone && bit (s.topoN 0x0102 0 0 1 1) b

/-- WAKE (R70). -/
def execWake (s : State) : Out := .next (if s.wakeOn 0 then s.wakeBy 1 else s)

/-- CAN_WAKE (R70). -/
def execCanWake (c : Ctl) (s : State) : Out :=
  .next (if s.wakeOn 1 && bit (s.topoN 0x0102 0 1 1 0) c then s.wakeBy 2 else s)

/-- AON_WAKE (R70): the wake timer, `AON_WAKE_S` from park entry. -/
def execAonWake (s : State) : Out :=
  let t := s.topoN 0x0102 0 2 4 0
  .next (if s.wakeOn 2 && t != 0 then (s.toMono (s.power.parkAt + t * 1000000000)).wakeBy 3 else s)

/-- R433. The Keep banks are usable. -/
def State.keepReady (s : State) : State :=
  match s.power.wakeAt with
  | some t => ({ (s.toMono (t + 1500000)) with power := { (s.toMono (t + 1500000)).power with wakeAt := none } }).fset Reg.MEM_STAT_KEEP_WAIT 0
  | none => s

/-- KEEP_BANKS_READY (R433). -/
def execKeepBanksReady (s : State) : Out := .next s.keepReady

/-! ### The power-fail save (R73 to R77) -/

/-- VL_LOW (R73): VL in units of 10 mV. -/
def execVlLow (vl : BitVec 16) (s : State) : Out := .next (s.fput Reg.PF_STAT_VL_LOW (decide (vl.toNat < 1080)))

/-- PF_WARN (R74, R157, R417): activations in progress are abandoned, the power-fail event is recognised, and changes, PARK and a
claim in progress are given up. A periodic checkpoint stops without its valid mark. -/
def execPfWarn (s : State) : Out :=
  .next (
    if s.power.crossAt.isSome || s.power.hold then s
    else
      let s := { s with power := { s.power with
        crossAt := some (s.time.mono - 20000), vlOk := false, park := if s.power.park = 4 then 4 else 0, parkStop := false } }
      let s := s.fon Reg.PF_STAT_PF_WARN
      let s := s.abandon s.actMask
      let s := match s.eng.ckpt with
        | some c => ({ s with eng := { s.eng with
            ckpt := none, dirty := s.eng.dirty.set c.slot (s.eng.dirty.getD c.slot 0 ||| c.blks) } }).fset Reg.CKPT_STAT_BUSY 0
        | none => s
      let s := (s.triggerAll 7 fun _ => true).changeAbort 5
      if s.dup.claim.isSome && s.mode == mStandby then s.setClaim false else s)

/-- PF_TASK_DEADLINE (R74, R149, R160): 100 µs after its SAMPLE the power-fail task is abandoned as any event task; R159 does not apply. -/
def execPfTaskDeadline (s : State) : Out :=
  .next (
    match taskNums.find? fun t => match s.act t with | some a => a.pf | none => false with
    | some t =>
      match s.act t with
      | some a => (((s.toMono (a.at_ + 100000)).abandon (2 ^ t)).etAbandoned t).pfDone
      | none => s
    | none => s)

/-- PF_COMMIT (R157, R417): the commit that carries the power-fail task's outputs and the activations that ended before the warning;
no COMMIT follows it. -/
def execPfCommit (s : State) : Out :=
  .next (
    if s.power.crossAt.isNone || !s.commits || s.pfWait || s.eng.ended.any (fun (e : Ended) => !e.out) then s
    else
      let s := s.commitPoint
      { s with power := { s.power with committed := true, claimDue := s.driving && s.dup.claimOut } })

/-- PF_CLAIM_WITHDRAW (R417): once the delta of the power-fail commit has gone out, or 100 µs after that commit. -/
def execPfClaimWithdraw (s : State) : Out :=
  .next (
    if s.power.claimDue then
      let s := s.toMono (min s.dup.txUntil (s.dup.commitAt + 2000 + 100000))
      ({ s with power := { s.power with claimDue := false } }).setClaim false
    else s)

/-- R446, R450. Before boot step 10 the recorder's fill point and the power-cycle count are found as that step finds them. DESIGN
CHOICE: the place of the count in the system headers. -/
def State.cairnLoad (s : State) : State :=
  let n := s.mrN (hdrBase + 0x808) 3
  (s.cairnFind.fset Reg.PWR_CYC_COUNT n).fput Reg.PWR_CYC_PC_SAT (decide (n = 2 ^ 24 - 1))

/-- R74. Rollback and the dirty flush into the next slot; a non-atomic run has no checkpoint (R77). -/
def State.pfFlush (s : State) : State :=
  let s := { s with eng := { s.eng with pend := 0 } }
  let s := s.abandon s.actMask
  if s.power.nonAtomic || s.mode == mBoot || s.mode == mPark then s
  else
    let t := s.ckTarget
    s.ckWrite { slot := t, gc := s.time.gc - 1, blks := s.eng.dirty.getD t 0, hold := [], flags := 1, pubs := s.pubCounters
                parGen := s.fget Reg.PARAM_GEN_GEN, carried := s.carriedMask }

/-- R74, R453, R462. The queue, the power-fail record and the open ledger records, as ended with `TRUNCATED`. -/
def State.pfRecords (s : State) (us : Nat) : State :=
  let s := if s.mode = mBoot ∧ s.boot.step < 10 then s.cairnLoad else s
  let s := s.cairnAll s.cairn.queue.length
  let r : CRec := { sev := 3, slot := 0, code := cPOWER_FAIL, task := 31, opSec := s.opSec, frac := s.opCount % 65536, suppr := 0
                    cyc := s.refCycle, data := leBytes 1 s.mode ++ leBytes 1 (2 * b2n s.power.nonAtomic) ++ leBytes 2 us }
  let s := (s.cairnPut r).lastWords r
  s.each (List.range 12) fun s k =>
    let l := s.lrec k
    if l.isOpen then s.closeRec k { l with flags := l.flags ||| 64 } else s

/-- R77. The control die goes into reset and holds there. -/
def State.pfHold (s : State) (us : Nat) (saved : Bool) : State :=
  let s := (s.fput Reg.PF_STAT_SAVED saved).fput Reg.PF_STAT_SAVE_ABORTED !saved
  let s := (s.fput Reg.PF_STAT_SAVE_NONATOMIC s.power.nonAtomic).fset Reg.PF_STAT_SAVE_US (clip 16 us)
  ({ s with power := { s.power with hold := true, peerHold := s.fbit Reg.DUP_STAT_REL_IN } }).deviceReset 1

/-- SAVED (R74, R77): the save completes. -/
def execSaved (s : State) : Out :=
  .next (
    match s.power.crossAt with
    | none => s
    | some t =>
      if s.power.hold || (s.running && !s.power.committed) then s
      else
        let us := (s.time.mono - t) / 1000
        (((s.pfFlush).pfRecords (clip 16 us)).opSave).pfHold us true)

/-- SAVE_ABORTED (R75): 2.0 ms after the crossing; the slot that was being written keeps no valid mark. -/
def execSaveAborted (s : State) : Out :=
  .next (
    match s.power.crossAt with
    | none => s
    | some t =>
      let s := s.toMono (t + 2000000)
      let s := if s.power.nonAtomic || s.mode == mBoot || s.mode == mPark then s else s.mwN (ckHead s.ckTarget + 16380) 4 0
      s.pfHold ((s.time.mono - t) / 1000) false)

/-! ### Power-up of a satellite (R62) -/

/-- DIE_POWER_UP (R62, R229, R278): the die's own supply returns and resets it. Door channels restart from `HALTED` with their debounced
levels at 0; load and field channels are unused until the die is configured. -/
def execDiePowerUp (n : Slot) (s : State) : Out :=
  .next (
    if n.val = 0 || !s.fitted n then s
    else
      let s := if s.linkIsUp n then s.linkFall n else s
      let m := s.regs.filter fun p => decide (p.1 < satBase n) || decide (satBase n + 0x1000000 ≤ p.1)
      let r := (resetRows satRows []).filter fun p => decide (satBase n ≤ p.1) && decide (p.1 < satBase n + 0x1000000)
      let s := { s with regs := r.foldl (fun m (p : Nat × Nat) => mset 0 m p.1 p.2) m }
      let s := if n.val ≤ 3 then
          let s := s.doorConfigured (n - 1)
          let s := s.each ([0, 1, 2, 3].map (4 * (n.val - 1) + ·)) fun s k => s.modDoor k fun d => { d with window := [], base := [], adap := [], learned := false }
          { s with ddies := mset {} s.ddies (n - 1) {} }
        else if n.val ≤ 5 then
          let s := s.each ((List.range 12).map (12 * (n.val - 4) + ·)) fun s x => s.setLoad x { tj := (s.load x).tj, offAt := s.time.mono }
          { s with ldies := mset {} s.ldies (n - 4) {} }
        else s.setField (n - 6) { vi := (s.fio (n - 6)).vi }
      s.setSat n { localAt := s.time.mono })

end Sys2Proof.Machine
end

