-- ==== Sys2Proof/Machine/TopoCheck.lean ====
section
/-! DEFINITION. Boot step 7 (R97): the framing of the record area (R87, R88), the ranges of every record field (R89, R90, R95 and the
record tables of chapters 2 to 16), and the checks of records against one another (R108). A check answers the failure code of Table 3.9
and `DETAIL`. Where several apply, the order is: framing in image order; header and protection table; fields in image order; missing
records; unfitted slots; the named codes of other chapters; contradictions in the order of the types; programs. -/

namespace Sys2Proof.Machine

/-- A boot failure: code of Table 3.9 and `DETAIL`. -/
abbrev BootFail := Nat × Nat

abbrev fRom : Nat := 0x01
abbrev fMbist : Nat := 0x02
abbrev fLbist : Nat := 0x03
abbrev fLoop : Nat := 0x04
abbrev fNoImage : Nat := 0x06
abbrev fRecCrc : Nat := 0x08
abbrev fRecFrame : Nat := 0x09
abbrev fRecUnknown : Nat := 0x0A
abbrev fRecMissing : Nat := 0x0B
abbrev fRange : Nat := 0x0C
abbrev fUnfitted : Nat := 0x0D
abbrev fIlBuild : Nat := 0x0E
abbrev fIsoC : Nat := 0x0F
abbrev fSafety : Nat := 0x10
abbrev fSlotType : Nat := 0x11
abbrev fLinkBad : Nat := 0x12
abbrev fDieConfig : Nat := 0x13
abbrev fCross : Nat := 0x14
abbrev fSfdp : Nat := 0x15

/-! ### Framing -/

/-- Table 3.10. The record types the module accepts. -/
def typeKnown (t : Nat) : Bool :=
  [(0x0101, 2), (0x0201, 9), (0x0301, 5), (0x0401, 6), (0x0501, 2), (0x0601, 4), (0x0701, 4), (0x0801, 6), (0x0901, 2), (0x0A01, 1),
    (0x0B01, 2), (0x0C01, 2)].any fun p => decide (p.1 ≤ t) && decide (t < p.1 + p.2)

/-- R169. Entry size and fields (offset, size) of a list record. -/
def listRow (t : Nat) : Option (Nat × List (Nat × Nat)) :=
  if t = 0x0203 then some (16, [(0, 2), (2, 1), (3, 1), (4, 2), (8, 4), (12, 4)])
  else if t = 0x0204 then some (4, [(0, 2), (2, 2)])
  else if t = 0x0205 then some (8, [(0, 2), (2, 2), (4, 1), (6, 2)])
  else if t = 0x0208 then some (16, [(0, 2), (2, 1), (3, 1), (4, 4), (8, 4), (12, 4)])
  else if t = 0x0803 then some (24, [(0, 2), (2, 2), (4, 1), (5, 1), (6, 1), (8, 4), (12, 4), (16, 4), (20, 2)])
  else if t = 0x0902 then some (8, [(0, 1), (2, 2), (4, 4)])
  else if t = 0x0B02 then some (8, [(0, 2), (2, 1), (4, 4)])
  else none

/-- Length of the records of a type with one layout. -/
def fixedLen (t : Nat) : Option Nat :=
  ([(0x0101, 8), (0x0102, 8), (0x0201, 4), (0x0202, 24), (0x0209, 8), (0x0301, 40), (0x0302, 24), (0x0303, 20), (0x0304, 20), (0x0305, 4),
    (0x0401, 36), (0x0402, 28), (0x0403, 512), (0x0404, 12), (0x0405, 8), (0x0406, 1024), (0x0501, 20), (0x0502, 4), (0x0601, 4),
    (0x0602, 128), (0x0603, 8), (0x0604, 64), (0x0701, 12), (0x0702, 16), (0x0801, 20), (0x0802, 24), (0x0804, 20), (0x0805, 8),
    (0x0806, 12), (0x0901, 8), (0x0A01, 8), (0x0B01, 8), (0x0C01, 8), (0x0C02, 24)] : List (Nat × Nat)).lookup t

/-- Entries of a payload with a 4-byte count. -/
def entriesOf (d : List Byte) (size : Nat) : List (List Byte) := (List.range (leAt d 0 4)).map fun i => sub_ d (4 + i * size) size

/-- R169. Two neighbours stand in ascending order of their first differing field. -/
def inOrder (fs : List (Nat × Nat)) (a b : List Byte) : Bool :=
  match fs.find? fun f => leAt a f.1 f.2 != leAt b f.1 f.2 with
  | some f => decide (leAt a f.1 f.2 < leAt b f.1 f.2)
  | none => true

/-- R169. The entries of record 0x0206 fill the payload exactly: entries left, bytes. -/
def initsFill : Nat → Nat → List Byte → Bool
  | _, 0, l => l.isEmpty
  | 0, _, _ => false
  | n + 1, k + 1, l =>
    let len := leAt l 2 2
    let pad := (len + 3) / 4 * 4
    decide (8 + pad ≤ l.length) && (sub_ l (8 + len) (pad - len)).all (· == 0) && initsFill n k (l.drop (8 + pad))

/-- R87, R169. The payload of a record fits the layout of its type. -/
def layoutOk (t : Nat) (d : List Byte) : Bool :=
  if 0x8000 ≤ t then true
  else
    match fixedLen t, listRow t with
    | some n, _ => d.length == n
    | none, some (size, fs) =>
      let es := entriesOf d size
      d.length == 4 + leAt d 0 4 * size && (es.zip (es.drop 1)).all fun p => inOrder fs p.1 p.2
    | none, none =>
      if t = 0x0206 then
        let es := initEntries d.length (leAt d 0 4) (d.drop 4)
        decide (4 ≤ d.length) && initsFill d.length (leAt d 0 4) (d.drop 4) &&
          (es.zip (es.drop 1)).all fun p =>
            decide (p.1.1 < p.2.1) || (p.1.1 == p.2.1 && decide (p.1.2.1 + p.1.2.2.length ≤ p.2.2.1))
      else if t = 0x0207 then
        let o := 4 + 4 * leAt d 0 4
        d.length == o || d.length == o + 4 + 8 * leAt d o 4
      else if t = 0x0703 then d.length == 4 + 12 * leAt d 0 4
      else d.length == 76 + 64 * leAt d 1 1

/-- R87, R88. Records of the area `l` from offset `o` on, after a record of key `last` (type × 256 + instance): the records with their
offsets, or the failure. -/
def frameRecs : Nat → List Byte → Nat → Nat → List (Rec × Nat) → Except BootFail (List (Rec × Nat))
  | 0, _, o, _, _ => .error (fRecFrame, o)
  | n + 1, l, o, last, acc =>
    let ty := leAt l 0 2
    let inst := leAt l 2 1
    let len := leAt l 4 4
    let pad := (len + 3) / 4 * 4
    if l.length < 12 + pad ∨ leAt l 3 1 ≠ 0 then .error (fRecFrame, o)
    else if crc32c (l.take (8 + pad)) ≠ leAt l (8 + pad) 4 then .error (fRecCrc, ty + inst * 65536)
    else if ty = 0 then (if inst = 0 ∧ len = 0 ∧ l.length = 12 then .ok acc else .error (fRecFrame, o))
    else if !typeKnown ty && decide (ty < 0x8000) then .error (fRecUnknown, ty)
    else
      let d := sub_ l 8 len
      if ty * 256 + inst ≤ last ∨ !layoutOk ty d ∨ !(sub_ l (8 + len) (pad - len)).all (· == 0) then .error (fRecFrame, o)
      else frameRecs n (l.drop (12 + pad)) (o + 12 + pad) (ty * 256 + inst) (acc ++ [({ ty, inst, data := d }, o)])

/-! ### Ranges of fields -/

/-- A field: offset, size, and the ranges it may lie in. -/
abbrev FRow := Nat × Nat × List (Nat × Nat)

/-- Reserved bytes. -/
def rsv (o n : Nat) : FRow := (o, n, [(0, 0)])

/-- The first field of `rows` outside its range, at `base`. -/
def rowsBad (d : List Byte) (base : Nat) (rows : List FRow) : Option Nat :=
  (rows.find? fun r => !r.2.2.any fun p => decide (p.1 ≤ leAt d (base + r.1) r.2.1) && decide (leAt d (base + r.1) r.2.1 ≤ p.2)).map
    fun r => base + r.1

/-- Fields of the records of one layout (Tables 2.13 to 16.8). -/
def fieldRows (t : Nat) : List FRow :=
  if t = 0x0101 then [(0, 1, [(0, 1)]), (1, 1, [(0, 1)]), (2, 2, [(1, 100)]), (4, 2, [(60, 3600)]), rsv 6 2]
  else if t = 0x0102 then [(0, 1, [(0, 7)]), (1, 1, [(0, 15)]), (2, 4, [(0, 2592000)]), (6, 1, [(0, 1)]), rsv 7 1]
  else if t = 0x0201 then [rsv 1 3]
  else if t = 0x0202 then
    [(0, 1, [(0, 1)]), (1, 1, [(0, 1)]), (2, 1, [(0, 1)]), (3, 1, [(0, 8)]), (4, 2, [(0, 2000)]), rsv 6 2, (12, 4, [(0, 500000)]),
      (16, 4, [(0, 500000)]), (20, 2, [(0, 1024)]), (22, 2, [(1, 65535)])]
  else if t = 0x0209 then [(0, 1, [(0, 1)]), (1, 1, [(0, 1)]), rsv 2 2, (4, 4, [(10, 86400)])]
  else if t = 0x0302 then
    [(0, 2, [(200, 20000)]), (2, 2, [(20, 1000)]), (4, 2, [(10, 5000)]), (6, 2, [(50, 1000)]), (8, 2, [(50, 1000)]), (10, 2, [(10, 200)]),
      (12, 2, [(100, 5000)]), (14, 2, [(50, 5000)]), (16, 2, [(500, 30000)]), (18, 2, [(0, 300)]), (20, 2, [(10, 2000)]), rsv 22 2]
  else if t = 0x0303 then
    [(0, 2, [(100, 6000)]), (2, 2, [(10, 2000)]), (4, 2, [(20, 500)]), (6, 2, [(100, 3000)]), (8, 2, [(300, 10000)]), (10, 2, [(20, 400)]),
      (12, 2, [(10, 2000)]), (14, 1, [(0, 11), (0xFF, 0xFF)]), rsv 15 1, (16, 2, [(20, 500)]), rsv 18 2]
  else if t = 0x0304 then [rsv 2 2]
  else if t = 0x0305 then [(0, 1, [(0, 15)]), (1, 1, [(1, 16)]), rsv 2 2]
  else if t = 0x0401 then
    [(0, 1, [(0, 15)]), (1, 1, [(0, 7)]), (2, 1, [(32, 39)]), (3, 1, [(0, 15)]), (4, 1, [(30, 31)]), (5, 1, [(0, 15), (0xFF, 0xFF)]),
      (6, 1, [(30, 31), (0xFF, 0xFF)]), (7, 1, [(0, 63), (0xFF, 0xFF)]), (8, 1, [(0, 63)]), (9, 1, [(0, 63)]), (10, 2, [(1, 1000)]),
      (12, 2, [(1, 1000)]), (14, 2, [(500, 1300)]), (16, 2, [(5, 50)]), (18, 2, [(100, 10000)]), (20, 2, [(500, 30000)]),
      (22, 2, [(20, 1000)]), (24, 2, [(0, 8191)]), (26, 2, [(0, 8191)]), (28, 2, [(0, 8191)]), (30, 2, [(1000, 60000)]),
      (32, 4, [(0, 524287), (0xFFFFFFFF, 0xFFFFFFFF)])]
  else if t = 0x0402 then
    [(0, 2, [(20, 400)]), (2, 1, [(2, 50)]), (3, 1, [(0, 0), (20, 90)]), (4, 2, [(20, 500)]), (6, 2, [(0, 5000)]), (8, 2, [(0, 10000)]),
      (10, 1, [(1, 10)]), (11, 1, [(0, 1)]), (12, 2, [(10, 200)]), (14, 2, [(10, 200)]), (16, 2, [(0, 5000)]), (18, 2, [(20, 400)]),
      (20, 2, [(50, 600)]), (22, 2, [(5, 100)]), (24, 1, [(0, 1)]), rsv 25 3]
  else if t = 0x0403 then (List.range 256).map fun b => (2 * b, 2, [(0, 0), (20, 400)])
  else if t = 0x0404 then
    [(0, 2, [(20, 400)]), (2, 1, [(2, 50)]), (3, 1, [(1, 10)]), (4, 2, [(10, 200)]), (6, 2, [(50, 600)]), (8, 2, [(5, 100)]),
      (10, 1, [(0, 1)]), rsv 11 1]
  else if t = 0x0405 then [(0, 1, [(0, 7)]), (1, 1, [(0, 1)]), (2, 2, [(0, 6000)]), (4, 2, [(0, 0xFFF)]), rsv 6 2]
  else if t = 0x0501 then
    [(0, 1, [(0, 6)]), (1, 1, [(0, 5)]), (2, 2, [(10, 65535)]), (4, 2, [(0, 500), (0xFFFF, 0xFFFF)]), (6, 2, [(10, 3600), (0xFFFF, 0xFFFF)]),
      (8, 1, [(0, 1), (0xFF, 0xFF)]), (9, 1, [(0, 63)]), (10, 1, [(0, 2)]), (11, 1, [(0, 2)]), (14, 2, [(10, 10000)]), (16, 2, [(100, 60000)]),
      rsv 18 2]
  else if t = 0x0502 then [(0, 2, [(10, 1000)]), (2, 1, [(2, 10)]), rsv 3 1]
  else if t = 0x0601 then [(0, 1, [(0, 1)]), rsv 1 1, (2, 2, [(1, 1000)])]
  else if t = 0x0602 then ((List.range 32).map fun c => [(4 * c + 2, 1, [(0, 5), (8, 13)]), rsv (4 * c + 3) 1]).flatten
  else if t = 0x0603 then [(0, 1, [(0, 2)]), (1, 1, [(0, 3)]), (2, 1, [(1, 64)]), rsv 3 1, (4, 2, [(10, 10000)]), rsv 6 2]
  else if t = 0x0604 then
    ((List.range 16).map fun c =>
      [(4 * c, 1, if c < 14 then [(0, 1)] else [(0, 2)]), (4 * c + 1, 1, [(0, 2)]), (4 * c + 2, 1, [(0, 7)]), rsv (4 * c + 3) 1]).flatten
  else if t = 0x0701 then
    [(0, 1, [(0, 15)]), (1, 1, [(0, 15)]), (2, 1, [(1, 32)]), (3, 1, [(1, 128)]), (4, 1, [(1, 64)]), (5, 1, [(1, 64)]), (6, 1, [(1, 8)]),
      (7, 1, [(1, 32)]), (8, 1, [(1, 16)]), (9, 1, [(1, 16)]), (10, 1, [(0, 127)]), rsv 11 1]
  else if t = 0x0702 then
    [(0, 1, [(0, 1)]), (1, 1, [(0, 23)]), (2, 1, [(0, 3)]), rsv 3 1, (4, 2, [(0, 60000)]), rsv 6 2, (8, 4, [(0, 2 ^ 31 - 1)]), (12, 4, [(0, 127)])]
  else if t = 0x0704 then
    [(0, 1, [(1, 2)]), (1, 1, [(1, 2), (4, 4), (8, 8), (16, 16), (32, 32), (64, 64)]), (2, 1, [(1, 32)]), rsv 3 1, (4, 4, [(0, 2 ^ 30 - 1)]),
      (8, 2, [(64, 65535)]), rsv 10 2, (12, 2, [(0, 0)])]
  else if t = 0x0801 then [(0, 1, [(0, 15)]), (1, 1, [(0, 31)]), rsv 2 2]
  else if t = 0x0802 then
    [(0, 1, [(0, 1)]), (1, 1, [(1, 15)]), (2, 2, [(0, 1432)]), (4, 4, [(1, 0xFFFFFFFF)]), (16, 2, [(0, 10000)]), (18, 2, [(0, 65525)]),
      (20, 2, [(0, 0), (2, 60000)])]
  else if t = 0x0804 then
    [(0, 2, [(0, 1023)]), (4, 2, [(1, 65535)]), (6, 1, [(1, 255)]), (7, 1, [(1, 8)]), (8, 4, [(1, 0xFFFFFFFF)]), (16, 2, [(2, 60000)]), rsv 18 2]
  else if t = 0x0805 then
    [(0, 1, [(0, 1)]), (1, 1, [(0, 127)]), (2, 1, [(1, 3)]), (3, 1, [(0, 6), (252, 255)]), (4, 2, [(1, 600)]), rsv 6 2]
  else if t = 0x0806 then
    [(0, 4, [(1, 0xFFFFFFFF)]), (4, 1, [(0, 15)]), (5, 1, [(0, 1)]), (6, 2, [(10, 3600)]), (8, 2, [(1000, 30000)]), rsv 10 2]
  else if t = 0x0901 then [(0, 1, [(3, 50)]), (1, 1, [(1, 10)]), (2, 2, [(5, 200)]), (4, 2, [(10, 1000)]), rsv 6 2]
  else if t = 0x0A01 then [(0, 2, [(10, 1000)]), (2, 2, [(60, 3600)]), (4, 2, [(1, 10000)]), (6, 2, [(1, 365)])]
  else if t = 0x0B01 then [(0, 1, [(0, 1)]), (1, 1, [(0, 15)]), (2, 2, [(0, 0x1FFF)])]
  else if t = 0x0C01 then [(0, 1, [(0, 0), (2, 2)]), rsv 1 3, (4, 4, [(0, 86400)])]
  else if t = 0x0C02 then (List.range 24).map fun i => (i, 1, [(0, 2)])
  else []

/-- Table 8.15. Fields of record 0x0301; a channel with `ROLE` 0 is held to `ROLE` alone (R222). -/
def driveRows (d : List Byte) : List FRow :=
  (0, 1, [(0, 2)]) ::
    (if leAt d 0 1 = 0 then []
    else
      [(1, 1, [(0, 1)]), (2, 1, [(1, 16)]), (3, 1, [(0, 2)]), (4, 2, [(80, 400)]), (6, 2, [(50, 2000)]), (8, 1, [(0, 3)]), (9, 1, [(0, 1)]),
        (10, 2, [(100, 5000)]), (12, 2, [(10, 5000)]), (14, 2, [(100, 1500)]), (16, 2, [(50, 1100)]), (18, 2, [(100, 1100)]),
        (20, 2, [(10, 60000)]), (22, 2, [(10, 60000)]), (24, 2, [(1, 65535)]), (26, 2, [(1, 65535)]), (28, 2, [(100, 65535)]),
        (30, 1, [(30, 100)]), rsv 31 1, (32, 2, [(100, 3000)]), (34, 2, [(5, 200)]), (36, 2, [(0, 0), (64, 65535)])])

/-- Fields of one entry of a list record. -/
def entryRows (t : Nat) : List FRow :=
  if t = 0x0203 then [(2, 1, [(1, 2)]), (3, 1, [(0, 7)]), (4, 2, [(1, 1024)]), rsv 6 2]
  else if t = 0x0204 then [(2, 2, [(1, 65535)])]
  else if t = 0x0205 then [(2, 2, [(1, 1024)]), (4, 1, [(1, 7)]), rsv 5 1]
  else if t = 0x0208 then [(0, 2, [(0, 4095)]), (2, 1, [(3, 3), (7, 7)]), (3, 1, [(0, 2), (4, 6)])]
  else if t = 0x0703 then [(0, 4, [(0, 2 ^ 29 - 1)]), (4, 4, [(0, 2 ^ 29 - 1)]), (8, 1, [(0, 63)]), (9, 1, [(0, 31)]), rsv 10 2]
  else if t = 0x0803 then
    [(0, 2, [(0, 1023)]), (2, 2, [(0, 11455)]), (4, 1, [(1, 32)]), (5, 1, [(0, 2)]), (6, 1, [(0, 5)]), rsv 7 1, (8, 4, [(0, 524287)]),
      (16, 4, [(0, 524287), (0xFFFFFFFF, 0xFFFFFFFF)]), (20, 2, [(0, 255), (0xFFFF, 0xFFFF)]), rsv 22 2]
  else if t = 0x0902 then [(0, 1, [(3, 6)]), rsv 1 1, (2, 2, [(1, 1024)])]
  else if t = 0x0B02 then [(0, 2, [(1, 0x3FF)]), (2, 1, [(1, 15)]), rsv 3 1, (4, 4, [(1, 86400)])]
  else []

/-- Table 4.2. Bytes of a data area. -/
def areaBytes (a : Nat) : Nat :=
  if a = 2 then 0x10000 else if a = 3 then 0x2F800 else if a = 4 then 0x8000 else if a = 5 then 0x8000 else if a = 6 then 0x800
  else if a = 7 then 0x10000 else 0

/-- The field at `o` where the condition does not hold. -/
def need (ok : Bool) (o : Nat) : Option Nat := if ok then none else some o

/-- Table 5.1, Table 8.10. `TRIG_ARG` fits the trigger kind. -/
def trigOk (kind arg : Nat) : Bool :=
  if kind = 1 then decide (arg ≤ 7)
  else if kind = 2 then (arg &&& 0xFFFFFCC0) == 0 && arg / 256 % 4 != 0
  else if kind = 3 then
    let e := arg / 256 % 256
    (arg &&& 0xFFFF00F0) == 0 && decide (arg % 16 ≤ 11) && ((decide (1 ≤ e) && decide (e ≤ 0x0C)) || e == 0xFF)
  else if kind = 4 then decide (arg ≤ 23) || arg == 31
  else if kind = 5 then decide (arg ≤ 1023)
  else if kind = 8 then decide (1 ≤ arg) && decide (arg ≤ 240000)
  else arg == 0

/-- Ranges of a record that depend on its own other fields or on its instance: the offset of the field outside its range. -/
def ownBad (t inst : Nat) (d : List Byte) : Option Nat :=
  let v (o n : Nat) : Nat := leAt d o n
  if t = 0x0202 then
    if inst < 16 then
      (need (v 3 1 == 0) 3).orElse fun _ => (need (decide (4 ≤ v 4 2)) 4).orElse fun _ => (need (v 8 4 == 0) 8).orElse fun _ =>
        need (v 16 4 == 0) 16
    else
      (need (decide (1 ≤ v 3 1)) 3).orElse fun _ => (need (v 4 2 == 0) 4).orElse fun _ => (need (trigOk (v 3 1) (v 8 4)) 8).orElse fun _ =>
        need (if v 3 1 = 7 then v 16 4 == 0 else decide (100 ≤ v 16 4)) 16
  else if t = 0x0207 then need (decide (1 ≤ v 0 4) && decide (v 0 4 ≤ 262144)) 0
  else if t = 0x0401 then
    (need (!(v 5 1 == 0xFF && v 6 1 != 0xFF)) 5).orElse fun _ => need (!(v 6 1 == 0xFF && v 5 1 != 0xFF)) 6
  else if t = 0x0701 then
    (need (decide (v 5 1 ≤ v 4 1)) 5).orElse fun _ => need (decide (v 9 1 ≤ v 8 1)) 9
  else if t = 0x0703 then need (decide (v 0 4 ≤ 128)) 0
  else if t = 0x0704 then
    let w := (List.range (v 2 1)).find? fun w => decide (v 8 2 ≤ v (12 + 2 * w) 2)
    match w with
    | some w => some (12 + 2 * w)
    | none =>
      (List.range (v 1 1 * 32)).findSome? fun i =>
        (need (decide (v (76 + 2 * i) 1 ≤ 4) && (v (76 + 2 * i) 1 != 4 || i % 32 == 0)) (76 + 2 * i)).orElse fun _ =>
          need (decide (v (77 + 2 * i) 1 ≤ 63)) (77 + 2 * i)
  else if t = 0x0801 then
    let inv := 2 ^ 32 - 1 - v 12 4
    need ((inv &&& (inv + 1)) == 0) 12
  else if t = 0x0802 then
    (need (if v 0 1 = 1 then decide (1 ≤ v 16 2) else v 16 2 == 0) 16).orElse fun _ => (need (v 0 1 == 0 || v 12 4 == 0) 12).orElse fun _ =>
      (need (v 0 1 == 0 || v 20 2 == 0) 20).orElse fun _ => (need (v 18 2 % 25 == 0) 18).orElse fun _ => need (v 22 2 / 4096 % 2 == 0) 22
  else if t = 0x0803 then need (decide (v 0 4 ≤ 8192)) 0
  else none

/-- The same for one entry of a list record. -/
def entryBad (t : Nat) (e : List Byte) : Option Nat :=
  let v (o n : Nat) : Nat := leAt e o n
  if t = 0x0203 then
    (need ((v 2 1 == 1) == (v 3 1 != 0)) 3).orElse fun _ => (need (v 2 1 == 1 || v 12 4 == 0xFFFFFFFF) 12).orElse fun _ =>
      need (v 2 1 == 1 || decide (v 8 4 + v 4 2 ≤ 65536)) 8
  else if t = 0x0204 then need (decide (v 0 2 + v 2 2 ≤ 65536)) 2
  else if t = 0x0205 then need (decide (v 0 2 + v 2 2 ≤ 65536)) 2
  else if t = 0x0208 then
    let n := 2 ^ (v 3 1 % 4)
    let sg := bit (v 3 1) 2
    let x (o : Nat) : Int := if sg then sgn 32 (v o 4) else (v o 4 : Nat)
    let lo : Int := if sg then -(2 ^ (8 * n - 1) : Nat) else 0
    let hi : Int := if sg then (2 ^ (8 * n - 1) : Nat) - 1 else (2 ^ (8 * n) : Nat) - 1
    (need (v 4 4 % n == 0 && decide (v 4 4 + n ≤ areaBytes (v 2 1))) 4).orElse fun _ =>
      (need (decide (lo ≤ x 8) && decide (x 8 ≤ hi)) 8).orElse fun _ => need (decide (x 8 ≤ x 12) && decide (x 12 ≤ hi)) 12
  else if t = 0x0803 then
    (need (v 5 1 != 2 || v 4 1 == 1) 5).orElse fun _ =>
      (need (v 6 1 % 2 == 0 || ((v 4 1 == 16 || v 4 1 == 32) && v 2 2 % 8 == 0)) 6).orElse fun _ => need (v 4 1 == 1 || v 8 4 % 32 == 0) 8
  else if t = 0x0902 then need (v 4 4 % 64 == 0) 4
  else none

/-- R89. Instances a type may carry. -/
def instOk (t i : Nat) : Bool :=
  if 0x0202 ≤ t ∧ t ≤ 0x0204 ∨ t = 0x0207 then decide (i ≤ 23)
  else if 0x0301 ≤ t ∧ t ≤ 0x0304 ∨ 0x0402 ≤ t ∧ t ≤ 0x0404 ∨ t = 0x0406 then decide (i ≤ 11)
  else if t = 0x0305 then decide (i ≤ 2)
  else if t = 0x0405 then decide (i ≤ 15)
  else if t = 0x0501 then decide (i ≤ 23)
  else if t = 0x0502 ∨ t = 0x0601 ∨ t = 0x0602 ∨ t = 0x0604 then decide (i ≤ 1)
  else if t = 0x0603 then decide (i ≤ 7) || (decide (32 ≤ i) && decide (i ≤ 39))
  else if t = 0x0701 ∨ t = 0x0703 ∨ t = 0x0704 ∨ t = 0x0801 then decide (i ≤ 3)
  else if t = 0x0702 ∨ t = 0x0802 ∨ t = 0x0804 ∨ 0x8000 ≤ t then true
  else if t = 0x0B01 then decide (i ≤ 7)
  else i == 0

/-- R89, R108. The slot a record belongs to. -/
def recSlot (t i : Nat) : Option Nat :=
  if 0x0301 ≤ t ∧ t ≤ 0x0304 ∨ 0x0402 ≤ t ∧ t ≤ 0x0404 ∨ t = 0x0406 then some (1 + i / 4)
  else if t = 0x0305 then some (1 + i)
  else if t = 0x0501 then some (4 + i / 12)
  else if t = 0x0502 then some (4 + i)
  else if t = 0x0601 ∨ t = 0x0602 ∨ t = 0x0604 then some (6 + i)
  else if t = 0x0603 then some (6 + i / 32)
  else none

/-- Table 5.10. The first field outside its range of the `k` entries of record 0x0206 that stand in `l` from payload offset `o` on. -/
def initBad : Nat → Nat → List Byte → Option Nat
  | 0, _, _ => none
  | k + 1, o, l =>
    let area := leAt l 0 1
    let len := leAt l 2 2
    let n := 8 + (len + 3) / 4 * 4
    (need (areaBytes area != 0) o).orElse fun _ => (need (leAt l 1 1 == 0) (o + 1)).orElse fun _ => (need (len != 0) (o + 2)).orElse fun _ =>
      (need (decide (leAt l 4 4 + len ≤ areaBytes area)) (o + 4)).orElse fun _ => initBad k (o + n) (l.drop n)

/-- The first field of record `r` outside its range: `DETAIL`'s offset. -/
def recBad (r : Rec) : Option Nat :=
  if 0x8000 ≤ r.ty then none
  else if !instOk r.ty r.inst then some 0xFFFF
  else
    let size := match listRow r.ty with | some (n, _) => n | none => 12
    let nested :=
      if r.ty = 0x0206 then initBad (leAt r.data 0 4) 4 (r.data.drop 4)
      else if (listRow r.ty).isSome ∨ r.ty = 0x0703 then
        (List.range (leAt r.data 0 4)).findSome? fun i =>
          ((rowsBad r.data (4 + i * size) (entryRows r.ty)).orElse fun _ =>
            (entryBad r.ty (sub_ r.data (4 + i * size) size)).map fun o => 4 + i * size + o)
      else none
    (rowsBad r.data 0 (if r.ty = 0x0301 then driveRows r.data else fieldRows r.ty)).orElse fun _ =>
      (ownBad r.ty r.inst r.data).orElse fun _ => nested

/-- R90. The first bad field of the protection table: its container offset. -/
def protBad (tab : List Byte) : Option Nat :=
  (List.range 24).findSome? fun i =>
    let b := leAt tab (12 * i) 4
    let l := leAt tab (12 * i + 4) 4
    let a := leAt tab (12 * i + 8) 4
    if 7 < a then some (128 + 12 * i + 8)
    else if !bit a 2 then none
    else if b % 4096 ≠ 0 then some (128 + 12 * i)
    else if l < b ∨ (l + 1) % 4096 ≠ 0 then some (128 + 12 * i + 4)
    else none

/-- R95. The first header field outside Table 3.2 that Table 3.4 does not cover: its container offset. -/
def headerBad (h : List Byte) : Option Nat :=
  (need (leAt h 12 4 != 0) 12).orElse fun _ => (need (leAt h 16 8 != 0) 16).orElse fun _ => (need (bit (leAt h 24 1) 0) 24).orElse fun _ =>
    (need (decide (leAt h 26 1 ≤ 1)) 26).orElse fun _ => (need (leAt h 27 1 == 0) 27).orElse fun _ => need ((sub_ h 64 60).all (· == 0)) 64

/-! ### Records against one another -/

/-- A contradiction, with the type `DETAIL` names, where the condition does not hold. -/
def cross (ok : Bool) (ty : Nat) : Option BootFail := if ok then none else some (fCross, ty)

/-- No two elements of a list fall together. -/
def apart {α : Type} (clash : α → α → Bool) : List α → Bool
  | [] => true
  | a :: t => (t.all fun b => !clash a b) && apart clash t

/-- Two ranges (start, length) overlap. -/
def overlap (a b : Nat × Nat) : Bool := decide (a.1 < b.1 + b.2) && decide (b.1 < a.1 + a.2)

/-- The instances of a type in the image. -/
def State.insts (s : State) (ty : Nat) : List Nat := (s.boot.topo.filter fun r => r.ty == ty).map (·.inst)

/-- R144. Enabled tasks by the image. -/
def State.enabledTasks (s : State) : List Nat := (s.insts 0x0202).filter fun t => s.topoN 0x0202 t 0 1 0 == 1

/-- Length of the INPUT block of slot `n`. -/
def inLen (n : Nat) : Nat := if n ≤ 3 then 136 else if n ≤ 5 then 104 else 80

/-- Slots that the image names without a record of their own: bindings and triggers. -/
def State.namedSlots (s : State) : List Nat :=
  ((s.insts 0x0203).map fun t => ((s.entries 0x0203 t 16).filter fun e => leAt e 2 1 == 1).map fun e => leAt e 3 1).flatten ++
    ((s.entries 0x0205 0 8).map fun e => leAt e 4 1) ++
    (s.enabledTasks.filterMap fun t =>
      let a := s.topoN 0x0202 t 8 4 0
      let k := s.topoN 0x0202 t 3 1 0
      if k = 2 then some (6 + a % 64 / 32) else if k = 3 then some (1 + a % 16 / 4)
      else if k = 4 ∧ a ≠ 31 then some (4 + a / 12) else none)

/-- R4, R89. The first reference to an unfitted slot. -/
def State.unfitted (s : State) (req : Nat) : Option BootFail :=
  let bad := ((satSlots.filter fun n => bit req n) ++ (s.boot.topo.filterMap fun r => recSlot r.ty r.inst) ++ s.namedSlots).find? fun n =>
    !s.fitted n
  bad.map fun n => (fUnfitted, n)

/-- R78, R144, R242, R269, R357. The first mandatory record that is missing. -/
def State.missing (s : State) : Option BootFail :=
  let has (ty i : Nat) : Bool := (s.topo? ty i).isSome
  let chans := (List.range 12).filter fun k => s.fitted (1 + k / 4)
  let want (ty : Nat) (l : List Nat) : Option BootFail := if l.all fun i => has ty i then none else some (fRecMissing, ty)
  let ctls := (s.insts 0x0702).map (· / 64) ++ s.insts 0x0703 ++ s.insts 0x0704 ++
    (s.enabledTasks.filter fun t => s.topoN 0x0202 t 3 1 0 == 1).map fun t => s.topoN 0x0202 t 8 4 0 % 4
  [want 0x0101 [0], if s.enabledTasks.isEmpty then some (fRecMissing, 0x0202) else none, want 0x0203 s.enabledTasks, want 0x0204 s.enabledTasks,
    want 0x0207 s.enabledTasks, want 0x0301 chans, want 0x0302 (chans.filter fun k => s.ilRole k == 1),
    want 0x0303 (chans.filter fun k => s.ilRole k == 2), if s.ilOn then want 0x0402 (chans.filter fun k => s.ilRole k == 1) else none,
    want 0x0701 ctls].findSome? id

/-- R59. A safety function in mode C: its slot. -/
def State.isolationC (s : State) : Option BootFail :=
  if !s.safetyDeclared then none
  else
    let modeC (f : Nat) : Bool := s.topoN 0x0601 f 0 1 0 == 1
    let dis := if s.ilOn then [s.ilN 1 1 0, s.ilN 2 1 32, s.ilN 8 1 0, s.ilN 9 1 0].map (· / 32) else []
    let outs := (s.pairOuts.filter fun o => o != 0xFF).map (· / 16)
    let flags := [0, 1].filter fun f => (List.range 16).any fun c => bit (s.topoN 0x0604 f (4 * c + 2) 1 4) 0 && (s.topo? 0x0604 f).isSome
    ((dis ++ outs ++ flags).find? modeC).map fun f => (fIsoC, 6 + f)

/-- R79. -/
def State.undeclared (s : State) : Option BootFail :=
  if s.safetyDeclared then none
  else if s.ilOn then some (fSafety, 0x0401)
  else if s.enabledTasks.any fun t => bit (s.topoN 0x0202 t 2 1 0) 0 then some (fSafety, 0x0202)
  else if [0, 1].any fun f => (List.range 16).any fun c => bit (s.topoN 0x0604 f (4 * c + 2) 1 0) 0 then some (fSafety, 0x0604)
  else none

/-- Chapter 5: tasks, images, ownership, bindings (R149 to R154, R170). -/
def State.crossTasks (s : State) : Option BootFail :=
  let en := s.enabledTasks
  let img (t : Nat) : Nat := s.topoN 0x0202 t 20 2 0 * 64
  let owns := (en.map fun t => (s.entries 0x0204 t 4).map fun e => (leAt e 0 2, leAt e 2 2)).flatten
  let outs := s.entries 0x0205 0 8
  let orphan (ty : Nat) : Option BootFail := cross ((s.insts ty).all fun t => en.contains t) ty
  [cross (decide ((en.map img).sum ≤ 360448)) 0x0202,
    cross (decide ((en.filter fun t => s.topoN 0x0202 t 3 1 0 == 7).length ≤ 1)) 0x0202,
    orphan 0x0203, orphan 0x0204, orphan 0x0207,
    cross (en.all fun t => match s.topo? 0x0207 t with
      | some r => s.isDx4 t == decide (4 + 4 * leAt r.data 0 4 < r.data.length)
      | none => true) 0x0207,
    cross (en.all fun t => (s.entries 0x0203 t 16).all fun e =>
      decide (leAt e 0 2 + leAt e 4 2 ≤ img t) && (leAt e 2 1 != 1 || decide (leAt e 8 4 + leAt e 4 2 ≤ inLen (leAt e 3 1))) &&
        (leAt e 12 4 == 0xFFFFFFFF || decide (leAt e 12 4 < 8 * img t)) && !(leAt e 2 1 == 2 && s.topoN 0x0202 t 3 1 0 == 7)) 0x0203,
    cross (apart overlap owns) 0x0204,
    cross (apart overlap (outs.map fun e => (leAt e 0 2, leAt e 2 2)) &&
      apart (fun a b => a.1 == b.1 && overlap a.2 b.2) (outs.map fun e => (leAt e 4 1, (leAt e 6 2, leAt e 2 2))) &&
      outs.all fun e => decide (leAt e 6 2 + leAt e 2 2 ≤ outLen (leAt e 4 1))) 0x0205,
    cross ((s.entries 0x0208 0 16).all fun e =>
      tunRange e (let n := 2 ^ (leAt e 3 1 % 4)
        let v := leNat ((List.range n).map fun i => (s.initByte (leAt e 2 1) (leAt e 4 4 + i)).getD 0)
        if bit (leAt e 3 1) 2 then unsgn 32 (sgn (8 * n) v) else v)) 0x0208,
    cross (apart (fun a b => leAt a 0 2 == leAt b 0 2) (s.entries 0x0208 0 16)) 0x0208].findSome? id

/-- Chapters 8 and 9: drives, geometry, the interlock (R222, R233, R242, R257, R269). -/
def State.crossDoors (s : State) : Option BootFail :=
  let chans := s.ilChans
  let v (k o n : Nat) : Nat := s.topoN 0x0301 k o n 0
  let drive (k : Nat) : Bool :=
    let fcl := if v k 4 2 ≤ 200 then v k 4 2 * 100 else v k 4 2 * 50
    decide (v k 32 2 * 10 ≤ fcl) && decide (v k 34 2 * 10 ≤ v k 32 2) && decide (v k 12 2 * 10 ≤ 8 * v k 10 2) &&
      decide (v k 18 2 ≤ v k 14 2) && decide (v k 16 2 < v k 18 2) && (v k 1 1 == 0 || v k 3 1 == 2) && (v k 3 1 == 0 || v k 36 2 != 0)
  let roleOf (ty r : Nat) : Option BootFail := cross ((s.insts ty).all fun k => s.ilRole k == r) ty
  let pairs := (s.insts 0x0303).filterMap fun k => s.pairDoor k
  let dieReadBy (n ms4 : Nat) : Bool := s.enabledTasks.any fun t =>
    decide (t < 16) && decide (s.topoN 0x0202 t 4 2 0 ≤ ms4) && (s.entries 0x0203 t 16).any fun e => leAt e 2 1 == 1 && leAt e 3 1 == n
  let paired := ((s.insts 0x0303).filter fun k => (s.pairDoor k).isSome) ++ pairs
  let il := s.ilN 0 1 0
  let fast (n : Nat) : Bool := s.topoN 0x0603 n 0 1 0 == 2
  let halves := s.pairOuts.filter fun o => o != 0xFF
  let bound (o : Nat) : Bool := (s.entries 0x0205 0 8).any fun e => leAt e 4 1 == 6 + o / 16 && overlap (leAt e 6 2, leAt e 2 2) (o % 16 / 8, 1)
  [cross (chans.all drive) 0x0301, roleOf 0x0302 1, roleOf 0x0303 2,
    cross (pairs.all fun k => s.ilRole k == 1) 0x0303, cross (apart (fun a b => a == b) pairs) 0x0303,
    cross (paired.all fun k => dieReadBy (chSlot k) 80) 0x0303, roleOf 0x0402 1, roleOf 0x0403 1, roleOf 0x0404 2,
    cross ((s.insts 0x0406).all fun k => s.ilRole k != 0) 0x0406,
    cross ((s.insts 0x0405).all fun p => (List.range 12).all fun k => !bit (s.topoN 0x0405 p 4 2 0) k || s.ilRole k == 1) 0x0405,
    if !s.ilOn then none
    else
      [cross (s.enabledTasks.contains il && decide (s.topoN 0x0202 il 4 2 0 ≤ 80) &&
          ([6, 7] ++ chans.map chSlot).all fun n => (s.entries 0x0203 il 16).any fun e => leAt e 2 1 == 1 && leAt e 3 1 == n) 0x0401,
        cross (apart (fun a b => a == b) halves) 0x0401,
        cross (halves.all fun o => !bound o) 0x0401,
        cross (fast (s.ilN 1 1 0) && fast (s.ilN 2 1 32)) 0x0603,
        cross (halves.all fun o => s.topoN 0x0604 (o / 16) (4 * (o % 16) + 1) 1 0 == 0) 0x0604,
        cross (halves.all fun o => s.topoN 0x0604 (o / 16) (4 * (o % 16)) 1 0 == (if o < 16 then 1 else 2)) 0x0604,
        cross ([24, 26, 28].all fun o => match (s.entries 0x0803 0 24)[s.ilN o 2 0]? with
          | some e => leAt e 20 2 != 0xFFFF
          | none => false) 0x0803].findSome? id].findSome? id

/-- Chapters 10 and 11: load channels, field outputs (R276, R283, R299, R327). -/
def State.crossLoads (s : State) : Option BootFail :=
  let v (x o n : Nat) : Nat := s.topoN 0x0501 x o n 0
  let one (x : Nat) : Bool :=
    let p := v x 10 1
    let m := if p = 0 then 1 else 2
    let ir := v x 2 2
    let lt := v x 0 1
    let inr := if v x 6 2 = 0xFFFF then ir * ([0, 6, 4, 3, 6, 0, 4] : List Nat).getD lt 0 / 2 else v x 6 2
    let low := if v x 8 1 = 0xFF then typeLow lt else v x 8 1 == 1
    decide (ir ≤ (if heavy x then 800 else 300) * m) && decide (12 * ir ≤ iW (v x 1 1)) &&
      decide (10 * inr ≤ 9 * (if heavy x then 4000 else 1500) * m) &&
      !(v x 4 2 != 0xFFFF && v x 4 2 != 0 && v x 6 2 == 0xFFFF && (lt == 0 || lt == 5)) &&
      (v x 12 2 == 0 || (if low then decide (2 ≤ v x 12 2) && decide (v x 12 2 ≤ 200) else decide (20 ≤ v x 12 2) && decide (v x 12 2 ≤ 1000))) &&
      (p != 1 || (x % 2 == 0 && v (x + 1) 10 1 == 2)) &&
      (p != 2 || (x % 2 == 1 && v (x - 1) 10 1 == 1 && v x 0 1 == v (x - 1) 0 1 && v x 1 1 == v (x - 1) 1 1 && ir == v (x - 1) 2 2 &&
        v x 9 1 == v (x - 1) 9 1))
  let shared (o : Nat) : Bool := bit (s.topoN 0x0604 (o / 16) (4 * (o % 16) + 2) 1 4) 1
  let safe := ((List.range 32).filter fun o => bit (s.topoN 0x0604 (o / 16) (4 * (o % 16) + 2) 1 0) 0) ++ s.pairOuts.filter fun o => o != 0xFF
  [cross ((s.insts 0x0501).all one) 0x0501, cross (!s.duplexCfg || safe.all shared) 0x0604].findSome? id

/-- Chapter 12: controllers, buffers, filters, schedules (R335, R336, R340, R341, R357). -/
def State.crossCan (s : State) : Option BootFail :=
  let v (c o : Nat) : Nat := s.topoN 0x0701 c o 1 0
  let nom (c : Nat) : Nat := v c 2 * (1 + v c 3 + v c 4)
  let dat (c : Nat) : Nat := v c 6 * (1 + v c 7 + v c 8)
  let rate (c : Nat) : Bool :=
    decide (80 ≤ nom c) && (!bit (v c 0) 1 || (decide (10 ≤ dat c) && decide (dat c ≤ nom c) && (bit (v c 0) 2 || decide (80 ≤ dat c))))
  let fd (c : Nat) : Bool := bit (v c 0) 1
  let filters (c : Nat) : List (List Byte) := (s.entries 0x0703 c 12).filter fun e => bit (leAt e 9 1) 0
  let tt (c o : Nat) : Nat := s.topoN 0x0704 c o 1 0
  let wins (c k ty : Nat) : List Nat := ((List.range (tt c 2)).filter fun w => tt c (76 + 64 * k + 2 * w) == ty).map fun w => tt c (77 + 64 * k + 2 * w)
  [cross ((s.insts 0x0701).all rate) 0x0701,
    cross ((s.insts 0x0702).all fun k => s.enabledTasks.contains (s.bufOwner k) && (!bit (s.topoN 0x0702 k 2 1 0) 0 || decide (k % 64 ≤ 1)) &&
      (fd (k / 64) || s.topoN 0x0702 k 0 1 0 == 0 || !bit (s.topoN 0x0702 k 12 4 0) 4)) 0x0702,
    cross ((s.enabledTasks.filter fun t => s.topoN 0x0202 t 3 1 0 == 1).all fun t =>
      let a := s.topoN 0x0202 t 8 4 0
      let k := a % 4 * 64 + a / 4 % 2
      s.bufOwner k == t && bit (s.topoN 0x0702 k 2 1 0) 0) 0x0702,
    cross ((s.insts 0x0703).all fun c => (filters c).all fun e =>
      (s.topo? 0x0702 (c * 64 + leAt e 8 1)).isSome && !s.bufTx (c * 64 + leAt e 8 1) && (fd c || !bit (leAt e 9 1) 3)) 0x0703,
    cross ((s.insts 0x0704).all fun c =>
      let ms := (List.range (tt c 2)).map fun w => s.ttMark c w
      (ms.zip (ms.drop 1)).all (fun p => decide (p.1 < p.2)) &&
        (List.range (tt c 1)).all fun k => (wins c k 1).all (fun b => s.bufTx (c * 64 + b)) &&
          (wins c k 3).all (fun b => (s.topo? 0x0702 (c * 64 + b)).isSome && !s.bufTx (c * 64 + b)) && apart (fun a b => a == b) (wins c k 1)) 0x0704].findSome? id

/-- Chapter 13: telegrams, the signal map, containers, verbs (R368, R369, R391). -/
def State.crossNet (s : State) : Option BootFail :=
  let v (i o n : Nat) : Nat := s.topoN 0x0802 i o n 0
  let sub (i : Nat) : Bool := (s.topo? 0x0802 i).isSome && v i 0 1 == 0
  let es := s.entries 0x0803 0 24
  let pub := es.filter fun e => v (leAt e 0 2) 0 1 == 1
  let port (p : Nat) : Bool := bit (s.topoN 0x0801 p 0 1 0) 0
  let scs := s.insts 0x0804
  let mk := s.topoN 0x0806 0 5 1 0
  let verbs := (s.topo? 0x0806 0).isSome || !(s.insts 0x0B01).isEmpty
  [cross ((s.insts 0x0802).all fun i => ((List.range 4).all fun p => !bit (v i 1 1) p || port p) &&
      (v i 0 1 == 0 || decide (v i 18 2 < v i 16 2 * 1000))) 0x0802,
    cross (es.all fun e => (s.topo? 0x0802 (leAt e 0 2)).isSome && decide (leAt e 2 2 + leAt e 4 1 ≤ 8 * v (leAt e 0 2) 2 2) &&
      (sub (leAt e 0 2) || leAt e 16 4 == 0xFFFFFFFF) &&
      (leAt e 20 2 == 0xFFFF || ((s.topo? 0x0804 (leAt e 20 2)).isSome && s.topoN 0x0804 (leAt e 20 2) 0 2 0 == leAt e 0 2))) 0x0803,
    cross (apart (fun a b => leAt a 16 4 != 0xFFFFFFFF && leAt a 16 4 == leAt b 16 4 && !(leAt a 0 2 == leAt b 0 2 && leAt a 20 2 == leAt b 20 2))
      es) 0x0803,
    cross (apart (fun a b => leAt a 0 2 == leAt b 0 2 && overlap (leAt a 2 2, leAt a 4 1) (leAt b 2 2, leAt b 4 1)) pub) 0x0803,
    cross (scs.all fun c =>
      let t := s.topoN 0x0804 c 0 2 0
      (s.topo? 0x0802 t).isSome && decide (s.topoN 0x0804 c 2 2 0 + 17 ≤ v t 2 2) &&
        decide (s.topoN 0x0804 c 2 2 0 + s.topoN 0x0804 c 4 2 0 + 16 ≤ v t 2 2)) 0x0804,
    cross (apart (fun a b => s.topoN 0x0804 a 0 2 0 == s.topoN 0x0804 b 0 2 0) scs) 0x0804,
    cross (!verbs || (s.board.fuses.secret.getD mk []).length == 32) 0x0806].findSome? id

/-- Chapters 7, 14 and 16: lanes, the belay set, rate limits (R209, R403, R424, R472). -/
def State.crossRest (s : State) : Option BootFail :=
  let ranges := (s.entries 0x0902 0 8).map fun e => (leAt e 0 1, leAt e 4 4, leAt e 2 2 * 64)
  let size := 1088 + (8 * (s.telsOf 1).length + 63) / 64 * 64 + (ranges.map fun r => r.2.2).sum
  [cross ((s.topo? 0x0C02 0).isNone || (s.topoN 0x0C01 0 0 1 0 == 2 && (List.range 24).all fun t =>
      s.topoN 0x0C02 0 t 1 0 == 0 || s.enabledTasks.contains t)) 0x0C02,
    cross (s.duplexCfg || (s.topo? 0x0901 0).isNone) 0x0901, cross (s.duplexCfg || (s.topo? 0x0902 0).isNone) 0x0902,
    cross (apart (fun a b => a.1 == b.1 && overlap a.2 b.2) ranges && ranges.all fun r => decide (r.2.1 + r.2.2 ≤ areaBytes r.1)) 0x0902,
    cross (decide (size ≤ 65536)) 0x0902,
    cross ((s.entries 0x0B02 0 8).all fun e => codeDefined (leAt e 0 2) && !unlimited (leAt e 0 2)) 0x0B02].findSome? id

/-- R177. A DX4 program whose `IID_TABLE` breaks its rules: the offset of the table. -/
def State.iidFail (s : State) : Option Nat :=
  s.enabledTasks.findSome? fun t =>
    match s.topo? 0x0207 t with
    | some r => if s.isDx4 t && iidBad r.data then some ((4 + 4 * leAt r.data 0 4) % 65536) else none
    | none => none

/-- R127, R142. Two tasks that use one instance, of which task `t` is the later. -/
def State.sharedInst (s : State) (t : Nat) : Bool :=
  let of (u : Nat) : List (Nat × Nat) := match s.topo? 0x0207 u with
    | some r => (instancesOf (scanProg (bodyWords r.data) 0 0)).map fun x => (x.1, x.2.1)
    | none => []
  (s.enabledTasks.filter fun u => decide (u < t)).any fun u => (of u).any fun x => (of t).contains x

/-- R142 `SIZE`. With task `t` the programs exceed the store that all tasks share (DEDUCED: the DX4 ones lie in it too, Table 4.3). -/
def State.storeOver (s : State) (t : Nat) : Bool :=
  decide (262144 < ((s.enabledTasks.filter fun u => decide (u ≤ t)).map fun u => s.topoN 0x0207 u 0 4 0).sum)

/-- R142. The program of task `t` in the image: the reason and the word for which it is refused. -/
def State.imageProgBad (s : State) (t : Nat) : Option (Nat × Nat) :=
  match s.topo? 0x0207 t with
  | some r => s.verify t (s.isDx4 t) (s.sharedInst t) (s.storeOver t) (bodyWords r.data)
  | none => none

/-- R142, R170. The first program that verification refuses: the task, the reason, the word. -/
def State.progFail (s : State) : Option (Nat × Nat × Nat) :=
  s.enabledTasks.findSome? fun t => (s.imageProgBad t).map fun p => (t, p.1, p.2)

/-- R97, step 7, on the image whose records are in hand: the first failure. -/
def State.imageFail (s : State) (head : List Byte) : Option BootFail :=
  [(headerBad head).map fun o => (fRange, o * 65536), (protBad (sub_ head 128 288)).map fun o => (fRange, o * 65536),
    s.boot.topo.findSome? fun r => (recBad r).map fun o => (fRange, r.ty + o * 65536),
    s.missing, s.unfitted (leAt head 24 1), if s.ilOn ∧ s.board.nFio < 2 then some (fIlBuild, 0) else none,
    s.isolationC, s.undeclared, s.crossTasks, s.crossDoors, s.crossLoads, s.crossCan, s.crossNet, s.crossRest,
    s.progFail.map fun p => (fRange, 0x0207 + (0xFF00 + p.2.1) * 65536), s.iidFail.map fun o => (fRange, 0x0207 + o * 65536)].findSome? id

end Sys2Proof.Machine
end

