-- ==== Sys2Proof/Machine/Boot.lean ====
section
/-! DEFINITION. The boot ROM (R80 to R108): selection of the image, the twelve steps of Table 3.5, the failure path, the first SAMPLE
(R51, R67, R413) and the copy into the Topo shadow (R96). -/

namespace Sys2Proof.Machine

/-! ### The flash interface (R80 to R82) -/

/-- R81. The parameter table of the SFDP space with identifier `id`: its length in 32-bit words and its address. PRESUMED (JESD216): the
header has `NPH` at 6, and 8-byte parameter headers from 8 on. -/
def sfdpTable (m : Bytes) (id : Nat) : Option (Nat × Nat) :=
  ((List.range ((mget 0xFF m 6).toNat + 1)).map fun i => mslice 0xFF m (8 + 8 * i) 8).findSome? fun h =>
    if leAt h 0 1 + 256 * leAt h 7 1 = id then some (leAt h 3 1, leAt h 4 3) else none

/-- R81, R108. What discovery finds in the SFDP space `m`, the bus in 1S-1S-1S. PRESUMED (JESD216): tables 0xFF00 (basic), 0xFF05 (xSPI
Profile 1.0) and 0xFF0A (command sequences for octal DDR), and the places of their fields. -/
def sfdpFind (m : Bytes) : FlashBus :=
  let w (t : Nat × Nat) (i : Nat) : Nat := if t.1 < i then 0 else leNat (mslice 0xFF m (t.2 + 4 * (i - 1)) 4)
  if leNat (mslice 0xFF m 0 4) ≠ 0x50444653 then { driven := true, fault := 1 }
  else
    match sfdpTable m 0xFF00, sfdpTable m 0xFF05 with
    | some b, some x =>
      let size := (if bit (w b 2) 31 then 2 ^ min 40 (w b 2 % 2 ^ 31) else w b 2 + 1) / 8
      let seq := (sfdpTable m 0xFF0A).isSome
      let cmd := fieldOf (w x 1) 8 8
      { driven := true
        fault := if size < 0x800000 ∨ cmd = 0 ∨ (seq = false ∧ fieldOf (w b 19) 4 5 = 0) then 2 else 0
        density := size, addr4 := fieldOf (w b 16) 24 8, readCmd := cmd, dummies := fieldOf (w x 5) 7 5, bySequence := seq }
    | _, _ => { driven := true, fault := 2 }

/-- R81, Table 17.10. Boot step 5: hardware and software reset, discovery, and 8D-8D-8D where the flash has it. `LB_STAT` shows whether the
SFDP signature was found (xSPI, L3), until the first request. -/
def State.flashOpen (s : State) : State :=
  let b := sfdpFind s.board.sfdp
  let s := (s.fset Reg.LB_STAT_LB_IFACE 4).fset Reg.LB_STAT_LB_DEPTH 3
  let s := s.fset Reg.LB_STAT_RESULT (if b.fault = 1 then 2 else 1)
  { s with boot := { s.boot with flash := { b with octal := b.fault == 0 } } }

/-- R82. After the last flash read the flash returns to 1S-1S-1S and its lands are released. -/
def State.flashClose (s : State) : State :=
  { s with boot := { s.boot with flash := { s.boot.flash with octal := false, driven := false } } }

/-! ### The container (R84 to R86, R93 to R95) -/

/-- R93. `n` bytes at offset `off` of flash image slot `k`. -/
def State.flashBytes (s : State) (k off n : Nat) : List Byte := mslice 0xFF s.board.flash (k * 0x400000 + off) n

/-- Table 15.4. `n` bytes at offset `off` of the Topo shadow container. -/
def State.shadowBytes (s : State) (off n : Nat) : List Byte := mslice 0 s.mram (0x10600000 + off) n

/-- R93. Reasons 1 to 3 of Table 3.4, on a header. -/
def headReason (h : List Byte) : Nat :=
  let len := leAt h 8 4
  if sub_ h 0 4 ≠ [0x54, 0x4F, 0x50, 0x4F] then 1
  else if crc32c (sub_ h 0 124) ≠ leAt h 124 4 then 2
  else if leAt h 4 2 ≠ 1 ∨ leAt h 6 2 ≠ 416 ∨ len < 12 ∨ 4193760 < len ∨ len % 4 ≠ 0 then 3 else 0

/-- Table 3.4. The first reason for which a container is rejected; 0: accepted. -/
def Fuses.reason (f : Fuses) (rd : Nat → Nat → List Byte) : Nat :=
  let h := rd 0 416
  let r := headReason h
  if r ≠ 0 then r
  else
    let len := leAt h 8 4
    let k := leAt h 25 1
    let key := rd (416 + len) 64
    if (f.keyHash.getD k []).isEmpty ∨ bit f.revoked k then 4
    else if sha256 key ≠ f.keyHash.getD k [] then 5
    else if !ecdsaOk (sha256 h) key (rd (480 + len) 64) then 6
    else if sha256 (rd 416 len) ≠ sub_ h 32 32 then 7 else 0

/-- R90. The entries of the protection table. -/
def protEntries (h : List Byte) : List (Nat × Nat × Nat) :=
  (List.range 24).map fun i => (leAt h (128 + 12 * i) 4, leAt h (132 + 12 * i) 4, leAt h (136 + 12 * i) 4)

/-- R95. The image of this boot, from its header and protection table. -/
def imageOf (h : List Byte) : Image :=
  { gen := leAt h 12 4, lineage := leAt h 16 8, req := leAt h 24 1, keyIdx := leAt h 25 1, hflags := leAt h 26 1
    prot := protEntries h, hash := sub_ h 32 32 }

/-- R94. The container that has verified, as read. -/
def State.container (s : State) (off n : Nat) : List Byte := sub_ s.boot.cont off n

/-- The container that `rd` reads becomes the image of this boot. -/
def State.takeImage (s : State) (rd : Nat → Nat → List Byte) : State :=
  let h := rd 0 416
  let i := imageOf h
  let s := { s with boot := { s.boot with image := some i, cont := rd 0 (544 + leAt h 8 4) } }
  (((s.fset Reg.BOOT_STAT_KEY_IDX i.keyIdx).fset Reg.IMG_GEN_GEN i.gen).fset Reg.LINEAGE_LO_LIN_LO i.lineage).fset Reg.LINEAGE_HI_LIN_HI
    (i.lineage / 2 ^ 32)

/-- R93. Flash slots in the order in which they are verified, given the reasons of their headers. -/
def State.slotOrder (s : State) (r0 r1 : Nat) : List Nat :=
  if r0 ≠ 0 ∧ r1 ≠ 0 then [] else if r1 ≠ 0 then [0] else if r0 ≠ 0 then [1]
  else if newer32 (leAt (s.flashBytes 1 0 128) 12 4) (leAt (s.flashBytes 0 0 128) 12 4) then [1, 0] else [0, 1]

/-- Boot step 6 (R93, R94, R108): the slots in their order, then the shadow. -/
def State.selectImage (s : State) : State × Option BootFail :=
  let s := s.fput Reg.SHADOW_STAT_VALID s.shadowValid
  let f := s.board.fuses
  let fault := s.boot.flash.fault
  let head (k : Nat) : Nat := if s.boot.flash.octal then headReason (s.flashBytes k 0 128) else if fault = 1 then 1 else 0
  let order := if s.boot.flash.octal then s.slotOrder (head 0) (head 1) else []
  let full (k : Nat) : Nat := f.reason (s.flashBytes k)
  match order.find? fun k => full k == 0 with
  | some k =>
    let s := (s.fset Reg.BOOT_STAT_IMG_SLOT k).takeImage (s.flashBytes k)
    (if order.headD k = k then s else (s.fon Reg.BOOT_STAT_FALLBACK).record cTOPO_FALLBACK [], none)
  | none =>
    let rs := if s.shadowValid then f.reason s.shadowBytes else 1
    if rs = 0 then (((s.fon Reg.BOOT_STAT_FROM_SHADOW).takeImage s.shadowBytes).record cTOPO_FROM_SHADOW [], none)
    else if fault = 2 then (s, some (fSfdp, rs * 65536))
    else
      let r (k : Nat) : Nat := if order.contains k then full k else head k
      (s, some (fNoImage, r 0 + r 1 * 256 + rs * 65536))

/-! ### The records (steps 7 and 9) -/

/-- Registers that show what the image sets. -/
def State.configRegs (s : State) : State :=
  let s := s.fset Reg.OVR_CFG_OVR_LIMIT (s.topoN 0x0201 0 0 1 3)
  let s := s.each s.enabledTasks fun s t =>
    ((s.fon (Reg.TASK_STAT_ENABLED t)).fset (Reg.TASK_STAT_FORMAT t) (s.topoN 0x0202 t 1 1 0)).fset (Reg.TASK_STAT_SAFETY t)
      (s.topoN 0x0202 t 2 1 0)
  let s := s.fset Reg.RETIRE_CFG_RETIRE_WIN_S (s.topoN 0x0C01 0 4 4 3600)
  let lane (t : Nat) : Nat := s.topoN 0x0C02 0 t 1 0 * 4 ^ (t % 16)
  let s := (s.fset Reg.UNB_MAP0_MAP_0_15 ((List.range 16).map lane).sum).fset Reg.UNB_MAP1_MAP_16_23 ((List.range' 16 8).map lane).sum
  let s := s.each [0, 1, 2, 3] fun s p => s.fset (Reg.PORT_STAT_PHY_ADDR p) (s.topoN 0x0801 p 1 1 0)
  let s := s.fset Reg.CMP_STAT_N_CMP (s.topoN 0x0901 0 0 1 5)
  let s := (s.fset Reg.MEM_CFG_CKPT_MS (s.topoN 0x0A01 0 0 2 20)).fset Reg.MEM_CFG_SCRUB_S (s.topoN 0x0A01 0 2 2 600)
  let s := (s.fset Reg.MEM_CFG2_CE_ALARM_LIM (s.topoN 0x0A01 0 4 2 100)).fset Reg.MEM_CFG2_REFRESH_D (s.topoN 0x0A01 0 6 2 90)
  (s.boot.topo.filter fun r => r.ty == 0x0702 && s.canOn (r.inst / 64)).foldl (fun s r =>
    s.setBuf r.inst { tx := if leAt r.data 0 1 = 1 then
        { xid := leAt r.data 8 4, fmt := leAt r.data 12 4, data := List.replicate 16 0, time := 0 }
      else { xid := 0, fmt := 0, data := [], time := 0 } }) s

/-- Boot step 7 (R87 to R90, R95): framing, ranges, cross-record checks, programs. -/
def State.readImage (s : State) : State × Option BootFail :=
  let h := s.container 0 416
  let len := leAt h 8 4
  match frameRecs (len + 1) (s.container 416 len) 0 0 [] with
  | .error e => (s, some e)
  | .ok rs =>
    let s := { s with boot := { s.boot with topo := (rs.map fun (p : Rec × Nat) => p.1).filter fun r => decide (r.ty < 0x8000) } }
    match s.imageFail h with
    | some e => (s, some e)
    | none => (s.configRegs, none)

/-- Table 4.16. The record of the program that step 7 refused, if it was one. -/
def State.progRecord (s : State) (e : BootFail) : State :=
  if e.1 = fRange ∧ e.2 % 65536 = 0x0207 ∧ 0xFF00 ≤ e.2 / 65536 then
    match s.progFail with
    | some (t, r, i) => s.record cPROG_VERIFY (leBytes 1 t ++ leBytes 1 r ++ leBytes 4 i)
    | none => s
  else s

/-- R98. The records that apply to the die of slot `n`, in image order. -/
def State.dieRecs (s : State) (n : Nat) : List Rec :=
  s.boot.topo.filter fun r => recSlot r.ty r.inst == some n || (decide (n ≤ 3) && r.ty == 0x0405)

/-- R98. The edge-event map of field die `f`. -/
def State.edgeMap (s : State) (f : Nat) : List Byte :=
  let args := ((List.range' 16 8).filter fun t => s.taskOn t && s.topoN 0x0202 t 3 1 0 == 2).map fun t => s.topoN 0x0202 t 8 4 0
  leBytes 8 (args.foldl (fun m a => if a % 64 / 32 = f then m ||| (a / 256 % 4) * 4 ^ (a % 32) else m) 0)

/-- R98. The configuration check word of slot `n`. -/
def State.checkWord (s : State) (n : Nat) : Nat :=
  leNat ((sha256 (leBytes 1 n ++ ((s.dieRecs n).map (·.data)).flatten ++ (if 6 ≤ n then s.edgeMap (n - 6) else []))).take 4)

/-- R98. `CFG_CHECK` of slot `n`. -/
def cfgCheck (n : Nat) : Fld :=
  if n ≤ 3 then Reg.DRV_CFG_CHECK_CHECK (n - 1) else if n ≤ 5 then Reg.LSW_CFG_CHECK_CHECK (n - 4) else Reg.FIO_CFG_CHECK_CHECK (n - 6)

/-- R66. The die of slot `n` takes the records of the image: its outputs go off before the new configuration applies. -/
def State.reconfigure (s : State) (n : Nat) : State :=
  let old (x : Nat) : Option Nat := (s.dieRec (ldSlot x) 0x0501 x).map fun r => leAt r.data 1 1
  let s := s.recordFrom cDIE_RECONFIG n 31 (leBytes 1 n)
  let s := s.setSat n { s.sat n with applied := [], staged := none, cfg := s.dieRecs n }
  let s := s.fset (cfgCheck n) (s.checkWord n)
  let s := s.setLink n { s.link n with profWait := decide (n ≤ 3) }
  if n ≤ 3 then (s.fon (Reg.DRV_STAT_CONFIGURED (n - 1))).doorConfigured (n - 1)
  else if n ≤ 5 then (s.fon (Reg.LSW_STAT_CONFIGURED (n - 4))).loadConfigured (n - 4) false old
  else ((s.fon (Reg.FIO_STAT_CONFIGURED (n - 6))).fieldConfigured (n - 6)).enableEdges

/-- R28, R35. The die of slot `n` is admitted; its commit counter is aligned with the control die's, and of a field die the number of
the field side with it, unless it has stopped or restarted without a set (R302; DEDUCED, log 48). -/
def State.takeIn (s : State) (n : Nat) : State :=
  let num := s.fget Reg.COMMIT_NUM_CCOUNT
  let s := s.setSat n { s.sat n with ccount := num, staged := none }
  let s := if 6 ≤ n then s.modField (n - 6) fun x => { x with fnum := if x.stopped || x.bare then x.fnum else some (num % 256) } else s
  let s := s.ccountView n
  (s.setLink n { s.link n with inputsBad := false, sentOut := (s.sat n).applied }).fon (Reg.LINK_STAT_ADMITTED n)

/-- Boot step 9 (R66, R98): each declared die is left untouched or reconfigured, and admitted; the state with those done, and the
slot that refused. -/
def State.configDies (s : State) (bad : Nat) : List Nat → State × Option BootFail
  | [] => (s, none)
  | n :: t =>
    if s.fget (cfgCheck n) = s.checkWord n then
      (({ s with boot := { s.boot with untouched := s.boot.untouched ||| 2 ^ n } }).takeIn n).configDies bad t
    else if bit bad n then (s, some (fDieConfig, n))
    else ((s.reconfigure n).takeIn n).configDies bad t

/-! ### MRAM content (step 10: R101, R102, R167, R176, R186) -/

/-- R439. Checkpoint slot `i` is a candidate. -/
def State.ckOk (s : State) (i : Nat) : Bool :=
  let h := mslice 0 s.mram (ckHead i) 64
  let n := leAt h 38 2
  s.mrN (ckHead i + 16380) 4 == 0xA5A5A5A5 && leAt h 0 4 == 0x54504B43 &&
    leAt h 44 4 == crc32c (h.take 44 ++ mslice 0 s.mram (ckHead i + 64) (8 * n)) &&
    leAt h 40 4 == crc32c (mslice 0 s.mram (ckData i) 0x40000) &&
    !s.mem.bad.any fun a => (decide (ckData i ≤ a) && decide (a < ckData (i + 1))) || (decide (ckHead i ≤ a) && decide (a < ckHead (i + 1)))

/-- R167. The newest candidate, by serial comparison. -/
def State.ckNewest (s : State) : Option Nat :=
  ([0, 1, 2, 3].filter fun i => s.ckOk i).foldl (fun m i =>
    match m with
    | some j => if newer32 (s.mrN (ckHead i + 4) 4) (s.mrN (ckHead j + 4) 4) then some i else m
    | none => some i) none

/-- R440. The entries of the overlay that hold a value. -/
def State.ovlIds (s : State) : List Nat := ((s.entries 0x0208 0 16).map fun e => leAt e 0 2).filter fun id => (s.ovlBest id).isSome

/-- Table 6.1. Slot `i` holds a set. -/
def State.slotHeld (s : State) (i : Nat) : Bool := s.mrN (slotBase i) 4 == 0x54455350 && s.slotState i != slEmpty

/-- R101. Base of the overlay in the system headers: `LINEAGE` and `IMG_GEN`. DESIGN CHOICE: its place; Table 15.4 gives the overlay none
of its own. -/
abbrev ovlHead : Nat := hdrBase + 0x820

/-- R101. The base of the MRAM content. DESIGN CHOICE: of the program slots or the overlay where they hold anything, else of the newest
checkpoint: slots and overlay never outlive a boot under another image. -/
def State.mramBase (s : State) : Option (Nat × Nat) :=
  match [0, 1].find? fun i => s.slotHeld i with
  | some i => some (s.mrN (slotBase i + 8) 8, s.mrN (slotBase i + 16) 4)
  | none =>
    if s.mram.any fun p => decide (ovlBase + 0x4000 ≤ p.1) && decide (p.1 < ovlBase + 0x24000) then some (s.mrN ovlHead 8, s.mrN (ovlHead + 8) 4)
    else s.ckNewest.map fun i => (s.mrN (ckHead i + 16) 8, s.mrN (ckHead i + 24) 4)

/-- Table 3.7. -/
def State.precCase (s : State) (img : Image) : Nat :=
  match s.mramBase with
  | none => 0
  | some (lin, gen) => if lin ≠ img.lineage then 2 else if gen = img.gen then 1 else if newer32 img.gen gen then 3 else 4

/-- R176, R186. Slots and overlay are given up, the ring of R440 with its pending records as well. -/
def State.dropSlots (s : State) : State :=
  let s := (s.setSlot 0 slEmpty).setSlot 1 slEmpty
  let s := { s with mram := mclear ovlBase 0x24000 s.mram }
  { s with mram := mclear ovlHead 12 s.mram }

/-- Table 15.3. Slot `i` fails its `SET_CRC`. -/
def State.slotBroken (s : State) (i : Nat) : Bool :=
  let n := s.mrN (slotBase i + 36) 4
  s.mrN (slotBase i + 40) 4 != crc32c (mslice 0 s.mram (slotBase i + 64) n) ||
    s.mem.bad.any fun a => decide (slotBase i ≤ a) && decide (a < slotBase (i + 1))

/-- Table 6.4. The slots under case `SAME`. -/
def State.settleSlots (s : State) : State :=
  let s := s.each [0, 1] fun s i =>
    let st := s.slotState i
    if !s.slotHeld i ∨ st = slLoading then s.setSlot i slEmpty
    else if s.slotBroken i then ((s.setSlot i slEmpty).fon Reg.MEM_FLAGS_SLOT_LOST).record cSLOT_LOST (leBytes 1 i)
    else if st = slVerified then (s.mwN (slotBase i + 24) 8 0).slotRegs
    else s
  if s.slotState 0 = slActive ∧ s.slotState 1 = slActive then
    s.setSlot (if newer32 (s.mrN (slotBase 0 + 20) 4) (s.mrN (slotBase 1 + 20) 4) then 1 else 0) slInactive
  else s

/-- R102. Generation and body of the program of task `t`: a slot counts for DX4 tasks alone. -/
def State.bootBody (s : State) (t : Nat) : Nat × List Byte :=
  if s.isDx4 t then s.provenBody t
  else (s.topoN 0x0202 t 22 2 1, match s.topo? 0x0207 t with | some r => r.data | none => [])

/-- R170, R101. The programs go into the store in task order. -/
def State.placePrograms (s : State) : State :=
  let es : List SetEntry := s.enabledTasks.map fun t => (t, s.bootBody t)
  let img : List SetEntry := s.enabledTasks.map fun t =>
    (t, s.topoN 0x0202 t 22 2 1, match s.topo? 0x0207 t with | some r => r.data | none => [])
  let (es, ps) := match placeAll [] es with | some ps => (es, ps) | none => (img, (placeAll [] img).getD [])
  let used := match s.slotIn slActive with
    | some i => (s.slotSet i).any fun e => s.isDx4 e.1 && s.taskOn e.1
    | none => false
  let s := ({ s with eng := { s.eng with prog := ps.foldl (fun m (p : Nat × Prog) => mset {} m p.1 p.2) [] } }).storeWrite ps es
  s.fput Reg.PREC_STAT_SLOT_PROG_USED used

/-- R180, R186. A set that stays `VERIFIED` stands in the store again, beside the running programs, and may be armed. DESIGN CHOICE: one
that the store cannot hold is set `EMPTY`. -/
def State.placeVerified (s : State) : State :=
  match s.slotIn slVerified with
  | none => s
  | some i =>
    let es := (s.slotSet i).filter fun e => s.isDx4 e.1 && s.taskOn e.1
    let new := es.filter fun e => s.bootBody e.1 != e.2
    match placeAll s.storeUse new with
    | none => s.setSlot i slEmpty
    | some ps =>
      ({ (s.storeWrite ps new) with eng := { s.eng with next := s.setPrograms es ps } }).fset Reg.CHG_STAT_SWAP_STATE 2

/-- R169. The initial values of an area of `n` bytes at `base`: 0 where record 0x0206 names none. -/
def State.fillArea (s : State) (area base n : Nat) : State :=
  let s := { s with sram := mclear base n s.sram }
  (s.inits.filter fun e => e.1 == area).foldl (fun s e => { s with sram := mput 0 s.sram (base + e.2.1) e.2.2 }) s

/-- R122, R128. `KIND` of each timer and counter instance that a program evaluates, unless record 0x0206 names it. -/
def State.setKinds (s : State) : State :=
  let used := (s.enabledTasks.map fun t => instancesOf (scanProg (bodyWords (s.bootBody t).2) 0 0)).flatten
  (used.filter fun u => u.1 ≠ 6).foldl (fun s u =>
    if (s.initByte u.1 (16 * u.2.1 + 15)).isSome then s else s.wr (instAddr u.1 u.2.1 + 15) (BitVec.ofNat 8 u.2.2)) s

/-- R167. The data area from the initial values. -/
def State.dataInit (s : State) : State :=
  ((((s.fillArea 3 mBase 0x2F800).fillArea 4 tBase 0x8000).fillArea 5 cBase 0x8000).fillArea 6 eBase 0x800).setKinds

/-- R71, R433. The park signature is intact, and the scrub of the data area has found no uncorrectable error. -/
def State.parkIntact (s : State) : Bool :=
  s.boot.wake && !s.boot.dataUe && s.fbit Reg.PARK_MARK_MARK && s.fget Reg.PARK_SIG_SIG == crc32c (mslice 0 s.sram 0x20000 0x40000)

/-- R186. The reverse carry-over of the tasks in the carried mask of the restored checkpoint, from the set found in probation to the
proven one. -/
def State.carryBack (s : State) (prob : List SetEntry) (carried : Nat) : State :=
  s.each (taskNums.filter fun t => bit carried t && s.taskOn t) fun s t =>
    match prob.find? fun e => e.1 == t with
    | some e => (bodyIids (s.bootBody t).2).foldl (s.carryOne (bodyIids e.2.2)) s
    | none => s

/-- R121. The seed map and the `SEEDED` flags are cleared. -/
def State.unseed (s : State) : State :=
  let s := { s with sram := mclear seedBase 0x800 s.sram }
  let off (s : State) (a : Nat) : State := s.wr a (BitVec.ofNat 8 (putBit (s.rd a).toNat 4 false))
  let cells (base o : Nat) : List Nat :=
    (s.sram.filter fun p => decide (base ≤ p.1) && decide (p.1 < base + 0x8000) && (p.1 - base) % 16 == o).map (·.1)
  ((cells tBase 14).foldl off s |> fun s => (cells cBase 12).foldl off s)

/-- R176. Overlay values over K, and over M where they are newer than the data area (`gen`; `none`: M from the initial values). -/
def State.applyOverlay (s : State) (gen : Option Nat) (skipM : Bool) : State :=
  let s := s.each (List.range 16) fun s i => if s.mrN (ringAt i) 1 = 1 then s.ringState i 0 else s
  let ids := s.ovlIds
  let s := s.each ids fun s id =>
    match s.tunable id, s.ovlBest id with
    | some r, some a =>
      let v := leBytes (2 ^ (leAt r 3 1 % 4)) (s.mrN (a + 4) 4)
      let later := match gen with | some g => newer32 (s.mrN (a + 8) 4) g | none => true
      if leAt r 2 1 ≠ 3 then { s with sram := mput 0 s.sram (kBase + leAt r 4 4) v }
      else if later && !skipM then { s with sram := mput 0 s.sram (mBase + leAt r 4 4) v } else s
    | _, _ => s
  let best := ids.foldl (fun m id =>
    match s.ovlBest id with
    | some a => let g := s.mrN (a + 8) 4; match m with | some h => if newer32 g h then some g else m | none => some g
    | none => m) none
  (s.fset Reg.PARAM_GEN_GEN (best.getD 1)).fput Reg.PREC_STAT_OVERLAY_APPLIED !ids.isEmpty

/-- R375. The counters of the published telegrams go on from a checkpoint. -/
def State.restorePubs (s : State) (slot : Option Nat) : State :=
  let tels := s.telsOf 1
  (tels.zip (List.range tels.length)).foldl (fun s (p : Nat × Nat) =>
    let (seq, ssc) := match slot with
      | some i =>
        if p.2 < s.mrN (ckHead i + 38) 2 then (s.mrN (ckHead i + 64 + 8 * p.2) 4 + 65536, s.mrN (ckHead i + 68 + 8 * p.2) 4 + 65536) else (0, 0)
      | none => (0, 0)
    (s.fset (Reg.TEL_SEQ_SEQ p.1) seq).setTel p.1 { s.tel p.1 with ssc := ssc % 2 ^ 32, initLeft := 3 }) s

/-- R244, R249, Table 15.3. The stored profile of channel `k`: reloaded into B2 after a cold boot or where B2 lost a block of it, and discarded where the channel's records have
changed. -/
def State.loadProfile (s : State) (k : Nat) : State :=
  let a := profB2 k
  let s := if (s.boot.cold ∨ bit s.boot.profUe k) ∧ s.mrN (profMram k + 0x810) 1 = 0xA5 ∧ s.mramBad (profMram k) 0x811 = false then
      { s with sram := mput 0 s.sram a (mslice 0 s.mram (profMram k) 0x810) }
    else s
  if s.rdN (a + 0x80C) 1 % 2 = 0 then s
  else if mslice 0 s.sram (a + 0x800) 4 = s.geoHash k then
    let s := s.fset Reg.PROF_STAT_LEARNED (putBit (s.fget Reg.PROF_STAT_LEARNED) k true)
    s.fset Reg.PROF_STAT_DRIFT (putBit (s.fget Reg.PROF_STAT_DRIFT) k (bit (s.rdN (a + 0x80C) 1) 1))
  else ((s.wrN (a + 0x80C) 1 0).mwN (profMram k + 0x810) 1 0).record cPROFILE_DISCARDED (leBytes 1 k)

/-- R244, R249. The profiles of the channels in use; one that has none is recorded. -/
def State.loadProfiles (s : State) : State :=
  s.each ((List.range 12).filter fun k => s.topoN 0x0301 k 0 1 0 ≠ 0) fun s k =>
    let s := s.loadProfile k
    if bit (s.fget Reg.PROF_STAT_LEARNED) k || (s.topo? 0x0406 k).isSome then s else s.record cNO_PROFILE (leBytes 1 k)

/-- R450, R100. The power-cycle count: a cold boot adds one, written to the system headers at once. -/
def State.countCycle (s : State) : State :=
  let s := s.cairnLoad
  if !s.boot.cold then s
  else
    let n := min (s.fget Reg.PWR_CYC_COUNT + 1) (2 ^ 24 - 1)
    (((s.fset Reg.PWR_CYC_COUNT n).fput Reg.PWR_CYC_PC_SAT (decide (n = 2 ^ 24 - 1)))).mwN (hdrBase + 0x808) 3 n

/-- Boot step 10 (R101, R102, R121, R167, R176, R186, R450, R462). -/
def State.settleMram (s : State) (img : Image) : State :=
  let pc := s.precCase img
  let prob : List SetEntry := match s.slotIn slProbation with | some i => s.slotSet i | none => []
  let s := (s.fset Reg.PREC_STAT_PREC_CASE pc).record cPREC_CASE (leBytes 1 pc)
  let s := if pc = 1 then s.settleSlots else s.dropSlots
  let s := match s.slotIn slProbation with | some i => s.setSlot i slInactive | none => s
  let s := if pc = 2 then s.each [0, 1, 2, 3] fun s i => s.mwN (ckHead i + 16380) 4 0 else s
  let s := s.placePrograms.placeVerified
  let s := (s.fillArea 2 qBase 0x10000).fillArea 7 kBase 0x10000
  let ck := s.ckNewest
  let s := match ck with
    | some i =>
      let s := (s.fset Reg.CKPT_STAT_LAST_SLOT i).fset Reg.CKPT_SEQ_SEQ (s.mrN (ckHead i + 4) 4)
      (s.fset Reg.CKPT_GRID_LO_GC_LO (s.mrN (ckHead i + 8) 4)).fset Reg.CKPT_GRID_HI_GC_HI (s.mrN (ckHead i + 12) 4)
    | none => s
  let kept := s.parkIntact
  let s :=
    if kept then s
    else
      match ck with
      | some i =>
        let s := ({ s with sram := mput 0 s.sram 0x20000 (mslice 0 s.mram (ckData i) 0x40000) }).fon Reg.PREC_STAT_CKPT_RESTORED
        if pc = 1 then s.carryBack prob (s.mrN (ckHead i + 32) 4) else s
      | none => s.dataInit
  let s := if pc = 1 then s.applyOverlay (ck.map fun i => s.mrN (ckHead i + 28) 4) kept else s.fset Reg.PARAM_GEN_GEN 1
  let s := (s.mwN ovlHead 8 img.lineage).mwN (ovlHead + 8) 4 img.gen
  let s := s.unseed.restorePubs ck
  let q := mslice 0 s.sram qBase 0x10000
  let s := { s with eng := { s.eng with
    qOut := mput 0 [] 0 q, qStaged := mput 0 [] 0 q, dirty := List.replicate 4 allBlocks } }
  let s := s.loadProfiles
  let s := s.each (List.range 12) fun s k => s.loadLedger k
  let s := s.countCycle.slotRegs
  s.cairnAll s.cairn.queue.length

/-! ### Protection (step 11: R92, R104, R105) -/

/-- Writes one window. -/
def State.setWin (s : State) (q w : Nat) (e : Nat × Nat × Nat) : State :=
  ((s.fset (Reg.WIN_BASE_BASE q w) e.1).fset (Reg.WIN_LIMIT_LIMIT q w) e.2.1).fset (Reg.WIN_ATTR_ATTR q w) e.2.2

/-- R104, R105. The windows of the verified image, or the one window without; then the lock, and the debug accesses that waited. -/
def State.lockWindows (s : State) : State :=
  let s := match s.boot.image with
    | some i =>
      let s := (i.prot.zip (List.range 24)).foldl (fun (s : State) (p : (Nat × Nat × Nat) × Nat) => s.setWin (p.2 / 8) (p.2 % 8) p.1) s
      if s.duplexCfg then s.setWin 3 0 (0x10A00000, 0x10AFFFFF, 6) else s
    | none => s.setWin 1 0 (0x40000000, 0x40000FFF, 5)
  (s.fon Reg.PROT_STAT_PROT_LOCK).dbgWaited

/-- R92. The revoke fuses below `KEY_IDX`; one in `lost` was cut short by a loss of power and read intact. -/
def State.revokeKeys (s : State) (img : Image) (lost : Nat) : State :=
  if !bit img.hflags 0 then s
  else
    s.each ((List.range img.keyIdx).filter fun k => !(s.board.fuses.keyHash.getD k []).isEmpty && !bit s.board.fuses.revoked k && !bit lost k) fun s k =>
      let f := s.board.fuses
      let s := { s with board := { s.board with fuses := { f with revoked := putBit f.revoked k true } } }
      (s.fset Reg.FUSE_STAT_KEY_REVOKED s.board.fuses.revoked).record cKEY_REVOKED (leBytes 1 k)

/-! ### The steps (R97, R100) -/

/-- R100. A step fails: its code and detail, the windows and their lock, SAFE, and the queued records. -/
def State.bootFail (s : State) (step : Nat) (e : BootFail) : State :=
  let s := ((s.fset Reg.BOOT_STAT_FAIL_CODE e.1).fset Reg.BOOT_STAT_FAIL_STEP step).fset Reg.BOOT_DETAIL_DETAIL e.2
  let s := s.progRecord e
  let s := s.flashClose.lockWindows.regrid.enterSafe 0x01 e.1
  let s := if step < 10 then s.cairnLoad else s
  s.cairnAll s.cairn.queue.length

/-- R97, R429. The ECC read-scrub of B0 and B2 at a warm step 3: each word that cannot be read is reported and dealt with. -/
def State.scrubKept (s : State) : State :=
  (s.mem.bad.filter keepBank).foldl
    (fun s a => (s.eccUe a).ueAct a) s

/-- R432. Zero-fill and MBIST of step 3: all banks at a cold boot, else B1, B3 and B4, with the read-scrub of B0 and B2. -/
def State.fillBanks (s : State) (fail : Nat) : State × Option BootFail :=
  let tested := if s.boot.cold then 31 else 26
  let s := if s.boot.cold then s else s.scrubKept
  let m := if s.boot.cold then [] else mclear 0x200000 0x600000 (mclear 0xA00000 0x200000 s.sram)
  let s := { s with sram := m, mem := { s.mem with
    badB4 := [], bad := s.mem.bad.filter fun a => decide (0x10000000 ≤ a), fillAt := s.time.mono } }
  let bad := fail &&& tested
  let s := (s.fset Reg.MEM_STAT_FILL_BUSY tested).fset Reg.MEM_STAT_MBIST_PASS (tested - bad)
  (s, ((List.range 5).find? fun b => bit bad b).map fun b => (fMbist, b))

/-- R55. Lanes that count as failed: those that failed LBIST, and after a PARK wake those retired before. -/
def State.lanesBad (s : State) (fail : Nat) : Nat := fail ||| (7 - s.fget Reg.VOTE_STAT_LIVE)

/-- Table 2.3, R55, R203. The lane state at the end of BOOT. -/
def State.setLanes (s : State) : State :=
  let s := if s.topoN 0x0C01 0 0 1 0 = 2 then s.setLaneState laneUnbound else s
  (s.each ([0, 1, 2].filter fun l => bit s.boot.lbist l && bit s.liveLanes l) fun s l => s.retireLane l).syncVoting

/-- R24, R48. Step 8: every fitted die is measured and of the type of its slot. -/
def State.enumerate (s : State) (typeBad : Nat) : Option BootFail :=
  (satSlots.filter fun n => s.fitted n && s.linkIsUp n).findSome? fun n =>
    if (s.link n).failSince.isSome then some (fLinkBad, n) else if bit typeBad n then some (fSlotType, n) else none

/-- R24. Step 8 still waits for the link of a declared slot. -/
def State.enumWaits (s : State) : Bool :=
  satSlots.any fun n => s.fitted n && s.declared n && (!s.linkIsUp n || (s.link n).measuring)

/-- The work of one step of Table 3.5, and its failure. -/
def State.bootWork (s : State) (o : BootObs) : State × Option BootFail :=
  match s.boot.step with
  | 1 =>
    let s := ((s.fset Reg.CLK_STAT_PLL_LOCK 0xFF).fon Reg.CLK_STAT_REFCLK_OK).fput Reg.CLK_STAT_XTAL_OK !(s.fbit Reg.CLK_STAT_ON_RC)
    (s.fput Reg.BOOT_STAT_COLD s.boot.cold, none)
  | 2 => (s, if !o.romOk then some (fRom, 0) else if s.fget Reg.BOOT_STAT_BOOT_LOOPS = 3 then some (fLoop, 0) else none)
  | 3 => s.fillBanks o.mbistFail.toNat
  | 4 =>
    let bad := s.lanesBad o.lbistFail.toNat
    ({ s with boot := { s.boot with lbist := o.lbistFail.toNat } },
      if 2 ≤ (([0, 1, 2] : List Nat).filter fun l => bit bad l).length then some (fLbist, bad) else none)
  | 5 => (s.flashOpen, none)
  | 6 =>
    let (s, e) := s.selectImage
    ({ s with dup := { s.dup with ruleAt := s.time.mono } }, e)
  | 7 =>
    let (s, e) := s.readImage
    ({ s with boot := { s.boot with enumAt := s.time.mono } }, e)
  | 8 => (s, s.enumerate o.slotTypeBad.toNat)
  | 9 => s.configDies o.configBad.toNat (satSlots.filter fun n => s.fitted n && s.declared n && s.linkIsUp n)
  | 10 => (match s.boot.image with | some i => s.settleMram i | none => s, none)
  | 11 => (match s.boot.image with | some i => s.lockWindows.revokeKeys i o.revokeLost.toNat | none => s, none)
  | 12 => (s.flashClose.setLanes.mdioStart, none)
  | _ => (s, none)

/-- R97, R51. The end of step 12: UNBOUND with safety-related functions stops in SAFE; otherwise BOOT waits for the first SAMPLE. -/
def State.bootDone (s : State) : State :=
  let s := s.fset Reg.BOOT_TIME_BOOT_MS (clip 16 (s.boot.us / 1000))
  if s.laneState = laneUnbound ∧ s.safetyDeclared then s.regrid.enterSafe 0x02 0
  else ({ s with boot := { s.boot with step := 13 } }).regrid

/-- BOOT_STEP (R97): the step in progress has completed, and the next one starts. -/
def execBootStep (o : BootObs) (s : State) : Out :=
  .next (
    if s.inReset || s.mode != mBoot || s.boot.step == 0 || decide (12 < s.boot.step) || (s.boot.step == 8 && s.enumWaits) then s
    else
      let s := (s.keepReady).advance (o.us * 1000)
      let s := { s with boot := { s.boot with us := s.boot.us + o.us } }
      let n := s.boot.step
      match s.bootWork o with
      | (s, some e) => s.bootFail n e
      | (s, none) => if n = 12 then s.bootDone else { s with boot := { s.boot with step := n + 1 } })

/-- ENUM_LINK_TIMEOUT (R24): 40 ms after the start of step 8. -/
def execEnumLinkTimeout (n : Slot) (s : State) : Out :=
  .next (
    if s.inReset || s.mode != mBoot || s.boot.step != 8 || n.val == 0 || !s.fitted n || !s.declared n || s.linkIsUp n then s
    else (s.toMono (s.boot.enumAt + 40000000)).bootFail 8 (fLinkBad, n))

/-! ### The first SAMPLE (R51, R67, R96, R126, R413) -/

/-- R67. The outputs found are adopted: into the committed image, and into the Q bytes that a task owns. The door and step states of each
door die are read into its input block. -/
def State.adopt (s : State) : State :=
  let dies := satSlots.filter fun n => s.admitted n
  let s := s.each (dies.filter fun n => n ≤ 3) fun s n => s.setLink n { s.link n with lastOk := s.doorInput (n - 1) }
  let outs := dies.foldl (fun m n => mset [] m n (s.sat n).applied) []
  let s := s.each dies fun s n => s.setLink n { s.link n with sentOut := (s.sat n).applied }
  let s := (s.entries 0x0205 0 8).foldl (fun s e =>
    (List.range (leAt e 2 2)).foldl (fun s i =>
      let o := leAt e 0 2 + i
      if s.admitted (leAt e 4 1) && (s.qOwner o).isSome then
        let v := mget 0 (s.sat (leAt e 4 1)).applied (leAt e 6 2 + i)
        let s := s.wr (qBase + o) v
        { s with eng := { s.eng with qOut := mset 0 s.eng.qOut o v, qStaged := mset 0 s.eng.qStaged o v } }
      else s) s) s
  { s with cimg := { s.cimg with outs, q := s.eng.qOut }, cnext := { s.cnext with outs, q := s.eng.qOut } }

/-- R126. After a cold boot that restored a checkpoint, running timers lose the time without power. -/
def State.shiftTimers (s : State) (d : Int) : State :=
  (List.range 2048).foldl (fun (s : State) i =>
    let a := tBase + 16 * i
    if bit (s.rd (a + 14)).toNat 2 then s.wrN (a + 8) 6 (unsgn 48 (Int.ofNat (s.rdN (a + 8) 6) + d)) else s) s

/-- R51, R67, R413. BOOT ends at the first SAMPLE: ACTIVE with the outputs adopted, or STANDBY with the dies brought to all off. -/
def State.bootEnd (s : State) : State :=
  let g : Nat := s.fget Reg.CKPT_GRID_LO_GC_LO + s.fget Reg.CKPT_GRID_HI_GC_HI * 2 ^ 32
  let s := if s.boot.cold ∧ s.fbit Reg.PREC_STAT_CKPT_RESTORED then s.shiftTimers ((s.time.gs : Int) - g) else s
  let resume := (([1, 2, 3] : List Nat).filter fun n => s.admitted n).foldl (fun m n => putBit m n true) 0
  let s := { s with boot := { s.boot with
    step := 0, firstSample := s.time.mono, firstScan := s.taskMask, resume := if s.duplexCfg then 0 else resume } }
  let s := if s.ilOn then s.modIl fun i => { i with evalAt := some s.time.dev } else s
  let s := ((s.fon Reg.BOOT_STAT_DONE).fset Reg.BOOT_STAT_BOOT_LOOPS 0).fset Reg.PARK_MARK_MARK 0
  if s.duplexCfg then
    let s := (s.setMode mStandby trBootEnd).fset Reg.DUP_STAT_CLAIM_GATED 0
    s.each (satSlots.filter fun n => s.admitted n) fun s n => s.resyncTo n []
  else
    let s := s.adopt.setMode mActive trBootEnd
    s.each (satSlots.filter fun n => s.admitted n) fun s n => s.standBy n false

/-- SAMPLE_POINT (R26); the first one ends BOOT. -/
def execSamplePoint (s : State) : Out :=
  .next (
    if s.inReset then s
    else if s.mode = mBoot ∧ s.boot.step = 13 then ((s.emitSample).toDev (samplePt s.time.gs)).bootEnd.samplePoint
    else s.samplePoint)

/-- SHADOW_COPY (R96): within 10 s of the first SAMPLE; one cut short leaves the shadow invalid. DEDUCED: what it copies is the container
as the ROM read it, since the module does not access the flash again after BOOT (R82). -/
def execShadowCopy (complete : Bool) (s : State) : Out :=
  .next (
    match s.boot.image with
    | some i =>
      if s.boot.firstSample == 0 || s.mode == mPark || s.fbit Reg.BOOT_STAT_FROM_SHADOW ||
          (s.shadowValid && s.shadowBytes 32 32 == i.hash) then s
      else if complete then
        let s := (s.mwN hdrBase 1 0).mwBytes 0x10600000 s.boot.cont
        ((s.mwN hdrBase 1 0xA5).fon Reg.SHADOW_STAT_VALID).fset Reg.SHADOW_STAT_WRITING 0
      else ((s.mwN hdrBase 1 0).fset Reg.SHADOW_STAT_VALID 0).fon Reg.SHADOW_STAT_WRITING
    | none => s)

end Sys2Proof.Machine
end

