-- ==== Sys2Proof/Machine/Test.lean ====
section
/-! DEFINITION. The test access port (R491 to R493, R206): the instructions of Table 17.11. -/

namespace Sys2Proof.Machine

/-- R492. Instructions that hold the control die in reset: EXTEST, CLAMP, HIGHZ, MBIST_RUN, LBIST_RUN, SCAN_TEST. -/
def testIr (ir : Nat) : Bool := [0x00, 0x03, 0x04, 0x40, 0x41, 0x50].contains ir

/-- R62, R491, R492. A device reset with cause `JTAG`; the mode before a reset that is held already stands. -/
def State.jtagReset (s : State) : State :=
  s.deviceReset 6 (if s.inReset then s.fget Reg.RESET_CAUSE_PREV_MODE else s.mode)

/-- R491, R492. Selects instruction `ir`, whose data register holds `tdo`. A test instruction holds the control die in reset, and
another one selected afterwards keeps it held (DEDUCED); any other instruction then causes a device reset. -/
def State.select (s : State) (ir : Nat) (tdo : List Byte) : State :=
  let held := s.tap.held
  if testIr ir then
    let s := if held then s else s.jtagReset
    { s with tap := { s.tap with ir, tdo, held := true } }
  else
    let s := if held then ({ s.jtagReset with tap := { s.jtagReset.tap with held := false } }) else s
    { s with tap := { s.tap with ir, tdo } }

/-- R491. An instruction that the part does not have acts as BYPASS. -/
def State.bypassed (s : State) : State := s.select 0xFF [0]

/-- R491. The identification register. -/
def State.idBytes (s : State) : List Byte := leBytes 4 (s.fget Reg.JTAG_ID_IDCODE)

/-- EXTEST (R492): the cells drive, the lands are captured. -/
def execExtest (cells capture : List Byte) (s : State) : Out :=
  let s := s.select 0x00 capture
  .next { s with tap := { s.tap with cells } }

/-- SAMPLE_PRELOAD (R491): the lands are captured and the cells are loaded. -/
def execSamplePreload (cells capture : List Byte) (s : State) : Out :=
  let s := s.select 0x01 capture
  .next { s with tap := { s.tap with cells } }

/-- IDCODE (R491). -/
def execIdcode (s : State) : Out :=
  let s := s.select 0x02 []
  .next { s with tap := { s.tap with tdo := s.idBytes } }

/-- CLAMP (R492): the preloaded values stand; the bypass register is selected. -/
def execClamp (s : State) : Out := .next (s.select 0x03 [0])

/-- HIGHZ (R492). -/
def execHighz (s : State) : Out := .next (s.select 0x04 [0])

/-- SYSRESET (R62). A test instruction left by it is one device reset. -/
def execSysreset (s : State) : Out :=
  let s := if s.tap.held then s else s.jtagReset
  .next (s.select 0x10 [0])

/-- R491. The debug instruction `ir`, not on a part with suffix L; DBG_CMD only after an attach. -/
def State.debug (s : State) (attach : Bool) (f : State → State) : Out :=
  if s.board.fuses.sufL then .next s.bypassed
  else
    let s := s.select (if attach then 0x20 else 0x21) []
    if s.inReset || !(attach || s.fbit Reg.DEBUG_STAT_ATTACHED) then .next (s.select 0xFF [0]) else .next (f s)

/-- DBG_ATTACH (R206). -/
def execDbgAttach (s : State) : Out := s.debug true State.dbgAttach

/-- DBG_HALT (R206). -/
def execDbgHalt (s : State) : Out := s.debug false State.dbgHaltNow

/-- DBG_STEP (R206). -/
def execDbgStep (s : State) : Out := s.debug false State.dbgStepNow

/-- DBG_RESUME (R206). -/
def execDbgResume (s : State) : Out := s.debug false State.dbgResumeNow

/-- DBG_REG_ACCESS (R206). -/
def execDbgRegAccess (r : DbgReg) (wr : Option Word) (s : State) : Out := s.debug false fun s => s.dbgReg r wr

/-- DBG_MEM_ACCESS (R206). -/
def execDbgMemAccess (addr : Word) (wr : Option Word) (s : State) : Out := s.debug false fun s => s.dbgMem addr.toNat wr

/-- DBG_BUFFER_READ (R206). -/
def execDbgBufferRead (i : Fin 64) (s : State) : Out := s.debug false fun s => s.dbgEntry i

/-- Table 17.12. What FUSE_READ shows, field after field (the order of the bytes is a DESIGN CHOICE); of a secret only its programmed bit. -/
def Fuses.shown (f : Fuses) : List Byte :=
  f.trims ++ f.spares.map (BitVec.ofNat 8) ++ f.serial ++ f.macBase ++ leBytes 1 (b2n f.sufL + 2 * b2n f.prodLock) ++
  ((List.range 4).map fun i =>
    let h := f.keyHash.getD i []
    (if h.isEmpty then List.replicate 32 0 else h) ++ leBytes 1 (b2n (!h.isEmpty) + 2 * b2n (bit f.revoked i))).flatten ++
  leBytes 1 (b2n (!(f.secret.getD 0 []).isEmpty) + 2 * b2n (!(f.secret.getD 1 []).isEmpty))

/-- FUSE_READ (R491). -/
def execFuseRead (s : State) : Out := .next (s.select 0x30 s.board.fuses.shown)

/-- A value of 32 bytes. -/
def bytes32 (v : List Byte) : List Byte := (v ++ List.replicate 32 0).take 32

/-- FUSE_PROG (R493): the value, its programmed bit, and the read-back that verifies it. -/
def execFuseProg (field : Fin 6) (value : List Byte) (readBack vlOk : Bool) (s : State) : Out :=
  let s := s.select 0x31 []
  let f := s.board.fuses
  let i := field.val
  let blank := if i < 4 then (f.keyHash.getD i []).isEmpty else (f.secret.getD (i - 4) []).isEmpty
  if s.inReset then .next s
  else if s.mode ≠ mSafe ∨ s.fget Reg.SAFE_REASON_REASON ≠ 0x01 ∨ !vlOk ∨ !blank then .next (s.fset Reg.FUSE_STAT_FUSE_RESULT 2)
  else
    let f :=
      if i < 4 then
        { f with keyHash := f.keyHash.set i (bytes32 value), revoked := if readBack then f.revoked else putBit f.revoked i true }
      else { f with secret := f.secret.set (i - 4) (if readBack then bytes32 value else [0]) }
    let s := { s with board := { s.board with fuses := f } }
    .next (({ s with regs := boardRegs s.board s.regs }).fset Reg.FUSE_STAT_FUSE_RESULT (if readBack then 1 else 3))

/-- MBIST_RUN (R491, R492): the banks that failed are shifted out. -/
def execMbistRun (fail : BitVec 5) (s : State) : Out := .next (s.select 0x40 (leBytes 1 fail.toNat))

/-- LBIST_RUN (R491, R492): the lanes that failed are shifted out. -/
def execLbistRun (fail : BitVec 3) (s : State) : Out := .next (s.select 0x41 (leBytes 1 fail.toNat))

/-- SCAN_TEST (R491, R492): until `PROD_LOCK` is blown. -/
def execScanTest (s : State) : Out := .next (if s.board.fuses.prodLock then s.bypassed else s.select 0x50 [])

/-- BYPASS (R491). -/
def execBypass (s : State) : Out := .next s.bypassed

/-- TEST_LOGIC_RESET (R491, R492). -/
def execTestLogicReset (s : State) : Out :=
  let s := s.select 0x02 []
  .next { s with tap := { s.tap with tdo := s.idBytes } }

end Sys2Proof.Machine
end

