-- ==== Sys2Proof/Machine/Claim.lean ====
section
/-! DEFINITION. Seats, claims, takeover and release (R392 to R397, R411 to R415). -/

namespace Sys2Proof.Machine

/-! ### `PEER_RELEASE_IN` (R414, R292, R324) -/

/-- PEER_RELEASE_IN (R414, R417): the load channels and field outputs are released, the claim is gated, and the control die is held in
reset; during a power-fail save the reset waits for its end. -/
def execPeerReleaseIn (s : State) : Out :=
  .next (
    if s.fbit Reg.DUP_STAT_REL_IN then s
    else
      let s := (s.fon Reg.DUP_STAT_REL_IN).fon Reg.DUP_STAT_CLAIM_GATED
      let s := s.each (([0, 1] : List Nat).filter fun n => s.fitted (4 + n)) fun s n => s.assertLswRel n
      let s := s.each (([0, 1] : List Nat).filter fun n => s.fitted (6 + n)) fun s n => s.assertFioRel n
      if s.power.crossAt.isSome && !s.power.hold then s
      else if s.inReset then { s with power := { s.power with peerHold := true } }
      else ({ s with power := { s.power with peerHold := true } }).deviceReset 4)

/-- PEER_RELEASE_IN_NEGATE (R292, R324, R414): the held reset ends; the outputs wait for a COMMIT or RESYNC. -/
def execPeerReleaseInNegate (s : State) : Out :=
  .next (
    if !s.fbit Reg.DUP_STAT_REL_IN then s
    else
      let s := s.fset Reg.DUP_STAT_REL_IN 0
      let s := s.each (([0, 1] : List Nat).filter fun n => s.fitted (4 + n)) fun s n => s.negateLswRel n
      let s := s.each (([0, 1] : List Nat).filter fun n => s.fitted (6 + n)) fun s n => s.negateFioRel n
      if s.power.peerHold then { s with power := { s.power with peerHold := false, wdtAt := s.time.mono } } else s)

/-! ### `CLAIM_IN` -/

/-- R392. `CLAIM_IN` at the land. -/
def State.setClaimIn (s : State) (b : Bool) : State :=
  let s := s.fput Reg.MODE_STAT_CLAIM_IN b
  if s.board.seatB then s.fput Reg.DUP_STAT_CLAIM_A_LAND b else s.fput Reg.DUP_STAT_CLAIM_B_LAND b

/-- R394. `CLAIM_IN` reads absent. No command reports its fall: where a rule on its absence acts while it still reads asserted, the fall
is taken to lie at this instant (DESIGN CHOICE). -/
def State.claimInFall (s : State) : State :=
  if s.dup.claimIn then ({ s with dup := { s.dup with claimIn := false, absentAt := s.time.mono } }).setClaimIn false else s

/-- R393. The instant since which the absence of `CLAIM_IN` counts for the takeover rule (`t`) or for the boot rule. -/
def State.absentFor (s : State) (t : Bool) : Nat :=
  let a := if t then s.dup.absentAt else max s.dup.absentAt s.dup.ruleAt
  match s.dup.retry with
  | some (_, r) => max a r
  | none => a

/-- R393. An abandoned claim leaves only its own rule. -/
def State.ruleOpen (s : State) (t : Bool) : Bool :=
  match s.dup.retry with
  | some (r, _) => r == t
  | none => true

/-- R394, R395, R411. A STANDBY module may assert its claim under the rule `t`. -/
def State.mayClaim (s : State) (t : Bool) : Bool :=
  s.mode == mStandby && s.duplexCfg && s.dup.claim.isNone && !s.fbit Reg.DUP_STAT_CLAIM_GATED && s.power.crossAt.isNone && s.ruleOpen t

/-- R185, R393, R394. The claim line is asserted; an armed change is aborted. -/
def State.claimStart (s : State) (t : Bool) : State :=
  let s := (s.setClaim true).changeAbort 1
  { s with dup := { s.dup with claim := some (s.time.mono, t), prep := none, lostAt := s.dup.absentAt - 1000000 } }

/-- BOOT_CLAIM (R395): `CLAIM_IN` absent for 500 ms, counted from the end of boot step 6. -/
def execBootClaim (s : State) : Out :=
  .next (
    if !s.mayClaim false then s
    else
      let s := s.claimInFall
      (s.toMono (s.absentFor false + 500000000)).claimStart false)

/-- TAKEOVER (R411): `CLAIM_IN` absent for 500 µs, the peer having been present or having claimed. -/
def execTakeover (s : State) : Out :=
  .next (
    if !s.mayClaim true || !(s.dup.peerSeen || s.dup.claimIn) then s
    else
      let s := ({ s with dup := { s.dup with peerSeen := true } }).claimInFall
      (s.toMono (s.absentFor true + 500000)).claimStart true)

/-- CLAIM_IN_ASSERT (R396, R397, R411): it restarts every count. During the settle time of a takeover the standby withdraws; of two
modules that claim at boot, seat A goes on. An active seat A keeps its claim and records the conflict. -/
def execClaimInAssert (s : State) : Out :=
  .next (
    if s.dup.claimIn then s
    else
      let s := ({ s with dup := { s.dup with claimIn := true, claimInAt := s.time.mono, peerSeen := true } }).setClaimIn true
      match s.dup.claim with
      | some (_, took) => if s.mode = mStandby ∧ s.dup.prep.isNone ∧ (took ∨ s.board.seatB) then s.setClaim false else s
      | none =>
        if s.mode == mActive && !s.board.seatB then (s.fon Reg.DUP_FLAGS_CLAIM_CONFLICT_SEEN).record cCLAIM_CONFLICT_SEEN [] else s)

/-- CLAIM_CONFLICT (R396, R397): seat B has read `CLAIM_A` asserted for 1 ms. A claim in progress is withdrawn; a `CLAIM_B` land that
still reads asserted 1 ms later stops the module; an active one hands over. -/
def execClaimConflict (stuck : Bool) (s : State) : Out :=
  .next (
    if !s.board.seatB || !s.dup.claimIn || s.inReset then s
    else
      let s := s.toMono (s.dup.claimInAt + 1000000)
      if s.driving then s.handover 5
      else if s.mode = mStandby then
        let s := if s.dup.claim.isSome then s.setClaim false else s
        if stuck then (s.advance 1000000).enterSafe 0x0B 0 else s
      else s)

/-- CLAIM_ABANDONED (R393): 5 ms after the assertion, without a claim commit. -/
def execClaimAbandoned (s : State) : Out :=
  .next (
    match s.dup.claim with
    | some (t, took) =>
      if s.mode ≠ mStandby ∨ s.modeReq.isSome then s
      else
        let s := ((s.toMono (t + 5000000)).setClaim false).record cCLAIM_ABANDONED []
        { s with dup := { s.dup with retry := some (took, s.time.mono) } }
    | none => s)

/-- CLAIM_LAPSE (R393): 1,000 µs without a COMMIT. -/
def execClaimLapse (s : State) : Out :=
  .next (if s.driving && s.dup.claimOut then (s.toMono (s.dup.commitAt + 1000000)).setClaim false else s)

/-- PEER_RELEASE_END (R414). -/
def execPeerReleaseEnd (s : State) : Out :=
  .next (
    match s.dup.relAt with
    | some t =>
      let s := s.toMono (t + s.topoN 0x0901 0 2 2 20 * 1000000)
      ({ s with dup := { s.dup with relAt := none } }).fset Reg.DUP_STAT_REL_OUT 0
    | none => s)

/-- CLAIM_GATE_CLEAR (R415): `CLAIM_IN` absent for 500 ms in the always-on domain. -/
def execClaimGateClear (s : State) : Out :=
  .next (
    if !s.fbit Reg.DUP_STAT_CLAIM_GATED then s
    else
      let s := s.claimInFall
      (s.toMono (s.dup.absentAt + 500000000)).fset Reg.DUP_STAT_CLAIM_GATED 0)

/-! ### Preparation of the claim commit (Table 14.8) -/

/-- R411, R412. The belay set may be taken over: not stale, young enough, of the same image. -/
def State.setFresh (s : State) : Bool :=
  !s.dup.stale && s.fget Reg.BELAY_GEN_GEN != 0 && decide (s.belayAge ≤ 1000 * s.topoN 0x0901 0 4 2 100) && s.fbit Reg.DUP_STAT_IMAGE_SAME

/-- Table 14.3. The output set of slot `n` in the belay set. -/
def State.setOut (s : State) (n : Nat) : Bytes := mput 0 [] 0 (mslice 0 s.dup.set (64 + outPos n) (outLen n))

/-- R412. The committed values of the bound Q bytes are those of the belay set. -/
def State.takeOuts (s : State) : State :=
  (s.entries 0x0205 0 8).foldl (fun s e =>
    let v := mslice 0 (s.setOut (leAt e 4 1)) (leAt e 6 2) (leAt e 2 2)
    { s with eng := { s.eng with qOut := mput 0 s.eng.qOut (leAt e 0 2) v, qStaged := mput 0 s.eng.qStaged (leAt e 0 2) v } }) s

/-- R238. The writes of `CH_SHADOW0` and `CH_SHADOW1` of local channel `o` (their common offset) that still wait behind the access
outstanding on the link of slot `n` are overtaken by newer ones. -/
def State.dropShadow (s : State) (n o : Nat) : State :=
  let l := s.link n
  let held := if l.regAt.isSome then 1 else 0
  let stale (r : RegAcc) : Bool := r.write && (r.off == o + 0x18 || r.off == o + 0x1C)
  s.setLink n { l with regQ := l.regQ.take held ++ (l.regQ.drop held).filter fun r => !stale r }

/-- R238. `CH_SHADOW0` and `CH_SHADOW1` of channel `k` from the door part. -/
def State.sendShadow (s : State) (k : Nat) : State :=
  let n := chSlot k
  if s.ilRole k = 0 || !s.linkIsUp n then s
  else
    let o := 0x100 + 0x40 * (k % 4)
    let s := s.dropShadow n o
    let put (s : State) (off at_ : Nat) : State := s.regSubmit n { req := 4, write := true, off, data := leNat (mslice 0 s.dup.set at_ 4) }
    put (put s (o + 0x18) (320 + 32 * k)) (o + 0x1C) (324 + 32 * k)

/-- R375, R412. The counters of the published telegrams: mirrored and moved on by ⌈T_TO / period⌉ + 1, or its own moved on by 65,536 with
`INIT` in the next 3 publications. -/
def State.pubsTaken (s : State) (mirrored : Bool) : State :=
  let tels := s.telsOf 1
  let tto := 500 * s.topoN 0x0202 (s.fastTask.getD 0) 4 2 0 + 5000
  (tels.zip (List.range tels.length)).foldl (fun (s : State) (p : Nat × Nat) =>
    let x := s.tel p.1
    if mirrored then
      let per := 1000 * s.topoN 0x0802 p.1 16 2 1
      let adv := (tto + per - 1) / per + 1
      let v (o : Nat) : Nat := leNat (mslice 0 s.dup.set (1088 + 8 * p.2 + o) 4) + adv
      (s.fset (Reg.TEL_SEQ_SEQ p.1) (v 0)).setTel p.1 { x with ssc := v 4 % 2 ^ 32, initLeft := 0 }
    else (s.fset (Reg.TEL_SEQ_SEQ p.1) (s.fget (Reg.TEL_SEQ_SEQ p.1) + 65536)).setTel p.1 { x with ssc := (x.ssc + 65536) % 2 ^ 32, initLeft := 3 }) s

/-- R460. The open ledger record of door `k` in the belay set; 0 throughout where none is open. -/
def State.setLedger (s : State) (k : Nat) : Option LRec :=
  let b := mslice 0 s.dup.set (704 + 32 * k) 32
  let ms (o : Nat) : Nat := 1000000 * leAt b o 2
  let cs (o : Nat) : Nat := 10000000 * leAt b o 2
  if leAt b 0 4 = 0 then none
  else some {
    isOpen := true, state := leNat (mslice 0 s.dup.set (320 + 32 * k) 1), at_ := s.localTime (chSlot k) % 2 ^ 40, opSec := leAt b 4 4
    tWait := cs 8, tUnlock := ms 10, tOpen := ms 12, tDwell := cs 14, tClose := ms 16, tLock := ms 18, fPeak := leAt b 20 2
    obst := leAt b 22 1, flags := leAt b 23 1 ||| 16, energy := leAt b 24 2, vdcMin := leAt b 26 2, stepAct := leAt b 28 1 }

/-- R412. The open cycle-ledger records go on from the belay set. -/
def State.takeLedger (s : State) : State :=
  s.each (List.range 12) fun s k => match s.setLedger k with | some r => s.setRec k r | none => s

/-- CLAIM_SETTLE (R395, R411, Table 14.8): 250 µs after the assertion, with `CLAIM_IN` still absent. The dies are resynchronised with the
belay set, with the own latest intended sets, or at a boot claim with the outputs adopted (R67). A RESYNC that could not be
acknowledged before the next COMMIT waits for that commit point. -/
def execClaimSettle (s : State) : Out :=
  .next (
    match s.dup.claim with
    | some (t, took) =>
      if s.mode ≠ mStandby ∨ s.dup.prep.isSome ∨ (s.dup.claimIn ∧ (took ∨ s.board.seatB)) then s
      else
        let s := s.toMono (t + 250000)
        let s := if s.stageFits 66 then s else s.commitPoint
        let dies := satSlots.filter fun n => s.admitted n
        let use := if took then s.setFresh else s.fget Reg.BELAY_GEN_GEN != 0
        let own := took && !use
        let s := if took ∧ use then (s.applyRanges).takeLedger else s
        let s := if use then (s.takeOuts.pubsTaken true).each (List.range 12) State.sendShadow else s
        let s := if own then
            let s := ((s.fon Reg.DUP_FLAGS_TAKEOVER_OWN).record cTAKEOVER_OWN []).pubsTaken false
            { s with boot := { s.boot with resume := dies.foldl (fun m n => if n ≤ 3 then putBit m n true else m) 0 } }
          else s
        let s := if use ∨ own then s
          else
            let s := s.adopt
            { s with boot := { s.boot with
                firstScan := s.taskMask, resume := dies.foldl (fun m n => if n ≤ 3 then putBit m n true else m) 0 } }
        let s := s.each dies fun s n => s.resyncTo n (if own then s.dieOut n else s.outAgain n (if use then s.setOut n else (s.sat n).applied))
        { s with dup := { s.dup with prep := some (dies.map fun n => 2 ^ n).sum, retry := none } }
    | none => s)

end Sys2Proof.Machine
end

