-- ==== Sys2Proof/Machine/Duplex.lean ====
section
/-! DEFINITION. The Rope link (R398 to R400), time, images and changes of the pair (R401, R402, R184), the belay set at the standby
(R403 to R407), output comparison (R408, R409), health and the standby self-test (R419 to R421), and PARK named by the peer (R69). -/

namespace Sys2Proof.Machine

/-! ### The link (R398 to R400) -/

/-- R489, R490. A disruptive test holds the Rope link. -/
def State.ropeLooped (s : State) : Bool :=
  match s.tap.lb with
  | some l => l.iface == 2 && decide (l.depth ≤ 2)
  | none => false

/-- R399. A Rope frame arrives: one with an error is discarded and answered with NAK. The second NAK of one `SEQ` loses the frame (R21),
upon which `lost` is done. -/
def State.ropeTake (s : State) (rx : Rx) (f : State → State) (lost : State → State := id) : State :=
  if !s.ropeUp || s.ropeLooped || s.inReset || s.mode == mPark then s
  else if rx ≠ .ok then
    let again := s.dup.naked
    let s := (s.fsat Reg.ROPE_ERR_CRC_ERRORS).ropeSend 0x0B (leBytes 2 s.dup.rxSeq)
    let s := { s with dup := { s.dup with naked := !again, rxSeq := if again then (s.dup.rxSeq + 1) % 65536 else s.dup.rxSeq } }
    if again then lost s else s
  else f { s with dup := { s.dup with rxSeq := (s.dup.rxSeq + 1) % 65536, naked := false } }

/-- R400. The next PROBE of the latency measurement. -/
def State.ropeProbe (s : State) : State :=
  let tag := (s.dup.tag + 1) % 2 ^ 32
  ({ s with dup := { s.dup with tag } }).ropeSend 0x0C (leBytes 4 tag)

/-- R406. The standby asks for a full set. -/
def State.askFull (s : State) : State := (s.belayStale).ropeSend 0x03 []

/-- R399, R406. A belay frame is lost. -/
def State.belayLost (s : State) : State := if s.mode = mStandby then s.askFull else s

/-- ROPE_UP (R400, R406): sequence numbers start at 0, the latency is measured, and the set is stale. -/
def execRopeUp (lat : BitVec 12) (s : State) : Out :=
  .next (
    if s.ropeUp || s.ropeLooped || s.inReset || s.mode == mPark then s
    else
      let s := ((s.fon Reg.DUP_STAT_ROPE_UP).fset Reg.ROPE_LAT_LANE_LOCK 3).fset Reg.ROPE_LAT_LAT_NS lat.toNat
      let s := (s.fset Reg.DUP_STAT_ROPE_DEGRADED 0).belayStale
      let s := { s with dup := { s.dup with
        txSeq := 0, rxSeq := 0, naked := false, kept := [], resent := [], badLanes := 0, rtts := [], measuring := true, firstHb := true } }
      let s := s.ropeProbe
      if s.mode = mStandby then s.askFull else s)

/-- ROPE_DOWN (R400). -/
def execRopeDown (s : State) : Out := .next (if s.ropeUp then s.ropeFall else s)

/-- ROPE_DEGRADED (R398): every byte moves to the lane that is left; without one the link falls. -/
def execRopeDegraded (lane : Fin 2) (s : State) : Out :=
  .next (
    if !s.ropeUp || bit s.dup.badLanes lane then s
    else if s.dup.badLanes ≠ 0 then s.ropeFall
    else
      let s := { s with dup := { s.dup with badLanes := 2 ^ lane.val } }
      let s := s.fset Reg.ROPE_LAT_LANE_LOCK (3 - 2 ^ lane.val)
      (s.fon Reg.DUP_STAT_ROPE_DEGRADED).record cROPE_DEGRADED (leBytes 1 lane))

/-- ROPE_RESTORE (R398). -/
def execRopeRestore (s : State) : Out :=
  .next (
    if !s.ropeUp then s
    else (({ s with dup := { s.dup with badLanes := 0 } }).fset Reg.ROPE_LAT_LANE_LOCK 3).fset Reg.DUP_STAT_ROPE_DEGRADED 0)

/-- ROPE_NAK (R399): the frame named is resent once, and then dropped. -/
def execRopeNak (rx : Rx) (seq : BitVec 16) (s : State) : Out :=
  .next (s.ropeTake rx fun s =>
    match s.dup.kept.find? fun k => k.2.1 == seq.toNat with
    | some (typ, q, p) =>
      if s.dup.resent.contains q then s.fsat Reg.ROPE_ERR_DROPS
      else { s with
        net := { s.net with sent := s.net.sent ++ [({ chan := 4, kind := typ, data := p } : Sent)] }
        dup := { s.dup with resent := (q :: s.dup.resent).take 16 } }
    | none => s)

/-- ROPE_PROBE (R400). -/
def execRopeProbe (rx : Rx) (tag : Word) (s : State) : Out := .next (s.ropeTake rx fun s => s.ropeSend 0x0D (leBytes 4 tag.toNat))

/-- ROPE_ECHO (R400, R23). -/
def execRopeEcho (rx : Rx) (rtt : Nat) (s : State) : Out :=
  .next (s.ropeTake rx fun s =>
    if !s.dup.measuring then s
    else
      let r := rtt :: s.dup.rtts
      if r.length < 16 then ({ s with dup := { s.dup with rtts := r } }).ropeProbe
      else ({ s with dup := { s.dup with rtts := [], measuring := false } }).fset Reg.ROPE_LAT_LAT_NS (clip 12 ((r.foldl (· + ·) 0 - 16 * 400) / 32)))

/-! ### Heartbeats (R399 to R402) -/

/-- R84, R402. Lineage and generation of the own image. -/
def State.imageId (s : State) : Nat × Nat := match s.boot.image with | some i => (i.lineage, i.gen) | none => (0, 0)

/-- R178. `SET_SEQ` of the running program set; 0: the image's programs. -/
def State.setSeq (s : State) : Nat :=
  match s.runningSlot with
  | some i => s.mrN (slotBase i + 20) 4
  | none => 0

/-- R420. `HEALTHY` of this module. -/
def State.healthy (s : State) : Bool :=
  (s.mode == mStandby || s.mode == mActive) && s.dup.stFail == 0 && s.ropeUp && s.fbit Reg.DUP_STAT_IMAGE_SAME &&
    s.fbit Reg.DUP_STAT_CHANGE_SYNC && (s.mode == mActive || (s.fbit Reg.DUP_STAT_TIME_SYNC && s.fbit Reg.DUP_STAT_BELAY_OK))

/-- R420. `READY` of this module. -/
def State.ready (s : State) : Bool :=
  s.mode == mStandby && s.fbit Reg.DUP_STAT_TIME_SYNC && s.dup.stFail == 0 && !s.fbit Reg.DUP_STAT_CLAIM_GATED

/-- Table 14.6. `HR_FLAGS`. -/
def State.healthFlags (s : State) : Nat :=
  ([s.healthy, s.ready, s.fbit Reg.DUP_STAT_IMAGE_SAME, s.fbit Reg.DUP_STAT_TIME_SYNC, s.fbit Reg.DUP_STAT_BELAY_OK,
    s.fbit Reg.DUP_STAT_CHANGE_SYNC, s.fbit Reg.DUP_FLAGS_CMP_ALARM, s.fbit Reg.DUP_STAT_ROPE_DEGRADED, s.ropeUp].zip (List.range 9)).foldl
    (fun v p => v + b2n p.1 * 2 ^ p.2) 0

/-- R409, R420. What ages with time: a report of the peer that is more than 300 ms old counts as neither healthy nor ready, and
`RESYNC_HOUR` counts the last 3,600 s. -/
def State.healthAge (s : State) : State :=
  let now := s.time.dev
  let l := s.dup.resyncAt.filter fun t => decide (now < t + 3600000000000)
  let s : State := s.fset Reg.CMP_STAT_RESYNC_HOUR (clip 8 l.length)
  match s.dup.hrAt with
  | some t => if t + 300000000 < s.time.mono then ({ s with dup := { s.dup with hrAt := none } }).peerHealth false false else s
  | none => s

/-- The first multiple of `period` of device time that is not past, and after `last` (R399, R419; DESIGN CHOICE: the phase). -/
def State.nextDev (s : State) (last period : Nat) : Nat :=
  let t := (s.time.dev + period - 1) / period * period
  if t = last then t + period else t

/-- HB_SEND (R399, R421), every 100 µs. DESIGN CHOICE: the flags are those of the health report. -/
def execHbSend (s : State) : Out :=
  .next (
    if s.inReset || s.mode == mPark then s
    else
      let t : Nat := s.nextDev s.dup.hbTx 100000
      let s : State := s.toDev t
      let s : State := { s with dup := { s.dup with hbTx := t } }
      let s : State := s.healthAge
      let s : State := if s.mode = mStandby then s.stTest 8 !s.ropeUp else s
      let (lin, gen) := s.imageId
      s.ropeSend 0x01 (leBytes 8 s.time.dev ++ leBytes 8 (s.time.gs - 1) ++ leBytes 1 s.mode ++ leBytes 1 (b2n s.board.seatB) ++
        leBytes 2 s.healthFlags ++ leBytes 2 (s.fget Reg.COMMIT_NUM_CCOUNT) ++ leBytes 4 (s.fget Reg.BELAY_GEN_GEN) ++ leBytes 8 lin ++
        leBytes 4 gen ++ leBytes 4 (s.fget Reg.PARAM_GEN_GEN) ++ leBytes 4 s.setSeq))

/-- R401. The one step of device time: the grid indices follow, activations in progress are abandoned, running timers keep their elapsed
times, and a full set is requested. -/
def State.stepTime (s : State) (t : Nat) : State :=
  let g := s.time.gs
  let s := s.abandon s.actMask
  let s := ({ s with time := { s.time with dev := t, slew := 0, slewAcc := 0, confirmDue := false, publishDue := false } }).regrid
  (s.shiftTimers ((s.time.gs : Int) - g)).askFull

/-- R401. A standby follows the active module's time: it steps at the first HB after an `UP`, and is disciplined afterwards. `TIME_SYNC`
stands only while it does so. -/
def State.followTime (s : State) (f : HbFrame) : State :=
  if s.mode ≠ mStandby ∨ !(f.mode == 2#8 || f.mode == 3#8) then s.fset Reg.DUP_STAT_TIME_SYNC 0
  else
    let ref := f.devTime + s.fget Reg.ROPE_LAT_LAT_NS
    let err : Int := (ref : Int) - s.time.dev
    let far := decide (10000 < err.natAbs)
    let s := if s.dup.firstHb && far then s.stepTime ref else { s with time := { s.time with slew := err } }
    let ok := decide ((((ref : Int) - s.time.dev).natAbs) ≤ 1000)
    ({ s with dup := { s.dup with firstHb := false } }).fput Reg.DUP_STAT_TIME_SYNC ok

/-- R402. The peer's image and changes against the own ones. -/
def State.compareImages (s : State) (f : HbFrame) : State :=
  let (lin, gen) := s.imageId
  let same := s.boot.image.isSome && f.lineage.toNat == lin && f.imgGen.toNat == gen
  let s := s.fput Reg.DUP_STAT_IMAGE_SAME same
  let s := s.fput Reg.DUP_STAT_CHANGE_SYNC (same && f.paramGen.toNat == s.fget Reg.PARAM_GEN_GEN && f.setSeq.toNat == s.setSeq)
  if same then { s with dup := { s.dup with diffRec := false } }
  else if s.dup.diffRec then s
  else ({ s with dup := { s.dup with diffRec := true } }).record cIMAGE_DIFF []

/-- R440. The overlay entries in force: identifier, value, generation. -/
def State.overlay (s : State) : List (Nat × Nat × Nat) :=
  (s.entries 0x0208 0 16).filterMap fun e =>
    match s.ovlBest (leAt e 0 2) with
    | some a => some (leAt e 0 2, s.mrN (a + 4) 4, s.mrN (a + 8) 4)
    | none => none

/-- R178. The running program set as it stands in its slot; empty: the image's programs run. -/
def State.runningSet (s : State) : List Byte :=
  match s.runningSlot with
  | some i => mslice 0 s.mram (slotBase i) (64 + s.mrN (slotBase i + 36) 4)
  | none => []

/-- R184, R402. The active module sends a standby of the same image the overlay and the program set in which it differs, once for each
pair of generations (DESIGN CHOICE: the moment and the form). -/
def State.syncChanges (s : State) (f : HbFrame) : State :=
  let k := (s.fget Reg.PARAM_GEN_GEN, s.setSeq, f.paramGen.toNat, f.setSeq.toNat)
  if !s.driving || f.mode != 1#8 || !s.fbit Reg.DUP_STAT_IMAGE_SAME || s.fbit Reg.DUP_STAT_CHANGE_SYNC || s.dup.syncSent == some k then s
  else
    let s := { s with dup := { s.dup with syncSent := some k } }
    let s := if k.1 = k.2.2.1 then s
      else s.sendChange 4 k.1 ((s.overlay.map fun e => beBytes 2 e.1 ++ beBytes 4 e.2.1 ++ beBytes 4 e.2.2).flatten)
    if k.2.1 = k.2.2.2 then s else s.sendChange 5 k.2.1 s.runningSet

/-- R185. The peer's mode has changed: its entry into SAFE or PARK aborts a pending change here, and so does, at the standby, the reset
of the active module. -/
def State.peerModeSeen (s : State) (m : Nat) : State :=
  let old := s.fget Reg.DUP_STAT_PEER_MODE
  if m = old then s
  else if m = mSafe then s.changeAbort 2
  else if m = mPark then s.changeAbort 3
  else if m = mBoot ∧ s.mode = mStandby then s.changeAbort 4 else s

/-- HB (R185, R400 to R402). -/
def execHb (rx : Rx) (f : HbFrame) (s : State) : Out :=
  .next (s.ropeTake rx fun s =>
    let s := s.peerModeSeen f.mode.toNat
    let s := ({ s with dup := { s.dup with hb := some f, hbAt := s.time.mono } }).fset Reg.DUP_STAT_PEER_MODE f.mode.toNat
    let s := (s.compareImages f).peerSet (f.mode == 1#8 || f.mode == 2#8 || f.mode == 3#8)
    ((s.followTime f).syncChanges f).healthAge)

/-- PEER_LOST (R400): no valid HB for 1 ms. -/
def execPeerLost (s : State) : Out :=
  .next (if s.fbit Reg.DUP_STAT_PRESENT then ((s.toMono (s.dup.hbAt + 1000000)).peerSet false).healthAge else s)

/-! ### The belay set at the standby (R404 to R407, R441) -/

/-- R441. A payload is appended to the belay log in blocks of 64 bytes, which wraps at its end. -/
def State.belayLog (s : State) (p : List Byte) : State :=
  let h := s.mrN (hdrBase + 0x810) 4 % 0x100000
  let b := pad64 p
  let first := 0x100000 - h
  let s := (s.mwBytes (0x10A00000 + h) (b.take first)).mwBytes 0x10A00000 (b.drop first)
  s.mwN (hdrBase + 0x810) 4 ((h + b.length) % 0x100000)

/-- R406, Table 15.2. The copy in B3, its generation, and what follows from a complete set: the shadow registers are
written (R238). -/
def State.belayTaken (s : State) (new : Bytes) : State :=
  let s := { s with dup := { s.dup with set := new, stale := false }, sram := mput 0 s.sram 0xA80000 (mslice 0 new 0 0x10000) }
  let s := ((s.fset Reg.BELAY_GEN_GEN (leNat (mslice 0 new 0 4))).fset Reg.BELAY_SIZE_BYTES (leNat (mslice 0 new 16 4))).fon Reg.DUP_STAT_BELAY_OK
  s.each (List.range 12) State.sendShadow

/-- R408. Bytes of the output part that task `t` owns, as places. -/
def State.taskPlaces (s : State) (t : Nat) : List Nat :=
  ((s.entries 0x0205 0 8).map fun e => ((List.range (leAt e 2 2)).filter fun i => s.qOwner (leAt e 0 2 + i) == some t).map fun i =>
    outPos (leAt e 4 1) + leAt e 6 2 + i).flatten

/-- R408, R409. One entry of a manifest is compared; a persistent discrepancy is recorded and queried. -/
def State.compareTask (s : State) (t cyc : Nat) : State :=
  match (mget [] s.dup.own t).find? fun x => x.1 == cyc with
  | none => s
  | some (_, mine) =>
    let bad := (s.taskPlaces t).filter fun p => mine.getD p 0 != mget 0 s.dup.set (64 + p)
    if bad.isEmpty then { s with dup := { s.dup with diffs := mset 0 s.dup.diffs t 0 } }
    else
      let n := mget 0 s.dup.diffs t + 1
      if n < s.topoN 0x0901 0 0 1 5 then { s with dup := { s.dup with diffs := mset 0 s.dup.diffs t n } }
      else
        let mask := bad.foldl (fun m p => putBit m p true) 0
        let s := { s with dup := { s.dup with
          diffs := mset 0 s.dup.diffs t 0, cmpDisc := s.dup.cmpDisc + 1, query := some (t, cyc, s.time.mono) } }
        let s := ((s.fon Reg.DUP_FLAGS_CMP_SEEN).fset Reg.CMP_STAT_LAST_TASK t).fsat Reg.CMP_CNT_DISCREPANCIES
        let s := (s.record cCMP_DISCREPANT (leBytes 1 t ++ leBytes 4 cyc)).peerEvent 5
        s.ropeSend 0x09 (leBytes 1 t ++ [0, 0, 0] ++ leBytes 4 cyc ++ leBytes 32 mask)

/-- R408. Output comparison takes place. -/
def State.compares (s : State) : Bool :=
  s.mode == mStandby && s.fbit Reg.DUP_STAT_IMAGE_SAME && s.fbit Reg.DUP_STAT_TIME_SYNC && s.fbit Reg.DUP_STAT_BELAY_OK &&
    s.fget Reg.DUP_STAT_PEER_MODE != mMaint

/-- BELAY_DELTA (R406, R408): a delta that follows the standby's generation is applied, and the outputs are compared. -/
def execBelayDelta (rx : Rx) (payload : List Byte) (s : State) : Out :=
  .next (s.ropeTake rx (lost := State.belayLost) fun s =>
    if s.mode ≠ mStandby then s
    else
      let s := s.belayLog payload
      if s.dup.stale || leAt payload 4 4 != s.fget Reg.BELAY_GEN_GEN then (if s.dup.full.isSome then s else s.askFull)
      else
        let man := (List.range (leAt payload 18 1)).map fun i => (leAt payload (20 + 8 * i) 1, leAt payload (24 + 8 * i) 4)
        let at_ := 20 + 8 * man.length
        let blocks := (List.range ((payload.length - at_) / 68)).map fun i => (leAt payload (at_ + 68 * i) 2, sub_ payload (at_ + 68 * i + 4) 64)
        let new := blocks.foldl (fun (m : Bytes) (b : Nat × List Byte) => mput 0 m (64 * b.1) b.2) s.dup.set
        let s := s.belayTaken (mput 0 new 0 (leBytes 4 (leAt payload 0 4)))
        if s.compares then man.foldl (fun (s : State) (m : Nat × Nat) => s.compareTask m.1 m.2) s else s)

/-- BELAY_REQ (R406): the active module answers with the whole set of the last commit, under a new generation (DESIGN CHOICE: at once). -/
def execBelayReq (rx : Rx) (s : State) : Out :=
  .next (s.ropeTake rx fun s =>
    if !s.driving then s
    else
      let body := s.belayBody
      let gen := nextGen (s.fget Reg.BELAY_GEN_GEN)
      let new := s.belayHead gen (64 + body.length) ++ body
      let s := { s with dup := { s.dup with set := mput 0 [] 0 new, manifest := [] } }
      let s := (s.fset Reg.BELAY_GEN_GEN gen).fset Reg.BELAY_SIZE_BYTES new.length
      ((pieces 2040 (new.length + 1) new).zip (List.range (new.length + 1))).foldl (fun (s : State) (p : List Byte × Nat) =>
        s.ropeSend 0x04 (leBytes 4 gen ++ leBytes 4 (2040 * p.2) ++ p.1)) s)

/-- R409. A resynchronisation of the standby: counted, recorded, alarmed; its data ranges apply at the next sample-grid point. -/
def State.resynced (s : State) : State :=
  let now := s.time.dev
  let l := now :: s.dup.resyncAt.filter fun t => decide (now < t + 3600000000000)
  let s := { s with dup := { s.dup with resyncWait := false, applyDue := true, resyncAt := l } }
  let s := (((s.fsat Reg.CMP_CNT_RESYNCS).fset Reg.CMP_STAT_RESYNC_HOUR (clip 8 l.length)).fon Reg.DUP_FLAGS_RESYNC_SEEN).record cBELAY_RESYNC []
  if s.topoN 0x0901 0 1 1 3 ≤ l.length ∧ !s.fbit Reg.DUP_FLAGS_CMP_ALARM then (s.fon Reg.DUP_FLAGS_CMP_ALARM).record cRESYNC_ALARM [] else s

/-- BELAY_FULL (R406): one frame of a full set; a frame out of place makes the set stale. -/
def execBelayFull (rx : Rx) (gen : Word) (off : Nat) (bytes : List Byte) (last : Bool) (s : State) : Out :=
  .next (s.ropeTake rx (lost := State.belayLost) fun s =>
    if s.mode ≠ mStandby then s
    else
      let s := s.belayLog (leBytes 4 gen.toNat ++ leBytes 4 off ++ bytes)
      let got : Option Bytes :=
        if off = 0 then some (mput 0 [] 0 bytes)
        else
          match s.dup.full with
          | some (g, n, b) => if g = gen.toNat ∧ n = off then some (mput 0 b off bytes) else none
          | none => none
      match got with
      | none => s.askFull
      | some b =>
        if !last then { s with dup := { s.dup with full := some (gen.toNat, off + bytes.length, b) } }
        else
          let s := { s with dup := { s.dup with full := none } }
          let s := s.belayTaken b
          if s.dup.resyncWait then s.resynced else s)

/-- PROFILE (R407, R249): a profile that the active module stored. -/
def execProfile (rx : Rx) (k : DCh) (dir adapted : Bool) (bytes : List Byte) (s : State) : Out :=
  .next (s.ropeTake rx fun s =>
    if s.mode ≠ mStandby then s
    else
      let s := s.profTake k (b2n dir) adapted bytes
      if s.linkIsUp (chSlot k) then s.sendProfiles (chSlot k) else s)

/-! ### Resolution of a discrepancy (R409) -/

/-- CMP_QUERY (R409): answered at the next activation of the task. -/
def execCmpQuery (rx : Rx) (t : Task) (cycle : Word) (mask : BitVec 256) (s : State) : Out :=
  .next (s.ropeTake rx fun s =>
    if !s.driving then s
    else { s with dup := { s.dup with asked := (s.dup.asked.filter fun p => p.1 != t.val) ++ [(t.val, mask.toNat, cycle.toNat)] } })

/-- Table 14.5. "Agrees, both healthy": a full set is taken. -/
def State.resolveAgree (s : State) : State := ({ s with dup := { s.dup with resyncWait := true } }).askFull

/-- CMP_VERDICT (R409, Table 14.5). -/
def execCmpVerdict (rx : Rx) (t : Task) (disagrees : Bool) (_cycle : Word) (s : State) : Out :=
  .next (s.ropeTake rx fun s =>
    match s.dup.query with
    | some (t', _, _) =>
      if t' ≠ t.val ∨ s.mode ≠ mStandby then s
      else
        let well := s.healthy && s.fbit Reg.DUP_STAT_PEER_HEALTHY
        let s := { s with dup := { s.dup with query := none } }
        if !disagrees && well then s.resolveAgree else s
    | none => s)

/-- CMP_VERDICT_TIMEOUT (R409): 100 ms without a verdict. -/
def execCmpVerdictTimeout (s : State) : Out :=
  .next (
    match s.dup.query with
    | some (_, _, at_) =>
      if s.mode ≠ mStandby then s
      else
        let s := s.toMono (at_ + 100000000)
        ({ s with dup := { s.dup with query := none } }).resolveAgree
    | none => s)

/-- RESYNC_ALARM_CLEAR (R409): 3,600 s of device time without a resynchronisation. -/
def execResyncAlarmClear (s : State) : Out :=
  .next (
    if !s.fbit Reg.DUP_FLAGS_CMP_ALARM then s
    else
      let s := s.toDev (s.dup.resyncAt.headD 0 + 3600000000000)
      (({ s with dup := { s.dup with resyncAt := [] } }).fset Reg.DUP_FLAGS_CMP_ALARM 0).fset Reg.CMP_STAT_RESYNC_HOUR 0)

/-! ### Health (R419, R420) -/

/-- Table 14.6. The health report after `n` reports sent, big-endian, with `MARCH_PCT` `pct`. -/
def State.healthBytes (s : State) (n pct : Nat) : List Byte :=
  let (lin, gen) := s.imageId
  let b := [(1 : Byte)] ++
    beBytes 1 (b2n s.board.seatB + 2 * s.mode + 16 * s.laneState + 64 * b2n s.duplexNow + 128 * b2n (s.fbit Reg.MODE_STAT_DEBUG_UNBOUND)) ++
    beBytes 2 s.healthFlags ++ beBytes 4 (n % 2 ^ 32) ++ beBytes 8 s.time.dev ++ beBytes 8 lin ++ beBytes 4 gen ++
    beBytes 4 (s.fget Reg.PARAM_GEN_GEN) ++ beBytes 4 (s.fget Reg.BELAY_GEN_GEN) ++ beBytes 1 (s.fget Reg.SAFE_REASON_REASON) ++
    beBytes 1 (s.fget Reg.VOTE_STAT_LIVE) ++ beBytes 2 s.dup.stFail ++ beBytes 1 pct ++
    beBytes 1 (satSlots.foldl (fun m i => putBit m i (s.linkIsUp i)) 0) ++ beBytes 2 (clip 16 s.mem.ceCount) ++
    beBytes 2 (s.fget Reg.VTEST_STAT_PASSED) ++ beBytes 2 (clip 16 s.dup.cmpDisc) ++
    beBytes 1 (s.fget Reg.CMP_STAT_RESYNC_HOUR) ++ beBytes 1 (clip 8 (s.fget Reg.TKO_STAT_TAKEOVERS)) ++ beBytes 12 0
  b ++ beBytes 2 (crc16 b)

/-- R419. 64 bytes as the 16 registers from `a` on show them. -/
def State.showBytes (s : State) (a : Nat) (b : List Byte) : State :=
  (List.range 16).foldl (fun s i => { s with regs := mset 0 s.regs (a + 4 * i) (leAt b (4 * i) 4) }) s

/-- R419, R421. `MARCH_PCT`: how far the march of a STANDBY module has come in the bank cycles it found idle is a free value of 0 to 100. -/
def State.takeMarch (s : State) : Nat × State :=
  if s.mode = mStandby then
    let (v, s) := s.takeFree 8
    (v % 101, s)
  else (0, s)

/-- HEALTH_SEND (R419), every 100 ms. -/
def execHealthSend (s : State) : Out :=
  .next (
    if s.inReset || s.mode == mPark then s
    else
      let t := s.nextDev s.dup.hrTx 100000000
      let s := s.toDev t
      let seq := if s.ropeUp then (s.dup.hrSeq + 1) % 2 ^ 32 else s.dup.hrSeq
      let s := ({ s with dup := { s.dup with hrSeq := seq, hrTx := t } }).healthAge
      let (pct, s) := s.takeMarch
      let b := s.healthBytes s.dup.hrSeq pct
      (s.showBytes 0x40050080 b).ropeSend 0x05 b)

/-- Table 14.6. `LINKS_UP` of slot `n` in the last valid report of the peer. -/
def State.peerLink (s : State) (n : Nat) : Bool := fieldOf (mget 0 s.regs 0x40050068) (8 + n) 1 == 1

/-- HEALTH_REPORT (R410, R419, R420): one that fails its CRC counts as neither healthy nor ready. A link that the peer newly reports up is
handover cause 4 where the die is excluded here. -/
def execHealthReport (rx : Rx) (bytes : List Byte) (s : State) : Out :=
  .next (s.ropeTake rx fun s =>
    if bytes.length ≠ 64 ∨ beAt bytes 62 2 ≠ crc16 (bytes.take 62) then s.peerHealth false false
    else
      let up := satSlots.filter fun n => !s.peerLink n && bit (beAt bytes 41 1) n && s.fbit (Reg.LINK_STAT_EXCLUDED n)
      let s := ({ s with dup := { s.dup with hrAt := some s.time.mono } }).showBytes 0x40050040 bytes
      let s := s.peerHealth (bit (beAt bytes 2 2) 0) (bit (beAt bytes 2 2) 1)
      if up.isEmpty then s else s.handover 4)

/-! ### Changes in duplex (R184) -/

/-- R184. The standby's answer to a point. -/
def State.ackPoint (s : State) (point res : Nat) : State := s.ropeSend 0x07 (beBytes 8 point ++ beBytes 1 res)

/-- R184, R402. The standby takes the active module's overlay. -/
def State.takeOverlay (s : State) (gen : Nat) (b : List Byte) : State :=
  let es := (List.range (b.length / 10)).map fun i => (beAt b (10 * i) 2, beAt b (10 * i + 2) 4, beAt b (10 * i + 6) 4)
  let s := { s with mram := mclear (ovlBase + 0x4000) 0x20000 s.mram }
  let s := es.foldl (fun (s : State) (e : Nat × Nat × Nat) =>
    match s.tunable e.1 with
    | some r => (s.ovlWrite e.1 e.2.1 e.2.2).putTunable r e.2.1
    | none => s) s
  let s := { s with eng := { s.eng with parPend := s.taskMask } }
  s.fset Reg.PARAM_GEN_GEN gen

/-- R184, R402. The standby takes the active module's program set, which its tasks take up at their next activations; without one the
image's programs. -/
def State.takeSet (s : State) (b : List Byte) : State :=
  let es : List SetEntry :=
    if b.isEmpty then (taskNums.filter fun t => s.taskOn t && s.isDx4 t).map fun t =>
      (t, s.topoN 0x0202 t 22 2 1, match s.topo? 0x0207 t with | some r => r.data | none => [])
    else (parseSet 24 (sub_ b 64 (leAt b 36 4))).getD []
  match placeAll s.storeUse es with
  | none => s
  | some ps =>
    let prob := !b.isEmpty && leAt b 4 1 == slProbation
    let run := [0, 1].filter fun i => (s.slotState i == slActive && !prob) || s.slotState i == slProbation
    let i := ([0, 1].find? fun i => !run.contains i && s.slotState i != slActive).getD (run.headD 0)
    let s := run.foldl (fun s i => s.setSlot i slInactive) s
    let s := if b.isEmpty then s else (s.mwBytes (slotBase i) b).slotRegs
    let s := if (s.slotIn slVerified).isNone then
        ({ s with eng := { s.eng with next := [] } }).fset Reg.CHG_STAT_SWAP_STATE 0
      else s
    let s := s.storeWrite ps es
    { s with
      chg := { s.chg with probEnd := if prob then some (leAt b 24 8 + leAt b 32 4 * 40000) else none }
      eng := { s.eng with
        prev := if prob then taskNums.map fun t => (t, s.nowProg t) else []
        switchPend := s.dx4Mask, carried := 0, backPend := 0, goal := ps } }

/-- CHANGE (R184): the standby checks a forwarded transaction, set or point, and acknowledges it. A change withdrawn has the point 0 and no
bytes. -/
def execChange (rx : Rx) (kind : Byte) (point : BitVec 64) (bytes : List Byte) (s : State) : Out :=
  .next (s.ropeTake rx fun s =>
    let p := point.toNat
    let off := decide (p = 0) && bytes.isEmpty
    if s.mode ≠ mStandby then s
    else
      match kind.toNat with
      | 0 =>
        if off then s.nativeAbort gPeerNoAck 0
        else
          let es := (List.range (beAt bytes 4 1)).map fun i => (beAt bytes (5 + 6 * i) 2, beAt bytes (7 + 6 * i) 4)
          let s := s.writeParam none (beAt bytes 0 4) p es
          s.ackPoint p (s.fget Reg.NATIVE_RES_RESULT)
      | 1 => if off then s.loadWithdrawn else s.loadChunk none p (beAt bytes 0 1 == 1) (bytes.drop 1)
      | 2 =>
        if off then s.switchAbort gPeerNoAck 0
        else
          let s := s.switchArm none p
          s.ackPoint p (s.fget Reg.SWAP_RES_RESULT)
      | 3 =>
        if off then s.revertAbort gPeerNoAck 0
        else
          let s := s.revertArm none p
          s.ackPoint p (s.fget Reg.SWAP_RES_RESULT)
      | 4 => if s.fbit Reg.DUP_STAT_IMAGE_SAME then s.takeOverlay p bytes else s
      | 5 => if s.fbit Reg.DUP_STAT_IMAGE_SAME then s.takeSet bytes else s
      | _ => s)

/-- CHANGE_ACK (R184): the point 0 stands for the verification of a set. -/
def execChangeAck (rx : Rx) (point : BitVec 64) (result : Byte) (s : State) : Out :=
  .next (s.ropeTake rx fun s =>
    let p := point.toNat
    if !s.driving then s
    else if p = 0 then
      match s.chg.load with
      | some (i, b) =>
        if result.toNat ≠ gDone then s.loadEnd i gPeerNoAck 0 0
        else if s.chg.verify ∨ s.slotState i ≠ slVerified then { s with chg := { s.chg with peerVerified := true } }
        else s.loadEnd i gDone ((((parseSet 24 (b.drop 12)).getD []).map (·.1)).headD 0) 0
      | none => s
    else if result.toNat ≠ gPending ∨ samplePt p < s.time.dev + 10000000 then s
    else
      let t := s.chg.txn.map fun t => if t.point = p then { t with acked := true } else t
      let s : State := { s with chg := { s.chg with txn := t } }
      if s.chg.switchAt = some p ∨ s.chg.revertAt = some p then { s with chg := { s.chg with acked := true } } else s)

/-- PARK (R69): the peer's commit number becomes the standby's own by way of the belay set's grid index and counter (DEDUCED: the two
modules count their commits apart, R28, on one grid, R42). With no belay set received since reset the number is taken as the
standby's own (DESIGN CHOICE: nothing ties the two counts together). -/
def execPark (rx : Rx) (ccount : BitVec 16) (s : State) : Out :=
  .next (s.ropeTake rx fun s =>
    if s.mode ≠ mStandby then s
    else
      let g := leNat (mslice 0 s.dup.set 4 8)
      let c := leNat (mslice 0 s.dup.set 12 2)
      let at_ : Int := (g + (ccount.toNat + 65536 - c) % 65536 : Nat)
      let num := if s.dup.set = [] then ccount.toNat
        else unsgn 16 ((s.fget Reg.COMMIT_NUM_CCOUNT : Nat) + at_ + 1 - (s.time.gc : Int))
      { s with power := { s.power with park := 3, parkNum := num } })

/-! ### Standby self-test (R421) -/

/-- SELFTEST_MARCH (R421): a pass over B0 to B4 has ended. -/
def execSelftestMarch (pass : Bool) (s : State) : Out := .next (if s.mode = mStandby then s.stTest 0 !pass else s)

/-- SELFTEST_ETHERNET (R421). -/
def execSelftestEthernet (pass : Bool) (s : State) : Out := .next (if s.mode = mStandby then s.stTest 6 !pass else s)

/-- SELFTEST_LINK_PROBE (R24, R421): the round trips of the probes that came back, in ns. -/
def execSelftestLinkProbe (n : Slot) (rtts : List Nat) (s : State) : Out :=
  .next (if s.mode = mStandby ∧ s.declared n then s.stPart 7 n 0xFF (rtts.isEmpty || latencyBad rtts) else s)

/-- CAN_LB_TEST (R353): the 10 s test frame of a controller. -/
def execCanLbTest (c : Ctl) (back collide : Bool) (s : State) : Out :=
  .next (
    if s.mode ≠ mStandby ∨ !s.canOn c ∨ !(s.ctl c).joined then s
    else
      let s := if collide then s.fsat (Reg.CAN_MISC_LB_COLLIDE c) else s
      let s := if back then s else s.fon (Reg.CAN_FLAGS_LB_FAIL c)
      s.stPart 5 (8 + c) 0xF00 !back)

end Sys2Proof.Machine
end

