-- ==== Sys2Proof/Machine/Verbs.lean ====
section
/-! DEFINITION. Maintenance verbs (R379 to R389, R457, R458, R463): sessions, the order in which a request is handled, the agreement
check, and the verbs' own effects. -/

namespace Sys2Proof.Machine

/-! ### Requests (R380 to R384) -/

/-- The body as received: one byte more than the row's fields where its length does not fit. -/
def verbBody (h : VerbHdr) (b : List Byte) : List Byte := if h.badLen then b ++ [0] else b

/-- Table 13.6. The bytes of a request that its tag covers. -/
def verbFrame (h : VerbHdr) (verb : Nat) (body : List Byte) : List Byte :=
  beBytes 2 verb ++ beBytes 1 h.sess.toNat ++ [0] ++ beBytes 4 h.ctr.toNat ++ beBytes 2 body.length ++ [0, 0] ++ body

/-- R381. The tag of a request under a key. -/
def verbTag (key frame : List Byte) : List Byte := (hmac256 key ((0 : Byte) :: frame)).take 16

/-- R382. A request below L is dropped and counted. -/
def State.authCount (s : State) : State := (s.fsat Reg.AUTH_CNT_AUTH_FAIL).fon Reg.NET_FLAGS_AUTH_SEEN

/-- R381. A request is dropped as an authentication failure, and recorded. -/
def State.authFail (s : State) (p sess : Nat) : State := s.authCount.record cAUTH_FAIL (leBytes 1 p ++ leBytes 1 sess)

/-- R379. Verbs are taken on port `p`: the ports run, and `VPORTS` enables it. -/
def State.verbPort (s : State) (p : Nat) : Bool := bit (s.topoN 0x0806 0 4 1 4) p

/-- R382. Session `x` closes after its verb: once the reply is sent. -/
def State.closeAfter (s : State) (x : Nat) : State :=
  match s.sess x with
  | some v => if v.waiting.isEmpty then s.closeSess x else s.modSess x fun v => { v with closing := true }
  | none => s

/-- R381 to R385. A request of `verb` with `body`: its tag, its counter, its format (`fmt`), its role and port, and a deferred verb of the
session; then `go` acts for the session. -/
def State.verbTake (s : State) (h : VerbHdr) (verb maskBit : Nat) (body : List Byte) (fmt : Bool) (go : State → Nat → State) : State :=
  let p := h.port.val
  if s.inReset || s.mode == mBoot || s.mode == mPark || !s.portUp p then s
  else
    let s := s.netRx p
    let b := verbBody h body
    let x := h.sess.toNat
    if !s.verbPort p then s.netDrop p
    else
      match s.sess x with
      | none => s.authFail p x
      | some v =>
        if x ≥ 4 ∨ verbTag v.key (verbFrame h verb b) ≠ h.tag then s.authFail p x
        else if h.ctr.toNat < v.last then s.authCount
        else if h.ctr.toNat = v.last then (if v.reply.isEmpty then s else s.netTx p 2 v.reply)
        else
          let s := s.modSess x fun v => { v with last := h.ctr.toNat, idleAt := s.time.mono, port := p, reply := [] }
          let s := if s.net.maintSess = some x then { s with net := { s.net with maintIdle := s.time.mono } } else s
          let mask := s.topoN 0x0B01 v.role 2 2 0x0053
          let s :=
            if h.badLen || !fmt || decide (1024 < b.length) then s.reply x verb rFormat 0 []
            else if maskBit < 16 ∧ !bit mask maskBit then s.refuse x verb 0x06
            else if !bit (s.topoN 0x0B01 v.role 1 1 4) p then s.refuse x verb 0x07
            else if v.deferred.isSome then s.refuse x verb 0x0C
            else go s x
          if h.ctr.toNat = 0xFFFFFFFF then s.closeAfter x else s

/-! ### Sessions (R381, R383) -/

/-- R381. K_role of a role, where its secret can be used. -/
def State.roleKey (s : State) (role : Nat) : Option (List Byte) :=
  let mk := s.board.fuses.secret.getD (s.topoN 0x0806 0 5 1 0) []
  if (s.topo? 0x0B01 role).isSome && s.topoN 0x0B01 role 0 1 1 == 1 && mk.length == 32 then
    some (hmac256 mk ([0x44, 0x58, 0x38, 0x52] ++ beBytes 1 role ++ beBytes 4 (s.topoN 0x0B01 role 4 4 0) ++ beBytes 8 s.imageId.1))
  else none

/-- Free bytes from the noise source. -/
def State.noise (s : State) : Nat → List Byte × State
  | 0 => ([], s)
  | n + 1 =>
    let (v, s) := s.takeFree 8
    let (l, s) := s.noise n
    (BitVec.ofNat 8 v :: l, s)

/-- R381. A failed OPEN_SESSION; the eighth within 60 s locks further ones out for 60 s. -/
def State.openFail (s : State) (p : Nat) : State :=
  let s := s.authFail p 0xFF
  let l := s.time.mono :: s.net.failAt.filter fun t => decide (s.time.mono < t + 60000000000)
  if 8 ≤ l.length then ({ s with net := { s.net with failAt := [], lockEnd := s.time.mono + 60000000000 } }).fon Reg.NET_STAT_OPEN_LOCKOUT
  else { s with net := { s.net with failAt := l } }

/-- OPEN_SESSION (R381, R383). A reply other than `DONE` goes out under K_role (DESIGN CHOICE: no K_s exists). -/
def execOpenSession (h : VerbHdr) (role : Byte) (nc : List Byte) (s : State) : Out :=
  .next (
    let p := h.port.val
    let r := role.toNat
    if s.inReset || s.mode == mBoot || s.mode == mPark || !s.portUp p then s
    else
      let s := s.netRx p
      let b := verbBody h (beBytes 1 r ++ [0, 0, 0] ++ nc)
      if !s.verbPort p then s.netDrop p
      else if s.fbit Reg.NET_STAT_OPEN_LOCKOUT then s
      else
        match s.roleKey r with
        | none => s.openFail p
        | some k =>
          if verbTag k (verbFrame h vOpen b) ≠ h.tag then s.openFail p
          else
            let no (s : State) (st sub : Nat) : State := s.netTx p 2 (verbReply k vOpen h.sess.toNat h.ctr.toNat st sub [])
            if h.badLen || nc.length != 16 || h.sess != 0xFF#8 then no s rFormat 0
            else if !bit (s.topoN 0x0B01 r 1 1 4) p then
              no (((s.fsat Reg.VERB_CNT_REFUSED).fon Reg.NET_FLAGS_REFUSE_SEEN).record cVERB_REFUSED
                (leBytes 2 vOpen ++ leBytes 1 0x07 ++ leBytes 1 r)) rAgree 0x07
            else
              match [0, 1, 2, 3].find? fun x => (s.sess x).isNone with
              | none => no s rFull 0
              | some x =>
                let (nm, s) := s.noise 16
                let key := hmac256 k ([0x44, 0x58, 0x38, 0x53] ++ nc ++ nm)
                let s := s.setSess x (some { role := r, key, idleAt := s.time.mono, port := p })
                s.accepted.netTx p 2 (verbReply key vOpen x h.ctr.toNat rDone 0 nm))

/-- CLOSE_SESSION (R383). -/
def execCloseSession (h : VerbHdr) (s : State) : Out :=
  .next (s.verbTake h vClose 16 [] true fun s x => (s.accepted.reply x vClose rDone 0 []).closeSess x)

/-- SESSION_IDLE (R383). -/
def execSessionIdle (x : Fin 4) (s : State) : Out :=
  .next (
    match s.sess x with
    | some v => (s.toMono (v.idleAt + s.topoN 0x0806 0 6 2 300 * 1000000000)).closeSess x
    | none => s)

/-- OPEN_LOCKOUT_END (R381). -/
def execOpenLockoutEnd (s : State) : Out :=
  .next (if s.fbit Reg.NET_STAT_OPEN_LOCKOUT then (s.toMono s.net.lockEnd).fset Reg.NET_STAT_OPEN_LOCKOUT 0 else s)

/-! ### The agreement check (R385 to R387) -/

/-- Table 13.8. An answer of the agreement check. -/
inductive Agree where
  | accept
  | refuse (sub : Nat)
  | defer
deriving DecidableEq, Repr

/-- R385. Accepted, or refused at once. -/
def State.agreed (s : State) (x verb : Nat) (a : Agree) (act : State → State) : State :=
  match a with
  | .accept => act s.accepted
  | .refuse c => s.refuse x verb c
  | .defer => s

/-- R386. Sets the deferred verb of session `x`, and `DEFERRED`. -/
def State.setDeferred (s : State) (x : Nat) (d : Option (Waiting × Nat)) : State :=
  let s := s.modSess x fun v => { v with deferred := d }
  s.fset Reg.AUTH_CNT_DEFERRED (([0, 1, 2, 3].filter fun i => match s.sess i with | some v => v.deferred.isSome | none => false).length)

/-- R386. A verb that may be deferred: its answer `a` acts, or it waits as `i`. -/
def State.mayDefer (s : State) (x verb : Nat) (i : Waiting) (a : Agree) (act : State → State) : State :=
  let since := match s.sess x with | some v => (match v.deferred with | some (_, t) => t | none => s.time.mono) | none => s.time.mono
  match a with
  | .accept => act (s.setDeferred x none).accepted
  | .refuse c => (s.setDeferred x none).refuseLate x verb c
  | .defer => s.setDeferred x (some (i, since))

/-- Table 13.8. The change verbs. -/
def State.agreeChange (s : State) : Agree :=
  if s.mode = mStandby then .refuse 0x02 else if s.driving then .accept else .refuse 0x01

/-- Table 13.8. What CLEAR_CAIRN, the runs and forces ask of the mode; `none`: MAINTENANCE. -/
def State.needMaint (s : State) : Option Agree :=
  if s.mode = mStandby then some (.refuse 0x02) else if s.mode = mActive then some (.refuse 0x03)
  else if s.mode = mMaint then none else some (.refuse 0x01)

/-! ### Reading (R384, R419, R458, R463) -/

/-- READ_OBJ (R384): through the agent windows (R106). -/
def execReadObj (h : VerbHdr) (addr : Word) (len : BitVec 16) (s : State) : Out :=
  let a := addr.toNat
  let n := len.toNat
  .next (s.verbTake h vReadObj 0 (beBytes 4 a ++ beBytes 2 n) (submitOk a n) fun s x =>
    let s := s.accepted
    if !s.allowed 0 a n false then (s.violation 0 a).reply x vReadObj rProt 0 []
    else (s.replyLater x vReadObj).readStart x a n)

/-- HEALTH (R419). -/
def execHealth (h : VerbHdr) (s : State) : Out :=
  .next (s.verbTake h vHealth 1 [] true fun s x =>
    let (pct, s) := s.takeMarch
    s.accepted.reply x vHealth rDone 0 (s.healthBytes s.dup.hrSeq pct))

/-- READ_CAIRN (R458). -/
def execReadCairn (h : VerbHdr) (area : Byte) (first count : BitVec 16) (s : State) : Out :=
  let f := first.toNat
  let n := count.toNat
  let slots := if area = 0 then 16320 else 64
  .next (s.verbTake h vReadCairn 4 (beBytes 1 area.toNat ++ [0] ++ beBytes 2 f ++ beBytes 2 n)
    (decide (area.toNat ≤ 1) && decide (1 ≤ n) && decide (n ≤ 31) && decide (f + n ≤ slots)) fun s x =>
    let s := s.accepted.modSess x fun v => { v with reading := true }
    let next := if area = 0 then s.fget Reg.CAIRN_STAT_FILL else s.fget Reg.CAIRN_STAT_LW_NEXT
    s.reply x vReadCairn rDone 0 (beBytes 1 area.toNat ++ [0] ++ beBytes 2 next ++ beBytes 2 f ++ beBytes 2 n ++
      mslice 0 s.mram ((if area = 0 then cairnMain else cairnRing) + 32 * f) (32 * n)))

/-- READ_LEDGER (R463): door leaves only. -/
def execReadLedger (h : VerbHdr) (door : Byte) (first count : BitVec 16) (s : State) : Out :=
  let f := first.toNat
  let n := count.toNat
  let k := door.toNat
  .next (s.verbTake h vReadLedger 6 (beBytes 1 k ++ [0] ++ beBytes 2 f ++ beBytes 2 n)
    (decide (k < 12) && s.ilRole k == 1 && decide (1 ≤ n) && decide (n ≤ 31) && decide (f + n ≤ 4096)) fun s x =>
    s.accepted.reply x vReadLedger rDone 0 (beBytes 1 k ++ [0] ++
      beBytes 2 (if s.fbit (Reg.LDG_STAT_EMPTY k) then 0xFFFF else s.fget (Reg.LDG_STAT_NEWEST k)) ++ beBytes 4 (s.fget (Reg.LT_CYCLES_CYCLES k)) ++
      mslice 0 s.mram (0x10400000 + k * 0x20000 + 32 * f) (32 * n)))

/-! ### Changes (chapter 6) -/

/-- WRITE_PARAM (R173). -/
def execWriteParam (h : VerbHdr) (expGen : Word) (point : BitVec 64) (entries : List (BitVec 16 × Word)) (s : State) : Out :=
  let es := entries.map fun e => (e.1.toNat, e.2.toNat)
  let body := beBytes 4 expGen.toNat ++ beBytes 8 point.toNat ++ beBytes 1 es.length ++ [0, 0, 0] ++
    (es.map fun e => beBytes 2 e.1 ++ [0, 0] ++ beBytes 4 e.2).flatten
  .next (s.verbTake h vWriteParam 2 body true fun s x =>
    s.agreed x vWriteParam s.agreeChange fun s => (s.replyLater x vWriteParam).writeParam (some x) expGen.toNat point.toNat es)

/-- R178. The chunk at `off` continues the set received so far. -/
def State.chunkFits (s : State) (off : Nat) : Bool :=
  off == 0 || (match s.chg.load with | some (_, b) => b.length == off && !s.chg.verify | none => false)

/-- R380. A set whose entries do not fill it is malformed: the load is given up. -/
def State.loadDrop (s : State) : State :=
  let s := match s.chg.load with
    | some (i, _) => if i < 2 ∧ s.slotState i = slLoading then (s.setSlot i slEmpty).fset Reg.CHG_STAT_SWAP_STATE 0 else s
    | none => s
  { s with chg := { s.chg with load := none } }

/-- R178. The entries of a set fill it: 1 to 24 of them, no task named twice. -/
def setForm (b : List Byte) : Bool :=
  match parseSet 24 b with
  | some es => !es.isEmpty && es.all fun e => (es.filter fun f => f.1 == e.1).length == 1
  | none => false

/-- LOAD_PROGRAM (R178): a chunk that does not continue the set, or that ends a malformed one, is `BAD_FORMAT`. -/
def execLoadProgram (h : VerbHdr) (offset : Word) (last : Bool) (chunk : List Byte) (s : State) : Out :=
  let off := offset.toNat
  .next (s.verbTake h vLoad 3 (beBytes 4 off ++ beBytes 1 (b2n last) ++ [0, 0, 0] ++ chunk)
    (decide (chunk.length ≤ 1016) && s.chunkFits off && (off != 0 || decide (12 ≤ chunk.length))) fun s x =>
    s.agreed x vLoad s.agreeChange fun s =>
      if s.chg.verify ∨ (s.chg.load.isSome ∧ (s.slotIn slVerified).isSome) then
        ((s.swapRes gBusy 0 0).swapRecord cCHG_REFUSED 0).reply x vLoad rResult gBusy []
      else
        let whole := if off = 0 then chunk else (match s.chg.load with | some (_, b) => b | none => []) ++ chunk
        if last && !setForm (whole.drop 12) then s.loadDrop.reply x vLoad rFormat 0 []
        else (s.replyLater x vLoad).loadChunk (some x) off last chunk)

/-- SWITCH_PROGRAM (R180). -/
def execSwitchProgram (h : VerbHdr) (point : BitVec 64) (s : State) : Out :=
  .next (s.verbTake h vSwitch 3 (beBytes 8 point.toNat) true fun s x =>
    s.agreed x vSwitch s.agreeChange fun s => (s.replyLater x vSwitch).switchArm (some x) point.toNat)

/-- REVERT (R183). -/
def execRevert (h : VerbHdr) (point : BitVec 64) (s : State) : Out :=
  .next (s.verbTake h vRevert 3 (beBytes 8 point.toNat) true fun s x =>
    s.agreed x vRevert s.agreeChange fun s => (s.replyLater x vRevert).revertArm (some x) point.toNat)

/-! ### CLEAR_CAIRN (R457) -/

/-- Table 13.8. CLEAR_CAIRN in session `x`. -/
def State.agreeClear (s : State) (x : Nat) : Agree :=
  match s.needMaint with
  | some a => a
  | none =>
    if ([0, 1, 2, 3].filter fun i => i != x).any fun i => match s.sess i with | some v => v.reading | none => false then .defer else .accept

/-- R457. The three steps. -/
def State.cairnClear (s : State) (x : Nat) : State :=
  let fill := s.fget Reg.CAIRN_STAT_FILL
  let role := match s.sess x with | some v => v.role | none => 0xFF
  let s := { s with mram := mclear cairnMain (32 * 16320) s.mram }
  let s := (s.fset Reg.CAIRN_STAT_FILL 0).fset Reg.CAIRN_STAT_FULL 0
  let r : CRec := { sev := severity cCAIRN_CLEARED, slot := 0, code := cCAIRN_CLEARED, task := 31, opSec := s.opSec
                    frac := s.opCount % 65536, suppr := 0, cyc := s.refCycle, data := leBytes 2 fill ++ leBytes 1 role }
  (s.cairnPut r).replyNow x vClearCairn rDone 0 []

/-- CLEAR_CAIRN, decided now. -/
def State.clearDecide (s : State) (x : Nat) (i : Waiting) : State := s.mayDefer x vClearCairn i (s.agreeClear x) fun s => s.cairnClear x

/-- CLEAR_CAIRN (R457). -/
def execClearCairn (h : VerbHdr) (s : State) : Out :=
  .next (s.verbTake h vClearCairn 5 [] true fun s x => (s.replyLater x vClearCairn).clearDecide x .clearCairn)

/-! ### SET_MODE (R51, R53) -/

/-- Table 13.8, R53. SET_MODE enter. -/
def State.agreeEnter (s : State) : Agree :=
  if s.mode = mStandby then .refuse 0x02
  else if s.mode ≠ mActive ∨ s.modeReq.isSome ∨ s.power.park ≠ 0 then .refuse 0x01
  else if !s.fbit Reg.IL_STAT_ZS_PROVEN then .refuse 0x04
  else if !s.tractionOff then .refuse 0x05
  else .accept

/-- The reply `DONE` of session `x` goes out at the next commit point. -/
def State.doneAtCommit (s : State) (x verb : Nat) : State :=
  let s := s.replyLater x verb
  { s with net := { s.net with atCommit := s.net.atCommit ++ [(x, verb)] } }

/-- SET_MODE_ENTER (R53): the mode changes at a commit point. -/
def execSetModeEnter (h : VerbHdr) (s : State) : Out :=
  .next (s.verbTake h vSetMode 7 [1] true fun s x =>
    s.agreed x vSetMode s.agreeEnter fun s =>
      let s := { s with
        modeReq := some { mode := mMaint, trig := trEnter }, net := { s.net with maintIdle := s.time.mono, maintSess := some x } }
      (s.doneAtCommit x vSetMode).stageNow)

/-- SET_MODE_LEAVE (R51). -/
def execSetModeLeave (h : VerbHdr) (s : State) : Out :=
  .next (s.verbTake h vSetMode 7 [2] true fun s x =>
    s.agreed x vSetMode (if s.mode = mStandby then .refuse 0x02 else if s.mode = mMaint ∧ s.modeReq.isNone then .accept else .refuse 0x01)
      fun s => (({ s with modeReq := some { mode := mActive, trig := trLeave } }).doneAtCommit x vSetMode).stageNow)

/-- MAINT_IDLE_TIMEOUT (R51, R383). -/
def execMaintIdleTimeout (s : State) : Out :=
  .next (
    if s.mode ≠ mMaint ∨ s.modeReq.isSome then s
    else
      let s := s.toMono (s.net.maintIdle + s.topoN 0x0101 0 4 2 600 * 1000000000)
      ({ s with modeReq := some { mode := mActive, trig := trIdle } }).stageNow)

/-! ### DOOR_TEST and LEARN_PROFILE (R389) -/

/-- R389. A start on channel `k`. -/
def State.agreeRun (s : State) (k : Nat) : Agree :=
  match s.needMaint with
  | some a => a
  | none =>
    let st := s.chanIn k 0
    let still := if s.ilRole k = 1 then [dLocked, dReleased, dOpen, dHalted].contains st else [tStowed, tDeployed, tHalted].contains st
    if s.ilRole k = 0 || !s.dieValid (chSlot k) || (mget none s.net.holds k).isSome then .refuse 0x09
    else if still then .accept
    else if inMotion st || st == dReversing then .defer
    else .refuse 0x09

/-- R389. The command is staged in the block of channel `k`, one above the `CMD_SEQ` last staged. -/
def State.runStart (s : State) (x verb k cmd : Nat) : State :=
  let seq := ((mget 0 (s.link (chSlot k)).sentOut (16 * (k % 4) + 1)).toNat + 1) % 256
  let h : Hold := { cmd, seq, phase := 0, from_ := s.chanIn k 0, sess := some (x, verb) }
  ({ s with net := { s.net with holds := mset none s.net.holds k (some h) } }).stageNow

/-- A start, decided now. -/
def State.runDecide (s : State) (x verb k : Nat) (i : Waiting) : State :=
  s.mayDefer x verb i (s.agreeRun k) fun s => s.runStart x verb k (if verb = vLearn then 6 else 5)

/-- R389. An abort stages `CMD` 3 in place of the run that is held (DESIGN CHOICE: without one it is refused with `CHANNEL_STATE`). -/
def State.runAbort (s : State) (x verb k : Nat) : State :=
  let a : Agree :=
    match s.needMaint, mget none s.net.holds k with
    | some a, _ => a
    | none, some h => if h.phase ≤ 1 ∧ h.cmd = (if verb = vLearn then 6 else 5) then .accept else .refuse 0x09
    | none, none => .refuse 0x09
  s.agreed x verb a fun s => (s.replyLater x verb).runStart x verb k 3

/-- DOOR_TEST_START (R389). -/
def execDoorTestStart (h : VerbHdr) (ch : Byte) (s : State) : Out :=
  .next (s.verbTake h vDoorTest 8 [ch, 0] (decide (ch.toNat < 12)) fun s x =>
    (s.replyLater x vDoorTest).runDecide x vDoorTest ch.toNat (.run false ch.toNat))

/-- DOOR_TEST_ABORT (R389). -/
def execDoorTestAbort (h : VerbHdr) (ch : Byte) (s : State) : Out :=
  .next (s.verbTake h vDoorTest 8 [ch, 1] (decide (ch.toNat < 12)) fun s x => s.runAbort x vDoorTest ch.toNat)

/-- LEARN_PROFILE_START (R389). -/
def execLearnProfileStart (h : VerbHdr) (ch : Byte) (s : State) : Out :=
  .next (s.verbTake h vLearn 9 [ch, 0] (decide (ch.toNat < 12)) fun s x =>
    (s.replyLater x vLearn).runDecide x vLearn ch.toNat (.run true ch.toNat))

/-- LEARN_PROFILE_ABORT (R389). -/
def execLearnProfileAbort (h : VerbHdr) (ch : Byte) (s : State) : Out :=
  .next (s.verbTake h vLearn 9 [ch, 1] (decide (ch.toNat < 12)) fun s x => s.runAbort x vLearn ch.toNat)

/-! ### FORCE_OUTPUT (R388) -/

/-- R388. FORCE_OUTPUT of `kind` on number `n`. -/
def State.agreeForce (s : State) (kind n : Nat) : Agree :=
  match s.needMaint with
  | some a => a
  | none =>
    if kind = 1 then
      (if !s.fitted (4 + n / 12) || (s.topo? 0x0501 n).isNone || s.topoN 0x0501 n 10 1 0 == 2 then .refuse 0x09 else .accept)
    else if kind = 2 then
      (if !s.fitted (6 + n / 16) then .refuse 0x09
       else if bit (s.topoN 0x0604 (n / 16) (4 * (n % 16) + 2) 1 4) 0 || s.pairOuts.contains n then .refuse 0x08 else .accept)
    else if s.canOn n then .accept else .refuse 0x09

/-- FORCE_OUTPUT (R388, R353): in force from the commit of its acceptance. -/
def execForceOutput (h : VerbHdr) (kind num value : Byte) (s : State) : Out :=
  let n := num.toNat
  let v := value.toNat
  let limit := if kind = 1 then 24 else if kind = 2 then 32 else 4
  .next (s.verbTake h vForce 10 [kind, num, value, 0]
    (decide (1 ≤ kind.toNat) && decide (kind.toNat ≤ 3) && decide (n < limit) && decide (v ≤ 2)) fun s x =>
    s.agreed x vForce (s.agreeForce kind.toNat n) fun s =>
      if kind = 3 then (s.fset (Reg.CAN_STAT_LOOP n) v).reply x vForce rDone 0 []
      else
        let i := if kind = 1 then n else 64 + n
        let s := { s with net := { s.net with forces := mset 0 s.net.forces i (if v = 2 then 0 else v + 1) } }
        (s.doneAtCommit x vForce).stageNow)

/-! ### BUSOFF_RECOVER, RESET (R346, R62) -/

/-- BUSOFF_RECOVER (R346, R385). -/
def execBusoffRecover (h : VerbHdr) (c : Byte) (s : State) : Out :=
  let n := c.toNat
  .next (s.verbTake h vBusoff 11 [c] (decide (n < 4)) fun s x =>
    let off := s.fget (Reg.CAN_STAT_ERR_STATE n) == 2 && !s.fbit (Reg.CAN_STAT_RECOVERING n)
    let a : Agree := if s.mode = mStandby then .refuse 0x02 else if !s.driving then .refuse 0x01 else if off then .accept else .refuse 0x0A
    s.agreed x vBusoff a fun s => (s.canRecover n).reply x vBusoff rDone 0 [])

/-- RESET (R385): the reset waits for the first commit point after the reply. -/
def execReset (h : VerbHdr) (s : State) : Out :=
  .next (s.verbTake h vReset 12 [] true fun s x =>
    let peer := s.fbit Reg.DUP_STAT_PRESENT && s.fget Reg.DUP_STAT_PEER_MODE == mStandby && s.fbit Reg.DUP_STAT_PEER_HEALTHY
    let a : Agree := if s.mode = mActive ∧ !(s.fbit Reg.IL_STAT_ZS_PROVEN || peer) then .refuse 0x04 else .accept
    s.agreed x vReset a fun s =>
      let s := s.reply x vReset rDone 0 []
      { s with net := { s.net with resetDue := true } })

/-- VERB_RESET (R62). -/
def execVerbReset (s : State) : Out :=
  .next (if !s.net.resetDue || s.inReset || s.mode == mPark then s else (s.toDev (commitPt s.time.gc)).deviceReset 5)

/-! ### Deferred verbs (R386) -/

/-- DEFER_RESOLVE (R386): the verb that session `x` has deferred is evaluated again at a commit point. -/
def execDeferResolve (x : Fin 4) (s : State) : Out :=
  .next (
    match s.sess x with
    | some v =>
      match v.deferred with
      | some (.clearCairn, _) => s.clearDecide x .clearCairn
      | some (.run learn k, _) => s.runDecide x (if learn then vLearn else vDoorTest) k (.run learn k)
      | none => s
    | none => s)

/-- The verb code of a deferred verb. -/
def deferredVerb : Waiting → Nat
  | .clearCairn => vClearCairn
  | .run learn _ => if learn then vLearn else vDoorTest

/-- DEFER_TIMEOUT (R386). -/
def execDeferTimeout (x : Fin 4) (s : State) : Out :=
  .next (
    match s.sess x with
    | some v =>
      match v.deferred with
      | some (i, t) => (((s.toMono (t + s.topoN 0x0806 0 8 2 10000 * 1000000)).setDeferred x none).refuseLate x (deferredVerb i) 0x0B)
      | none => s
    | none => s)

end Sys2Proof.Machine
end

