-- ==== Sys2Proof/Machine/Dispatch.lean ====
section
/-! DEFINITION. The command dispatch: one arm per row of spec/opcode_table.json, each one direct call of its meaning. -/

namespace Sys2Proof.Machine

/-- The effect of a command on everything but the queue. -/
def exec (i : Instr) (s : State) : Host.Outcome State Fault Refusal :=
  match i with
  | .linkUp n => Sys2Proof.Machine.execLinkUp n s
  | .linkDown n => Sys2Proof.Machine.execLinkDown n s
  | .linkRetrain n => Sys2Proof.Machine.execLinkRetrain n s
  | .frameAbort n toSat => Sys2Proof.Machine.execFrameAbort n toSat s
  | .lreset n => Sys2Proof.Machine.execLreset n s
  | .sampleEmit => Sys2Proof.Machine.execSampleEmit s
  | .sampleLatch n => Sys2Proof.Machine.execSampleLatch n s
  | .samplePoint => Sys2Proof.Machine.execSamplePoint s
  | .input n rx => Sys2Proof.Machine.execInput n rx s
  | .inputDeadline => Sys2Proof.Machine.execInputDeadline s
  | .stage n rx => Sys2Proof.Machine.execStage n rx s
  | .stageResend n => Sys2Proof.Machine.execStageResend n s
  | .ack n rx => Sys2Proof.Machine.execAck n rx s
  | .ackDeadline n => Sys2Proof.Machine.execAckDeadline n s
  | .stageDiscard n => Sys2Proof.Machine.execStageDiscard n s
  | .commitEmit => Sys2Proof.Machine.execCommitEmit s
  | .commitApply n => Sys2Proof.Machine.execCommitApply n s
  | .commitPoint => Sys2Proof.Machine.execCommitPoint s
  | .confirm n rx => Sys2Proof.Machine.execConfirm n rx s
  | .confirmDeadline => Sys2Proof.Machine.execConfirmDeadline s
  | .publish => Sys2Proof.Machine.execPublish s
  | .nak n toSat rx => Sys2Proof.Machine.execNak n toSat rx s
  | .syncSend => Sys2Proof.Machine.execSyncSend s
  | .sync n rx => Sys2Proof.Machine.execSync n rx s
  | .regWr n rx => Sys2Proof.Machine.execRegWr n rx s
  | .regRd n rx => Sys2Proof.Machine.execRegRd n rx s
  | .regRsp n rx => Sys2Proof.Machine.execRegRsp n rx s
  | .regAccessTimeout n => Sys2Proof.Machine.execRegAccessTimeout n s
  | .event n rx => Sys2Proof.Machine.execEvent n rx s
  | .resync n rx => Sys2Proof.Machine.execResync n rx s
  | .trace n rx => Sys2Proof.Machine.execTrace n rx s
  | .profileFrame n rx => Sys2Proof.Machine.execProfileFrame n rx s
  | .ledgerStateFrame n rx => Sys2Proof.Machine.execLedgerStateFrame n rx s
  | .probe n rx => Sys2Proof.Machine.execProbe n rx s
  | .echo n rx rtt => Sys2Proof.Machine.execEcho n rx rtt s
  | .latencyRemeasure n => Sys2Proof.Machine.execLatencyRemeasure n s
  | .latencyExclude n => Sys2Proof.Machine.execLatencyExclude n s
  | .enumLinkTimeout n => Sys2Proof.Machine.execEnumLinkTimeout n s
  | .snapReq => Sys2Proof.Machine.execSnapReq s
  | .snapDone => Sys2Proof.Machine.execSnapDone s
  | .registerWrite addr v => Sys2Proof.Machine.execRegisterWrite addr v s
  | .rcRead addr => Sys2Proof.Machine.execRcRead addr s
  | .por seatB => Sys2Proof.Machine.execPor seatB s
  | .pfail => Sys2Proof.Machine.execPfail s
  | .pin => Sys2Proof.Machine.execPin s
  | .wdt => Sys2Proof.Machine.execWdt s
  | .schedulerTick => Sys2Proof.Machine.execSchedulerTick s
  | .bootStep o => Sys2Proof.Machine.execBootStep o s
  | .shadowCopy complete => Sys2Proof.Machine.execShadowCopy complete s
  | .maintIdleTimeout => Sys2Proof.Machine.execMaintIdleTimeout s
  | .parkEntry => Sys2Proof.Machine.execParkEntry s
  | .wake => Sys2Proof.Machine.execWake s
  | .canWake c => Sys2Proof.Machine.execCanWake c s
  | .aonWake => Sys2Proof.Machine.execAonWake s
  | .keepBanksReady => Sys2Proof.Machine.execKeepBanksReady s
  | .vlLow vl => Sys2Proof.Machine.execVlLow vl s
  | .pfWarn => Sys2Proof.Machine.execPfWarn s
  | .pfTaskDeadline => Sys2Proof.Machine.execPfTaskDeadline s
  | .pfCommit => Sys2Proof.Machine.execPfCommit s
  | .saved => Sys2Proof.Machine.execSaved s
  | .saveAborted => Sys2Proof.Machine.execSaveAborted s
  | .pfClaimWithdraw => Sys2Proof.Machine.execPfClaimWithdraw s
  | .scopedResetCan c => Sys2Proof.Machine.execScopedResetCan c s
  | .scopedResetQp => Sys2Proof.Machine.execScopedResetQp s
  | .scopedResetRope => Sys2Proof.Machine.execScopedResetRope s
  | .scopedResetLink n => Sys2Proof.Machine.execScopedResetLink n s
  | .ld l o => Sys2Proof.Machine.execLd l o s
  | .ldn l o => Sys2Proof.Machine.execLdn l o s
  | .and_ l o => Sys2Proof.Machine.execAnd l o s
  | .andn l o => Sys2Proof.Machine.execAndn l o s
  | .or_ l o => Sys2Proof.Machine.execOr l o s
  | .orn l o => Sys2Proof.Machine.execOrn l o s
  | .xor_ l o => Sys2Proof.Machine.execXor l o s
  | .ab l => Sys2Proof.Machine.execAb l s
  | .ob l => Sys2Proof.Machine.execOb l s
  | .be l => Sys2Proof.Machine.execBe l s
  | .st l o => Sys2Proof.Machine.execSt l o s
  | .stn l o => Sys2Proof.Machine.execStn l o s
  | .set_ l o => Sys2Proof.Machine.execSet l o s
  | .rst l o => Sys2Proof.Machine.execRst l o s
  | .pe l o => Sys2Proof.Machine.execPe l o s
  | .ne l o => Sys2Proof.Machine.execNe l o s
  | .ton l o => Sys2Proof.Machine.execTon l o s
  | .tof l o => Sys2Proof.Machine.execTof l o s
  | .tp l o => Sys2Proof.Machine.execTp l o s
  | .ctu l n => Sys2Proof.Machine.execCtu l n s
  | .ctuR l n => Sys2Proof.Machine.execCtuR l n s
  | .ctd l n => Sys2Proof.Machine.execCtd l n s
  | .ctdL l n => Sys2Proof.Machine.execCtdL l n s
  | .ctud l n => Sys2Proof.Machine.execCtud l n s
  | .ctudR l n => Sys2Proof.Machine.execCtudR l n s
  | .ctudL l n => Sys2Proof.Machine.execCtudL l n s
  | .ctudD l n => Sys2Proof.Machine.execCtudD l n s
  | .lw l o => Sys2Proof.Machine.execLw l o s
  | .lwk l lit => Sys2Proof.Machine.execLwk l lit s
  | .sw l o => Sys2Proof.Machine.execSw l o s
  | .lwx l o => Sys2Proof.Machine.execLwx l o s
  | .swx l o => Sys2Proof.Machine.execSwx l o s
  | .lix l => Sys2Proof.Machine.execLix l s
  | .add l o => Sys2Proof.Machine.execAdd l o s
  | .sub l o => Sys2Proof.Machine.execSub l o s
  | .mul l o => Sys2Proof.Machine.execMul l o s
  | .div l o => Sys2Proof.Machine.execDiv l o s
  | .mod l o => Sys2Proof.Machine.execMod l o s
  | .cmpEq l o => Sys2Proof.Machine.execCmpEq l o s
  | .cmpNe l o => Sys2Proof.Machine.execCmpNe l o s
  | .cmpLt l o => Sys2Proof.Machine.execCmpLt l o s
  | .cmpLe l o => Sys2Proof.Machine.execCmpLe l o s
  | .cmpGt l o => Sys2Proof.Machine.execCmpGt l o s
  | .cmpGe l o => Sys2Proof.Machine.execCmpGe l o s
  | .limit l o => Sys2Proof.Machine.execLimit l o s
  | .scl l o => Sys2Proof.Machine.execScl l o s
  | .movb l o => Sys2Proof.Machine.execMovb l o s
  | .atadd l o => Sys2Proof.Machine.execAtadd l o s
  | .atswp l o => Sys2Proof.Machine.execAtswp l o s
  | .xlock l obj => Sys2Proof.Machine.execXlock l obj s
  | .xfree l obj => Sys2Proof.Machine.execXfree l obj s
  | .xreqPark l => Sys2Proof.Machine.execXreqPark l s
  | .xreqTransmit l c b => Sys2Proof.Machine.execXreqTransmit l c b s
  | .xreqCancel l c b => Sys2Proof.Machine.execXreqCancel l c b s
  | .xreqRecover l c => Sys2Proof.Machine.execXreqRecover l c s
  | .xreqReset l c => Sys2Proof.Machine.execXreqReset l c s
  | .warn l user => Sys2Proof.Machine.execWarn l user s
  | .faultI l user stop => Sys2Proof.Machine.execFault l user stop s
  | .jmp l target => Sys2Proof.Machine.execJmp l target s
  | .jc l target => Sys2Proof.Machine.execJc l target s
  | .jnc l target => Sys2Proof.Machine.execJnc l target s
  | .call l target => Sys2Proof.Machine.execCall l target s
  | .ret l => Sys2Proof.Machine.execRet l s
  | .endAct l => Sys2Proof.Machine.execEnd l s
  | .laneRejoin l => Sys2Proof.Machine.execLaneRejoin l s
  | .voterSelftest sound flags => Sys2Proof.Machine.execVoterSelftest sound flags s
  | .userTimerTrigger t => Sys2Proof.Machine.execUserTimerTrigger t s
  | .etAbandon t => Sys2Proof.Machine.execEtAbandon t s
  | .checkpointCut => Sys2Proof.Machine.execCheckpointCut s
  | .checkpointComplete ns => Sys2Proof.Machine.execCheckpointComplete ns s
  | .writeParam h expGen point entries => Sys2Proof.Machine.execWriteParam h expGen point entries s
  | .paramApply => Sys2Proof.Machine.execParamApply s
  | .loadProgram h offset last chunk => Sys2Proof.Machine.execLoadProgram h offset last chunk s
  | .loadVerifyDone => Sys2Proof.Machine.execLoadVerifyDone s
  | .switchProgram h point => Sys2Proof.Machine.execSwitchProgram h point s
  | .programSwitch => Sys2Proof.Machine.execProgramSwitch s
  | .probationEnd => Sys2Proof.Machine.execProbationEnd s
  | .revert h point => Sys2Proof.Machine.execRevert h point s
  | .revertApply => Sys2Proof.Machine.execRevertApply s
  | .peerNoAck => Sys2Proof.Machine.execPeerNoAck s
  | .gateFault k low => Sys2Proof.Machine.execGateFault k low s
  | .currentLoopTick k iu iv vdc => Sys2Proof.Machine.execCurrentLoopTick k iu iv vdc s
  | .speedLoopTick k => Sys2Proof.Machine.execSpeedLoopTick k s
  | .profileTick k => Sys2Proof.Machine.execProfileTick k s
  | .offsetWait k => Sys2Proof.Machine.execOffsetWait k s
  | .offsetMeasured k iu iv => Sys2Proof.Machine.execOffsetMeasured k iu iv s
  | .dsmLoss k gone => Sys2Proof.Machine.execDsmLoss k gone s
  | .hall k code => Sys2Proof.Machine.execHall k code s
  | .encoder k code => Sys2Proof.Machine.execEncoder k code s
  | .dcHigh k high => Sys2Proof.Machine.execDcHigh k high s
  | .dcLow k => Sys2Proof.Machine.execDcLow k s
  | .dcRecovery k => Sys2Proof.Machine.execDcRecovery k s
  | .localInputDebounce k n raw => Sys2Proof.Machine.execLocalInputDebounce k n raw s
  | .forceEstimate k => Sys2Proof.Machine.execForceEstimate k s
  | .obstacle k => Sys2Proof.Machine.execObstacle k s
  | .speedDeficit k => Sys2Proof.Machine.execSpeedDeficit k s
  | .doorEval k => Sys2Proof.Machine.execDoorEval k s
  | .stepEval k => Sys2Proof.Machine.execStepEval k s
  | .homeConfirm k => Sys2Proof.Machine.execHomeConfirm k s
  | .proofPlaus k => Sys2Proof.Machine.execProofPlaus k s
  | .lockMoveTimeout k => Sys2Proof.Machine.execLockMoveTimeout k s
  | .strokeTimeout k => Sys2Proof.Machine.execStrokeTimeout k s
  | .stepContact k => Sys2Proof.Machine.execStepContact k s
  | .reverseWaitEnd k => Sys2Proof.Machine.execReverseWaitEnd k s
  | .testHoldEnd k => Sys2Proof.Machine.execTestHoldEnd k s
  | .doorSilence d => Sys2Proof.Machine.execDoorSilence d s
  | .doorEventFlush k => Sys2Proof.Machine.execDoorEventFlush k s
  | .traceSample k => Sys2Proof.Machine.execTraceSample k s
  | .drvModeWrite d shadow => Sys2Proof.Machine.execDrvModeWrite d shadow s
  | .shadowResume k => Sys2Proof.Machine.execShadowResume k s
  | .shadowDiverge k => Sys2Proof.Machine.execShadowDiverge k s
  | .baseLoaded d => Sys2Proof.Machine.execBaseLoaded d s
  | .profileStore k => Sys2Proof.Machine.execProfileStore k s
  | .zsProven => Sys2Proof.Machine.execZsProven s
  | .zsDiscrepant => Sys2Proof.Machine.execZsDiscrepant s
  | .zsDiscrepantClear => Sys2Proof.Machine.execZsDiscrepantClear s
  | .relDiscrepant right => Sys2Proof.Machine.execRelDiscrepant right s
  | .teReadback half => Sys2Proof.Machine.execTeReadback half s
  | .ilStale => Sys2Proof.Machine.execIlStale s
  | .lswModeWrite d stby => Sys2Proof.Machine.execLswModeWrite d stby s
  | .loadEval x vf ua temps out limit bad ended => Sys2Proof.Machine.execLoadEval x vf ua temps out limit bad ended s
  | .loadShort x => Sys2Proof.Machine.execLoadShort x s
  | .wireModel x => Sys2Proof.Machine.execWireModel x s
  | .loadReverse x => Sys2Proof.Machine.execLoadReverse x s
  | .inrushEnd x regulating => Sys2Proof.Machine.execInrushEnd x regulating s
  | .rearm x => Sys2Proof.Machine.execRearm x s
  | .openOn x => Sys2Proof.Machine.execOpenOn x s
  | .offStateCheck x out1 out2 => Sys2Proof.Machine.execOffStateCheck x out1 out2 s
  | .bandDrop d vf => Sys2Proof.Machine.execBandDrop d vf s
  | .bandRise d vf => Sys2Proof.Machine.execBandRise d vf s
  | .dipRestore x => Sys2Proof.Machine.execDipRestore x s
  | .pairImbalance x lo hi => Sys2Proof.Machine.execPairImbalance x lo hi s
  | .loadEventFlush x => Sys2Proof.Machine.execLoadEventFlush x s
  | .peerReleaseIn => Sys2Proof.Machine.execPeerReleaseIn s
  | .peerReleaseInNegate => Sys2Proof.Machine.execPeerReleaseInNegate s
  | .viLow f vi => Sys2Proof.Machine.execViLow f vi s
  | .viRecover f vi => Sys2Proof.Machine.execViRecover f vi s
  | .fieldSideStop f vi => Sys2Proof.Machine.execFieldSideStop f vi s
  | .fieldSideRestart f vi => Sys2Proof.Machine.execFieldSideRestart f vi s
  | .fieldInputDebounce f c raw => Sys2Proof.Machine.execFieldInputDebounce f c raw s
  | .ftmo f j => Sys2Proof.Machine.execFtmo f j s
  | .ovl f c => Sys2Proof.Machine.execOvl f c s
  | .ovlRetry f c success => Sys2Proof.Machine.execOvlRetry f c success s
  | .outItem f rx => Sys2Proof.Machine.execOutItem f rx s
  | .applyItem f rx => Sys2Proof.Machine.execApplyItem f rx s
  | .tickItem f rx => Sys2Proof.Machine.execTickItem f rx s
  | .ackw f rx => Sys2Proof.Machine.execAckw f rx s
  | .inItem f rx vi rb => Sys2Proof.Machine.execInItem f rx vi rb s
  | .xloss f field => Sys2Proof.Machine.execXloss f field s
  | .crossingRestore f => Sys2Proof.Machine.execCrossingRestore f s
  | .heartbeatLoss f field => Sys2Proof.Machine.execHeartbeatLoss f field s
  | .fioSilence f => Sys2Proof.Machine.execFioSilence f s
  | .fioModeWrite f stby => Sys2Proof.Machine.execFioModeWrite f stby s
  | .canJoin c => Sys2Proof.Machine.execCanJoin c s
  | .canRxFrame c f own => Sys2Proof.Machine.execCanRxFrame c f own s
  | .canRxTimeout c b => Sys2Proof.Machine.execCanRxTimeout c b s
  | .canTxStart c => Sys2Proof.Machine.execCanTxStart c s
  | .canTxDone c => Sys2Proof.Machine.execCanTxDone c s
  | .canTxError c err tec rec => Sys2Proof.Machine.execCanTxError c err tec rec s
  | .canRecovered c => Sys2Proof.Machine.execCanRecovered c s
  | .protocolException c => Sys2Proof.Machine.execProtocolException c s
  | .canRefMessage c f => Sys2Proof.Machine.execCanRefMessage c f s
  | .canRefSend c => Sys2Proof.Machine.execCanRefSend c s
  | .canTtWindow c w busy => Sys2Proof.Machine.execCanTtWindow c w busy s
  | .canTtSyncLoss c => Sys2Proof.Machine.execCanTtSyncLoss c s
  | .canLbTest c back collide => Sys2Proof.Machine.execCanLbTest c back collide s
  | .mdioPoll p v gig => Sys2Proof.Machine.execMdioPoll p v gig s
  | .arpRequest p ip => Sys2Proof.Machine.execArpRequest p ip s
  | .icmpEcho p ip => Sys2Proof.Machine.execIcmpEcho p ip s
  | .pdReceive p comId srcIp counter payload => Sys2Proof.Machine.execPdReceive p comId srcIp counter payload s
  | .pdPublish n => Sys2Proof.Machine.execPdPublish n s
  | .telTimeout n => Sys2Proof.Machine.execTelTimeout n s
  | .planeLoss n b => Sys2Proof.Machine.execPlaneLoss n b s
  | .rximgDone wait => Sys2Proof.Machine.execRximgDone wait s
  | .scStale c => Sys2Proof.Machine.execScStale c s
  | .ptpSync p twoStep origin rxTime => Sys2Proof.Machine.execPtpSync p twoStep origin rxTime s
  | .ptpFollowUp p origin => Sys2Proof.Machine.execPtpFollowUp p origin s
  | .ptpDelayReq => Sys2Proof.Machine.execPtpDelayReq s
  | .ptpDelayResp p rxTime => Sys2Proof.Machine.execPtpDelayResp p rxTime s
  | .ptpAnnounce p msg => Sys2Proof.Machine.execPtpAnnounce p msg s
  | .ptpAnnounceTimeout => Sys2Proof.Machine.execPtpAnnounceTimeout s
  | .ptpLost => Sys2Proof.Machine.execPtpLost s
  | .openSession h role nc => Sys2Proof.Machine.execOpenSession h role nc s
  | .closeSession h => Sys2Proof.Machine.execCloseSession h s
  | .readObj h addr len => Sys2Proof.Machine.execReadObj h addr len s
  | .health h => Sys2Proof.Machine.execHealth h s
  | .readCairn h area first count => Sys2Proof.Machine.execReadCairn h area first count s
  | .clearCairn h => Sys2Proof.Machine.execClearCairn h s
  | .readLedger h door first count => Sys2Proof.Machine.execReadLedger h door first count s
  | .setModeEnter h => Sys2Proof.Machine.execSetModeEnter h s
  | .setModeLeave h => Sys2Proof.Machine.execSetModeLeave h s
  | .doorTestStart h ch => Sys2Proof.Machine.execDoorTestStart h ch s
  | .doorTestAbort h ch => Sys2Proof.Machine.execDoorTestAbort h ch s
  | .learnProfileStart h ch => Sys2Proof.Machine.execLearnProfileStart h ch s
  | .learnProfileAbort h ch => Sys2Proof.Machine.execLearnProfileAbort h ch s
  | .forceOutput h kind num value => Sys2Proof.Machine.execForceOutput h kind num value s
  | .busoffRecover h c => Sys2Proof.Machine.execBusoffRecover h c s
  | .reset h => Sys2Proof.Machine.execReset h s
  | .verbReset => Sys2Proof.Machine.execVerbReset s
  | .deferResolve x => Sys2Proof.Machine.execDeferResolve x s
  | .deferTimeout x => Sys2Proof.Machine.execDeferTimeout x s
  | .sessionIdle x => Sys2Proof.Machine.execSessionIdle x s
  | .openLockoutEnd => Sys2Proof.Machine.execOpenLockoutEnd s
  | .bootClaim => Sys2Proof.Machine.execBootClaim s
  | .takeover => Sys2Proof.Machine.execTakeover s
  | .claimSettle => Sys2Proof.Machine.execClaimSettle s
  | .claimInAssert => Sys2Proof.Machine.execClaimInAssert s
  | .claimConflict stuck => Sys2Proof.Machine.execClaimConflict stuck s
  | .claimAbandoned => Sys2Proof.Machine.execClaimAbandoned s
  | .claimLapse => Sys2Proof.Machine.execClaimLapse s
  | .peerReleaseEnd => Sys2Proof.Machine.execPeerReleaseEnd s
  | .claimGateClear => Sys2Proof.Machine.execClaimGateClear s
  | .ropeUp lat => Sys2Proof.Machine.execRopeUp lat s
  | .ropeDown => Sys2Proof.Machine.execRopeDown s
  | .ropeDegraded lane => Sys2Proof.Machine.execRopeDegraded lane s
  | .ropeRestore => Sys2Proof.Machine.execRopeRestore s
  | .hbSend => Sys2Proof.Machine.execHbSend s
  | .hb rx f => Sys2Proof.Machine.execHb rx f s
  | .peerLost => Sys2Proof.Machine.execPeerLost s
  | .belayDelta rx payload => Sys2Proof.Machine.execBelayDelta rx payload s
  | .belayReq rx => Sys2Proof.Machine.execBelayReq rx s
  | .belayFull rx gen off bytes last => Sys2Proof.Machine.execBelayFull rx gen off bytes last s
  | .healthSend => Sys2Proof.Machine.execHealthSend s
  | .healthReport rx bytes => Sys2Proof.Machine.execHealthReport rx bytes s
  | .change rx kind point bytes => Sys2Proof.Machine.execChange rx kind point bytes s
  | .changeAck rx point result => Sys2Proof.Machine.execChangeAck rx point result s
  | .park rx ccount => Sys2Proof.Machine.execPark rx ccount s
  | .cmpQuery rx t cycle mask => Sys2Proof.Machine.execCmpQuery rx t cycle mask s
  | .cmpVerdict rx t disagrees cycle => Sys2Proof.Machine.execCmpVerdict rx t disagrees cycle s
  | .cmpVerdictTimeout => Sys2Proof.Machine.execCmpVerdictTimeout s
  | .ropeNak rx seq => Sys2Proof.Machine.execRopeNak rx seq s
  | .ropeProbe rx tag => Sys2Proof.Machine.execRopeProbe rx tag s
  | .ropeEcho rx rtt => Sys2Proof.Machine.execRopeEcho rx rtt s
  | .profile rx k dir adapted bytes => Sys2Proof.Machine.execProfile rx k dir adapted bytes s
  | .resyncAlarmClear => Sys2Proof.Machine.execResyncAlarmClear s
  | .selftestMarch pass => Sys2Proof.Machine.execSelftestMarch pass s
  | .selftestEthernet pass => Sys2Proof.Machine.execSelftestEthernet pass s
  | .selftestLinkProbe n rtts => Sys2Proof.Machine.execSelftestLinkProbe n rtts s
  | .eccWriteback b addr overwritten => Sys2Proof.Machine.execEccWriteback b addr overwritten s
  | .ceAlarmClear => Sys2Proof.Machine.execCeAlarmClear s
  | .scrub ce ue => Sys2Proof.Machine.execScrub ce ue s
  | .fillDone b => Sys2Proof.Machine.execFillDone b s
  | .refresh addr corrected passEnd => Sys2Proof.Machine.execRefresh addr corrected passEnd s
  | .cairnWrite => Sys2Proof.Machine.execCairnWrite s
  | .tokenRefill code => Sys2Proof.Machine.execTokenRefill code s
  | .opCountSave => Sys2Proof.Machine.execOpCountSave s
  | .submitRead whole crc addr len => Sys2Proof.Machine.execSubmitRead whole crc addr len s
  | .submitWrite whole crc addr len data => Sys2Proof.Machine.execSubmitWrite whole crc addr len data s
  | .fetch ticket whole => Sys2Proof.Machine.execFetch ticket whole s
  | .qpAck ticket crc => Sys2Proof.Machine.execQpAck ticket crc s
  | .status => Sys2Proof.Machine.execStatus s
  | .qpReset magic crc => Sys2Proof.Machine.execQpReset magic crc s
  | .qpResetDone => Sys2Proof.Machine.execQpResetDone s
  | .refclkLoss => Sys2Proof.Machine.execRefclkLoss s
  | .pllUnlock pll => Sys2Proof.Machine.execPllUnlock pll s
  | .xtalFail => Sys2Proof.Machine.execXtalFail s
  | .vhuMeasured us => Sys2Proof.Machine.execVhuMeasured us s
  | .lbDieLink depth num => Sys2Proof.Machine.execLbDieLink depth num s
  | .lbRope depth => Sys2Proof.Machine.execLbRope depth s
  | .lbEthernet depth num => Sys2Proof.Machine.execLbEthernet depth num s
  | .lbXspi depth => Sys2Proof.Machine.execLbXspi depth s
  | .lbQueryPort depth => Sys2Proof.Machine.execLbQueryPort depth s
  | .lbDoorDrive depth num => Sys2Proof.Machine.execLbDoorDrive depth num s
  | .lbDoorInputs depth num => Sys2Proof.Machine.execLbDoorInputs depth num s
  | .lbLoadChannel depth num => Sys2Proof.Machine.execLbLoadChannel depth num s
  | .lbFieldIo depth num arg => Sys2Proof.Machine.execLbFieldIo depth num arg s
  | .loopbackDone pass errors => Sys2Proof.Machine.execLoopbackDone pass errors s
  | .extest cells capture => Sys2Proof.Machine.execExtest cells capture s
  | .samplePreload cells capture => Sys2Proof.Machine.execSamplePreload cells capture s
  | .idcode => Sys2Proof.Machine.execIdcode s
  | .clamp => Sys2Proof.Machine.execClamp s
  | .highz => Sys2Proof.Machine.execHighz s
  | .sysreset => Sys2Proof.Machine.execSysreset s
  | .dbgAttach => Sys2Proof.Machine.execDbgAttach s
  | .dbgHalt => Sys2Proof.Machine.execDbgHalt s
  | .dbgStep => Sys2Proof.Machine.execDbgStep s
  | .dbgResume => Sys2Proof.Machine.execDbgResume s
  | .dbgRegAccess r wr => Sys2Proof.Machine.execDbgRegAccess r wr s
  | .dbgMemAccess addr wr => Sys2Proof.Machine.execDbgMemAccess addr wr s
  | .dbgBufferRead n => Sys2Proof.Machine.execDbgBufferRead n s
  | .fuseRead => Sys2Proof.Machine.execFuseRead s
  | .fuseProg field value readBack vlOk => Sys2Proof.Machine.execFuseProg field value readBack vlOk s
  | .mbistRun fail => Sys2Proof.Machine.execMbistRun fail s
  | .lbistRun fail => Sys2Proof.Machine.execLbistRun fail s
  | .scanTest => Sys2Proof.Machine.execScanTest s
  | .bypass => Sys2Proof.Machine.execBypass s
  | .diePowerUp n => Sys2Proof.Machine.execDiePowerUp n s
  | .resetNRelease => Sys2Proof.Machine.execResetNRelease s
  | .outputOvertemp f c => Sys2Proof.Machine.execOutputOvertemp f c s
  | .outputCooled f c => Sys2Proof.Machine.execOutputCooled f c s
  | .heartbeatRestore f => Sys2Proof.Machine.execHeartbeatRestore f s
  | .fieldEventFlush f c => Sys2Proof.Machine.execFieldEventFlush f c s
  | .canRxError c err dataPhase tec rec => Sys2Proof.Machine.execCanRxError c err dataPhase tec rec s
  | .frameDiscarded p => Sys2Proof.Machine.execFrameDiscarded p s
  | .mdMalformed p => Sys2Proof.Machine.execMdMalformed p s
  | .qpUnknownCommand cmd => Sys2Proof.Machine.execQpUnknownCommand cmd s
  | .ioSupplyValid eth valid => Sys2Proof.Machine.execIoSupplyValid eth valid s
  | .testLogicReset => Sys2Proof.Machine.execTestLogicReset s

end Sys2Proof.Machine
end

