-- ==== Sys2Proof/WellFormed.lean ====
section
/-! DEFINITION. The operands a command may carry: what the frame or item it arrives with can hold (Tables 11.4, 12.1, 13.6, 14.2). A
word, a slot or a channel needs no check: its type bounds it. -/

namespace Sys2Proof

/-- Table 13.6. A verb frame carries a tag of 16 bytes. -/
def VerbHdr.wf (h : VerbHdr) : Bool := decide (h.tag.length = 16)

/-- The operands are ones that can occur. -/
def Instr.wf : Instr → Bool
  | .canRxFrame _ f _ => decide (f.data.length ≤ 64) && decide (f.len < 2 ^ 32)
  | .canRefMessage _ f => decide (f.data.length ≤ 64) && decide (f.len < 2 ^ 32)
  | .pdReceive _ _ _ _ payload => decide (payload.length ≤ 1432)
  | .hb _ f => decide (f.devTime < 2 ^ 64) && decide (f.grid < 2 ^ 64)
  | .belayFull _ _ off bytes _ => decide (off < 65536) && decide (bytes.length ≤ 2040)
  | .healthReport _ bytes => decide (bytes.length = 64)
  | .profile _ _ _ _ bytes => decide (bytes.length = 512)
  | .currentLoopTick _ iu iv vdc => decide (iu.length = 382) && decide (iv.length = 382) && decide (vdc.length = 382)
  | .offsetMeasured _ iu iv => decide (iu.length = 65566) && decide (iv.length = 65566)
  | .fuseProg _ value _ _ => decide (value.length = 32)
  | .writeParam h _ _ _ => h.wf
  | .loadProgram h _ _ _ => h.wf
  | .switchProgram h _ => h.wf
  | .revert h _ => h.wf
  | .openSession h _ _ => h.wf
  | .closeSession h => h.wf
  | .readObj h _ _ => h.wf
  | .health h => h.wf
  | .readCairn h _ _ _ => h.wf
  | .clearCairn h => h.wf
  | .readLedger h _ _ _ => h.wf
  | .setModeEnter h => h.wf
  | .setModeLeave h => h.wf
  | .doorTestStart h _ => h.wf
  | .doorTestAbort h _ => h.wf
  | .learnProfileStart h _ => h.wf
  | .learnProfileAbort h _ => h.wf
  | .forceOutput h _ _ _ => h.wf
  | .busoffRecover h _ => h.wf
  | .reset h => h.wf
  | .linkUp _ => true
  | .linkDown _ => true
  | .linkRetrain _ => true
  | .frameAbort _ _ => true
  | .lreset _ => true
  | .sampleEmit => true
  | .sampleLatch _ => true
  | .samplePoint => true
  | .input _ _ => true
  | .inputDeadline => true
  | .stage _ _ => true
  | .stageResend _ => true
  | .ack _ _ => true
  | .ackDeadline _ => true
  | .stageDiscard _ => true
  | .commitEmit => true
  | .commitApply _ => true
  | .commitPoint => true
  | .confirm _ _ => true
  | .confirmDeadline => true
  | .publish => true
  | .nak _ _ _ => true
  | .syncSend => true
  | .sync _ _ => true
  | .regWr _ _ => true
  | .regRd _ _ => true
  | .regRsp _ _ => true
  | .regAccessTimeout _ => true
  | .event _ _ => true
  | .resync _ _ => true
  | .trace _ _ => true
  | .profileFrame _ _ => true
  | .ledgerStateFrame _ _ => true
  | .probe _ _ => true
  | .echo _ _ _ => true
  | .latencyRemeasure _ => true
  | .latencyExclude _ => true
  | .enumLinkTimeout _ => true
  | .snapReq => true
  | .snapDone => true
  | .registerWrite _ _ => true
  | .rcRead _ => true
  | .por _ => true
  | .pfail => true
  | .pin => true
  | .wdt => true
  | .schedulerTick => true
  | .bootStep _ => true
  | .shadowCopy _ => true
  | .maintIdleTimeout => true
  | .parkEntry => true
  | .wake => true
  | .canWake _ => true
  | .aonWake => true
  | .keepBanksReady => true
  | .vlLow _ => true
  | .pfWarn => true
  | .pfTaskDeadline => true
  | .pfCommit => true
  | .saved => true
  | .saveAborted => true
  | .pfClaimWithdraw => true
  | .scopedResetCan _ => true
  | .scopedResetQp => true
  | .scopedResetRope => true
  | .scopedResetLink _ => true
  | .ld _ _ => true
  | .ldn _ _ => true
  | .and_ _ _ => true
  | .andn _ _ => true
  | .or_ _ _ => true
  | .orn _ _ => true
  | .xor_ _ _ => true
  | .ab _ => true
  | .ob _ => true
  | .be _ => true
  | .st _ _ => true
  | .stn _ _ => true
  | .set_ _ _ => true
  | .rst _ _ => true
  | .pe _ _ => true
  | .ne _ _ => true
  | .ton _ _ => true
  | .tof _ _ => true
  | .tp _ _ => true
  | .ctu _ _ => true
  | .ctuR _ _ => true
  | .ctd _ _ => true
  | .ctdL _ _ => true
  | .ctud _ _ => true
  | .ctudR _ _ => true
  | .ctudL _ _ => true
  | .ctudD _ _ => true
  | .lw _ _ => true
  | .lwk _ _ => true
  | .sw _ _ => true
  | .lwx _ _ => true
  | .swx _ _ => true
  | .lix _ => true
  | .add _ _ => true
  | .sub _ _ => true
  | .mul _ _ => true
  | .div _ _ => true
  | .mod _ _ => true
  | .cmpEq _ _ => true
  | .cmpNe _ _ => true
  | .cmpLt _ _ => true
  | .cmpLe _ _ => true
  | .cmpGt _ _ => true
  | .cmpGe _ _ => true
  | .limit _ _ => true
  | .scl _ _ => true
  | .movb _ _ => true
  | .atadd _ _ => true
  | .atswp _ _ => true
  | .xlock _ _ => true
  | .xfree _ _ => true
  | .xreqPark _ => true
  | .xreqTransmit _ _ _ => true
  | .xreqCancel _ _ _ => true
  | .xreqRecover _ _ => true
  | .xreqReset _ _ => true
  | .warn _ _ => true
  | .faultI _ _ _ => true
  | .jmp _ _ => true
  | .jc _ _ => true
  | .jnc _ _ => true
  | .call _ _ => true
  | .ret _ => true
  | .endAct _ => true
  | .laneRejoin _ => true
  | .voterSelftest _ _ => true
  | .userTimerTrigger _ => true
  | .etAbandon _ => true
  | .checkpointCut => true
  | .checkpointComplete _ => true
  | .paramApply => true
  | .loadVerifyDone => true
  | .programSwitch => true
  | .probationEnd => true
  | .revertApply => true
  | .peerNoAck => true
  | .gateFault _ _ => true
  | .speedLoopTick _ => true
  | .profileTick _ => true
  | .offsetWait _ => true
  | .dsmLoss _ _ => true
  | .hall _ _ => true
  | .encoder _ _ => true
  | .dcHigh _ _ => true
  | .dcLow _ => true
  | .dcRecovery _ => true
  | .localInputDebounce _ _ _ => true
  | .forceEstimate _ => true
  | .obstacle _ => true
  | .speedDeficit _ => true
  | .doorEval _ => true
  | .stepEval _ => true
  | .homeConfirm _ => true
  | .proofPlaus _ => true
  | .lockMoveTimeout _ => true
  | .strokeTimeout _ => true
  | .stepContact _ => true
  | .reverseWaitEnd _ => true
  | .testHoldEnd _ => true
  | .doorSilence _ => true
  | .doorEventFlush _ => true
  | .traceSample _ => true
  | .drvModeWrite _ _ => true
  | .shadowResume _ => true
  | .shadowDiverge _ => true
  | .baseLoaded _ => true
  | .profileStore _ => true
  | .zsProven => true
  | .zsDiscrepant => true
  | .zsDiscrepantClear => true
  | .relDiscrepant _ => true
  | .teReadback _ => true
  | .ilStale => true
  | .lswModeWrite _ _ => true
  | .loadEval _ _ _ _ _ _ _ _ => true
  | .loadShort _ => true
  | .wireModel _ => true
  | .loadReverse _ => true
  | .inrushEnd _ _ => true
  | .rearm _ => true
  | .openOn _ => true
  | .offStateCheck _ _ _ => true
  | .bandDrop _ _ => true
  | .bandRise _ _ => true
  | .dipRestore _ => true
  | .pairImbalance _ _ _ => true
  | .loadEventFlush _ => true
  | .peerReleaseIn => true
  | .peerReleaseInNegate => true
  | .viLow _ _ => true
  | .viRecover _ _ => true
  | .fieldSideStop _ _ => true
  | .fieldSideRestart _ _ => true
  | .fieldInputDebounce _ _ _ => true
  | .ftmo _ _ => true
  | .ovl _ _ => true
  | .ovlRetry _ _ _ => true
  | .outItem _ _ => true
  | .applyItem _ _ => true
  | .tickItem _ _ => true
  | .ackw _ _ => true
  | .inItem _ _ _ _ => true
  | .xloss _ _ => true
  | .crossingRestore _ => true
  | .heartbeatLoss _ _ => true
  | .fioSilence _ => true
  | .fioModeWrite _ _ => true
  | .canJoin _ => true
  | .canRxTimeout _ _ => true
  | .canTxStart _ => true
  | .canTxDone _ => true
  | .canTxError _ _ _ _ => true
  | .canRecovered _ => true
  | .protocolException _ => true
  | .canRefSend _ => true
  | .canTtWindow _ _ _ => true
  | .canTtSyncLoss _ => true
  | .canLbTest _ _ _ => true
  | .mdioPoll _ _ _ => true
  | .arpRequest _ _ => true
  | .icmpEcho _ _ => true
  | .pdPublish _ => true
  | .telTimeout _ => true
  | .planeLoss _ _ => true
  | .rximgDone _ => true
  | .scStale _ => true
  | .ptpSync _ _ _ _ => true
  | .ptpFollowUp _ _ => true
  | .ptpDelayReq => true
  | .ptpDelayResp _ _ => true
  | .ptpAnnounce _ _ => true
  | .ptpAnnounceTimeout => true
  | .ptpLost => true
  | .verbReset => true
  | .deferResolve _ => true
  | .deferTimeout _ => true
  | .sessionIdle _ => true
  | .openLockoutEnd => true
  | .bootClaim => true
  | .takeover => true
  | .claimSettle => true
  | .claimInAssert => true
  | .claimConflict _ => true
  | .claimAbandoned => true
  | .claimLapse => true
  | .peerReleaseEnd => true
  | .claimGateClear => true
  | .ropeUp _ => true
  | .ropeDown => true
  | .ropeDegraded _ => true
  | .ropeRestore => true
  | .hbSend => true
  | .peerLost => true
  | .belayDelta _ _ => true
  | .belayReq _ => true
  | .healthSend => true
  | .change _ _ _ _ => true
  | .changeAck _ _ _ => true
  | .park _ _ => true
  | .cmpQuery _ _ _ _ => true
  | .cmpVerdict _ _ _ _ => true
  | .cmpVerdictTimeout => true
  | .ropeNak _ _ => true
  | .ropeProbe _ _ => true
  | .ropeEcho _ _ => true
  | .resyncAlarmClear => true
  | .selftestMarch _ => true
  | .selftestEthernet _ => true
  | .selftestLinkProbe _ _ => true
  | .eccWriteback _ _ _ => true
  | .ceAlarmClear => true
  | .scrub _ _ => true
  | .fillDone _ => true
  | .refresh _ _ _ => true
  | .cairnWrite => true
  | .tokenRefill _ => true
  | .opCountSave => true
  | .submitRead _ _ _ _ => true
  | .submitWrite _ _ _ _ _ => true
  | .fetch _ _ => true
  | .qpAck _ _ => true
  | .status => true
  | .qpReset _ _ => true
  | .qpResetDone => true
  | .refclkLoss => true
  | .pllUnlock _ => true
  | .xtalFail => true
  | .vhuMeasured _ => true
  | .lbDieLink _ _ => true
  | .lbRope _ => true
  | .lbEthernet _ _ => true
  | .lbXspi _ => true
  | .lbQueryPort _ => true
  | .lbDoorDrive _ _ => true
  | .lbDoorInputs _ _ => true
  | .lbLoadChannel _ _ => true
  | .lbFieldIo _ _ _ => true
  | .loopbackDone _ _ => true
  | .extest _ _ => true
  | .samplePreload _ _ => true
  | .idcode => true
  | .clamp => true
  | .highz => true
  | .sysreset => true
  | .dbgAttach => true
  | .dbgHalt => true
  | .dbgStep => true
  | .dbgResume => true
  | .dbgRegAccess _ _ => true
  | .dbgMemAccess _ _ => true
  | .dbgBufferRead _ => true
  | .fuseRead => true
  | .mbistRun _ => true
  | .lbistRun _ => true
  | .scanTest => true
  | .bypass => true
  | .diePowerUp _ => true
  | .resetNRelease => true
  | .outputOvertemp _ _ => true
  | .outputCooled _ _ => true
  | .heartbeatRestore _ => true
  | .fieldEventFlush _ _ => true
  | .canRxError _ _ _ _ _ => true
  | .frameDiscarded _ => true
  | .mdMalformed _ => true
  | .qpUnknownCommand _ => true
  | .ioSupplyValid _ _ => true
  | .testLogicReset => true

end Sys2Proof
end

