-- ==== Sys2Proof/Safety.lean ====
section
/-! DEFINITION. What counts as a well-kept state, and the situations and results the statements speak of. -/

namespace Sys2Proof.Machine

/-! ### Memory -/

/-- The canonical form of a memory: addresses strictly rising, no entry equal to what an unlisted address reads as. -/
def Memory.wf (m : Bytes) : Bool := mok 0 m

/-- Both memories of the block, SRAM (R425) and MRAM (R434), are in canonical form. -/
def State.memOk (s : State) : Bool := Memory.wf s.sram && Memory.wf s.mram

/-- Every byte of both memories reads as in `s`. -/
def State.sameMem (s t : State) : Prop := ∀ a, t.rd a = s.rd a ∧ mget 0 t.mram a = mget 0 s.mram a

/-- Every byte of SRAM outside the `n` bytes at `lo` reads as in `s`. -/
def State.sameOutside (s t : State) (lo n : Nat) : Prop := ∀ a, a < lo ∨ lo + n ≤ a → t.rd a = s.rd a

/-- Every byte of MRAM outside the `n` bytes at `lo` reads as in `s`. -/
def State.sameMramOutside (s t : State) (lo n : Nat) : Prop := ∀ a, a < lo ∨ lo + n ≤ a → mget 0 t.mram a = mget 0 s.mram a

/-! ### The logic engine (R191 to R196) -/

/-- The bound lanes run an activation of task `t` and agree: outside UNBOUND, nothing frozen, every executing lane votes, holds the
context `c` and has no write of its own waiting; no container check (R371) and no voter self-test (R199) is under way. -/
structure State.Agree (s : State) (t : Nat) (a : Act) (c : Ctx) : Prop where
  bound : s.laneState ≠ laneUnbound
  running : s.running = true
  free : s.eng.frozen = false
  idle : s.eng.vtest = none
  clear : t < 16 → s.checking = false
  run : s.eng.run.getD 0 none = some t
  act : s.act t = some a
  three : a.ctx.length = 3
  some : lanesOf s.execMask ≠ []
  votes : ∀ l ∈ lanesOf s.execMask, bit s.votingMask l = true
  same : ∀ l ∈ lanesOf s.execMask, a.ctx.getD l {} = c
  empty : ∀ l ∈ lanesOf s.execMask, s.eng.sbuf.getD l [] = []

/-- Three lanes are bound, run an activation of task `t` and vote. Every lane but `z` holds the context `c` and has no write waiting; lane
`z` may hold anything. -/
structure State.OneApart (s : State) (t : Nat) (a : Act) (c : Ctx) (z : Lane) : Prop where
  bound : s.laneState ≠ laneUnbound
  running : s.running = true
  free : s.eng.frozen = false
  idle : s.eng.vtest = none
  clear : t < 16 → s.checking = false
  run : s.eng.run.getD 0 none = some t
  act : s.act t = some a
  three : a.ctx.length = 3
  all : s.execMask = 7 ∧ s.votingMask = 7
  same : ∀ l : Lane, l ≠ z → a.ctx.getD l {} = c ∧ s.eng.sbuf.getD l [] = []

/-- The lane's view of the shared state when it has no write of its own waiting. -/
abbrev State.viewOf (s : State) (t : Nat) (a : Act) : LaneView := ⟨s, t, a, []⟩

/-- Every lane that executed in `s` holds the context `c` of task `t` in `s'`. -/
def State.LanesHold (s s' : State) (t : Nat) (c : Ctx) : Prop :=
  ∃ a, s'.act t = some a ∧ ∀ l ∈ lanesOf s.execMask, a.ctx.getD l {} = c

/-- R140. The `PC` of the instruction `n` words on. -/
def Ctx.pcAfter (c : Ctx) (n : Nat) : Nat := (c.pc + n) % 2 ^ 18

/-- A run of memory writes by the engine has left `s'`: every byte reads as `s` merged with the writes to it, in order. -/
def State.Wrote (s s' : State) (ws : List MemWr) : Prop :=
  ∀ x, s'.rd x = ws.foldl (fun b w => if w.addr = x then mergeByte b w.data w.mask else b) (s.rd x)

/-- A run of bytes at `lo` reads as `bs` in `s'`, and every other byte of SRAM as in `s`. -/
def State.Stored (s s' : State) (lo : Nat) (bs : List Byte) : Prop := mslice 0 s'.sram lo bs.length = bs ∧ s.sameOutside s' lo bs.length

/-- An instruction completes: every executing lane holds `c'`, and memory is as the writes `ws` leave it. -/
def State.Runs (s : State) (i : Instr) (t : Nat) (c' : Ctx) (ws : List MemWr) : Prop :=
  ∃ s', exec i s = .next s' ∧ s.LanesHold s' t c' ∧ s.Wrote s' ws

/-- An instruction completes: every executing lane holds `c'`, and memory differs by the bytes `bs` at `lo` alone. -/
def State.RunsStoring (s : State) (i : Instr) (t : Nat) (c' : Ctx) (lo : Nat) (bs : List Byte) : Prop :=
  ∃ s', exec i s = .next s' ∧ s.LanesHold s' t c' ∧ s.Stored s' lo bs

/-! ### Commands -/

/-- The command `c` completes: it answers a next state, of which `p` holds. -/
def State.Does (s : State) (c : Instr) (p : State → Prop) : Prop := ∃ t, exec c s = .next t ∧ p t

/-- Every register field that shares no bit with one of `fs` reads as in `s`. -/
def State.regsBut (s t : State) (fs : List Fld) : Prop :=
  ∀ g : Fld, g.lo ≤ g.hi → (∀ f ∈ fs, g.addr ≠ f.addr ∨ g.hi < f.lo ∨ f.hi < g.lo) → t.fget g = s.fget g

/-! ### Records (R449 to R456) -/

/-- R455, R456. A record of `code` raised now is admitted and finds a place in the queue. -/
def State.room (s : State) (code : Nat) : Prop :=
  s.cairn.queue.length < 256 ∧ (unlimited code = true ∨ mget 0 s.cairn.spent code < (s.rateOf code).1)

/-- A record of `code` with `data` stands at the end of the queue, behind those of `s`. -/
def State.Noted (s t : State) (code : Nat) (data : List Byte) : Prop :=
  ∃ r, t.cairn.queue = s.cairn.queue ++ [r] ∧ r.code = code ∧ r.sev = severity code ∧ r.data = data.take 12

/-! ### Die links (R20, R21) -/

/-- Frame `f` stands next in order at the control die on the link of slot `n`, with `rest` behind it; the link is `UP` and no loopback
test holds the die. -/
structure State.UpNext (s : State) (n : Nat) (f : Frame) (rest : List Frame) : Prop where
  head : (s.link n).up = f :: rest
  order : f.seq = (s.link n).ctlRx
  whole : f.whole = true
  up : s.linkIsUp n = true
  clear : s.looped n = false

/-- Frame `f` stands next in order at the powered satellite of slot `n`. -/
structure State.DownNext (s : State) (n : Nat) (f : Frame) (rest : List Frame) : Prop where
  head : (s.link n).down = f :: rest
  order : f.seq = (s.link n).satRx
  whole : f.whole = true
  up : s.linkIsUp n = true
  clear : s.looped n = false
  powered : s.present n = true

/-- The next frame the satellite of slot `n` sends. -/
def State.satFrame (s : State) (n typ : Nat) (payload : List Byte) : Frame :=
  { typ, seq := (s.link n).satTx, ccount := (s.sat n).ccount, payload : Frame }.seal

/-- The next frame the control die sends on the link of slot `n`. -/
def State.ctlFrame (s : State) (n typ : Nat) (payload : List Byte) : Frame := { typ, seq := (s.link n).ctlTx, payload : Frame }.seal

/-! ### Resets and modes (R61, R62) -/

/-- R62, Table 2.7. `t` is `s` after a device reset by source `cause`: the boot ROM starts in BOOT, the engine holds nothing, and banks, MRAM and
satellites keep what they hold. -/
structure State.Restarted (s t : State) (cause : Nat) : Prop where
  mode : t.mode = mBoot
  step : t.boot.step = 1
  cause : t.fget Reg.RESET_CAUSE_CAUSE = 2 ^ cause
  eng : t.eng = {}
  sram : t.sram = s.sram
  mram : t.mram = s.mram
  sats : t.sats = s.sats
  doors : ∀ k, { t.door k with driftRec := (s.door k).driftRec } = s.door k
  loads : t.loads = s.loads
  fields : t.fields = s.fields

/-! ### Door channels (R210) -/

/-- Table 8.4. Channel `k` has gone into FAULT with `cause`: its gates are low and the sticky bit of the cause is set. -/
structure State.Faulted (s t : State) (k cause : Nat) : Prop where
  state : (t.door k).state = s.code k dFault tFault
  why : (t.door k).cause = cause
  en : (t.door k).en = false
  gates : (t.door k).gates = false
  sticky : bit (t.fget (Reg.DRV_CH_FLT_FAULTS (k / 4) (k % 4))) (cause - 1) = true

/-- A command on channel `k` leaves every other channel, both memories, the engine and the load and field dies alone. -/
structure State.OnlyDoor (s t : State) (k : Nat) : Prop where
  doors : ∀ j ≠ k, t.door j = s.door j
  sram : t.sram = s.sram
  mram : t.mram = s.mram
  eng : t.eng = s.eng
  loads : t.loads = s.loads
  fields : t.fields = s.fields

/-! ### Load channels (R272) and field dies (R300) -/

/-- R274. Load channel `x` has tripped with `cause`: it is off, latched, and the sticky bit of the cause is set. -/
structure State.Tripped (t : State) (x cause : Nat) : Prop where
  state : (t.load x).state = lTripped
  why : (t.load x).cause = cause
  latch : (t.load x).latch = some cause
  at_ : (t.load x).tripAt = some t.time.mono
  sticky : bit (t.fget (Reg.LSW_CH_FLT_CAUSES (x / 12) (x % 12))) (cause - 1) = true

/-- A command on the load channels of `xs` leaves every other channel, both memories, the engine, the doors and the field dies alone. -/
structure State.OnlyLoads (s t : State) (xs : List Nat) : Prop where
  loads : ∀ j, j ∉ xs → t.load j = s.load j
  sram : t.sram = s.sram
  mram : t.mram = s.mram
  eng : t.eng = s.eng
  doors : t.doors = s.doors
  fields : t.fields = s.fields

/-- A command on field die `f` leaves the other one, both memories, the engine, the doors and the loads alone. -/
structure State.OnlyField (s t : State) (f : Nat) : Prop where
  fields : ∀ j ≠ f, t.fio j = s.fio j
  sram : t.sram = s.sram
  mram : t.mram = s.mram
  eng : t.eng = s.eng
  doors : t.doors = s.doors
  loads : t.loads = s.loads

/-! ### Message bus controllers (R334 to R355) -/

/-- A command on controller `c` leaves every other controller, every buffer outside `ks`, and all of the rest but the registers, the recorder
and the clocks alone. -/
structure State.OnlyCan (s t : State) (c : Nat) (ks : List Nat) : Prop where
  ctls : ∀ j ≠ c, t.ctl j = s.ctl j
  bufs : ∀ j, j ∉ ks → t.buf j = s.buf j
  rest : t = { s with time := t.time, power := t.power, regs := t.regs, cairn := t.cairn, ctls := t.ctls, bufs := t.bufs, free := t.free }

/-! ### Maintenance verbs (R379 to R385) -/

/-- R381 to R385. The request `h` for `verb` with `body` is taken in session `x`, which holds `v`: the port runs and takes verbs, the tag and
the counter are right, the role may use the verb (bit `maskBit` of its mask; 16: any) and the port, nothing is deferred, and the counter
is not the last of the session. -/
structure State.Takes (s : State) (h : VerbHdr) (x : Fin 4) (v : Sess) (verb maskBit : Nat) (body : List Byte) : Prop where
  alive : s.inReset = false
  port : s.portUp h.port.val = true
  takes : s.verbPort h.port.val = true
  id : h.sess.toNat = x.val
  held : s.sess x = some v
  form : h.badLen = false ∧ body.length ≤ 1024
  tag : verbTag v.key (verbFrame h verb body) = h.tag
  newer : v.last < h.ctr.toNat ∧ h.ctr.toNat < 2 ^ 32 - 1
  role : 16 ≤ maskBit ∨ bit (s.topoN 0x0B01 v.role 2 2 0x0053) maskBit = true
  may : bit (s.topoN 0x0B01 v.role 1 1 4) h.port.val = true
  free : v.deferred = none
  open_ : v.closing = false

/-- One reply has gone out on the port of the request. -/
def State.Replied (s t : State) (h : VerbHdr) (x : Nat) (v : Sess) (verb status sub : Nat) (body : List Byte) : Prop :=
  t.net.sent = s.net.sent ++ [{ chan := h.port.val, kind := 2, data := verbReply v.key verb x h.ctr.toNat status sub body }]

/-- R382, R383. Session `x` has taken the request: its counter is kept, its idle time starts again, and every other session is as it was. -/
def State.Taken (s t : State) (h : VerbHdr) (x : Fin 4) (v : Sess) : Prop :=
  (∃ w, t.sess x = some w ∧ w.last = h.ctr.toNat ∧ w.idleAt = s.time.mono ∧ w.key = v.key ∧ w.role = v.role ∧ w.port = h.port.val) ∧
    ∀ y : Fin 4, y ≠ x → t.sess y = s.sess y

/-! ### The Rope link (R398 to R400) -/

/-- Rope frames arrive and leave: the link is `UP`, no loopback test holds it, and the control die runs. -/
structure State.RopeOpen (s : State) : Prop where
  up : s.ropeUp = true
  clear : s.ropeLooped = false
  alive : s.inReset = false
  run : s.mode ≠ mPark

/-- The frames of `fs` (type, payload) have gone out on the Rope link, and nothing else anywhere. -/
def State.RopeSent (s t : State) (fs : List (Nat × List Byte)) : Prop := t.net.sent = s.net.sent ++ fs.map fun f => { chan := 4, kind := f.1, data := f.2 }

end Sys2Proof.Machine
end

