-- ==== Sys2Proof/Certificates/Slice0/Obligations.lean ====
section
/-! DEFINITION. The statements for the provers: one clause per command says that it completes and what its next state holds, with its
frame; the rules of the whole block follow. Each docstring names the rules of the spec it follows, or the log entry of a choice. -/

open Sys2Proof Sys2Proof.Machine

/-! ### The logic engine (chapter 4) -/

/-- R118. The seven instructions that combine an operand bit with `CR` (on an exchange object they write E); `AB` and `OB` defer `CR` on the
branch stack of 16 entries, and `BE` takes the newest pair back. -/
def Obligations.BitLogicCompletes : Prop :=
  (∀ (s : State) (t : Nat) (a : Act) (c : Ctx) (l : Lane) (o : Opnd), s.Agree t a c →
    let x := (s.viewOf t a).bitOf o.area.toNat o.off.toNat
    let after (b : Bool) : Ctx :=
      { c with cr := b, sf := if o.area = 9 then { c.sf with e := x.2.isSome } else c.sf, pc := c.pcAfter 1 }
    (opndOk 0x01 o s t = true → s.Runs (.ld l o) t (after x.1) []) ∧
    (opndOk 0x02 o s t = true → s.Runs (.ldn l o) t (after !x.1) []) ∧
    (opndOk 0x03 o s t = true → s.Runs (.and_ l o) t (after (c.cr && x.1)) []) ∧
    (opndOk 0x04 o s t = true → s.Runs (.andn l o) t (after (c.cr && !x.1)) []) ∧
    (opndOk 0x05 o s t = true → s.Runs (.or_ l o) t (after (c.cr || x.1)) []) ∧
    (opndOk 0x06 o s t = true → s.Runs (.orn l o) t (after (c.cr || !x.1)) []) ∧
    (opndOk 0x07 o s t = true → s.Runs (.xor_ l o) t (after (c.cr != x.1)) [])) ∧
  (∀ (s : State) (t : Nat) (a : Act) (c : Ctx) (l : Lane), s.Agree t a c →
    (wordOk 0x08 0 0 s t = true → s.Runs (.ab l) t { c with br := ((c.cr, true) :: c.br).take 16, pc := c.pcAfter 1 } []) ∧
    (wordOk 0x09 0 0 s t = true → s.Runs (.ob l) t { c with br := ((c.cr, false) :: c.br).take 16, pc := c.pcAfter 1 } []) ∧
    (∀ d isAnd rest, c.br = (d, isAnd) :: rest → wordOk 0x0A 0 0 s t = true →
      s.Runs (.be l) t { c with br := rest, cr := if isAnd then d && c.cr else d || c.cr, pc := c.pcAfter 1 } []))

/-- R118, R120, R121. `ST` and `STN` write one bit of Q or M, `SET` and `RST` only where `CR` is 1, and no other bit of memory changes. `PE` and
`NE`: the edge takes `CR`; a seeded one yields the edge, an unseeded one yields 0 and is seeded. -/
def Obligations.BitStoresAndEdgesComplete : Prop :=
  (∀ (s : State) (t : Nat) (a : Act) (c : Ctx) (l : Lane) (o : Opnd), s.Agree t a c →
    let adr := areaBase o.area.toNat + o.off.toNat / 8
    let m : Byte := BitVec.ofNat 8 (2 ^ (o.off.toNat % 8))
    let w (b : Bool) : MemWr := ⟨adr, if b then m else 0, m⟩
    let after : Ctx := { c with pc := c.pcAfter 1 }
    (opndOk 0x10 o s t = true → s.Runs (.st l o) t after [w c.cr]) ∧
    (opndOk 0x11 o s t = true → s.Runs (.stn l o) t after [w !c.cr]) ∧
    (opndOk 0x12 o s t = true → s.Runs (.set_ l o) t after (if c.cr then [w true] else [])) ∧
    (opndOk 0x13 o s t = true → s.Runs (.rst l o) t after (if c.cr then [w false] else []))) ∧
  (∀ (s : State) (t : Nat) (a : Act) (c : Ctx) (l : Lane) (o : Opnd), s.Agree t a c →
    let i := o.off.toNat
    let m : Byte := BitVec.ofNat 8 (2 ^ (i % 8))
    let prev := bit (s.rd (eBase + i / 8)).toNat (i % 8)
    let seeded := bit (s.rd (seedBase + i / 8)).toNat (i % 8)
    let ws : List MemWr := ⟨eBase + i / 8, if c.cr then m else 0, m⟩ :: if seeded then [] else [⟨seedBase + i / 8, m, m⟩]
    (opndOk 0x14 o s t = true → s.Runs (.pe l o) t { c with cr := seeded && (c.cr && !prev), pc := c.pcAfter 1 } ws) ∧
    (opndOk 0x15 o s t = true → s.Runs (.ne l o) t { c with cr := seeded && (prev && !c.cr), pc := c.pcAfter 1 } ws))

/-- R123, R124. A timer instance evaluated with IN = `CR` and PT = `WA`: `CR` takes Q, `WA` takes ET, and the instance's 15 bytes take
the state of Table 4.9. A negative PT raises error 0x06: the stored state stays, `CR` and `WA` take its Q and ET. -/
def Obligations.TimersComplete : Prop :=
  ∀ (s : State) (t : Nat) (a : Act) (c : Ctx) (l : Lane) (o : Opnd), s.Agree t a c →
    let adr := tBase + o.off.toNat % 2048 * 16
    let x := TInst.of (mslice 0 s.sram adr 16)
    let good (i : Instr) (y : TInst) : Prop :=
      s.RunsStoring i t { c with cr := y.q, wa := BitVec.ofNat 32 y.et, sf := { c.sf with e := false }, pc := c.pcAfter 1 } adr
        ({ y with pt := c.wa.toNat, inPrev := c.cr } : TInst).bytes
    let bad (i : Instr) : Prop :=
      ∃ s', exec i s = .next s' ∧
        s.LanesHold s' t { c with cr := x.q, wa := BitVec.ofNat 32 x.et, sf := { c.sf with e := true }, pc := c.pcAfter 1 } ∧ s.Wrote s' [] ∧
        (bit (mget 0 a.sArea 1).toNat 2 = false →
          ∃ a', s'.act t = some a' ∧ bit (mget 0 a'.sArea 1).toNat 2 = true ∧ mget 0 a'.sArea 2 = 6)
    (opndOk 0x20 o s t = true → if c.wa.toInt < 0 then bad (.ton l o) else good (.ton l o) (x.ton c.cr a.g c.wa.toNat)) ∧
    (opndOk 0x21 o s t = true → if c.wa.toInt < 0 then bad (.tof l o) else good (.tof l o) (x.tof c.cr a.g c.wa.toNat)) ∧
    (opndOk 0x22 o s t = true → if c.wa.toInt < 0 then bad (.tp l o) else good (.tp l o) (x.tp c.cr a.g c.wa.toNat))

/-- R128, R129. A counter evaluated with PV = `WA`: `CR` takes Q, `WA` takes the new CV, which is stored with PV; `CTUD` puts QD into C. Reset and
load win over edges, an edge counts only on a seeded counter, and the count stops at its limits. The latch forms store `CR` in one latch
bit, and the activation remembers the counter. -/
def Obligations.CountersComplete : Prop :=
  (∀ (s : State) (t : Nat) (a : Act) (c : Ctx) (l : Lane) (i : BitVec 11), s.Agree t a c →
    let adr := cBase + i.toNat * 16
    let f := (s.rd (adr + 12)).toNat
    let cv := sgn 32 (s.rdN adr 4)
    let pv := c.wa.toInt
    let up := bit f 4 && c.cr && !bit f 2
    let dn := bit f 4 && c.cr && !bit f 3
    let dn2 := bit f 4 && bit f 7 && !bit f 3
    let cvU := if bit f 5 then 0 else if up then countUp cv else cv
    let cvD := if bit f 6 then pv else if dn then countDown cv else cv
    let cvB := if bit f 5 then 0 else if bit f 6 then pv else if up && !dn2 then countUp cv else if dn2 && !up then countDown cv else cv
    let done (n : Instr) (cv' : Int) (q : Bool) (sf : Sf) : Prop :=
      ∃ s', exec n s = .next s' ∧
        s.LanesHold s' t { c with cr := q, wa := BitVec.ofNat 32 (unsgn 32 cv'), sf, pc := c.pcAfter 1 } ∧
        mslice 0 s'.sram adr 8 = leBytes 4 (unsgn 32 cv') ++ leBytes 4 c.wa.toNat ∧ s.sameOutside s' adr 13
    (wordOk 0x24 5 i.toNat s t = true → done (.ctu l i) cvU (decide (pv ≤ cvU)) c.sf) ∧
    (wordOk 0x25 5 i.toNat s t = true → done (.ctd l i) cvD (decide (cvD ≤ 0)) c.sf) ∧
    (wordOk 0x26 5 i.toNat s t = true → done (.ctud l i) cvB (decide (pv ≤ cvB)) { c.sf with c := decide (cvB ≤ 0) })) ∧
  (∀ (s : State) (t : Nat) (a : Act) (c : Ctx) (l : Lane) (i : BitVec 11), s.Agree t a c →
    let done (n : Instr) (b : Nat) : Prop :=
      ∃ s' a', exec n s = .next s' ∧ s'.act t = some a' ∧ i.toNat ∈ a'.latches ∧
        s.LanesHold s' t { c with pc := c.pcAfter 1 } ∧
        s.Wrote s' [⟨cBase + i.toNat * 16 + 12, if c.cr then BitVec.ofNat 8 (2 ^ b) else 0, BitVec.ofNat 8 (2 ^ b)⟩]
    (wordOk 0x24 5 (0x800 + i.toNat) s t = true → done (.ctuR l i) 5) ∧
    (wordOk 0x25 5 (0x1000 + i.toNat) s t = true → done (.ctdL l i) 6) ∧
    (wordOk 0x26 5 (0x800 + i.toNat) s t = true → done (.ctudR l i) 5) ∧
    (wordOk 0x26 5 (0x1000 + i.toNat) s t = true → done (.ctudL l i) 6) ∧
    (wordOk 0x26 5 (0x1800 + i.toNat) s t = true → done (.ctudD l i) 7))

/-- R115, R116, R130. Loads: `WB` takes the old `WA`, `WA` the word, Z and N its sign and zero; an indexed load beyond its area gives 0 and sets
E. Stores: `SW` writes the four bytes of `WA`; `SWX` writes them at the indexed place if the word lies within the area and, in Q, the task
owns it, and else writes nothing and sets E. -/
def Obligations.LoadsAndStoresComplete : Prop :=
  (∀ (s : State) (t : Nat) (a : Act) (c : Ctx) (l : Lane), s.Agree t a c →
    (∀ o, opndOk 0x30 o s t = true →
      let x := (s.viewOf t a).wordOf o
      s.Runs (.lw l o) t { c with wa := x.1, wb := c.wa, sf := { c.sf with z := x.1 == 0, n := x.1.msb, e := if o.area = 9 then x.2.isSome else c.sf.e },
                                  pc := c.pcAfter 1 } []) ∧
    (∀ lit, wordOk 0x31 0 0 s t = true →
      s.Runs (.lwk l lit) t { c with wa := lit, wb := c.wa, sf := { c.sf with z := lit == 0, n := lit.msb }, pc := c.pcAfter 2 } []) ∧
    (∀ o, opndOk 0x33 o s t = true →
      let off := 4 * (o.off.toNat + c.ix.toNat)
      let inside := decide (off + 4 ≤ areaSize o.area.toNat)
      let w := if inside then (s.viewOf t a).wordAt o.area.toNat off else 0
      s.Runs (.lwx l o) t { c with wa := w, wb := c.wa, sf := { c.sf with z := w == 0, n := w.msb, e := !inside }, pc := c.pcAfter 1 } []) ∧
    (wordOk 0x35 0 0 s t = true → s.Runs (.lix l) t { c with ix := c.wa.setWidth 16, pc := c.pcAfter 1 } [])) ∧
  (∀ (s : State) (t : Nat) (a : Act) (c : Ctx) (l : Lane) (o : Opnd), s.Agree t a c →
    (opndOk 0x32 o s t = true → o.area ≠ 9 →
      s.RunsStoring (.sw l o) t { c with pc := c.pcAfter 1 } (areaBase o.area.toNat + 4 * o.off.toNat) (leBytes 4 c.wa.toNat)) ∧
    (opndOk 0x32 o s t = true → o.area = 9 →
      let obj := o.off.toNat / 2 ^ 10
      let w := o.off.toNat % 2 ^ 10
      let d := if w = 2 then c.wa &&& 0x7F else c.wa
      let held := (s.viewOf t a).locked obj
      ∃ s' a', exec (.sw l o) s = .next s' ∧ s'.act t = some a' ∧
        a'.xw = (if held && xWritable s obj w then mset 0 a.xw (obj * 1024 + w) (d.toNat + 1) else a.xw) ∧
        s.LanesHold s' t { c with sf := { c.sf with e := !held }, pc := c.pcAfter 1 } ∧ s.Wrote s' []) ∧
    (opndOk 0x34 o s t = true →
      let off := 4 * (o.off.toNat + c.ix.toNat)
      let after (e : Bool) : Ctx := { c with sf := { c.sf with e }, pc := c.pcAfter 1 }
      if off + 4 ≤ areaSize o.area.toNat ∧ (o.area = 2 → s.ownsQ t off 4 = true) then
        s.RunsStoring (.swx l o) t (after false) (areaBase o.area.toNat + off) (leBytes 4 c.wa.toNat)
      else s.Runs (.swx l o) t (after true) []))

/-- R116, R131. Arithmetic on two's-complement words: the exact result, wrapped, with Z and N; V where it does not fit 32 bits; C is
the unsigned carry or borrow. A divisor of 0 gives 0 in `WA`, the dividend in `WB`, and E. -/
def Obligations.ArithmeticCompletes : Prop :=
  ∀ (s : State) (t : Nat) (a : Act) (c : Ctx) (l : Lane) (o : Opnd), s.Agree t a c →
    let x := ((s.viewOf t a).wordOf o).1
    let n := if o.area = 0 then 2 else 1
    let out (v : Int) : Bool := decide (v < -2 ^ 31) || decide (2 ^ 31 ≤ v)
    let p := c.wa.toInt * x.toInt
    let q := Int.tdiv c.wa.toInt x.toInt
    let r := Int.tmod c.wa.toInt x.toInt
    let after (wa wb : Word) (v cf e : Bool) : Ctx :=
      { c with wa, wb, sf := { z := wa == 0, n := wa.msb, v, c := cf, e }, pc := c.pcAfter n }
    (opndOk 0x40 o s t = true → s.Runs (.add l o) t
      (after (c.wa + x) c.wb (out (c.wa.toInt + x.toInt)) (decide (2 ^ 32 ≤ c.wa.toNat + x.toNat)) c.sf.e) []) ∧
    (opndOk 0x41 o s t = true → s.Runs (.sub l o) t
      (after (c.wa - x) c.wb (out (c.wa.toInt - x.toInt)) (decide (c.wa.toNat < x.toNat)) c.sf.e) []) ∧
    (opndOk 0x42 o s t = true → s.Runs (.mul l o) t
      (after (BitVec.ofInt 32 p) (BitVec.ofInt 32 (p / 2 ^ 32)) (out p) false c.sf.e) []) ∧
    (opndOk 0x43 o s t = true → s.Runs (.div l o) t
      (if x = 0 then after 0 c.wa false c.sf.c true else after (BitVec.ofInt 32 q) (BitVec.ofInt 32 r) (out q) c.sf.c false) []) ∧
    (opndOk 0x44 o s t = true → s.Runs (.mod l o) t
      (if x = 0 then after 0 c.wa false c.sf.c true else after (BitVec.ofInt 32 r) (BitVec.ofInt 32 q) (out q) c.sf.c false) [])

/-- R132. The six compares: `CR` is the signed comparison, the flags are those of `SUB`, and `WA` stays. -/
def Obligations.ComparesComplete : Prop :=
  ∀ (s : State) (t : Nat) (a : Act) (c : Ctx) (l : Lane) (o : Opnd), s.Agree t a c →
    let x := ((s.viewOf t a).wordOf o).1
    let d := c.wa.toInt - x.toInt
    let after (b : Bool) : Ctx :=
      { c with cr := b, sf := { c.sf with z := (c.wa - x) == 0, n := (c.wa - x).msb, v := decide (d < -2 ^ 31) || decide (2 ^ 31 ≤ d),
                                          c := decide (c.wa.toNat < x.toNat) },
               pc := c.pcAfter (if o.area = 0 then 2 else 1) }
    (opndOk 0x48 o s t = true → s.Runs (.cmpEq l o) t (after (decide (c.wa = x))) []) ∧
    (opndOk 0x49 o s t = true → s.Runs (.cmpNe l o) t (after (decide (c.wa ≠ x))) []) ∧
    (opndOk 0x4A o s t = true → s.Runs (.cmpLt l o) t (after (decide (c.wa.toInt < x.toInt))) []) ∧
    (opndOk 0x4B o s t = true → s.Runs (.cmpLe l o) t (after (decide (c.wa.toInt ≤ x.toInt))) []) ∧
    (opndOk 0x4C o s t = true → s.Runs (.cmpGt l o) t (after (decide (x.toInt < c.wa.toInt))) []) ∧
    (opndOk 0x4D o s t = true → s.Runs (.cmpGe l o) t (after (decide (x.toInt ≤ c.wa.toInt))) [])

/-- R133, R134. `LIMIT` clamps `WA`, the upper bound winning; `SCL` scales linearly with saturation, sets E where its input range is
empty, and completes whatever its product; `MOVB` copies a block, or writes nothing and sets E. -/
def Obligations.BlockInstructionsComplete : Prop :=
  ∀ (s : State) (t : Nat) (a : Act) (c : Ctx) (l : Lane) (o : Opnd), s.Agree t a c →
    let w (i : Nat) : Word := (s.viewOf t a).wordAt o.area.toNat (4 * (o.off.toNat + i))
    let W (i : Nat) : Int := (w i).toInt
    (opndOk 0x50 o s t = true →
      let y := if W 1 < W 0 then w 1 else if c.wa.toInt < W 0 then w 0 else if W 1 < c.wa.toInt then w 1 else c.wa
      s.Runs (.limit l o) t { c with wa := y, sf := { c.sf with z := y == 0, n := y.msb, c := y != c.wa }, pc := c.pcAfter 1 } []) ∧
    (opndOk 0x51 o s t = true →
      let p := (c.wa.toInt - W 0) * (W 3 - W 2)
      let x := Int.tdiv p (W 1 - W 0) + W 2
      ∃ y v, s.Runs (.scl l o) t
          { c with wa := y, sf := { c.sf with z := y == 0, n := y.msb, v, e := decide (W 1 = W 0) }, pc := c.pcAfter 1 } [] ∧
        (W 1 = W 0 → y = w 2 ∧ v = false) ∧
        (W 1 ≠ W 0 → -2 ^ 63 ≤ p → p < 2 ^ 63 →
          y.toInt = max (-2 ^ 31) (min (2 ^ 31 - 1) x) ∧ (v = true ↔ x < -2 ^ 31 ∨ 2 ^ 31 ≤ x))) ∧
    (opndOk 0x52 o s t = true →
      let n := c.wa.toNat
      let sa := o.lit.toNat / 2 ^ 28
      let so := 4 * (o.lit.toNat % 2 ^ 20)
      let d := 4 * o.off.toNat
      let after (e : Bool) : Ctx := { c with sf := { c.sf with e }, pc := c.pcAfter 2 }
      if 1 ≤ n ∧ n ≤ 1024 ∧ so + 4 * n ≤ areaSize sa ∧ d + 4 * n ≤ areaSize o.area.toNat ∧ (o.area = 2 → s.ownsQ t d (4 * n) = true) then
        s.RunsStoring (.movb l o) t (after false) (areaBase o.area.toNat + d) ((List.range (4 * n)).map fun i => (s.viewOf t a).byte sa (so + i))
      else s.Runs (.movb l o) t (after true) [])

/-- R135, R137. The atomic operations: `WA` takes the old word of M; `ATADD` stores the sum and has the flags of `ADD`, `ATSWP` stores `WA` and sets
Z and N by the old word. `XLOCK` puts into `CR` whether the task holds the object now, and takes it where it was free and the task holds
fewer than four; `XFREE` releases an object the task holds, and sets E otherwise. -/
def Obligations.AtomicsAndLocksComplete : Prop :=
  (∀ (s : State) (t : Nat) (a : Act) (c : Ctx) (l : Lane) (o : Opnd), s.Agree t a c →
    let adr := mBase + 4 * o.off.toNat
    let old : Word := BitVec.ofNat 32 (s.rdN adr 4)
    let d := old.toInt + c.wa.toInt
    (opndOk 0x58 o s t = true → s.RunsStoring (.atadd l o) t
      { c with wa := old, sf := { c.sf with z := (old + c.wa) == 0, n := (old + c.wa).msb, v := decide (d < -2 ^ 31) || decide (2 ^ 31 ≤ d),
                                            c := decide (2 ^ 32 ≤ old.toNat + c.wa.toNat) }, pc := c.pcAfter 1 }
      adr (leBytes 4 (old + c.wa).toNat)) ∧
    (opndOk 0x59 o s t = true → s.RunsStoring (.atswp l o) t
      { c with wa := old, sf := { c.sf with z := old == 0, n := old.msb }, pc := c.pcAfter 1 } adr (leBytes 4 c.wa.toNat))) ∧
  (∀ (s : State) (t : Nat) (a : Act) (c : Ctx) (l : Lane) (obj : BitVec 10), s.Agree t a c →
    let held := mget 0 s.eng.lockOf obj.toNat == t + 1
    let got := held || (mget 0 s.eng.lockOf obj.toNat == 0 && decide (a.locks.length < 4))
    (wordOk 0x60 9 (obj.toNat * 1024) s t = true →
      ∃ s', exec (.xlock l obj) s = .next s' ∧
        s.LanesHold s' t { c with cr := got, sf := { c.sf with e := false }, pc := c.pcAfter 1 } ∧ s.Wrote s' [] ∧
        (got = true → obj.toNat ∉ a.locks → mget 0 s'.eng.lockOf obj.toNat = t + 1) ∧
        (got = false → s'.eng.lockOf = s.eng.lockOf)) ∧
    (wordOk 0x61 9 (obj.toNat * 1024) s t = true →
      ∃ s', exec (.xfree l obj) s = .next s' ∧
        s.LanesHold s' t { c with sf := { c.sf with e := !held }, pc := c.pcAfter 1 } ∧ s.Wrote s' [] ∧
        (obj.toNat ∈ a.locks → mget 0 s'.eng.lockOf obj.toNat = 0) ∧
        (obj.toNat ∉ a.locks → s'.eng.lockOf = s.eng.lockOf)))

/-- R138, R342, R344, R346, R354. A request to an object of the bus controllers: `WA` takes the result of Table 12.4, `CR` is 1 exactly
when it is 1, and an accepted request joins the requests of the activation once. -/
def Obligations.RequestsComplete : Prop :=
  ∀ (s : State) (t : Nat) (a : Act) (c : Ctx) (l : Lane) (n : Ctl) (b : Buf), s.Agree t a c →
    let v := s.viewOf t a
    let k := n.val * 64 + b.val
    let done (i : Instr) (obj r : Nat) : Prop :=
      ∃ s' a', exec i s = .next s' ∧ s'.act t = some a' ∧
        s.LanesHold s' t { c with wa := BitVec.ofNat 32 r, cr := r == 1, sf := { c.sf with e := false }, pc := c.pcAfter 1 } ∧
        s.Wrote s' [] ∧
        a'.reqs = if r = 1 ∧ ¬ (a.reqs.any fun q => q.1 == obj && q.2.1 == c.wa.toNat) = true then a.reqs ++ [(obj, c.wa.toNat, [])] else a.reqs
    (wordOk 0x62 9 (bufObj k * 1024) s t = true → done (.xreqTransmit l n b) (bufObj k) (bufReq v k c.wa.toNat)) ∧
    (wordOk 0x62 9 (bufObj k * 1024) s t = true → done (.xreqCancel l n b) (bufObj k) (bufReq v k c.wa.toNat)) ∧
    (wordOk 0x62 9 ((0x010 + n.val) * 1024) s t = true → done (.xreqRecover l n) (0x010 + n.val) (ctlReq v n.val c.wa.toNat)) ∧
    (wordOk 0x62 9 ((0x010 + n.val) * 1024) s t = true → done (.xreqReset l n) (0x010 + n.val) (ctlReq v n.val c.wa.toNat))

/-- R140. Jumps and calls: the next `PC`, and the return stack of 8 entries. -/
def Obligations.FlowCompletes : Prop :=
  ∀ (s : State) (t : Nat) (a : Act) (c : Ctx) (l : Lane) (g : BitVec 18), s.Agree t a c →
    (wordOk 0x70 0 g.toNat s t = true → s.Runs (.jmp l g) t { c with pc := g.toNat } []) ∧
    (wordOk 0x71 0 g.toNat s t = true → s.Runs (.jc l g) t { c with pc := if c.cr then g.toNat else c.pcAfter 1 } []) ∧
    (wordOk 0x72 0 g.toNat s t = true → s.Runs (.jnc l g) t { c with pc := if c.cr then c.pcAfter 1 else g.toNat } []) ∧
    (wordOk 0x73 0 g.toNat s t = true → s.Runs (.call l g) t { c with rs := (c.pcAfter 1 :: c.rs).take 8, pc := g.toNat } []) ∧
    (∀ r rest, c.rs = r :: rest → r < 2 ^ 18 → wordOk 0x74 0 0 s t = true → s.Runs (.ret l) t { c with rs := rest, pc := r } [])


/-! ### Die links and the coherent cycle (chapter 1) -/

/-- R18, R22, R24, R35, R50. A link reaches `UP` with its sequence numbers at 0 and is measured; it falls to `DOWN` and loses what was on it; it is
retrained; `LRESET` restarts it and marks a participating die for a miss, the counters of the link cleared. Latency that failed is measured
again, and a die whose measurements have failed for 60 s is excluded; a register access without its answer ends after 20 µs with a
timeout; a fitted slot that the image declares and whose link is not `UP` 40 ms into boot step 8 fails the boot. -/
def Obligations.LinkStatesComplete : Prop :=
  (∀ (s : State) (n : Slot), n ≠ 0 →
    (s.linkIsUp n = false → s.fitted n = true → s.present n = true → s.mode ≠ mPark → s.looped n = false →
      s.Does (.linkUp n) fun t => t.linkIsUp n = true ∧ (t.link n).ctlRx = 0 ∧ (t.link n).satRx = 0 ∧ (t.link n).measuring = true ∧
        (t.link n).down = [({ typ := 0x0C, payload := leBytes 4 (((s.link n).probeTag + 1) % 2 ^ 32) } : Frame).seal] ∧ t.sram = s.sram ∧ t.mram = s.mram) ∧
    (s.linkIsUp n = true →
      s.Does (.linkDown n) fun t => t.linkIsUp n = false ∧ (t.link n).down = [] ∧ (t.link n).up = [] ∧ (∀ m ≠ n.val, t.link m = s.link m) ∧
        s.regsBut t [Reg.LINK_STAT_UP n] ∧ t = { s with regs := t.regs, links := t.links }) ∧
    (s.linkIsUp n = false → s.declared n = true → s.mode ≠ mPark →
      s.Does (.linkRetrain n) fun t => (t.link n).ctlTx = 0 ∧ (t.link n).ctlRx = 0 ∧ (t.link n).satTx = 0 ∧ (t.link n).satRx = 0 ∧
        (∀ m ≠ n.val, t.link m = s.link m) ∧ t = { s with links := t.links }) ∧
    s.Does (.lreset n) fun t => (t.link n).up = [] ∧ (t.link n).ctlRx = 0 ∧ (t.link n).satTx = 0 ∧ (t.link n).satRx = 0 ∧
      (t.link n).lresetMiss = ((s.link n).lresetMiss || s.admitted n) ∧ (∀ m ≠ n.val, t.link m = s.link m) ∧
      t.fget (Reg.LINK_ERR_CRC_ERRORS n) = 0 ∧ t.fget (Reg.LINK_ERR_DROPS n) = 0 ∧ t.fget (Reg.LINK_MISS_MISSED_COMMITS n) = 0 ∧
      t.fget (Reg.LINK_MISS_MISSED_INPUTS n) = 0 ∧ t = { s with regs := t.regs, live := t.live, capt := t.capt, links := t.links }) ∧
  (∀ (s : State) (n : Slot), n ≠ 0 →
    ((s.link n).failSince.isSome = true → s.linkIsUp n = true → (s.link n).measuring = false → s.fbit (Reg.LINK_STAT_EXCLUDED n) = false →
      s.Does (.latencyRemeasure n) fun t => (t.link n).measuring = true ∧ (t.link n).rtts = [] ∧
        (t.link n).down = (s.link n).down ++ [s.ctlFrame n 0x0C (leBytes 4 (((s.link n).probeTag + 1) % 2 ^ 32))] ∧
        (∀ m ≠ n.val, t.link m = s.link m) ∧ t = { s with links := t.links }) ∧
    (∀ at_, (s.link n).failSince = some at_ → s.mode ≠ mBoot → s.mode ≠ mPark → s.fbit (Reg.LINK_STAT_EXCLUDED n) = false →
      s.Does (.latencyExclude n) fun t => t.fbit (Reg.LINK_STAT_EXCLUDED n) = true ∧ t.fbit (Reg.LINK_STAT_ADMITTED n) = false ∧
        t.fbit Reg.COMMIT_FLAGS_DIE_EXCLUDED = true ∧ at_ + 60000000000 ≤ t.time.mono) ∧
    (∀ at_ r q, (s.link n).regAt = some at_ → (s.link n).regQ = r :: q → r.req = 2 →
      s.Does (.regAccessTimeout n) fun t => (t.link n).regQ = q ∧ t.tap.tdo = leBytes 4 0 ++ leBytes 1 aTimeout ∧ at_ + 20000 ≤ t.time.mono ∧
        t = { s with time := t.time, power := t.power, links := t.links, tap := t.tap }) ∧
    (s.inReset = false → s.mode = mBoot → s.boot.step = 8 → s.fitted n = true → s.declared n = true → s.linkIsUp n = false →
      s.Does (.enumLinkTimeout n) fun t => t.fget Reg.BOOT_STAT_FAIL_CODE = fLinkBad ∧ t.fget Reg.BOOT_STAT_FAIL_STEP = 8 ∧
        t.fget Reg.BOOT_DETAIL_DETAIL = n ∧ t.fbit Reg.PROT_STAT_PROT_LOCK = true))

/-- R21, R22, R24, R28, R35, R40. What the satellite does with an undamaged frame next in order: it stages a set and acknowledges it, takes
up a complete set with its commit number, resends the frame a NAK names, takes up the time of a SYNC, answers a PROBE with its tag, and
answers a register access. An aborted frame is answered with NAK in either direction. -/
def Obligations.SatelliteFramesComplete : Prop :=
  ∀ (s : State) (n : Slot) (f : Frame) (rest : List Frame), n ≠ 0 → s.DownNext n f rest →
    let x := s.sat n
    let p := f.payload
    let off := leAt p 0 4
    let w := leAt p 4 4
    let a := satBase n + off
    let rsp (v st : Nat) : Frame := s.satFrame n 0x08 (leBytes 4 off ++ leBytes 4 v ++ leBytes 1 st)
    (f.typ = 0x02 → (x.ccount + 1) % 65536 = leAt p 0 2 →
      s.Does (.stage n .ok) fun t => (t.sat n).staged = some (leAt p 0 2, false, stageBytes p.length (p.drop 2) x.applied, s.time.mono) ∧
        (t.link n).up = (s.link n).up ++ [s.satFrame n 0x03 (leBytes 2 (leAt p 0 2))] ∧ (t.link n).down = rest ∧
        (∀ m ≠ n.val, t.link m = s.link m ∧ t.sat m = s.sat m) ∧ t = { s with links := t.links, sats := t.sats }) ∧
    (f.typ = 0x0A →
      let num := leAt p (outLen n) 2
      s.Does (.resync n .ok) fun t => (t.sat n).staged = some (num, true, mput 0 [] 0 (p.take (outLen n)), s.time.mono) ∧
        (t.sat n).ccount = (num + 65535) % 65536 ∧ (∃ g, (t.link n).up = (s.link n).up ++ [g] ∧ g.typ = 0x03 ∧ g.payload = leBytes 2 num) ∧
        (∀ m ≠ n.val, t.link m = s.link m ∧ t.sat m = s.sat m) ∧ t = { s with regs := t.regs, links := t.links, sats := t.sats }) ∧
    (∀ g, f.typ = 0x04 → ((s.link n).satKept.find? fun k => k.1.seq == leAt p 0 2) = some (g, false) →
      s.Does (.nak n true .ok) fun t => (t.link n).up = (s.link n).up ++ [g.again] ∧ (t.link n).down = rest ∧
        (t.link n).satKept = markNaked (leAt p 0 2) (s.link n).satKept ∧ (∀ m ≠ n.val, t.link m = s.link m) ∧ t = { s with links := t.links }) ∧
    (∀ g, f.typ = 0x04 → ((s.link n).satKept.find? fun k => k.1.seq == leAt p 0 2) = some (g, true) → g.typ ∉ [6, 7, 8] →
      s.Does (.nak n true .ok) fun t => (t.link n).up = (s.link n).up ∧ (t.link n).down = rest ∧
        t.fbit Reg.COMMIT_FLAGS_LINK_DROP = true ∧ (∀ m ≠ n.val, t.link m = s.link m) ∧
        t = { s with regs := t.regs, live := t.live, cairn := t.cairn, links := t.links }) ∧
    (f.typ = 0x05 →
      s.Does (.sync n .ok) fun t => t.localTime n = leAt p 0 8 + s.fget (Reg.LINK_LAT_LAT_NS n) ∧ (t.link n).down = rest ∧
        (∀ m ≠ n.val, t.sat m = s.sat m) ∧ t = { s with links := t.links, sats := t.sats }) ∧
    (f.typ = 0x0C →
      s.Does (.probe n .ok) fun t => (t.link n).up = (s.link n).up ++ [s.satFrame n 0x0D p] ∧ (t.link n).down = rest ∧
        (∀ m ≠ n.val, t.link m = s.link m) ∧ t = { s with links := t.links }) ∧
    (∀ fs, f.typ = 0x06 → satFields a = some fs → 0 < off → off < 0x1000 → off ≠ 0x14 →
      (if n.val ≤ 3 then off < 0x100 ∨ (off % 0x40 ≠ 0x18 ∧ off % 0x40 ≠ 0x1C) else off ≠ 0x1C) →
      s.Does (.regWr n .ok) fun t => mget 0 t.regs a = afterWrite fs (mget 0 s.regs a) w ∧ (∀ b ≠ a, mget 0 t.regs b = mget 0 s.regs b) ∧
        (t.link n).up = (s.link n).up ++ [rsp w 0] ∧ t = { s with regs := t.regs, links := t.links }) ∧
    (f.typ = 0x06 → satFields a = none → 0 < off → off < 0x1000 →
      s.Does (.regWr n .ok) fun t => (t.link n).up = (s.link n).up ++ [rsp w 0] ∧ t = { s with links := t.links }) ∧
    (∀ fs, f.typ = 0x07 → satFields a = some fs → 0 < off → off < 0x1000 →
      s.Does (.regRd n .ok) fun t => mget 0 t.regs a = afterRead fs (mget 0 s.regs a) ∧ (∀ b ≠ a, mget 0 t.regs b = mget 0 s.regs b) ∧
        (t.link n).up = (s.link n).up ++ [rsp (readValue fs (mget 0 s.regs a)) 0] ∧ t = { s with regs := t.regs, links := t.links }) ∧
    (f.typ = 0x07 → satFields a = none → 0 < off → off < 0x1000 →
      s.Does (.regRd n .ok) fun t => (t.link n).up = (s.link n).up ++ [rsp 0 0] ∧ t = { s with links := t.links }) ∧
    s.Does (.frameAbort n true) fun t => (t.link n).down = rest ∧
      (t.link n).up = (s.link n).up ++ [s.satFrame n 0x04 (leBytes 2 (s.link n).satRx)] ∧ (∀ m ≠ n.val, t.link m = s.link m) ∧
      t = { s with links := t.links }

/-- R21, R22, R24, R28, R31. What the control die does with an undamaged answer next in order: an ACK settles the STAGE in flight or marks
it wrong, a CONFIRM is held against the commit number, a NAK has the frame sent once more, a REG_RSP ends the access in hand, and an
ECHO with the tag of the measurement adds a round trip, of which the sixteenth gives the latency. -/
def Obligations.ControlAnswersComplete : Prop :=
  ∀ (s : State) (n : Slot) (f : Frame) (rest : List Frame), n ≠ 0 → s.UpNext n f rest →
    let l := s.link n
    let p := f.payload
    (∀ k, f.typ = 0x03 → l.stageNum = some k → leAt p 0 2 = k → k ≠ s.fget Reg.COMMIT_NUM_CCOUNT → l.resync = false →
      s.Does (.ack n .ok) fun t => (t.link n).acked = some k ∧ (t.link n).up = rest ∧ (∀ m ≠ n.val, t.link m = s.link m) ∧
        t = { s with links := t.links }) ∧
    (∀ k, f.typ = 0x03 → l.stageNum = some k → leAt p 0 2 ≠ k →
      s.Does (.ack n .ok) fun t => (t.link n).ackWrong = true ∧ (t.link n).acked = l.acked ∧ (∀ m ≠ n.val, t.link m = s.link m) ∧
        t = { s with links := t.links }) ∧
    (f.typ = 0x0E → s.time.confirmDue = true → bit s.time.sentTo n = true → f.ccount = s.fget Reg.COMMIT_NUM_CCOUNT →
      s.Does (.confirm n .ok) fun t => bit t.time.confirmed n = true ∧ (∀ m ≠ n.val, bit t.time.confirmed m = bit s.time.confirmed m) ∧
        t.fget (Reg.LINK_STAT_DIE_CCOUNT n) = f.ccount ∧ s.regsBut t [Reg.LINK_STAT_DIE_CCOUNT n] ∧
        t = { s with time := t.time, regs := t.regs, links := t.links }) ∧
    (∀ g, f.typ = 0x04 → (l.ctlKept.find? fun k => k.1.seq == leAt p 0 2) = some (g, false) →
      s.Does (.nak n false .ok) fun t => (t.link n).down = l.down ++ [g.again] ∧ (t.link n).up = rest ∧
        (t.link n).ctlKept = markNaked (leAt p 0 2) l.ctlKept ∧ (∀ m ≠ n.val, t.link m = s.link m) ∧ t = { s with links := t.links }) ∧
    (∀ g, f.typ = 0x04 → (l.ctlKept.find? fun k => k.1.seq == leAt p 0 2) = some (g, true) → g.typ ∉ [6, 7, 8] →
      s.Does (.nak n false .ok) fun t => (t.link n).down = l.down ∧ (t.link n).up = rest ∧
        t.fbit Reg.COMMIT_FLAGS_LINK_DROP = true ∧ (∀ m ≠ n.val, t.link m = s.link m) ∧
        t = { s with regs := t.regs, live := t.live, cairn := t.cairn, links := t.links }) ∧
    (∀ at_ r q, f.typ = 0x08 → l.regAt = some at_ → l.regQ = r :: q → r.req = 2 → leAt p 0 4 = r.off % 2 ^ 32 →
      s.Does (.regRsp n .ok) fun t => (t.link n).regQ = q ∧ t.tap.tdo = leBytes 4 (leAt p 4 4) ++ leBytes 1 (if leAt p 8 1 = 0 then aOk else aUnmapped) ∧
        (t.link n).regAt = (if q = [] then none else some s.time.mono) ∧ t = { s with links := t.links, tap := t.tap }) ∧
    (∀ rtt, f.typ = 0x0D → l.measuring = true → leAt p 0 4 = l.probeTag → l.rtts.length < 15 →
      s.Does (.echo n .ok rtt) fun t => (t.link n).rtts = rtt :: l.rtts ∧ (t.link n).measuring = true ∧ t = { s with links := t.links }) ∧
    (∀ rtt, f.typ = 0x0D → l.measuring = true → leAt p 0 4 = l.probeTag → l.rtts.length = 15 →
      let lat := ((rtt :: l.rtts).foldl (· + ·) 0 - 6400) / 32
      s.Does (.echo n .ok rtt) fun t => t.fget (Reg.LINK_LAT_LAT_NS n) = clip 12 lat ∧ (t.link n).measuring = false ∧
        ((t.link n).failSince.isSome ↔ 2000 < lat ∨ 40 < (rtt :: l.rtts).foldl max 0 - (rtt :: l.rtts).foldl min ((rtt :: l.rtts).foldl max 0)) ∧
        t = { s with regs := t.regs, links := t.links }) ∧
    s.Does (.frameAbort n false) fun t => (t.link n).up = rest ∧
      (t.link n).down = l.down ++ [s.ctlFrame n 0x04 (leBytes 2 l.ctlRx)] ∧ (∀ m ≠ n.val, t.link m = s.link m) ∧ t = { s with links := t.links }

/-- R20, R21. A frame that its receiver finds damaged (a wrong CRC, or a payload beyond 1,024 bytes), or that is not next in order, is
discarded and answered with a NAK that names the `SEQ` expected: the receiver acts on nothing in it, whatever its type. Behind the
second NAK of one `SEQ` it goes on (DESIGN CHOICE, log 22). -/
def Obligations.DamagedFramesAreDiscarded : Prop :=
  ∀ (s : State) (n : Slot) (f : Frame) (rest : List Frame) (rx : Rx), n ≠ 0 → s.linkIsUp n = true → s.looped n = false →
    let l := s.link n
    (l.up = f :: rest → rx ≠ .ok ∨ f.whole = false ∨ f.seq ≠ l.ctlRx →
      ∀ (typ : Nat) (p : List Byte → Bool) (act : State → List Byte → Nat → State), f.typ = typ → p f.payload = true →
      let t := s.ctlTake n typ p rx act
      (t.link n).up = rest ∧ (t.link n).down = l.down ++ [s.ctlFrame n 0x04 (leBytes 2 l.ctlRx)] ∧
        (t.link n).ctlNaked = !l.ctlNaked ∧ (t.link n).ctlRx = (if l.ctlNaked then (l.ctlRx + 1) % 65536 else l.ctlRx) ∧
        (∀ m ≠ n.val, t.link m = s.link m) ∧ t = { s with links := t.links, live := t.live }) ∧
    (s.present n = true → l.down = f :: rest → rx ≠ .ok ∨ f.whole = false ∨ f.seq ≠ l.satRx →
      ∀ (typ : Nat) (act : State → List Byte → State), f.typ = typ →
      let t := s.satTake n typ rx act
      (t.link n).down = rest ∧ (t.link n).up = l.up ++ [s.satFrame n 0x04 (leBytes 2 l.satRx)] ∧
        (t.link n).satNaked = !l.satNaked ∧ (t.link n).satRx = (if l.satNaked then (l.satRx + 1) % 65536 else l.satRx) ∧
        (∀ m ≠ n.val, t.link m = s.link m) ∧ t = { s with links := t.links })

/-- R147, R240, R249, R461, R20, R34. What the control die does with an undamaged report next in order: an EVENT makes each enabled event
task pending that waits for it, a trace sample goes into the ring of its channel, a profile goes into bank B2, a state change goes into
the open ledger record, and an INPUT block is taken for the sample point in hand. -/
def Obligations.ControlReportsComplete : Prop :=
  ∀ (s : State) (n : Slot) (f : Frame) (rest : List Frame), n ≠ 0 → s.UpNext n f rest →
    let p := f.payload
    let b (i : Nat) : Nat := leAt p i 1
    (f.typ = 0x09 → s.running = true → s.power.crossAt = none →
      s.Does (.event n .ok) fun t => ∀ u, 16 ≤ u → u < 24 → s.taskOn u = true →
        let kind := s.topoN 0x0202 u 3 1 0
        let arg := s.topoN 0x0202 u 8 4 0
        (n.val ≤ 3 ∧ kind = 3 ∧ arg % 16 = 4 * (n - 1) + b 1 % 16 % 4 ∧ (arg / 256 % 256 = b 0 ∨ arg / 256 % 256 = 0xFF)) ∨
          (4 ≤ n.val ∧ n.val ≤ 5 ∧ kind = 4 ∧ (b 0 = wTrip ∨ b 0 = wThermal ∨ b 0 = wDiag) ∧ (arg % 32 = 12 * (n - 4) + b 1 % 16 ∨ arg % 32 = 31)) ∨
          (6 ≤ n.val ∧ kind = 2 ∧ b 0 = 1 ∧ arg % 64 = 32 * (n - 6) + b 1 % 32 ∧ bit (arg / 256) (if bit (b 2) 0 then 0 else 1) = true) →
        bit t.eng.pend u = true) ∧
    (f.typ = 0x0B → b 0 < 12 →
      let i := mget 0 (s.link n).traceNext (b 0)
      s.Does (.trace n .ok) fun t => s.Stored t (0x800000 + b 0 * 0x20000 + 16 * i) (sub_ p 1 16) ∧
        mget 0 (t.link n).traceNext (b 0) = (i + 1) % 8192 ∧ t = { s with sram := t.sram, links := t.links }) ∧
    (f.typ = 0x0B → b 0 = 0xF0 → b 1 < 12 →
      let base := 0x980000 + b 1 * 0x1000
      let lo := base + (if b 3 = 1 then 0x400 else 0) + b 2 % 2 * 0x200
      s.Does (.profileFrame n .ok) fun t => mslice 0 t.sram lo ((p.drop 4).take 512).length = (p.drop 4).take 512 ∧
        (∀ a, a < base ∨ base + 0x1000 ≤ a → t.rd a = s.rd a) ∧ bit (t.fget Reg.PROF_STAT_LEARNED) (b 1) = true ∧ t.mram = s.mram) ∧
    (f.typ = 0x0B → b 0 = 0xF1 → b 1 < 12 → s.mode ≠ mStandby → (s.lrec (b 1)).isOpen = true → b 2 ≠ dLocked →
      s.Does (.ledgerStateFrame n .ok) fun t => (t.lrec (b 1)).isOpen = true ∧ (t.lrec (b 1)).state = b 2 ∧ (t.lrec (b 1)).at_ = leAt p 3 5 ∧
        (∀ k ≠ b 1, t.lrec k = s.lrec k) ∧ t.sram = s.sram ∧ t.mram = s.mram) ∧
    (f.typ = 0x01 → (s.link n).inputDue = true → (s.link n).inputIn = false →
      s.Does (.input n .ok) fun t => (t.link n).inputIn = true ∧ (t.link n).input = p)

/-- R23, R24, R26 to R28, R30, R31, R34. The coherent cycle. SAMPLE goes out once, 2,000 ns ahead of its point, to the admitted dies that a task
sampling there reads; a powered satellite latches and reports its input block; the point passes; what has not arrived 20 µs later is
missed. COMMIT goes to the admitted dies once, 2,000 ns ahead of its point; a satellite applies its staged set and confirms with the
advanced counter, a field die in mode S over its field side; the commit number advances; what has not confirmed 5 µs later misses; and the
committed image switches. -/
def Obligations.CoherentCycleCompletes : Prop :=
  (∀ s : State,
    (s.sampling = true → s.time.sampled = false →
      s.Does .sampleEmit fun t => t.time.sampled = true ∧ samplePt s.time.gs - 2000 ≤ t.time.dev ∧ t.time.gs = s.time.gs ∧
        (let u := s.toDev (samplePt s.time.gs - 2000)
         ∀ n ∈ satSlots, (t.link n).inputDue = (u.admitted n && (taskNums.filter fun k => u.mayBeDue k u.time.gs).any fun k => (u.slotsOf k).contains n) ∧
          (t.link n).latchDue = ((t.link n).inputDue || (s.link n).latchDue) ∧ (t.link n).inputIn = false) ∧ t.regs = s.regs ∧ t.sram = s.sram ∧ t.mram = s.mram) ∧
    (∀ n : Slot, n ≠ 0 → (s.link n).latchDue = true → s.present n = true → s.linkIsUp n = true →
      let v := s.setLink n { s.link n with latchDue := false }
      let u := if s.time.sampled then v.toDev (samplePt s.time.gs) else v
      let block := if n.val ≤ 3 then u.doorInput (n - 1) else u.loadInput (n - 4)
      s.Does (.sampleLatch n) fun t => (t.link n).latchDue = false ∧ (s.time.sampled = true → samplePt s.time.gs ≤ t.time.dev) ∧
        (if n.val ≤ 5 then (t.sat n).latched = block ∧ (t.link n).up = (s.link n).up ++ [s.satFrame n 0x01 block]
         else (t.fio (n - 6)).sampleDue = true) ∧
        t = { s with time := u.time, power := u.power, links := t.links, sats := t.sats, fields := t.fields }) ∧
    (s.inReset = false → s.Does .samplePoint fun t => t.time.sampled = false ∧ s.time.gs < t.time.gs ∧
      (s.time.slew = 0 → samplePt s.time.gs ≤ t.time.dev)) ∧
    (s.running = true →
      s.Does .inputDeadline fun t => (s.time.slew = 0 → samplePt (s.time.gs - 1) + 20000 ≤ t.time.dev) ∧
        ∀ n ∈ satSlots, (s.link n).inputDue = true → (s.link n).inputIn = false →
          (t.link n).inputDue = false ∧ t.fbit Reg.COMMIT_FLAGS_INPUT_MISS = true)) ∧
  (∀ s : State,
    (s.commits = true → s.time.emitted = false →
      (∀ n ∈ satSlots, s.admitted n = true → (s.link n).lresetMiss = false ∧ (s.link n).ackWrong = false ∧
        ((s.link n).stageNum = none ∨ (s.link n).acked.isSome = true)) →
      s.Does .commitEmit fun t => t.time.emitted = true ∧ commitPt s.time.gc - 2000 ≤ t.time.dev ∧
        (∀ n ∈ satSlots, s.admitted n = true → bit t.time.sentTo n = true ∧ (s.linkIsUp n = true → (t.link n).commitDue = true)) ∧
        t.regs = s.regs ∧ t.sram = s.sram ∧ t.mram = s.mram) ∧
    (∀ n : Slot, n ≠ 0 → (s.link n).commitDue = true → s.present n = true → s.looped n = false → s.linkIsUp n = true →
      (6 ≤ n.val → s.modeC (n - 6) = true) →
      s.Does (.commitApply n) fun t => (s.time.emitted = true → commitPt s.time.gc ≤ t.time.dev) ∧ (t.sat n).ccount = ((s.sat n).ccount + 1) % 65536 ∧ (t.sat n).staged = none ∧
        (t.sat n).applied = (match (s.sat n).staged with
          | some (k, _, b, _) => if k = ((s.sat n).ccount + 1) % 65536 then b else (s.sat n).applied
          | none => (s.sat n).applied) ∧
        ∃ g, (t.link n).up.getLast? = some g ∧ g.typ = 0x0E ∧ g.ccount = ((s.sat n).ccount + 1) % 65536) ∧
    (∀ n : Slot, 6 ≤ n.val → (s.link n).commitDue = true → s.present n = true → s.looped n = false → s.modeC (n - 6) = false →
      s.Does (.commitApply n) fun t => (t.fio (n - 6)).applyNum = some (((s.sat n).ccount + 1) % 65536) ∧ t.sat n = s.sat n) ∧
    (s.commits = true →
      s.Does .commitPoint fun t => t.fget Reg.COMMIT_NUM_CCOUNT = (s.fget Reg.COMMIT_NUM_CCOUNT + 1) % 65536 ∧ s.time.gc < t.time.gc ∧
        commitPt s.time.gc ≤ t.time.dev ∧ t.time.emitted = false ∧ (s.power.park ≠ 3 → t.time.publishDue = true)) ∧
    (s.time.confirmDue = true →
      s.Does .confirmDeadline fun t => t.time.confirmDue = false ∧ commitPt (s.time.gc - 1) + 5000 ≤ t.time.dev ∧
        ∀ n ∈ satSlots, bit s.time.sentTo n = true → bit s.time.confirmed n = false → t.fbit (Reg.LINK_STAT_ORPHAN n) = true ∧
          t.fbit (Reg.LINK_STAT_ADMITTED n) = false) ∧
    (s.time.publishDue = true →
      s.Does .publish fun t => t.time.publishDue = false ∧ t.cimg.ccount = s.cnext.ccount))

/-- R26, R29, R31, R40. The deadlines of a STAGE and the SYNC: a STAGE without its ACK is resent once after 5 µs, its die misses after 10 µs,
a staged set without a COMMIT is discarded after 50 µs, and SYNC carries device time to every admitted die. -/
def Obligations.StageDeadlinesComplete : Prop :=
  ∀ s : State,
    (∀ (n : Slot) (k : Nat) (f : Frame) (b : Bool), (s.link n).stageNum = some k → (s.link n).acked = none → (s.link n).stageResent = false →
      ((s.link n).ctlKept.find? fun g => g.1.typ == 2 || g.1.typ == 0x0A) = some (f, b) →
      s.Does (.stageResend n) fun t => (t.link n).stageResent = true ∧ (t.link n).down = (s.link n).down ++ [f.again] ∧
        (s.link n).stageAt + 5000 ≤ t.time.mono ∧ (∀ m ≠ n.val, t.link m = s.link m) ∧ t = { s with time := t.time, power := t.power, links := t.links }) ∧
    (∀ (n : Slot) (k : Nat), n ≠ 0 → (s.link n).stageNum = some k → (s.link n).acked = none → (s.link n).resync = false →
      s.Does (.ackDeadline n) fun t => t.fbit (Reg.LINK_STAT_ORPHAN n) = true ∧ t.fbit (Reg.LINK_STAT_ADMITTED n) = false ∧
        (t.link n).stageNum = none ∧ (s.link n).stageAt + 10000 ≤ t.time.mono) ∧
    (∀ (n : Slot) (k : Nat) (full : Bool) (b : Bytes) (at_ : Nat), (s.sat n).staged = some (k, full, b, at_) → s.present n = true →
      s.Does (.stageDiscard n) fun t => (t.sat n).staged = none ∧ (t.sat n).applied = (s.sat n).applied ∧ at_ + 50000 ≤ t.time.mono ∧
        (∀ m ≠ n.val, t.sat m = s.sat m) ∧ t = { s with time := t.time, power := t.power, sats := t.sats }) ∧
    (s.mode ≠ mPark → satSlots.any (fun n => s.admitted n) = true →
      s.Does .syncSend fun t => t.time.lastSync = t.time.mono ∧ s.time.lastSync + 100000 ≤ t.time.mono ∧
        (∀ n ∈ satSlots, s.admitted n = true → s.linkIsUp n = true →
          (t.link n).down = (s.link n).down ++ [s.ctlFrame n 0x05 (leBytes 8 t.time.dev)]) ∧
        t = { s with time := t.time, power := t.power, links := t.links })

/-- R12, R13, R22, R46. A write or read of a register by its access types: on the control die at once, on a fitted satellite over its link.
A snapshot captures every snapshot field, and delivers what it captured as one step. -/
def Obligations.RegisterAccessCompletes : Prop :=
  ∀ (s : State) (addr v : Word),
    let a := addr.toNat
    (∀ fs, s.mode ≠ mPark → slotOfAddr a = none → ctlFields a = some fs → a ∉ [0x40000000, 0x40000010, Reg.SNAP_CTRL_SNAP_REQ.addr, Reg.LB_CTRL_START.addr] →
      s.Does (.registerWrite addr v) fun t => mget 0 t.regs a = afterWrite fs (mget 0 s.regs a) v.toNat ∧
        (∀ b ≠ a, mget 0 t.regs b = mget 0 s.regs b) ∧ t = { s with regs := t.regs }) ∧
    (s.mode ≠ mPark → 0x40090050 ≤ a → a < 0x40090064 → a % 4 = 0 → s.Does (.rcRead addr) fun t => t = { s with free := s.free + 1 }) ∧
    (∀ fs, s.mode ≠ mPark → slotOfAddr a = none → ctlFields a = some fs → a ≠ 0x40000000 → ¬ (0x40090050 ≤ a ∧ a < 0x40090064 ∧ a % 4 = 0) →
      s.Does (.rcRead addr) fun t => mget 0 t.regs a = afterRead fs (mget 0 s.regs a) ∧ (∀ b ≠ a, mget 0 t.regs b = mget 0 s.regs b) ∧
        t = { s with regs := t.regs, live := t.live, capt := t.capt }) ∧
    (∀ n, s.mode ≠ mPark → slotOfAddr a = some n → s.fitted n = true →
      (s.Does (.registerWrite addr v) fun t =>
        (t.link n).regQ = (s.link n).regQ ++ [{ req := 0, write := true, off := a - satBase n, data := v.toNat }] ∧
        (∀ m ≠ n, t.link m = s.link m) ∧ t = { s with links := t.links }) ∧
      s.Does (.rcRead addr) fun t => (t.link n).regQ = (s.link n).regQ ++ [{ req := 0, write := false, off := a - satBase n, data := 0 }] ∧
        (∀ m ≠ n, t.link m = s.link m) ∧ t = { s with links := t.links }) ∧
    (s.mode ≠ mPark → s.fbit Reg.SNAP_CTRL_SNAP_BUSY = false →
      s.Does .snapReq fun t => t.capt = s.captured ∧ t.fbit Reg.SNAP_CTRL_SNAP_BUSY = true ∧ s.regsBut t [Reg.SNAP_CTRL_SNAP_BUSY] ∧
        t = { s with regs := t.regs, capt := t.capt }) ∧
    (s.fbit Reg.SNAP_CTRL_SNAP_BUSY = true →
      s.Does .snapDone fun t => (∀ f ∈ snapFields, t.fget f = fieldOf (mget 0 s.capt f.addr) f.lo (f.hi + 1 - f.lo)) ∧
        t.fbit Reg.SNAP_CTRL_SNAP_BUSY = false ∧ t = { s with free := t.free, regs := t.regs, capt := [] })

/-! ### Modes, resets and power (chapter 2) -/

/-- R50, R62, R63, R65, R77, R354, R400, R470. Device resets: power-on, power-fail (with the mode before the save), the pin (held until it returns
high) and the watchdog each start a boot with their cause; the release of the pin ends the hold; a satellite whose own supply returns is
unconfigured and its link is down. Scoped resets: a message bus controller leaves its bus and loses what its buffers hold, the Query
Port's reset begins, the Rope restarts its numbers and is down, and a die link restarts. -/
def Obligations.ResetsComplete : Prop :=
  (∀ s : State,
    (∀ b, s.Does (.por b) fun t => s.Restarted t 0 ∧ t.boot.cold = true ∧ t.board.seatB = b ∧ t.time.dev = 0) ∧
    (s.power.hold = true → s.Does .pfail fun t => s.Restarted t 1 ∧ t.boot.cold = true ∧ t.power.hold = false) ∧
    (s.tap.pinLow = false → s.tap.held = false → s.power.hold = false →
      s.Does .pin fun t => s.Restarted t 2 ∧ t.boot.cold = false ∧ t.inReset = true) ∧
    (s.mode ≠ mPark → s.inReset = false →
      s.Does .wdt fun t => s.Restarted t 3 ∧ t.boot.cold = false ∧ s.power.wdtAt + s.wdtTime ≤ t.time.mono) ∧
    (s.tap.pinLow = true →
      s.Does .resetNRelease fun t => t.tap.pinLow = false ∧ t.power.wdtAt = s.time.mono ∧ t = { s with tap := t.tap, power := t.power }) ∧
    (∀ n : Slot, n ≠ 0 → s.fitted n = true →
      s.Does (.diePowerUp n) fun t => t.linkIsUp n = false ∧ t.sat n = { localAt := s.time.mono } ∧ (∀ m ≠ n.val, t.sat m = s.sat m) ∧
        t.sram = s.sram ∧ t.mram = s.mram)) ∧
  (∀ s : State, s.mode ≠ mPark →
    (∀ c : Ctl, s.Does (.scopedResetCan c) fun t => (t.ctl c).joined = false ∧ (t.ctl c).bus = none ∧ (t.ctl c).refs = 0 ∧
      (∀ b : Buf, s.bufOn (c.val * 64 + b) = true → (t.buf (c.val * 64 + b)).main = none ∧ (t.buf (c.val * 64 + b)).isNew = false) ∧
      t.fget (Reg.CAN_STAT_LISTEN c) = s.fget (Reg.CAN_STAT_LISTEN c)) ∧
    (s.Does .scopedResetQp fun t => t.qp.resetDue = true ∧ t = { s with qp := t.qp }) ∧
    (s.Does .scopedResetRope fun t => t.dup.txSeq = 0 ∧ t.dup.rxSeq = 0 ∧ t.dup.kept = [] ∧ t.ropeUp = false) ∧
    (∀ n : Slot, n ≠ 0 →
      s.Does (.scopedResetLink n) fun t => (t.link n).up = [] ∧ (t.link n).ctlRx = 0 ∧ (t.link n).satTx = 0 ∧ (t.link n).satRx = 0 ∧
        (∀ m ≠ n.val, t.link m = s.link m) ∧ t = { s with regs := t.regs, live := t.live, capt := t.capt, links := t.links }))

/-- R69 to R77, R157, R417, R433. PARK: the park commit is fixed once the checkpoint is written; a wake source starts a warm boot that shows it and
keeps the banks; the Keep banks are usable 1.5 ms after the wake. The power-fail save: the status follows VL; the warning starts it and
abandons every activation; the power-fail task is given up at its deadline; the power-fail commit is the last; the claim is withdrawn; and
the save ends, complete or aborted, with the module held in reset. -/
def Obligations.ParkAndPowerFailComplete : Prop :=
  (∀ s : State,
    let woken (t : State) (src : Nat) : Prop := t.mode = mBoot ∧ t.boot.step = 1 ∧ t.boot.wake = true ∧ t.fget Reg.PARK_STAT_WAKE_SRC = src ∧
      t.fbit Reg.MEM_STAT_KEEP_WAIT = true ∧ t.laneState = s.laneState ∧ t.sram = s.sram ∧ t.mram = s.mram
    (s.power.park = 2 → s.mode = mActive → s.duplexNow = false →
      s.Does .parkEntry fun t => t.power.park = 3 ∧ t.power.parkNum = (s.fget Reg.COMMIT_NUM_CCOUNT + 1) % 65536 ∧ t = { s with power := t.power }) ∧
    (s.wakeOn 0 = true → s.Does .wake fun t => woken t 1) ∧
    (∀ c : Ctl, s.wakeOn 1 = true → bit (s.topoN 0x0102 0 1 1 0) c = true → s.Does (.canWake c) fun t => woken t 2) ∧
    (s.wakeOn 2 = true → s.topoN 0x0102 0 2 4 0 ≠ 0 →
      s.Does .aonWake fun t => woken t 3 ∧ s.power.parkAt + s.topoN 0x0102 0 2 4 0 * 1000000000 ≤ t.time.mono) ∧
    (∀ at_, s.power.wakeAt = some at_ →
      s.Does .keepBanksReady fun t => t.fbit Reg.MEM_STAT_KEEP_WAIT = false ∧ t.power.wakeAt = none ∧ at_ + 1500000 ≤ t.time.mono ∧
        t = { s with time := t.time, power := t.power, regs := t.regs })) ∧
  (∀ s : State,
    (∀ vl, s.Does (.vlLow vl) fun t => t.fbit Reg.PF_STAT_VL_LOW = decide (vl.toNat < 1080) ∧ s.regsBut t [Reg.PF_STAT_VL_LOW] ∧
      t = { s with regs := t.regs }) ∧
    (s.power.crossAt = none → s.power.hold = false →
      s.Does .pfWarn fun t => t.power.crossAt = some (s.time.mono - 20000) ∧ t.power.vlOk = false ∧ t.fbit Reg.PF_STAT_PF_WARN = true ∧
        t.eng.ckpt = none ∧ ∀ u < 24, t.act u = none) ∧
    (∀ u a, (taskNums.find? fun t => match s.act t with | some a => a.pf | none => false) = some u → s.act u = some a →
      s.Does .pfTaskDeadline fun t => t.act u = none ∧ t.power.taskRun = false ∧ a.at_ + 100000 ≤ t.time.mono) ∧
    (s.power.crossAt.isSome = true → s.commits = true → s.pfWait = false → (∀ e ∈ s.eng.ended, e.out = true) →
      s.Does .pfCommit fun t => t.power.committed = true ∧ t.commits = false ∧
        t.fget Reg.COMMIT_NUM_CCOUNT = (s.fget Reg.COMMIT_NUM_CCOUNT + 1) % 65536) ∧
    (s.power.claimDue = true →
      s.Does .pfClaimWithdraw fun t => t.power.claimDue = false ∧ t.dup.claimOut = false ∧ t.fbit Reg.MODE_STAT_CLAIM_OUT = false) ∧
    (s.power.crossAt.isSome = true → s.power.hold = false → (s.running = true → s.power.committed = true) →
      s.Does .saved fun t => t.mode = mBoot ∧ t.inReset = true ∧ t.power.hold = true ∧ t.fbit Reg.PF_STAT_SAVED = true ∧
        t.fbit Reg.PF_STAT_SAVE_ABORTED = false ∧ t.sats = s.sats) ∧
    (∀ at_, s.power.crossAt = some at_ →
      s.Does .saveAborted fun t => t.mode = mBoot ∧ t.inReset = true ∧ t.power.hold = true ∧ t.fbit Reg.PF_STAT_SAVED = false ∧
        t.fbit Reg.PF_STAT_SAVE_ABORTED = true ∧ at_ + 2000000 ≤ t.time.mono ∧ t.sram = s.sram))

/-- R51, R64, R96, R97, R100, R165, R166, R439. The boot steps: step 1 locks the clocks, step 2 goes on with a good ROM and fails into SAFE with
a bad one, step 3 of a cold boot zeroes the banks. The scheduler's tick restarts the watchdog, the shadow copy is marked valid only at
its end, an idle MAINTENANCE session asks for ACTIVE, and a checkpoint is cut, its slot's mark
cleared, or deferred, and is valid at its end. -/
def Obligations.HousekeepingCompletes : Prop :=
  ∀ s : State,
    (∀ o, s.inReset = false → s.mode = mBoot → s.boot.step = 1 →
      s.Does (.bootStep o) fun t => t.boot.step = 2 ∧ t.fget Reg.CLK_STAT_PLL_LOCK = 0xFF ∧ t.fbit Reg.CLK_STAT_REFCLK_OK = true ∧
        t.sram = s.sram ∧ t.mram = s.mram) ∧
    (∀ o, s.inReset = false → s.mode = mBoot → s.boot.step = 2 → o.romOk = true → s.fget Reg.BOOT_STAT_BOOT_LOOPS ≠ 3 →
      s.Does (.bootStep o) fun t => t.boot.step = 3 ∧ t.sram = s.sram ∧ t.mram = s.mram) ∧
    (∀ o, s.inReset = false → s.mode = mBoot → s.boot.step = 2 → o.romOk = false → s.modeReq = none → s.tap.wait = [] →
      s.Does (.bootStep o) fun t => t.mode = mSafe ∧ t.fget Reg.BOOT_STAT_FAIL_CODE = fRom ∧ t.fget Reg.BOOT_STAT_FAIL_STEP = 2 ∧
        t.fbit Reg.PROT_STAT_PROT_LOCK = true) ∧
    (∀ o, s.inReset = false → s.mode = mBoot → s.boot.step = 3 → s.boot.cold = true → o.mbistFail = 0 →
      s.Does (.bootStep o) fun t => t.boot.step = 4 ∧ (∀ a, t.rd a = 0) ∧ t.fget Reg.MEM_STAT_MBIST_PASS = 31 ∧ t.mram = s.mram) ∧
    (s.inReset = false → s.mode ≠ mBoot → s.mode ≠ mPark →
      s.Does .schedulerTick fun t => t.power.wdtAt = t.time.mono ∧ t.time.dev = (s.time.dev / 250000 + 1) * 250000 ∧
        t.sram = s.sram ∧ t.mram = s.mram) ∧
    (∀ complete i, s.boot.image = some i → s.boot.firstSample ≠ 0 → s.mode ≠ mPark → s.fbit Reg.BOOT_STAT_FROM_SHADOW = false →
      (s.shadowValid = false ∨ s.shadowBytes 32 32 ≠ i.hash) →
      s.Does (.shadowCopy complete) fun t => t.fbit Reg.SHADOW_STAT_VALID = complete ∧ t.fbit Reg.SHADOW_STAT_WRITING = !complete ∧
        mget 0 t.mram hdrBase = (if complete then 0xA5 else 0) ∧ t = { s with regs := t.regs, mram := t.mram }) ∧
    (s.mode = mMaint → s.modeReq = none →
      s.Does .maintIdleTimeout fun t => t.modeReq = some { mode := mActive, trig := trIdle } ∧
        s.net.maintIdle + s.topoN 0x0101 0 4 2 600 * 1000000000 ≤ t.time.mono) ∧
    (s.eng.ckpt = none → s.running = true → s.power.crossAt = none → 0 < s.time.gc →
      (s.fget Reg.CKPT_SEQ_SEQ = 0 ∨ s.fget Reg.CKPT_GRID_LO_GC_LO ≠ (s.time.gc - 1) % 2 ^ 32) → s.parkCut = false → s.cutIsDue = true →
      s.Does .checkpointCut fun t => (if s.fbit Reg.CKPT_STAT_NONATOMIC_RUN then t.eng.ckpt = none ∧ t.eng.cutDeferred = true
            ∧ t.mram = s.mram
          else (∃ c, t.eng.ckpt = some c ∧ c.slot = s.ckTarget ∧ c.gc = s.time.gc - 1 ∧ c.blks = s.eng.dirty.getD s.ckTarget 0) ∧
            t.fbit Reg.CKPT_STAT_BUSY = true ∧ t.mrN (ckHead s.ckTarget + 16380) 4 = 0 ∧
            s.sameMramOutside t (ckHead s.ckTarget + 16380) 4) ∧ t.sram = s.sram) ∧
    (∀ c, s.eng.ckpt = some c → c.slot < 4 →
      ∀ ns, s.Does (.checkpointComplete ns) fun t => t.eng.ckpt = none ∧ t.time.mono = s.time.mono + ns ∧ t.mrN (ckHead c.slot + 16380) 4 = 0xA5A5A5A5 ∧
        t.fget Reg.CKPT_STAT_LAST_SLOT = c.slot ∧ t.fget Reg.CKPT_SEQ_SEQ = nextGen (s.fget Reg.CKPT_SEQ_SEQ) ∧
          t.power.park = (if c.flags = 2 ∧ s.power.park = 1 then 2 else s.power.park) ∧ t.sram = s.sram)


/-- R68, R139, R140, R155. `END` ends the activation, whose changes then wait for a commit; `WARN` and `FAULT` record only where `CR` is 1,
and a stopping `FAULT` ends the activation and asks for SAFE; a request on the system object gives the result of Table 2.12 and, accepted,
begins PARK. -/
def Obligations.EndAndEventsComplete : Prop :=
  ∀ (s : State) (t : Nat) (a : Act) (c : Ctx) (l : Lane) (user : Byte), s.Agree t a c →
    let after : Ctx := { c with pc := c.pcAfter 1 }
    let code := cUSER + user.toNat
    let room := mget 0 s.cairn.spent code < (s.rateOf code).1 ∧ s.cairn.queue.length < 256
    let recorded (s' : State) (sev : Nat) : Prop :=
      ∃ r, s'.cairn.queue = s.cairn.queue ++ [r] ∧ r.code = code ∧ r.sev = sev ∧ r.task = t ∧ r.cyc = a.cyc
    (wordOk 0x7F 0 0 s t = true →
      s.Does (.endAct l) fun s' => s'.act t = none ∧ ∃ e ∈ s'.eng.ended, e.task = t ∧ e.cyc = a.cyc ∧ e.g = a.g) ∧
    (wordOk 0x68 0 user.toNat s t = true → (c.cr = true → room) →
      s.Does (.warn l user) fun s' => s.LanesHold s' t after ∧ s.Wrote s' [] ∧ if c.cr then recorded s' 1 else s'.cairn = s.cairn) ∧
    (wordOk 0x69 0 user.toNat s t = true → (c.cr = true → room) →
      s.Does (.faultI l user false) fun s' => s.LanesHold s' t after ∧ s.Wrote s' [] ∧ if c.cr then recorded s' 2 else s'.cairn = s.cairn) ∧
    (wordOk 0x69 0 (user.toNat + 256) s t = true → c.cr = true → s.driving = true → s.power.crossAt = none → s.modeReq = none →
      s.Does (.faultI l user true) fun s' => s'.act t = none ∧
        s'.modeReq = some { mode := mSafe, trig := 0x8A, reason := 0x0A, detail := t }) ∧
    (wordOk 0x62 9 0 s t = true →
      let r := if c.wa.toNat = 1 then a.park else unknownReq
      s.Does (.xreqPark l) fun s' =>
        s.LanesHold s' t { c with wa := BitVec.ofNat 32 r, cr := r == 1, sf := { c.sf with e := false }, pc := c.pcAfter 1 } ∧ s.Wrote s' [] ∧
        (c.wa.toNat = 1 → s'.fget Reg.PARK_STAT_PARK_RESULT = r % 16) ∧
        s'.power.park = (if c.wa.toNat = 1 ∧ r = 1 ∧ s.power.park = 0 ∧ s.mode = mActive then 1 else s.power.park))

/-! ### The voter, tasks and online change (chapters 5 to 7) -/

/-- R147, R160, R197, R199 to R201. An excluded lane rejoins with the context of the earliest voting lane; a self-test waits from a 10 s instant
for a write event of its step, and there passes, asks for SAFE, or is void and is made again; a user timer makes its event task pending; an event activation is abandoned at its deadline. -/
def Obligations.VoterAndTimersComplete : Prop :=
  ∀ s : State,
    (∀ l : Lane, bit (s.fget Reg.VOTE_STAT_EXCLUDED) l = true → (bit s.eng.boundary l = true ∨ s.eng.run.all (·.isNone) = true) →
      s.eng.frozen = false → bit s.eng.retire l = false → s.eng.dbgWait = false →
      s.Does (.laneRejoin l) fun t => bit (t.fget Reg.VOTE_STAT_EXCLUDED) l = false ∧ t.fbit Reg.VOTE_FLAGS_REJOIN = true ∧
        (∀ u a, s.act u = some a → t.act u = some { a with ctx := a.ctx.set l (a.ctx.getD ((lanesOf s.votingMask).headD 0) {}) }) ∧
        t.sram = s.sram ∧ t.mram = s.mram) ∧
    (s.laneState ≠ laneUnbound → s.running = true → s.eng.frozen = false → s.soleLane = false →
      ∀ sound flags, s.Does (.voterSelftest sound flags) fun t =>
        t.eng.vtest = some (if sound = true then none else some (flags.map fun p => (p.1.val, p.2.val))) ∧
        s.lget Reg.VTEST_T_LO_VT_LO + s.lget Reg.VTEST_T_HI_VT_HI * 2 ^ 32 < t.time.dev ∧ s.time.dev ≤ t.time.dev ∧
        t.time.dev % 10000000000 = 0 ∧ t = { s with time := t.time, power := t.power, eng := { s.eng with vtest := t.eng.vtest } }) ∧
    (∀ vs d inj, s.driving = true → s.eng.vtest = some d →
      let step := s.testStep (s.fget Reg.VTEST_STAT_NEXT_STEP)
      ((vs.find? fun p => p.1 == step / 11).bind fun p => injected step p.2) = some inj →
      let t := s.selfTest vs
      (∀ x, vote vs = .pass x none →
        let seen := match d with
          | some f => f
          | none => flagOf vs.length (step / 11) (vote (vs.map fun p => if p.1 = step / 11 then (step / 11, inj) else p))
        t.eng.vtest = none ∧
        (seen = some (step / 11, step % 11) → t.fget Reg.VTEST_STAT_PASSED = (s.fget Reg.VTEST_STAT_PASSED + 1) % 65536 ∧
          t.fget Reg.VTEST_STAT_NEXT_STEP = s.testStep ((step + 1) % 33) ∧ t.modeReq = s.modeReq ∧ t.sram = s.sram) ∧
        (seen ≠ some (step / 11, step % 11) → s.power.crossAt = none → s.modeReq = none →
          t.modeReq = some { mode := mSafe, trig := 0x85, reason := 0x05, detail := step / 11 })) ∧
      ((∀ x, vote vs ≠ .pass x none) → t.fbit Reg.VOTE_FLAGS_VTEST_VOID = true ∧ t.eng = s.eng ∧
        t.fget Reg.VTEST_STAT_NEXT_STEP = s.fget Reg.VTEST_STAT_NEXT_STEP ∧ t = { s with regs := t.regs, live := t.live, capt := t.capt })) ∧
    (∀ u : Task, 16 ≤ u.val → s.running = true → s.power.crossAt = none → s.taskOn u = true → s.topoN 0x0202 u 3 1 0 = 8 →
      0 < s.topoN 0x0202 u 8 4 0 →
      s.Does (.userTimerTrigger u) fun t => bit t.eng.pend u = true ∧ t.sram = s.sram ∧ t.mram = s.mram) ∧
    (∀ (u : Task) (a : Act), 16 ≤ u.val → s.act u = some a → a.pf = false → s.topoN 0x0202 u 16 4 10000 ≠ 0 →
      s.Does (.etAbandon u) fun t => t.act u = none ∧ t.fbit Reg.SCHED_FLAGS_ET_ABANDON = true ∧
        a.at_ + s.topoN 0x0202 u 16 4 10000 * 1000 ≤ t.time.mono)

/-- R174, R178, R180, R183, R184. The events of online change: a pending transaction applies at its point with the next generation; the checks
of a loaded set end in its result, and a set that passes is `VERIFIED`, one that fails leaves its slot `EMPTY`; the switch, the end of
probation and a REVERT move the slots on; a change the peer has not acknowledged is refused. -/
def Obligations.ChangeEventsComplete : Prop :=
  ∀ s : State,
    (∀ x, s.chg.txn = some x → x.acked = true →
      s.Does .paramApply fun t => t.chg.txn = none ∧ samplePt x.point ≤ t.time.dev ∧ t.fget Reg.NATIVE_RES_RESULT = gDone ∧
        t.fget Reg.PARAM_GEN_GEN = (if s.fget Reg.PARAM_GEN_GEN + 1 = 2 ^ 32 then 1 else s.fget Reg.PARAM_GEN_GEN + 1) ∧
        t.fbit Reg.CHG_STAT_NATIVE_PEND = false ∧ t.eng.parPend = s.taskMask ∧ t.mrN (ringAt x.ring) 1 = 2) ∧
    (∀ i b, s.chg.verify = true → s.chg.load = some (i, b) → 2 ≤ i →
      s.Does .loadVerifyDone fun t => t.chg.load = none ∧ t.chg.verify = false ∧
        t.fget Reg.SWAP_RES_RESULT = (if s.loadGate = 0 then gBusy else s.loadGate) ∧ t.sram = s.sram ∧ t.mram = s.mram) ∧
    (∀ i b, s.chg.verify = true → s.chg.load = some (i, b) → i < 2 →
      let s0 : State := { s with chg := { s.chg with verify := false } }
      let new := (parseSet 24 (b.drop 12)).getD []
      let es := s0.wholeSet new
      let s1 := if (es.map fun e => 8 + e.2.2.length).sum ≤ 1048512 then s0.slotWrite i (leAt b 0 8) (leAt b 8 4) es else s0
      let code := (s1.loadCheck (leAt b 0 8) (leAt b 8 4) i new es).1
      s.Does .loadVerifyDone fun t => t.chg.verify = false ∧ (code ≠ 0 → t.chg.load = none ∧ t.slotState i = slEmpty ∧
          t.fget Reg.SWAP_RES_RESULT = code % 256 ∧ t.sram = s.sram) ∧
        (code = 0 → t.slotState i = slVerified ∧ t.fget Reg.CHG_STAT_SWAP_STATE = 2 ∧
          (s.driving = false ∨ s.duplexNow = false ∨ s.chg.peerVerified = true → t.chg.load = none ∧ t.fget Reg.SWAP_RES_RESULT = gDone))) ∧
    (∀ p i, s.chg.switchAt = some p → s.slotIn slVerified = some i → s.chg.acked = true →
      s.Does .programSwitch fun t => t.slotState i = slProbation ∧ t.chg.switchAt = none ∧
        t.chg.probEnd = some (p + s.mrN (slotBase i + 32) 4 * 40000) ∧ t.eng.prev = taskNums.map (fun u => (u, s.nowProg u)) ∧ t.eng.goal = s.eng.next ∧
        t.eng.switchPend = s.dx4Mask ∧ samplePt p ≤ t.time.dev ∧
        t.fget Reg.SWAP_RES_RESULT = gDone ∧ t.sram = s.sram) ∧
    (∀ p i, s.chg.probEnd = some p → s.slotIn slProbation = some i →
      s.Does .probationEnd fun t => t.slotState i = slActive ∧ (∀ j, s.slotIn slActive = some j → t.slotState j = slInactive) ∧
        t.chg.probEnd = none ∧ t.chg.revertAt = none ∧ t.eng.prev = [] ∧ samplePt p ≤ t.time.dev ∧ t.sram = s.sram) ∧
    (∀ p i, s.chg.revertAt = some p → s.slotIn slProbation = some i → s.chg.acked = true →
      s.Does .revertApply fun t => t.slotState i = slInactive ∧ t.chg.revertAt = none ∧ t.chg.probEnd = none ∧ t.eng.goal = s.eng.prev ∧
        t.eng.switchPend = s.eng.carried ∧ t.fget Reg.SWAP_RES_RESULT = gDone ∧ samplePt p ≤ t.time.dev ∧ t.sram = s.sram) ∧
    (∀ x, s.chg.txn = some x → x.acked = false → (∀ v ∈ s.unacked, x.point ≤ v.1) →
      s.Does .peerNoAck fun t => t.chg.txn = none ∧ t.fget Reg.NATIVE_RES_RESULT = gPeerNoAck ∧ samplePt x.point - 10000000 ≤ t.time.dev ∧
        t.fget Reg.PARAM_GEN_GEN = s.fget Reg.PARAM_GEN_GEN ∧ t.chg.switchAt = s.chg.switchAt ∧ t.sram = s.sram) ∧
    (∀ p i, (∀ x, s.chg.txn = some x → x.acked = true) → s.chg.switchAt = some p → s.chg.acked = false → (∀ v ∈ s.unacked, p ≤ v.1) →
      s.slotIn slVerified = some i →
      s.Does .peerNoAck fun t => t.chg.switchAt = none ∧ t.chg.txn = s.chg.txn ∧ t.slotState i = slVerified ∧
        t.fget Reg.SWAP_RES_RESULT = gPeerNoAck ∧ samplePt p - 10000000 ≤ t.time.dev ∧ t.eng = s.eng ∧ t.sram = s.sram) ∧
    (∀ p, (∀ x, s.chg.txn = some x → x.acked = true) → s.chg.switchAt = none → s.chg.revertAt = some p → s.chg.acked = false →
      s.Does .peerNoAck fun t => t.chg.revertAt = none ∧ t.chg.txn = s.chg.txn ∧ t.fget Reg.SWAP_RES_RESULT = gPeerNoAck ∧
        samplePt p - 10000000 ≤ t.time.dev ∧ t.eng = s.eng ∧ t.sram = s.sram)

/-! ### Door drive (chapters 8 and 9) -/

/-- R212, R214 to R216, R219, R220, R224, R230, R236. What a door channel measures: a gate fault, a stuck bitstream, an offset out of range and a
V_DC above its limit are faults; the loops run at their instants, the profile moves its reference by at most `ACC` in a millisecond; sensor
codes are taken, an input's level once its debounce time has run; a low V_DC takes the gates low until it recovers. -/
def Obligations.DoorMeasurementsComplete : Prop :=
  ∀ (s : State) (k : DCh),
    let d := s.door k
    let works := s.chOn k = true ∧ s.chShadow k = false ∧ d.state ≠ s.code k dFault tFault
    (works → s.Does (.gateFault k true) fun t => (t.door k).flt = true ∧ s.Faulted t k zGateFault ∧ s.OnlyDoor t k) ∧
    (s.Does (.gateFault k false) fun t => t.door k = { d with flt := false } ∧ s.OnlyDoor t k) ∧
    (∀ iu iv vdc, s.chOn k = true → s.chShadow k = false →
      s.Does (.currentLoopTick k iu iv vdc) fun t => (t.door k).vdc = (s.bitVolts k vdc).1 ∧ (t.door k).iqN = d.iqN + 1 ∧ s.OnlyDoor t k) ∧
    (s.chOn k = true →
      s.Does (.speedLoopTick k) fun t => (t.door k).speedAt = t.time.mono ∧ d.speedAt + 500000 ≤ t.time.mono ∧
        (t.door k).hist = (s.pos k :: d.hist).take 9 ∧ s.OnlyDoor t k) ∧
    (s.chOn k = true → s.frozenCh k = false → s.resuming k = false →
      s.Does (.profileTick k) fun t => (t.door k).profAt = t.time.mono ∧ d.profAt + 1000000 ≤ t.time.mono ∧ s.OnlyDoor t k ∧
        if d.en && d.stopping then (t.door k).vRef = 0 else ((t.door k).vRef - d.vRef).natAbs ≤ s.accel k) ∧
    (∀ at_, s.chOn k = true → s.chShadow k = false → d.en = false → d.offAt = none → d.lowAt = some at_ →
      s.Does (.offsetWait k) fun t => t.door k = { d with offAt := some t.time.mono } ∧ at_ + 10000000 ≤ t.time.mono ∧ s.OnlyDoor t k) ∧
    (∀ at_ iu iv, d.offAt = some at_ →
      let ou := s.bitOffset k iu
      let ov := s.bitOffset k iv
      let bad := s.iFs k < 20 * ou.natAbs ∨ (s.brushed k = false ∧ s.iFs k < 20 * ov.natAbs)
      s.Does (.offsetMeasured k iu iv) fun t => (t.door k).offAt = none ∧ at_ + 3276800 ≤ t.time.mono ∧ s.OnlyDoor t k ∧
        (¬ bad → (t.door k).offValid = true ∧ (t.door k).offU = ou ∧ (t.door k).offV = ov ∧ (t.door k).offBad = false) ∧
        (bad → (t.door k).offBad = true ∧ (works → s.Faulted t k zDsmOffset))) ∧
    (works → s.Does (.dsmLoss k false) fun t => (t.door k).dsm = true ∧ s.Faulted t k zDsmLoss ∧ s.OnlyDoor t k) ∧
    (s.chOn k = true → s.chShadow k = false → s.Does (.dsmLoss k true) fun t => t.door k = { d with dsm := false } ∧ s.OnlyDoor t k) ∧
    (∀ code, s.chOn k = true → s.loopsIn 7 k = false →
      s.Does (.hall k code) fun t => (t.door k).hall = code.toNat ∧ s.OnlyDoor t k ∧
        (works → s.drvN k 3 1 0 ≠ 2 → code = 0 ∨ code = 7 → s.Faulted t k zHall)) ∧
    (∀ code, s.chOn k = true → s.loopsIn 7 k = false → s.Does (.encoder k code) fun t => (t.door k).enc = code.toNat ∧ s.OnlyDoor t k) ∧
    (works → s.Does (.dcHigh k true) fun t => (t.door k).dcHigh = true ∧ s.Faulted t k zDcHigh ∧ s.OnlyDoor t k) ∧
    (s.chOn k = true → s.chShadow k = false → s.Does (.dcHigh k false) fun t => t.door k = { d with dcHigh := false } ∧ s.OnlyDoor t k) ∧
    (s.chOn k = true → s.chShadow k = false → d.dcLow = false →
      s.Does (.dcLow k) fun t => (t.door k).dcLow = true ∧ (t.door k).en = false ∧ (t.door k).gates = false ∧ (t.door k).state = d.state ∧
        t.fbit (Reg.DRV_CH_FLT_DC_LOW_SEEN (k / 4) (k % 4)) = true ∧ s.OnlyDoor t k) ∧
    (d.dcLow = true → s.Does (.dcRecovery k) fun t => (t.door k).dcLow = false ∧ (t.door k).state = d.state ∧ s.OnlyDoor t k) ∧
    (∀ (i : Fin 8) raw, s.chOn k = true → s.loopsIn 7 k = false →
      let level := (raw != bit (s.inPol k) i) && bit (s.inUse k) i
      (bit d.raw i ≠ raw → s.inDeb k i ≠ 0 →
        s.Does (.localInputDebounce k i raw) fun t => t.time = s.time ∧ s.OnlyDoor t k ∧ t.door k = { d with
          raw := putBit d.raw i raw, debAt := mset none d.debAt i (if bit d.loc i = level then none else some s.time.mono) }) ∧
      (bit d.raw i ≠ raw → s.inDeb k i = 0 →
        s.Does (.localInputDebounce k i raw) fun t => bit (t.door k).loc i = level ∧ (t.door k).state = d.state ∧ s.OnlyDoor t k) ∧
      (∀ at_, bit d.raw i = raw → mget none d.debAt i = some at_ →
        s.Does (.localInputDebounce k i raw) fun t => bit (t.door k).loc i = level ∧ mget none (t.door k).debAt i = none ∧
          at_ + s.inDeb k i * 1000 ≤ t.time.mono ∧ (t.door k).state = d.state ∧ s.OnlyDoor t k))

/-- R230, R232, R250, R251, R254, R255. The evaluations and timers of a door channel: an evaluation stands at its 500 µs instant and a
withdrawn release locks a released door, an open command deploys a stowed step with its profile's extension; a detection reverses a
closing door or stows a deploying step and counts the attempt; motion that overruns its time halts; contact deploys a step; the wait of a
reversal ends in a retry or, after `N_MAX` attempts, in a halt; the hold of a test cycle ends. -/
def Obligations.DoorRowsComplete : Prop :=
  ∀ (s : State) (k : DCh),
    let d := s.door k
    let quiet := s.chOn k = true ∧ s.frozenCh k = false ∧ d.posValid = false ∧ d.rise = 0 ∧ d.aborting = false ∧ d.run = 0 ∧ d.maintWas = false ∧
      d.awaits = false
    let moves := s.chOn k = true ∧ s.frozenCh k = false
    let evaluated (t : State) : Prop := (t.door k).evalAt = t.time.mono ∧ d.evalAt + 500000 ≤ t.time.mono ∧ s.OnlyDoor t k
    let seen (t : State) (st : Nat) : Prop := (t.door k).state = st ∧ (t.door k).attempt = min 255 (d.attempt + 1) ∧ (t.door k).vRef = 0 ∧
      (t.door k).react = 1 ∧ s.OnlyDoor t k
    let halted (t : State) (cause : Nat) : Prop := (t.door k).state = s.code k dHalted tHalted ∧ (t.door k).cause = cause ∧
      (t.door k).drv = 2 ∧ s.OnlyDoor t k
    (s.chOn k = true → s.frozenCh k = false →
      s.Does (.forceEstimate k) fun t => (t.door k).forceAtT = t.time.mono ∧ d.forceAtT + 500000 ≤ t.time.mono ∧ (t.door k).iqN = 0 ∧
        (inMotion d.state = false → d.state ≠ dReversing → (t.door k).force = 0) ∧ (t.door k).state = d.state ∧ s.OnlyDoor t k) ∧
    (s.chOn k = true → s.chShadow k = false → s.isDoor k = true → s.Does (.doorEval k) evaluated) ∧
    (quiet → s.isDoor k = true → d.state = dReleased → s.ctrl k 0 = false →
      s.Does (.doorEval k) fun t => evaluated t ∧ (t.door k).state = dLocked ∧ (t.door k).cause = 0) ∧
    (s.chOn k = true → s.chShadow k = false → s.isDoor k = false → s.Does (.stepEval k) evaluated) ∧
    (quiet → s.isDoor k = false → d.state = tStowed → s.newCmd k = some 1 → s.ctrl k 0 = true → 0 < s.extE k (s.cmdB k 3) →
      s.Does (.stepEval k) fun t => evaluated t ∧ (t.door k).state = tDeploying ∧ (t.door k).acted = s.cmdB k 1 ∧
        (t.door k).target = (s.extE k (s.cmdB k 3) : Nat)) ∧
    (∀ at_, moves → d.react = 0 → d.forceAt = some at_ → s.armed k = true → (s.isDoor k = true ∨ d.state = tDeploying) →
      s.Does (.obstacle k) fun t => seen t (if s.isDoor k then dReversing else tStowing) ∧ at_ + s.detNs k ≤ t.time.mono) ∧
    (∀ at_, moves → d.react = 0 → d.defAt = some at_ → s.armed k = true → s.deficitOn k = true →
      s.Does (.speedDeficit k) fun t => seen t dReversing ∧ at_ + s.defNs k ≤ t.time.mono) ∧
    (∀ at_, moves → d.both = some at_ → d.posValid = false → d.state ∈ [dHalted, tHalted, tStowing] →
      s.Does (.homeConfirm k) fun t => (t.door k).state = s.code k dLocked tStowed ∧ (t.door k).posValid = true ∧ (t.door k).ofs = 0 ∧
        (t.door k).cnt = 0 ∧ (t.door k).en = false ∧ at_ + s.plausNs k ≤ t.time.mono ∧ s.OnlyDoor t k) ∧
    (∀ at_, s.chOn k = true → s.chShadow k = false → d.state ≠ s.code k dFault tFault → d.plausAt = some at_ →
      s.Does (.proofPlaus k) fun t => s.Faulted t k zProofPlaus ∧ at_ + s.plausNs k ≤ t.time.mono ∧ s.OnlyDoor t k) ∧
    (moves → d.state = dUnlocking ∨ d.state = dLocking →
      s.Does (.lockMoveTimeout k) fun t => halted t zTimeout ∧ d.entAt + s.moveNs k ≤ t.time.mono) ∧
    (moves → d.state ∈ [dOpening, dClosing, tDeploying, tStowing] →
      s.Does (.strokeTimeout k) fun t => halted t zTimeout ∧ d.entAt + s.moveNs k ≤ t.time.mono) ∧
    (∀ at_, moves → d.state = tDeploying → d.contAt = some at_ →
      s.Does (.stepContact k) fun t => (t.door k).state = tDeployed ∧ (t.door k).contact = true ∧ (t.door k).drv = 2 ∧
        at_ + 10000000 ≤ t.time.mono ∧ s.OnlyDoor t k) ∧
    (moves → d.state = dReversing → d.react = 3 →
      s.Does (.reverseWaitEnd k) fun t => d.waitAt + s.waitNs k ≤ t.time.mono ∧
        if d.attempt < s.nMax k then (t.door k).state = dClosing ∧ (t.door k).target = s.shutGoal k ∧ s.OnlyDoor t k
        else (t.door k).state = dHalted ∧ (t.door k).cause = zObstacleLimit ∧ s.OnlyDoor t k) ∧
    (moves → d.run = 1 → d.goal = 2 →
      s.Does (.testHoldEnd k) fun t => t.door k = { d with goal := 4 } ∧ d.holdAt + 2000000000 ≤ t.time.mono ∧ s.OnlyDoor t k)

/-- R228, R235, R238 to R240, R249. The door die: without COMMIT for 1 ms its channels become passive; a merged event goes out after the
holdoff; a trace sample goes out, or is lost where the link has no room for it; shadow mode is entered and left, resumed after the filters, and shown to
have diverged; a written profile window becomes the profile in force; and a stored profile is copied. -/
def Obligations.DoorDieCompletes : Prop :=
  ∀ (s : State) (n : Drv) (k : DCh),
    let d := s.door k
    let ch := chSlot k
    let own (j : Nat) : Prop := j / 4 = n.val ∧ s.role j ≠ 0
    (s.present (1 + n) = true → (s.sat (1 + n)).everCommit = true → s.fbit (Reg.DRV_STAT_SILENT n) = false →
      s.Does (.doorSilence n) fun t => t.fbit (Reg.DRV_STAT_SILENT n) = true ∧ t.fbit (Reg.DRV_FLAGS_SILENCE_TRIP n) = true ∧
        (s.sat (1 + n)).lastCommit + 1000000 ≤ t.time.mono ∧ (∀ j, own j → (t.door j).passive = true ∧ (t.door j).en = false) ∧
        (∀ j, j / 4 ≠ n.val → t.door j = s.door j) ∧ t.sram = s.sram ∧ t.mram = s.mram) ∧
    (∀ ev at_, d.evPend = some ev → d.evAt = some at_ → s.linkIsUp ch = true → s.present ch = true →
      s.Does (.doorEventFlush k) fun t => (t.door k).evPend = none ∧ (t.door k).evAt = some t.time.mono ∧ at_ + 250000 ≤ t.time.mono ∧
        (∃ f, (t.link ch).up = (s.link ch).up ++ [f] ∧ f.typ = 0x09 ∧ f.payload.take 2 = leBytes 2 (ev + k * 256)) ∧ s.OnlyDoor t k) ∧
    (s.chOn k = true → bit (s.dieN ch 0x0305 (k / 4) 0 1 0) (k % 4) = true → inMotion d.state = true →
      (d.traceDiv + 1) % s.dieN ch 0x0305 (k / 4) 1 1 1 = 0 →
      ∀ room, s.Does (.traceSample (k, room)) fun t => (t.door k).traceDiv = 0 ∧ s.OnlyDoor t k ∧
        if room = true ∧ s.linkIsUp ch = true then ∃ f, (t.link ch).up = (s.link ch).up ++ [f] ∧ f.typ = 0x0B ∧ f.payload.length = 17 ∧ leAt f.payload 0 1 = k.val
        else t.fbit (Reg.DRV_FLAGS_TRACE_OVF (k / 4)) = true ∧ t.links = s.links) ∧
    (∀ b, s.present (1 + n) = true → s.fbit (Reg.DRV_MODE_SHADOW n) ≠ b →
      s.Does (.drvModeWrite n b) fun t => t.fbit (Reg.DRV_MODE_SHADOW n) = b ∧ t.fbit (Reg.DRV_STAT_SHADOW n) = b ∧
        (∀ j, own j → if b then (t.door j).en = false ∧ (t.door j).gates = false else (t.door j).resumeAt = some s.time.mono) ∧
        (∀ j, j / 4 ≠ n.val → t.door j = s.door j) ∧ t.sram = s.sram ∧ t.mram = s.mram) ∧
    (∀ at_, d.resumeAt = some at_ → d.en = false →
      s.Does (.shadowResume k) fun t => (t.door k).resumeAt = none ∧
        (t.door k).iqRef = (sgn 16 (s.fget (Reg.DRV_CH_SHADOW1_SH_IQREF (k / 4) (k % 4))) * 2 : Int) ∧
        at_ + 3 * 2 ^ (4 + s.drvN k 8 1 2) * 50 ≤ t.time.mono ∧ s.OnlyDoor t k) ∧
    (∀ at_, s.chShadow k = true → d.diverge = false → d.divAt = some at_ →
      s.Does (.shadowDiverge k) fun t => (t.door k).diverge = true ∧ (t.door k).posValid = false ∧
        t.fbit (Reg.DRV_FLAGS_SHADOW_DIVERGE (k / 4)) = true ∧ at_ + 100000000 ≤ t.time.mono ∧ s.OnlyDoor t k) ∧
    (s.present (1 + n) = true →
      s.Does (.baseLoaded n) fun t => (∀ j, j / 4 = n.val → (s.door j).winSet = true →
          (t.door j).adap = (s.door j).window ∧ (t.door j).learned = true ∧ (t.door j).winSet = false ∧
          (t.door j).base = if (s.door j).learned then (s.door j).base else (s.door j).window) ∧
        (∀ j, j / 4 ≠ n.val → t.door j = s.door j) ∧ t = { s with regs := t.regs, doors := t.doors })

/-! ### Load switches and field I/O (chapters 10 and 11) -/

/-- R271, R273, R274, R277, R279 to R281, R283, R287, R288. A load channel: its measurements are taken and a temperature rise of 60 K takes it
off; a short, a wire over its level, reverse conduction, a regulating inrush and a pair out of balance trip it; an inrush ends; a deferred
channel re-arms; open load is seen on and off. -/
def Obligations.LoadChannelsComplete : Prop :=
  ∀ (s : State) (x : LCh),
    let y := s.lowerOf x
    let l := s.load x
    (∀ vf ua dt tj out lim bad ended, s.ldUsed x = true →
      s.Does (.loadEval x vf ua (dt, tj) out lim bad ended) fun t => (t.load x).ua = ua ∧ (t.load x).dt = dt.toNat ∧
        (t.load x).tj = tj.toNat ∧ (t.load x).senseBad = bad ∧ t.fget (Reg.LSW_VF_VF (x / 12)) = vf.toNat ∧ s.OnlyLoads t [x, y] ∧
        (s.pair x = 0 → l.state = lOn → lim = false → ended = none → s.lswRel x = false → s.fbit (Reg.LSW_MODE_STBY (x / 12)) = false →
          s.band x ≠ 3 → 60 ≤ dt.toNat → (t.load x).state = lThermal ∧ (t.load x).cause = qDt)) ∧
    (∀ at_, (s.load y).state = lOn → (s.load y).limAt = some at_ →
      s.Does (.loadShort x) fun t => t.Tripped y qShort ∧ at_ + 50001 ≤ t.time.mono ∧ s.OnlyLoads t [y]) ∧
    (s.ldUsed x = true → s.pair x ≠ 2 →
      let mean : Rat := ((s.halves x).map fun h => let m := s.load h; if m.qN = 0 then (m.ua : Rat) else (m.qSum : Rat) / m.qN).sum
      let r := mean / (1000 * iW (s.ldN x 1 1 0) : Nat)
      let q := l.q + (r * r - l.q) / (10000 * tauW (s.ldN x 1 1 0) : Nat)
      s.Does (.wireModel x) fun t => (t.load x).q = q ∧ (t.load x).qSum = 0 ∧ (t.load x).qN = 0 ∧ s.OnlyLoads t (s.halves x) ∧
        (if l.isOn = true ∧ s.tripLevel x ≤ q then t.Tripped x qWire else (t.load x).state = l.state)) ∧
    (∀ at_, (s.load y).isOn = true → (s.load y).revAt = some at_ →
      s.Does (.loadReverse x) fun t => t.Tripped y qReverse ∧ at_ + 1000000 ≤ t.time.mono ∧ s.OnlyLoads t [y]) ∧
    (∀ e, (s.load y).state = lInrush → (s.load y).winEnd = some e →
      ∀ regulating, s.Does (.inrushEnd x regulating) fun t => e ≤ t.time.mono ∧ s.OnlyLoads t [y] ∧
        if regulating = true then t.Tripped y qInrushLong else (t.load y).state = lOn ∧ (t.load y).cause = 0) ∧
    (∀ at_, l.state = lDeferred → l.rearmWait = true → l.tripAt = some at_ → l.bandWait = false → s.band x ≠ 2 →
      s.Does (.rearm x) fun t => at_ + s.ldN x 16 2 1000 * 1000000 ≤ t.time.mono ∧ s.OnlyLoads t [x] ∧
        if 2 * l.q < s.tripLevel x then (t.load x).isOn = true else (t.load x).state = lDeferred ∧ (t.load x).rearmWait = true) ∧
    (∀ at_, l.openAt = some at_ →
      s.Does (.openOn x) fun t => (t.load x).openOn = true ∧ (t.load x).state = l.state ∧ at_ + s.ldN x 14 2 100 * 1000000 ≤ t.time.mono ∧
        s.OnlyLoads t [x]) ∧
    (∀ out1 out2, s.ldUsed x = true → s.pair x ≠ 2 → l.isOn = false → s.lflag x 4 = true → s.band x = 0 →
      l.offAt + 100000000 ≤ s.time.mono →
      s.Does (.offStateCheck x out1 out2) fun t => (t.load x).chkHigh = decide (400 < out1) ∧ (t.load x).state = l.state ∧ s.OnlyLoads t [x] ∧
        (t.load x).chkAt = t.time.mono ∧ l.chkAt + s.ldDieN x 0 2 100 * 1000000 ≤ t.time.mono ∧
        (l.chkHigh = decide (400 < out1) → (t.load x).shortVf = (decide (400 < out1) && !s.lflag x 3) ∧
          (t.load x).peerDriven = (decide (400 < out1) && s.lflag x 3))) ∧
    (∀ out1 out2, s.ldUsed x = true → s.pair x ≠ 2 → l.isOn = false → s.lflag x 4 = true → s.band x ≠ 0 →
      s.Does (.offStateCheck x out1 out2) fun t => t.load x = { l with chkAt := t.time.mono } ∧
        l.chkAt + s.ldDieN x 0 2 100 * 1000000 ≤ t.time.mono ∧ s.OnlyLoads t [x]) ∧
    (∀ at_, s.pair x = 1 → l.pairDone = false → l.pairAt = some at_ →
      ∀ lo hi, s.Does (.pairImbalance x lo hi) fun t => (t.load x).pairDone = true ∧ at_ + 10000000 ≤ t.time.mono ∧
        s.OnlyLoads t [x.val, x.val + 1] ∧ (t.load x).ua = lo ∧ t.load (x.val + 1) = { s.load (x.val + 1) with ua := hi } ∧
        if (4 * lo < lo + hi ∨ 3 * (lo + hi) < 4 * lo ∨ 4 * hi < lo + hi ∨ 3 * (lo + hi) < 4 * hi) ∧ l.isOn = true
        then t.Tripped x qPairImbalance else (t.load x).state = l.state)

/-- R289, R290, R292, R293, R297. A load die: standby takes its channels off; the supply band falls after 50 µs and rises a step at a
time after the time of its return level; a channel
comes back in its slot, or trips where it may not; a merged event goes out after the holdoff. -/
def Obligations.LoadDiesComplete : Prop :=
  ∀ (s : State) (n : Lsw) (x : LCh),
    let l := s.load x
    (∀ b, s.present (4 + n) = true →
      s.Does (.lswModeWrite n b) fun t => t.fbit (Reg.LSW_MODE_STBY n) = b ∧ t.fbit (Reg.LSW_STAT_STBY n) = b ∧
        (b = true → s.fbit (Reg.LSW_STAT_RELEASED n) = false → x.val / 12 = n.val → l.state ∉ [lUnused, lSlave, lReleased] →
          (t.load x).state = lStandbyOff) ∧
        (∀ j, j / 12 ≠ n.val → t.load j = s.load j) ∧ t.sram = s.sram ∧ t.mram = s.mram) ∧
    (∀ b at_, s.present (4 + n) = true → s.fget (Reg.LSW_STAT_BAND n) ≤ b → b < 3 →
      let low (c : Nat) : Option Nat := (mget ({} : LoadDie) s.ldies n).lowAt.getD c none
      low b = some at_ → (∀ c u, s.fget (Reg.LSW_STAT_BAND n) ≤ c → c < 3 → low c = some u → at_ ≤ u) →
      ∀ vf, vf.toNat < bandLow b →
      s.Does (.bandDrop n vf) fun t => at_ + 50000 ≤ t.time.mono ∧ t.fbit (Reg.LSW_FLAGS_BAND_DROP n) = true ∧
        t.fget (Reg.LSW_VF_VF n) = vf.toNat ∧
        (∃ c, b ≤ c ∧ c < 3 ∧ t.fget (Reg.LSW_STAT_BAND n) = c + 1 ∧ ranFor (low c) 50000 t.time.mono = true ∧ vf.toNat < bandLow c ∧
          ∀ d, c < d → d < 3 → ranFor (low d) 50000 t.time.mono = false ∨ bandLow d ≤ vf.toNat) ∧
        (∀ j, j / 12 ≠ n.val → t.load j = s.load j) ∧ t.sram = s.sram ∧ t.mram = s.mram) ∧
    (∀ at_, s.present (4 + n) = true → s.fget (Reg.LSW_STAT_BAND n) ≠ 0 → (mget ({} : LoadDie) s.ldies n).riseAt = some at_ →
      ∀ vf, (bandReturn (s.fget (Reg.LSW_STAT_BAND n) - 1)).1 ≤ vf.toNat →
      s.Does (.bandRise n vf) fun t => t.fget (Reg.LSW_VF_VF n) = vf.toNat ∧ t.fget (Reg.LSW_STAT_BAND n) = s.fget (Reg.LSW_STAT_BAND n) - 1 ∧
        at_ + (bandReturn (s.fget (Reg.LSW_STAT_BAND n) - 1)).2 ≤ t.time.mono ∧
        (s.fget (Reg.LSW_STAT_BAND n) = 2 → x.val / 12 = n.val → l.state = lDipOff →
          (t.load x).slotAt = some (t.time.mono + x % 12 * 500000)) ∧
        (∀ j, j / 12 ≠ n.val → t.load j = s.load j) ∧ t.sram = s.sram ∧ t.mram = s.mram) ∧
    (∀ at_, l.slotAt = some at_ → l.state = lDipOff → s.band x < 2 → s.lswRel x = false → s.ldOn x = true →
      s.Does (.dipRestore x) fun t => at_ ≤ t.time.mono ∧ s.OnlyLoads t [x] ∧
        if s.dipRestore x then (t.load x).isOn = true else t.Tripped x qDipNoRestore) ∧
    (∀ ev at_, l.evPend = some ev → l.evAt = some at_ → s.linkIsUp (ldSlot x) = true → s.present (ldSlot x) = true →
      s.Does (.loadEventFlush x) fun t => (t.load x).evPend = none ∧ (t.load x).evAt = some t.time.mono ∧ at_ + 250000 ≤ t.time.mono ∧
        (∃ f, (t.link (ldSlot x)).up = (s.link (ldSlot x)).up ++ [f] ∧ f.typ = 0x09 ∧ f.payload.take 2 = leBytes 2 (ev + x % 12 * 256)) ∧
        s.OnlyLoads t [x])

/-- R302, R304, R306, R308, R311, R321, R323. A field die: its supply falls and comes back, its field side stops and restarts without a set; an input
is debounced, a fast input times out, a merged edge goes out; an output goes off in overload or heat, is retried and cools; silence brings
the safe state, and standby takes the outputs off. -/
def Obligations.FieldOutputsComplete : Prop :=
  ∀ (s : State) (f : Fio) (c : Fin 16),
    let x := s.fio f
    let pow := s.present (6 + f)
    let dark (t : State) : Prop := ∀ k, t.outOn f k = false
    (∀ vi, pow = true → x.lowAt = none → vi.toNat < 1500 →
      s.Does (.viLow f vi) fun t => t.fio f = { x with vi := vi.toNat, lowAt := some s.time.mono, okAt := none } ∧ t.time = s.time ∧
        s.OnlyField t f) ∧
    (∀ vi at_, pow = true → x.lowAt = some at_ → x.viLow = false → vi.toNat < 1500 →
      s.Does (.viLow f vi) fun t => (t.fio f).viLow = true ∧ (t.fio f).vi = vi.toNat ∧ dark t ∧ t.fbit (Reg.FIO_FLAGS_VI_LOW_SEEN f) = true ∧
        at_ + 100000 ≤ t.time.mono ∧ s.OnlyField t f) ∧
    (∀ vi at_, pow = true → x.stopped = false → x.okAt = some at_ → 1600 ≤ vi.toNat →
      s.Does (.viRecover f vi) fun t => t.fio f = { x with vi := vi.toNat, lowAt := none, viLow := false } ∧
        at_ + 10000000 ≤ t.time.mono ∧ s.OnlyField t f) ∧
    (∀ vi, pow = true → vi.toNat < 1200 →
      s.Does (.fieldSideStop f vi) fun t => (t.fio f).stopped = true ∧ (t.fio f).held = none ∧ (t.fio f).ackw = none ∧ dark t ∧ s.OnlyField t f) ∧
    (∀ vi, x.stopped = true → 1200 ≤ vi.toNat →
      s.Does (.fieldSideRestart f vi) fun t => (t.fio f).stopped = false ∧ (t.fio f).viLow = true ∧ (t.fio f).held = none ∧ dark t ∧
        (s.modeC f = false → (t.fio f).hasSet = false ∧ (t.fio f).fnum = none ∧ (t.fio f).bare = true) ∧ s.OnlyField t f) ∧
    (∀ (i : Fin 32) raw, s.fioOn f = true → x.stopped = false →
      let level := raw != bit (s.inFlags f i) 0
      let us := s.dieN (6 + f) 0x0602 f (4 * i) 2 1000
      (bit x.raw i ≠ raw → us ≠ 0 →
        s.Does (.fieldInputDebounce f i raw) fun t => (t.fio f).di = x.di ∧ (t.fio f).raw = putBit x.raw i raw ∧ t.time = s.time ∧
          mget none (t.fio f).debAt i = (if bit x.di i = level then none else some s.time.mono) ∧ s.OnlyField t f) ∧
      (bit x.raw i ≠ raw → us = 0 →
        s.Does (.fieldInputDebounce f i raw) fun t => bit (t.fio f).di i = level ∧ s.OnlyField t f) ∧
      (∀ at_, bit x.raw i = raw → mget none x.debAt i = some at_ →
        s.Does (.fieldInputDebounce f i raw) fun t => bit (t.fio f).di i = level ∧ mget none (t.fio f).debAt i = none ∧
          at_ + us * 1000 ≤ t.time.mono ∧ s.OnlyField t f)) ∧
    (∀ j : Fin 8, s.fioOn f = true → x.fast.length = 8 → s.fastN f j 0 1 0 = 2 → (x.fast.getD j {}).ftmo = false →
      s.Does (.ftmo f j) fun t => ((t.fio f).fast.getD j {}).ftmo = true ∧ ((t.fio f).fast.getD j {}).freq = 0 ∧
        (x.fast.getD j {}).sinceAt + s.fastN f j 4 2 1000 * 1000000 ≤ t.time.mono ∧ s.OnlyField t f) ∧
    (∀ (i : Fin 32) lvl at_, (x.evPend.find? fun p => p.1 == i.val) = some (i.val, lvl, at_) → s.linkIsUp (6 + f) = true → pow = true →
      s.Does (.fieldEventFlush f i) fun t => (∀ p ∈ (t.fio f).evPend, p.1 ≠ i.val) ∧ s.OnlyField t f ∧
        ∃ g, (t.link (6 + f)).up = (s.link (6 + f)).up ++ [g] ∧ g.typ = 0x09 ∧
          g.payload = leBytes 2 (1 + i * 256) ++ leBytes 1 (b2n lvl) ++ leBytes 5 at_) ∧
    (s.outOn f c = true →
      s.Does (.ovl f c) fun t => t.outOn f c = false ∧ bit (t.fio f).ovl c = true ∧ (t.fio f).hot = x.hot ∧
        mget 0 (t.fio f).retryAt c = s.time.mono + 100000000 ∧ s.OnlyField t f ∧ (s.modeC f = false → t.fbit (Reg.FIO_FLAGS_OVL_SEEN f) = true)) ∧
    (s.fioOn f = true → s.outMode f c ≠ 0 → bit x.hot c = false →
      s.Does (.outputOvertemp f c) fun t => t.outOn f c = false ∧ bit (t.fio f).ovl c = true ∧ bit (t.fio f).hot c = true ∧ s.OnlyField t f) ∧
    (bit x.ovl c = true → bit (s.outFlags f c) 2 = true → bit x.fdo c = true → bit x.hot c = false →
      (s.Does (.ovlRetry f c true) fun t => bit (t.fio f).ovl c = false ∧ mget 0 x.retryAt c ≤ t.time.mono ∧ s.OnlyField t f) ∧
      s.Does (.ovlRetry f c false) fun t => bit (t.fio f).ovl c = true ∧ mget 0 x.retryAt c ≤ t.time.mono ∧
        mget 0 (t.fio f).retryAt c = t.time.mono + 100000000 ∧ s.OnlyField t f) ∧
    (bit x.hot c = true →
      let back := bit x.rearm c && bit x.fdo c && !bit (s.outFlags f c) 2
      s.Does (.outputCooled f c) fun t => bit (t.fio f).hot c = false ∧ (t.fio f).ovl = (if back then putBit x.ovl c false else x.ovl) ∧
        s.OnlyField t f) ∧
    (s.fioOn f = true → x.safeAct = false → x.everApply = true → x.hasSet = true → x.stopped = false →
      s.fbit (Reg.FIO_MODE_STBY f) = false → s.fbit (Reg.FIO_STAT_RELEASED f) = false →
      s.Does (.fioSilence f) fun t => (t.fio f).safeAct = true ∧ t.fbit (Reg.FIO_FLAGS_SAFE_SEEN f) = true ∧
        x.applyAt + s.fget (Reg.FIO_SILENCE_SILENCE_MS f) * 1000000 ≤ t.time.mono ∧ s.OnlyField t f) ∧
    (∀ b, pow = true →
      s.Does (.fioModeWrite f b) fun t => t.fbit (Reg.FIO_MODE_STBY f) = b ∧ t.fbit (Reg.FIO_STAT_STBY f) = b ∧ (b = true → dark t) ∧
        t = { s with regs := t.regs })

/-- R309, R314 to R320. What crosses the barrier of a field die, undamaged and in order: OUT is held, APPLY applies the set held for its number
and answers with it, TICK answers without applying, the echo of the number advances the commit counter and CONFIRM goes out either way, IN
gives the input block; a crossing or heartbeat is lost and regained. A damaged item changes nothing but its count. -/
def Obligations.FieldItemsComplete : Prop :=
  ∀ (s : State) (f : Fio),
    let x := s.fio f
    let n := 6 + f.val
    let sOn := s.fioRuns f = true ∧ s.modeC f = false ∧ x.stopped = false
    let lost (t : State) : Prop := t.fbit (Reg.FIO_STAT_XLOSS f) = true ∧ t.fbit (Reg.FIO_FLAGS_XLOSS_SEEN f) = true ∧
      (∀ y ∈ (t.fio f).fast, y.gap = true) ∧ s.OnlyField t f
    (sOn → x.outRx = x.outTx → x.outTx < 256 →
      s.Does (.outItem f .ok) fun t => (t.fio f).outRx = (t.fio f).outTx ∧ (t.fio f).fdo = x.fdo ∧ s.OnlyField t f ∧
        ∃ o, (t.fio f).held = some o ∧ o.out = setDo (s.comingSet n) ∧ o.clr = setClr (s.comingSet n)) ∧
    (∀ rx, sOn → rx ≠ .ok → s.Does (.outItem f rx) fun t => (t.fio f).held = x.held ∧ (t.fio f).outRx = x.outRx ∧ (t.fio f).fdo = x.fdo ∧
      s.OnlyField t f) ∧
    (∀ k o m, x.applyNum = some k → x.stopped = false → x.held = some o → o.target = k % 256 → x.fnum = some m → (m + 1) % 256 = k % 256 →
      s.Does (.applyItem f .ok) fun t => (t.fio f).fdo = o.out ∧ (t.fio f).hasSet = true ∧ (t.fio f).fnum = some (k % 256) ∧
        (t.fio f).ackw = some (some (k % 256)) ∧ (t.fio f).applyAt = s.time.mono ∧ s.OnlyField t f) ∧
    (∀ k o, x.applyNum = some k → x.stopped = false → x.held = some o →
      (o.resync = true → s.Does (.applyItem f .ok) fun t => (t.fio f).fdo = o.out ∧ (t.fio f).fnum = some (k % 256) ∧ (t.fio f).bare = false ∧
        s.OnlyField t f) ∧
      (o.resync = false → x.fnum = none → s.Does (.applyItem f .ok) fun t => (t.fio f).fdo = x.fdo ∧ (t.fio f).fnum = none ∧
        (t.fio f).ackw = some none ∧ s.OnlyField t f)) ∧
    (∀ k, x.applyNum = some k → x.stopped = false → x.held = none →
      s.Does (.applyItem f .ok) fun t => (t.fio f).fdo = x.fdo ∧ (t.fio f).fnum = x.fnum ∧ (t.fio f).ackw = some x.fnum ∧ s.OnlyField t f) ∧
    (sOn → x.applyNum = none →
      s.Does (.tickItem f .ok) fun t => t.fio f = { x with fieldLoss := false, applyTickAt := s.time.mono, ackw := some x.fnum } ∧ s.OnlyField t f) ∧
    (∀ k, x.applyNum = some k → s.present n = true → s.linkIsUp n = true →
      s.Does (.ackw f .ok) fun t => (t.fio f).applyNum = none ∧
        (t.sat n).ccount = (if x.ackw = some (some (k % 256)) then ((s.sat n).ccount + 1) % 65536 else (s.sat n).ccount) ∧
        (∃ g, (t.link n).up = (s.link n).up ++ [g] ∧ g.typ = 0x0E ∧ g.ccount = (t.sat n).ccount) ∧ s.OnlyField t f) ∧
    (∀ vi rb, sOn → x.inRx = x.inTx → x.inTx < 256 → x.sampleDue = true → s.fbit (Reg.FIO_STAT_XLOSS f) = false → s.linkIsUp n = true →
      s.Does (.inItem f .ok vi rb) fun t => (t.fio f).ldi = x.di ∧ (t.fio f).vi = vi.toNat ∧ (t.fio f).rb = rb.toNat ∧ (t.fio f).sampleDue = false ∧
        (∃ g, (t.link n).up = (s.link n).up ++ [g] ∧ g.typ = 0x01 ∧ g.payload = t.fieldInput f) ∧ s.OnlyField t f) ∧
    (∀ rx vi rb, sOn → rx ≠ .ok →
      s.Does (.inItem f rx vi rb) fun t => (t.fio f).ldi = x.ldi ∧ (t.fio f).inRx = x.inRx ∧ (t.fio f).sampleDue = false ∧ t.links = s.links ∧
        s.OnlyField t f) ∧
    (sOn → s.Does (.xloss f true) fun t => t.fio f = { x with fieldLoss := true } ∧ x.applyTickAt + 100000 ≤ t.time.mono ∧ s.OnlyField t f) ∧
    (sOn → s.fbit (Reg.FIO_STAT_XLOSS f) = false → s.Does (.xloss f false) fun t => lost t ∧ x.inAt + 100000 ≤ t.time.mono) ∧
    (∀ at_, s.modeC f = false → s.mode ≠ mPark → s.fbit (Reg.FIO_STAT_XLOSS f) = true → x.goodAt = some at_ →
      s.Does (.crossingRestore f) fun t => t.fbit (Reg.FIO_STAT_XLOSS f) = false ∧ at_ + 100000 ≤ t.time.mono ∧ s.OnlyField t f) ∧
    (s.fioOn f = true → s.modeC f = true → s.Does (.heartbeatLoss f true) fun t => t.fio f = { x with hbLost := true } ∧ s.OnlyField t f) ∧
    (s.fioOn f = true → s.modeC f = true → s.fbit (Reg.FIO_STAT_XLOSS f) = false → s.Does (.heartbeatLoss f false) lost) ∧
    (s.modeC f = true → x.stopped = false → s.mode ≠ mPark → x.viLow = false →
      s.Does (.heartbeatRestore f) fun t => (t.fio f).hbLost = false ∧ t.fbit (Reg.FIO_STAT_XLOSS f) = false ∧ s.OnlyField t f)

/-! ### The interlock unit (chapter 9), stored profiles and the peer's release -/

/-- R249, R258 to R260, R265, R266, R292, R324, R414, R417. With the interlock unit configured: zero speed is proven after both inputs were low for the time of record
0x0401; a discrepancy is seen, recorded and cleared; a half of the pairs that does not follow its drive is a read-back fault, which hands
over in duplex and drops the traction grant; two periods without an evaluation drop both pairs.
A profile that waits goes into MRAM with its valid mark (log entry 75 chose the mark's place);
`PEER_RELEASE_IN` releases the outputs, gates the claim and holds the control die in reset, or waits for a power-fail save under way; its
end lets the control die start, with nothing released by it. -/
def Obligations.InterlocksComplete : Prop :=
  (∀ s : State, s.ilOn = true →
    (s.fbit Reg.IL_STAT_ZS_A_LOW = true → s.fbit Reg.IL_STAT_ZS_B_LOW = true → s.fbit Reg.IL_STAT_ZS_DISCREPANT = false →
      s.lasted s.il.lowAt (s.ilN 18 2 2000) = true →
      s.Does .zsProven fun t => t.fbit Reg.IL_STAT_ZS_PROVEN = true ∧ s.regsBut t [Reg.IL_STAT_ZS_PROVEN] ∧ t = { s with regs := t.regs }) ∧
    (s.fbit Reg.IL_STAT_ZS_DISCREPANT = false → s.lasted s.il.discAt (s.ilN 20 2 5000) = true → s.room cZS_DISCREPANT →
      s.Does .zsDiscrepant fun t => t.fbit Reg.IL_STAT_ZS_DISCREPANT = true ∧ t.fbit Reg.IL_STAT_ZS_PROVEN = false ∧
        t.fbit Reg.IL_FLAGS_ZS_DISC_SEEN = true ∧ s.Noted t cZS_DISCREPANT s.speedData ∧
        s.regsBut t [Reg.IL_STAT_ZS_DISCREPANT, Reg.IL_STAT_ZS_PROVEN, Reg.IL_FLAGS_ZS_DISC_SEEN] ∧
        t = { s with regs := t.regs, cairn := t.cairn }) ∧
    (s.fbit Reg.IL_STAT_ZS_DISCREPANT = true → s.lasted s.il.moveAt 1000 = true →
      s.Does .zsDiscrepantClear fun t => t.fbit Reg.IL_STAT_ZS_DISCREPANT = false ∧ s.regsBut t [Reg.IL_STAT_ZS_DISCREPANT] ∧
        t = { s with regs := t.regs }) ∧
    (∀ right, s.il.relRec.length = 2 → s.il.relRec.getD (b2n right) false = false →
      s.lasted (s.il.relAt.getD (b2n right) none) (s.ilN 30 2 5000) = true → s.room cREL_DISCREPANT →
      s.Does (.relDiscrepant right) fun t => t.il.relRec.getD (b2n right) false = true ∧ t.fbit Reg.IL_FLAGS_REL_DISC_SEEN = true ∧
        s.Noted t cREL_DISCREPANT (leBytes 1 (b2n right)) ∧ s.regsBut t [Reg.IL_FLAGS_REL_DISC_SEEN] ∧
        t = { s with regs := t.regs, cairn := t.cairn, il := { s.il with relRec := t.il.relRec } }) ∧
    (∀ half : Fin 4, s.lasted (s.il.rbAt.getD half none) (s.ilN 22 2 100) = true →
      let traction := half.val < 2
      let fault := if traction then Reg.IL_STAT_TE_RB_FAULT else Reg.IL_STAT_LOOP_RB_FAULT
      s.fbit fault = false →
      (s.driving = false ∨ s.fbit Reg.MODE_STAT_DUPLEX = false → s.room (if traction then cTE_READBACK else cLOOP_READBACK) →
        s.Does (.teReadback half) fun t => t.fbit fault = true ∧ t.fbit Reg.IL_FLAGS_RB_SEEN = true ∧
          s.Noted t (if traction then cTE_READBACK else cLOOP_READBACK)
            (leBytes 1 half ++ leBytes 1 (fieldOf (s.fget Reg.IL_RB_RB_NOW) half 1)) ∧
          (if traction then t.fbit Reg.IL_STAT_TE_GRANT = false ∧ t.il.te = false ∧ t.il.loop = s.il.loop
           else t.fbit Reg.IL_STAT_TE_GRANT = s.fbit Reg.IL_STAT_TE_GRANT ∧ t.il.te = s.il.te ∧ t.il.loop = false) ∧
          t = { s with regs := t.regs, cairn := t.cairn, il := { s.il with te := t.il.te, loop := t.il.loop } }) ∧
      (s.driving = true → s.fbit Reg.MODE_STAT_DUPLEX = true → s.power.crossAt = none → s.modeReq = none →
        s.Does (.teReadback half) fun t => t.fbit fault = true ∧ t.fget Reg.HANDOVER_LAST_CAUSE = (if traction then 2 else 3) ∧
          t.modeReq = some { mode := mSafe, trig := 0x87, reason := 0x07, detail := if traction then 2 else 3 })) ∧
    (∀ e, s.il.evalAt = some e → s.running = true → s.fbit Reg.IL_STAT_IL_STALE = false →
      s.Does .ilStale fun t => t.fbit Reg.IL_STAT_IL_STALE = true ∧ t.fbit Reg.IL_FLAGS_STALE_SEEN = true ∧ t.il.te = false ∧ t.il.loop = false ∧
        t.il.dropAt = some t.time.dev ∧ e + 2 * s.topoN 0x0202 (s.ilN 0 1 0) 4 2 0 * 250000 ≤ t.time.dev ∧ t.sram = s.sram ∧ t.mram = s.mram)) ∧
  (∀ s : State,
    (∀ k : DCh, bit (s.link (chSlot k)).profDue (k.val % 4) = true → s.mode ≠ mPark →
      s.Does (.profileStore k) fun t => bit (t.link (chSlot k)).profDue (k.val % 4) = false ∧
        (∀ a, a < 0x810 → mget 0 t.mram (profMram k + a) = s.rd (profB2 k + a)) ∧ mget 0 t.mram (profMram k + 0x810) = 0xA5 ∧
        s.sameMramOutside t (profMram k) 0x811 ∧ t = { s with links := t.links, mram := t.mram }) ∧
    (s.fbit Reg.DUP_STAT_REL_IN = false → s.power.crossAt = none → s.inReset = false →
      s.Does .peerReleaseIn fun t => t.fbit Reg.DUP_STAT_REL_IN = true ∧ t.fbit Reg.DUP_STAT_CLAIM_GATED = true ∧ t.power.peerHold = true ∧
        t.mode = mBoot ∧ t.fget Reg.RESET_CAUSE_CAUSE = 16 ∧ t.inReset = true ∧ t.sram = s.sram ∧ t.mram = s.mram ∧ t.doors = s.doors ∧
        (∀ n : Lsw, s.fitted (4 + n) = true → s.present (4 + n) = true → t.fbit (Reg.LSW_STAT_RELEASED n) = true) ∧
        ∀ f : Fio, s.fitted (6 + f) = true → s.present (6 + f) = true → t.fbit (Reg.FIO_STAT_RELEASED f) = true) ∧
    (∀ at_, s.fbit Reg.DUP_STAT_REL_IN = false → s.power.crossAt = some at_ → s.power.hold = false →
      s.Does .peerReleaseIn fun t => t.fbit Reg.DUP_STAT_REL_IN = true ∧ t.fbit Reg.DUP_STAT_CLAIM_GATED = true ∧ t.power = s.power ∧
        t.mode = s.mode ∧ t.sram = s.sram ∧ t.mram = s.mram ∧ t.doors = s.doors) ∧
    (s.fbit Reg.DUP_STAT_REL_IN = true →
      s.Does .peerReleaseInNegate fun t => t.fbit Reg.DUP_STAT_REL_IN = false ∧ t.power.peerHold = false ∧ t.mode = s.mode ∧
        (∀ n : Lsw, s.fitted (4 + n) = true → t.fbit (Reg.LSW_STAT_RELEASED n) = false) ∧
        (∀ f : Fio, s.fitted (6 + f) = true → t.fbit (Reg.FIO_STAT_RELEASED f) = false ∧ (t.fio f).relWait = (s.fio f).relWait) ∧
        t.sram = s.sram ∧ t.mram = s.mram ∧ t.doors = s.doors))


/-! ### Message bus controllers (chapter 12) -/

/-- R334, R338, R339, R343 to R347. A controller joins its bus; a matching frame goes into its buffer's main slot, or the shadow slot of a held
buffer; the age limit passes; the pending frame that wins arbitration starts, ends well, or loses; errors are counted and set the error
state; bus-off recovery ends; a protocol exception waits for bus integration. -/
def Obligations.CanFramesComplete : Prop :=
  ∀ (s : State) (c : Ctl) (b : Buf),
    let x := s.ctl c
    let k := c.val * 64 + b.val
    let y := s.buf k
    let heard := x.joined = true ∧ s.mode ≠ mBoot ∧ s.mode ≠ mPark
    let counted (t : State) (kind : Nat) (d : Bool) : Prop := t.fget (Reg.CAN_LEC_LAST_ERR c) = kind ∧ t.fbit (Reg.CAN_LEC_DATA_PHASE c) = d ∧
      t.fget (Reg.CAN_ERRCNT_ERR_FRAMES c) = min 65535 (s.fget (Reg.CAN_ERRCNT_ERR_FRAMES c) + 1)
    let state (t : State) (tec rec : Nat) : Prop := t.fget (Reg.CAN_STAT_TEC c) = tec ∧ t.fget (Reg.CAN_STAT_REC c) = rec ∧
      t.fget (Reg.CAN_STAT_ERR_STATE c) = (if 127 < tec ∨ 127 < rec then 1 else 0)
    (s.canOn c = true → s.boot.firstSample ≠ 0 → s.mode ≠ mPark → s.mode ≠ mBoot → x.joined = false →
      let first := s.ttOn c = true ∧ s.fget (Reg.CAN_STAT_TT_SYNC c) = 0
      s.Does (.canJoin c) fun t => t.fbit (Reg.CAN_STAT_LISTEN c) = !s.driving ∧ s.OnlyCan t c [] ∧
        (first → t.ctl c = { x with joined := true, refAt := s.time.mono, lossAt := s.time.mono } ∧ t.fget (Reg.CAN_STAT_TT_SYNC c) = 1) ∧
        (¬ first → t.ctl c = { x with joined := true })) ∧
    (∀ f own, heard → (own = true → s.fget (Reg.CAN_STAT_LOOP c) ≠ 0) → s.canFilter c f = some k → s.bufOn k = true → s.bufTx k = false →
      let m : CanMsg := { xid := frameXid f, fmt := frameFmt f, data := frameData f, time := s.time.dev - f.len }
      s.Does (.canRxFrame c f own) fun t =>
        t.buf k = (if y.held = false then { y with newest := some s.time.dev, aged := false, main := some m, isNew := true }
          else { y with newest := some s.time.dev, aged := false, shadow := some m, lost := y.lost || y.shadow.isSome }) ∧
        t.fget (Reg.BUF_STAT_FCOUNT c b) = (s.fget (Reg.BUF_STAT_FCOUNT c b) + 1) % 65536 ∧
        (2 ≤ b.val ∨ bit (s.topoN 0x0702 k 2 1 0) 0 = false → s.OnlyCan t c [k]) ∧ t.sram = s.sram ∧ t.mram = s.mram) ∧
    (∀ f, heard → s.canFilter c f = none →
      s.Does (.canRxFrame c f false) fun t => s.regsBut t [Reg.CAN_MISC_NOMATCH c] ∧ t = { s with regs := t.regs }) ∧
    (∀ n, y.newest = some n → s.bufOn k = true → s.bufTx k = false → s.topoN 0x0702 k 4 2 0 ≠ 0 →
      s.Does (.canRxTimeout c b) fun t => t.buf k = { y with aged := true } ∧ n + s.topoN 0x0702 k 4 2 0 * 1000000 ≤ t.time.dev ∧
        s.OnlyCan t c [k]) ∧
    (s.canMaySend c = true → x.bus = none → s.canPick c = some k →
      s.Does (.canTxStart c) fun t => t.ctl c = { x with bus := some b.val, exclusive := false } ∧ t.buf k = { y with tries := y.tries + 1 } ∧
        s.OnlyCan t c [k]) ∧
    (x.bus = some b.val →
      s.Does (.canTxDone c) fun t => (t.ctl c).bus = none ∧ (x.listenWait = false → y.wait = none →
        t.buf k = { y with pend := false, done := true, tooLate := y.cancelDef, cancelDef := false, res := if y.cancelDef then 3 else 1,
                           tries := 0, doneAt := some s.time.dev } ∧
        t.fget (Reg.BUF_STAT_FCOUNT c b) = (s.fget (Reg.BUF_STAT_FCOUNT c b) + 1) % 65536 ∧ s.OnlyCan t c [k]) ∧
        (∀ m again, y.wait = some (m, again) → (t.buf k).tx = m ∧ (t.buf k).wait = none ∧
          (x.listenWait = false → s.fbit (Reg.CAN_STAT_LISTEN c) = false → s.fget (Reg.CAN_STAT_ERR_STATE c) ≠ 2 → (t.buf k).pend = again))) ∧
    (x.bus = some b.val → x.listenWait = false → y.wait = none →
      let lim := if x.exclusive then 1 else s.topoN 0x0701 c 1 1 0
      s.Does (.canTxError c none 0 0) fun t => (t.ctl c).bus = none ∧ s.OnlyCan t c [k] ∧
        t.buf k = (if y.pend = false then y
          else if y.cancelDef = true then { y with pend := false, cancelled := true, cancelDef := false, res := 2, tries := 0 }
          else if lim ≠ 0 ∧ lim ≤ y.tries then { y with pend := false, fail := true, cancelDef := false, res := 4, tries := 0 }
          else y)) ∧
    (∀ (kind : Fin 7) d tec rec, x.bus = some b.val → x.listenWait = false → s.fbit (Reg.CAN_STAT_LISTEN c) = false →
      s.fget (Reg.CAN_STAT_ERR_STATE c) ≠ 2 → tec < 256 → rec < 256 →
      s.Does (.canTxError c (some (kind, d)) tec rec) fun t => (t.ctl c).bus = none ∧ counted t kind d ∧ state t tec rec ∧ s.OnlyCan t c [k]) ∧
    (∀ (kind : Fin 7) d tec rec, x.joined = true → s.fbit (Reg.CAN_STAT_LISTEN c) = false → s.fget (Reg.CAN_STAT_ERR_STATE c) ≠ 2 → rec < 256 →
      (tec < 256 → s.Does (.canRxError c kind d tec rec) fun t => counted t kind d ∧ state t tec rec ∧ s.OnlyCan t c []) ∧
      (256 ≤ tec → s.Does (.canRxError c kind d tec rec) fun t => counted t kind d ∧ t.fget (Reg.CAN_STAT_ERR_STATE c) = 2 ∧
        t.fbit (Reg.CAN_FLAGS_BUSOFF_SEEN c) = true ∧ (∀ j, j / 64 = c.val → (t.buf j).pend = false) ∧
        (∀ j, j / 64 ≠ c.val → t.buf j = s.buf j))) ∧
    (s.fbit (Reg.CAN_STAT_RECOVERING c) = true → s.room cCAN_RECOVERED →
      s.Does (.canRecovered c) fun t => t.fget (Reg.CAN_STAT_ERR_STATE c) = 0 ∧ t.fget (Reg.CAN_STAT_TEC c) = 0 ∧
        t.fget (Reg.CAN_STAT_REC c) = 0 ∧ t.fbit (Reg.CAN_STAT_RECOVERING c) = false ∧ s.Noted t cCAN_RECOVERED (leBytes 1 c) ∧
        t = { s with regs := t.regs, cairn := t.cairn }) ∧
    (x.joined = true → s.canFlag c 3 = true →
      s.Does (.protocolException c) fun t => t.ctl c = { x with joined := false } ∧ t.fbit (Reg.CAN_FLAGS_PX_SEEN c) = true ∧
        s.regsBut t [Reg.CAN_FLAGS_PX_SEEN c] ∧ t.cairn = s.cairn ∧ s.OnlyCan t c []) ∧
    (x.joined = true → s.canFlag c 3 = false →
      s.Does (.protocolException c) fun t => counted t 2 false ∧ s.OnlyCan t c [] ∧ (s.fbit (Reg.CAN_STAT_LISTEN c) = false →
        t.fget (Reg.CAN_STAT_REC c) = min 255 (s.fget (Reg.CAN_STAT_REC c) + 1)))

/-- R348 to R351, R353. Time-triggered operation: a reference message sets cycle and window, and the second in a row brings `IN_SCHEDULE`; a
potential master sends its own, which counts from its SOF once it is sent; an exclusive window starts its buffer's frame, and a frame still on the bus there stops transmission;
the loss of the reference costs the schedule. The loop-back test counts a collision and flags a frame that did not come back. -/
def Obligations.CanScheduleCompletes : Prop :=
  ∀ (s : State) (c : Ctl),
    let x := s.ctl c
    let ref := s.topoN 0x0704 c 4 4 0
    let sync (t : State) : Nat := t.fget (Reg.CAN_STAT_TT_SYNC c)
    (∀ f, x.joined = true → s.ttOn c = true → f.id.toNat / 8 = ref % 2 ^ 29 / 8 → f.ide = bit ref 29 →
      f.rtr = false → f.data ≠ [] →
      let at_ := s.time.mono - f.len + s.sofNs c
      s.Does (.canRefMessage c f) fun t => t.ctl c = { x with refAt := at_, lossAt := at_, refs := min 2 (x.refs + 1), rxWin := 0 } ∧
        t.fget (Reg.CAN_TT_CYCLE c) = leAt f.data 0 1 % 64 ∧ t.fget (Reg.CAN_TT_WINDOW c) = 0 ∧ t.fbit (Reg.CAN_STAT_TT_MASTER c) = false ∧
        (sync s = 1 → 1 ≤ x.refs → sync t = 2 ∧ (x.stopped = false → t.fget (Reg.CAN_STAT_TT_ERR c) = 0)) ∧
        (sync s ≠ 1 ∨ x.refs = 0 → sync t = sync s ∧ (sync s ≠ 2 → t.cairn = s.cairn)) ∧ s.OnlyCan t c []) ∧
    (s.ttOn c = true → s.topoN 0x0704 c 0 1 0 = 2 → s.canMaySend c = true → x.stopped = false → x.bus = none →
      let late := if s.fbit (Reg.CAN_STAT_TT_MASTER c) then 0 else 128 * (ref % 8 + 1)
      s.Does (.canRefSend c) fun t => t.ctl c = { x with bus := some 64, refSof := t.time.mono } ∧
        x.refAt - s.sofNs c + (s.topoN 0x0704 c 8 2 0 + late) * s.bitNs c ≤ t.time.mono ∧
        t.fget (Reg.CAN_TT_WINDOW c) = s.fget (Reg.CAN_TT_WINDOW c) ∧ s.OnlyCan t c []) ∧
    (x.bus = some 64 → x.listenWait = false →
      let at_ := x.refSof + s.sofNs c
      s.Does (.canTxDone c) fun t => t.ctl c = { x with bus := none, exclusive := false, refAt := at_, lossAt := at_, refs := min 2 (x.refs + 1), rxWin := 0 } ∧
        t.fget (Reg.CAN_TT_CYCLE c) = (s.fget (Reg.CAN_TT_CYCLE c) + 1) % max 1 (s.topoN 0x0704 c 1 1 1) % 64 ∧
        t.fget (Reg.CAN_TT_WINDOW c) = 0 ∧ t.fbit (Reg.CAN_STAT_TT_MASTER c) = true ∧ s.OnlyCan t c []) ∧
    (∀ w : Fin 32, s.ttOn c = true → x.joined = true → sync s = 2 → w.val < s.topoN 0x0704 c 2 1 0 →
      let y := s.fget (Reg.CAN_TT_CYCLE c)
      let k := s.ttBuf c y w
      let at_ := x.refAt + s.ttMark c w * s.bitNs c
      (x.exclusive = false → s.ttType c y w = 1 → (s.buf k).pend = true → x.stopped = false → s.canMaySend c = true → x.bus = none →
        k / 64 = c.val →
        s.Does (.canTtWindow c w false) fun t => (t.ctl c).bus = some (k % 64) ∧ (t.ctl c).exclusive = true ∧
          t.buf k = { s.buf k with tries := (s.buf k).tries + 1 } ∧ t.fget (Reg.CAN_TT_WINDOW c) = w.val ∧ at_ ≤ t.time.mono ∧
          s.OnlyCan t c [k]) ∧
      (∀ busy, x.exclusive = false → s.ttType c y w = 1 → (s.buf k).pend = true → x.stopped = false → s.canMaySend c = true →
        busy = true ∨ x.bus.isSome = true →
        s.Does (.canTtWindow c w busy) fun t => t.ctl c = { x with rxWin := 0 } ∧ t.fget (Reg.CAN_TT_WINDOW c) = w.val ∧ at_ ≤ t.time.mono ∧
          t.fget (Reg.CAN_STAT_TT_ERR c) = max 1 (s.fget (Reg.CAN_STAT_TT_ERR c)) ∧ s.OnlyCan t c []) ∧
      (∀ busy, x.exclusive = true →
        s.Does (.canTtWindow c w busy) fun t => (t.ctl c).stopped = true ∧ t.fget (Reg.CAN_STAT_TT_ERR c) = 3 ∧
          t.fget (Reg.CAN_TT_WINDOW c) = w.val ∧ at_ ≤ t.time.mono ∧ s.OnlyCan t c []) ∧
      (∀ busy, x.exclusive = false → s.ttType c y w ≠ 1 →
        s.Does (.canTtWindow c w busy) fun t => t.ctl c = { x with rxWin := 0 } ∧ t.fget (Reg.CAN_TT_WINDOW c) = w.val ∧ at_ ≤ t.time.mono ∧
          s.OnlyCan t c [])) ∧
    (s.ttOn c = true → x.joined = true →
      s.Does (.canTtSyncLoss c) fun t => t.ctl c = { x with refs := 0, lossAt := t.time.mono } ∧ sync t = 1 ∧
        t.fget (Reg.CAN_STAT_TT_ERR c) = max 2 (s.fget (Reg.CAN_STAT_TT_ERR c)) ∧
        x.lossAt + (s.topoN 0x0704 c 8 2 0 + 1024) * s.bitNs c ≤ t.time.mono ∧ s.OnlyCan t c []) ∧
    (∀ back collide, s.mode = mStandby → s.canOn c = true → x.joined = true →
      s.Does (.canLbTest c back collide) fun t => (back = false → t.fbit (Reg.CAN_FLAGS_LB_FAIL c) = true) ∧
        bit t.dup.stBad (8 + c.val) = (!back) ∧ (collide = false → t.fget (Reg.CAN_MISC_LB_COLLIDE c) = s.fget (Reg.CAN_MISC_LB_COLLIDE c)) ∧
        t.ctls = s.ctls ∧ t.bufs = s.bufs ∧ t.sram = s.sram ∧ t.mram = s.mram)

/-! ### The train network (chapter 13) -/

/-- R359 to R361, R379. A poll of a PHY sets the link of its port, and the third failed poll in a row its error; a port answers ARP and echo
requests for its own address and counts what it discards; a malformed message is answered on a port that takes verbs. -/
def Obligations.PortFramesComplete : Prop :=
  ∀ (s : State) (p : Port),
    let heard (t : State) : Prop := t.lget (Reg.PORT_RX_RX_FRAMES p) = (s.lget (Reg.PORT_RX_RX_FRAMES p) + 1) % 2 ^ 32
    let answered (t : State) (kind : Nat) (data : List Byte) : Prop := t.net.sent = s.net.sent ++ [{ chan := p, kind, data }] ∧
      t.lget (Reg.PORT_ERR_DROPPED p) = s.lget (Reg.PORT_ERR_DROPPED p) ∧ t = { s with live := t.live, net := t.net }
    let dropped (t : State) : Prop := t.net = s.net ∧ t = { s with live := t.live } ∧
      t.lget (Reg.PORT_ERR_DROPPED p) = min 65535 (s.lget (Reg.PORT_ERR_DROPPED p) + 1)
    (∀ v gig, s.portOn p = true → s.mode ≠ mBoot → s.mode ≠ mPark →
      s.Does (.mdioPoll p v gig) fun t => mget 0 t.net.mdioBad p = (if v = 0xFFFF then mget 0 s.net.mdioBad p + 1 else 0) ∧
        t.fbit (Reg.PORT_STAT_MDIO_ERR p) = (s.fbit (Reg.PORT_STAT_MDIO_ERR p) || decide (3 ≤ mget 0 t.net.mdioBad p)) ∧
        t.fbit (Reg.PORT_STAT_LINK p) = (v.getLsbD 2 && v.getLsbD 5 && !t.fbit (Reg.PORT_STAT_MDIO_ERR p)) ∧
        s.regsBut t [Reg.PORT_STAT_MDIO_ERR p, Reg.PORT_STAT_LINK p, Reg.PORT_STAT_GIG p] ∧ mget 0 t.net.mdioAt p = t.time.mono ∧
        mget 0 s.net.mdioAt p + 100000000 ≤ t.time.mono ∧ t = { s with time := t.time, power := t.power, regs := t.regs, net := t.net }) ∧
    (s.portUp p = true →
      (∀ ip : Word, ip.toNat = s.portIp p → s.Does (.arpRequest p ip) fun t => heard t ∧ answered t 4 (beBytes 4 ip.toNat)) ∧
      (∀ ip : Word, ip.toNat ≠ s.portIp p → s.Does (.arpRequest p ip) fun t => heard t ∧ dropped t) ∧
      (∀ ip : Word, ip.toNat = s.portIp p →
        ((mget [] s.net.icmpAt p).filter fun t => decide (s.time.mono < t + 1000000000)).length < 10 →
        s.Does (.icmpEcho p ip) fun t => heard t ∧ answered t 5 (beBytes 4 ip.toNat) ∧ (mget [] t.net.icmpAt p).head? = some s.time.mono) ∧
      (∀ ip : Word, ip.toNat ≠ s.portIp p ∨
        10 ≤ ((mget [] s.net.icmpAt p).filter fun t => decide (s.time.mono < t + 1000000000)).length →
        s.Does (.icmpEcho p ip) fun t => heard t ∧ dropped t) ∧
      (s.Does (.frameDiscarded p) fun t => heard t ∧ dropped t) ∧
      (bit (s.topoN 0x0806 0 4 1 4) p = true → s.Does (.mdMalformed p) fun t => heard t ∧ answered t 3 []) ∧
      (bit (s.topoN 0x0806 0 4 1 4) p = false → s.Does (.mdMalformed p) fun t => heard t ∧ t = { s with live := t.live }))

/-- R362 to R365, R371, R374. An accepted copy is taken where it is newer, and counted as a duplicate where not; a telegram is published at its
instant on every port that is up; a telegram, a plane or a safety container goes stale after its time; the receive image is rebuilt and
its readers go on. -/
def Obligations.TelegramsComplete : Prop :=
  ∀ (s : State) (i : Tel),
    let x := s.tel i
    (∀ (p : Port) (comId srcIp counter : Word) payload, s.portUp p = true → i.val ∈ s.telsOf 0 → s.topoN 0x0802 i 4 4 0 = comId.toNat →
      (s.topoN 0x0802 i 12 4 0 = 0 ∨ s.topoN 0x0802 i 12 4 0 = srcIp.toNat) → s.topoN 0x0802 i 2 2 0 = payload.length →
      bit (s.topoN 0x0802 i 1 1 0) p = true →
      s.Does (.pdReceive p comId srcIp counter payload) fun t =>
        (t.tel i).copy = (if x.fresh = true ∨ newerCtr counter.toNat (s.fget (Reg.TEL_SEQ_SEQ i)) = true
          then some ⟨counter.toNat, payload, s.time.mono⟩ else x.copy) ∧
        (p = 0 → (t.tel i).planeA = some s.time.mono) ∧ (p = 1 → (t.tel i).planeB = some s.time.mono) ∧
        (∀ j : Tel, s.topoN 0x0802 j 4 4 0 ≠ comId.toNat → t.tel j = s.tel j) ∧ t.sram = s.sram ∧ t.mram = s.mram) ∧
    (s.telIs i 1 = true → s.driving = true ∨ s.mode = mSafe →
      let per := s.topoN 0x0802 i 16 2 1 * 1000000
      s.Does (.pdPublish i) fun t => t.fget (Reg.TEL_SEQ_SEQ i) = (s.fget (Reg.TEL_SEQ_SEQ i) + 1) % 2 ^ 32 ∧ s.time.dev ≤ t.time.dev ∧
        (0 < per → t.time.dev % per = s.topoN 0x0802 i 18 2 0 * 1000 % per) ∧
        (∀ p : Port, bit (s.topoN 0x0802 i 1 1 3) p = true → s.portUp p = true → s.scOf i = none →
          { chan := p, kind := 1, data := trdpFrame (t.fget (Reg.TEL_SEQ_SEQ i)) (s.topoN 0x0802 i 4 4 0) (s.packPd i),
            dest := s.topoN 0x0802 i 8 4 0, tag := s.topoN 0x0802 i 22 2 0 } ∈ t.net.sent) ∧
        (∀ j ≠ i.val, t.tel j = s.tel j) ∧ s.regsBut t [Reg.TEL_SEQ_SEQ i] ∧ t.sram = s.sram ∧ t.mram = s.mram) ∧
    (∀ c, x.copy = some c → s.telIs i 0 = true → s.telTmo i ≠ 0 → x.fresh = false → s.room cTEL_TIMEOUT →
      s.Does (.telTimeout i) fun t => t.tel i = { x with fresh := true } ∧ c.at_ + s.telTmo i ≤ t.time.mono ∧
        t.fbit Reg.NET_FLAGS_TMO_SEEN = true ∧ s.Noted t cTEL_TIMEOUT (leBytes 2 i.val) ∧ (∀ j ≠ i.val, t.tel j = s.tel j) ∧
        t = { s with time := t.time, power := t.power, regs := t.regs, cairn := t.cairn, net := t.net }) ∧
    (∀ b at_, (if b then x.planeB else x.planeA) = some at_ →
      s.fbit (if b then Reg.TEL_STAT_PLANE_B_OK i else Reg.TEL_STAT_PLANE_A_OK i) = true → s.telTmo i ≠ 0 → s.room cPLANE_LOSS →
      s.Does (.planeLoss i b) fun t => t.fbit (if b then Reg.TEL_STAT_PLANE_B_OK i else Reg.TEL_STAT_PLANE_A_OK i) = false ∧
        at_ + s.telTmo i ≤ t.time.mono ∧ t.fbit Reg.NET_FLAGS_PLANE_SEEN = true ∧ s.Noted t cPLANE_LOSS (leBytes 2 i.val ++ leBytes 1 (b2n b)) ∧
        t = { s with time := t.time, power := t.power, regs := t.regs, cairn := t.cairn }) ∧
    (∀ c : Fin 256, (s.sc c).valid = true → s.room cSC_REJECT →
      s.Does (.scStale c) fun t => t.sc c = { s.sc c with valid := false } ∧ (s.sc c).sscAt + s.topoN 0x0804 c 16 2 0 * 1000000 < t.time.mono ∧
        t.fget (Reg.TEL_STAT_SC_REASON (s.topoN 0x0804 c 0 2 0)) = 6 ∧ t.fbit (Reg.TEL_STAT_SC_VALID (s.topoN 0x0804 c 0 2 0)) = false ∧
        s.Noted t cSC_REJECT (leBytes 2 c ++ leBytes 1 6) ∧ (∀ j ≠ c.val, t.sc j = s.sc j) ∧ t.sram = s.sram ∧ t.mram = s.mram) ∧
    (s.net.building = true →
      ∀ wait,
      let r := s.scFinish.toMono (s.scFinish.net.walkAt + s.walkNs + wait)
      s.Does (.rximgDone wait) fun t => t.net.building = false ∧ t.eng.scLeft = 0 ∧ r.time.mono ≤ t.time.mono ∧
        t.fget Reg.RXIMG_RXIMG_US = min 65535 ((r.time.mono - s.net.pAt) / 1000) ∧
        (∀ u : Task, ∀ a, s.act u = some a → ∃ a', t.act u = some a' ∧ a'.waitNet = false ∧ a'.cyc = a.cyc ∧ a'.g = a.g) ∧
        ((∀ u : Task, ∀ a, s.act u = some a → a.swap = false) → t.mram = s.mram))

/-- R376, R377. PTP: a Sync, or the Follow_Up of a two-step one, gives the offset from the master, which the clock slews away outside STANDBY;
the delay is the mean of both directions; the better clock is taken; the other port is tried after the announce timeout; and the clock
holds over once Syncs have failed. -/
def Obligations.PtpCompletes : Prop :=
  ∀ (s : State) (p : Port),
    let here := s.ptpOn p = true ∧ p.val = s.ptpPort
    let taken (t : State) (t1 t2 : Nat) : Prop :=
      let off : Int := (t2 : Int) - t1 - sgn 32 (s.lget Reg.PTP_DELAY_PATH_NS)
      t.lget Reg.PTP_OFS_OFFSET_NS = unsgn 32 off ∧ t.fbit Reg.NET_STAT_PTP_HOLDOVER = false ∧ t.net.syncAt = s.time.mono ∧ t.net.twoStep = none ∧
        t.net.t12 = (t1, t2) ∧ t.time.slew = (if s.mode = mStandby then s.time.slew else -off) ∧
        (off.natAbs < 1000 → 15 ≤ s.net.inLock → t.fbit Reg.NET_STAT_PTP_LOCKED = true) ∧
        (1000 < off.natAbs → 3 ≤ s.net.outLock → t.fbit Reg.NET_STAT_PTP_LOCKED = false) ∧
        s.regsBut t [Reg.NET_STAT_PTP_HOLDOVER, Reg.NET_STAT_PTP_LOCKED] ∧
        t = { s with time := { s.time with slew := t.time.slew }, regs := t.regs, live := t.live, net := t.net }
    (∀ o rx, here →
      (s.Does (.ptpSync p false o rx) fun t => taken t o (stamp4 rx)) ∧
      s.Does (.ptpSync p true o rx) fun t => t.net = { s.net with twoStep := some (o, rx) } ∧ t = { s with live := t.live, net := t.net }) ∧
    (∀ o o' rx, here → s.net.twoStep = some (o', rx) → s.Does (.ptpFollowUp p o) fun t => taken t o (stamp4 rx)) ∧
    (∀ q : Port, q.val = s.ptpPort → s.ptpOn q = true →
      s.Does .ptpDelayReq fun t => t.net = { s.net with dreqAt := some (stamp4 s.time.dev), sent := s.net.sent ++
          [{ chan := q, kind := 6, data := beBytes 8 (stamp4 s.time.dev) }] } ∧
        t = { s with live := t.live, net := t.net }) ∧
    (∀ (rx t3 : Nat), here → s.net.dreqAt = some t3 →
      let d : Int := (((s.net.t12.2 : Int) - s.net.t12.1) + ((rx : Int) - t3)) / 2
      s.Does (.ptpDelayResp p rx) fun t => t.lget Reg.PTP_DELAY_PATH_NS = unsgn 32 d ∧ t.net = { s.net with dreqAt := none } ∧
        t = { s with live := t.live, net := t.net }) ∧
    (∀ prio (log : Fin 16), s.ptpOn p = true → (p.val = s.ptpPort ∨ s.net.best = none ∨ ∃ b, s.net.best = some b ∧ prio < b) →
      s.Does (.ptpAnnounce p (prio, log)) fun t => t.ptpPort = p.val ∧ t.net = { s.net with
          best := some prio, annAt := s.time.mono
          annNs := if log.val < 8 then 1000000000 * 2 ^ log.val else 1000000000 / 2 ^ (16 - log.val) } ∧
        t = { s with regs := t.regs, live := t.live, net := t.net }) ∧
    (s.topoN 0x0805 0 0 1 1 = 1 → s.mode ≠ mBoot → s.mode ≠ mPark →
      (bit (s.topoN 0x0805 0 2 1 3) (1 - s.ptpPort) = true → s.portOn (1 - s.ptpPort) = true →
        s.Does .ptpAnnounceTimeout fun t => t.ptpPort = 1 - s.ptpPort ∧ t.net = { s.net with best := none, annAt := t.time.mono } ∧
          s.net.annAt + 3 * s.net.annNs ≤ t.time.mono ∧ t = { s with time := t.time, power := t.power, regs := t.regs, net := t.net }) ∧
      (s.fbit Reg.NET_STAT_PTP_HOLDOVER = false → s.room cPTP_LOST →
        s.Does .ptpLost fun t => t.fbit Reg.NET_STAT_PTP_HOLDOVER = true ∧ t.fbit Reg.NET_FLAGS_PTP_LOST_SEEN = true ∧ t.time.slew = 0 ∧
          s.net.syncAt + s.topoN 0x0805 0 4 2 10 * 1000000000 ≤ t.time.mono ∧ s.Noted t cPTP_LOST [] ∧
          t = { s with time := t.time, power := t.power, regs := t.regs, cairn := t.cairn }))

/-! ### Maintenance verbs (chapter 13) -/

/-- R381, R383, R384, R419, R458, R463. Sessions open under the role's key and close on request, when idle, or at the end of a lockout; the
reading verbs answer with what they read, and an object outside the agent windows with PROT. -/
def Obligations.ReadingVerbsComplete : Prop :=
  ∀ (s : State) (h : VerbHdr) (x : Fin 4) (v : Sess),
    (∀ (role : Byte) (nc k : List Byte), s.inReset = false → s.portUp h.port.val = true → s.verbPort h.port.val = true →
      s.fbit Reg.NET_STAT_OPEN_LOCKOUT = false → s.roleKey role.toNat = some k →
      verbTag k (verbFrame h vOpen (beBytes 1 role.toNat ++ [0, 0, 0] ++ nc)) = h.tag → h.badLen = false → nc.length = 16 → h.sess = 0xFF →
      bit (s.topoN 0x0B01 role.toNat 1 1 4) h.port.val = true → s.sess x = none → (∀ y : Fin 4, y < x → s.sess y ≠ none) →
      s.Does (.openSession h role nc) fun t => ∃ nm key, nm.length = 16 ∧ key = hmac256 k ([0x44, 0x58, 0x38, 0x53] ++ nc ++ nm) ∧
        t.sess x = some { role := role.toNat, key, idleAt := s.time.mono, port := h.port.val } ∧
        t.net.sent = s.net.sent ++ [{ chan := h.port.val, kind := 2, data := verbReply key vOpen x h.ctr.toNat rDone 0 nm }] ∧ (∀ y : Fin 4, y ≠ x → t.sess y = s.sess y) ∧
        t = { s with regs := t.regs, live := t.live, net := t.net, free := t.free }) ∧
    (s.Takes h x v vClose 16 [] →
      s.Does (.closeSession h) fun t => t.sess x = none ∧ s.Replied t h x v vClose rDone 0 [] ∧ (∀ y : Fin 4, y ≠ x → t.sess y = s.sess y) ∧
        t = { s with regs := t.regs, live := t.live, net := t.net }) ∧
    (s.sess x = some v →
      s.Does (.sessionIdle x) fun t => t.sess x = none ∧ v.idleAt + s.topoN 0x0806 0 6 2 300 * 1000000000 ≤ t.time.mono ∧
        (∀ y : Fin 4, y ≠ x → t.sess y = s.sess y) ∧ t = { s with time := t.time, power := t.power, regs := t.regs, net := t.net }) ∧
    (s.fbit Reg.NET_STAT_OPEN_LOCKOUT = true →
      s.Does .openLockoutEnd fun t => t.fbit Reg.NET_STAT_OPEN_LOCKOUT = false ∧ s.net.lockEnd ≤ t.time.mono ∧
        s.regsBut t [Reg.NET_STAT_OPEN_LOCKOUT] ∧ t = { s with time := t.time, power := t.power, regs := t.regs }) ∧
    (∀ (addr : Word) (len : BitVec 16), s.Takes h x v vReadObj 0 (beBytes 4 addr.toNat ++ beBytes 2 len.toNat) →
      submitOk addr.toNat len.toNat = true →
      (s.allowed 0 addr.toNat len.toNat false = false →
        s.Does (.readObj h addr len) fun t => s.Taken t h x v ∧ s.Replied t h x v vReadObj rProt 0 [] ∧
          t = { s with regs := t.regs, live := t.live, net := t.net, cairn := t.cairn }) ∧
      (s.allowed 0 addr.toNat len.toNat false = true → len = 4 → memMapped addr.toNat = true →
        s.mem.bad.contains (addr.toNat - addr.toNat % 8) = false → opaqueStore addr.toNat = false → s.fget Reg.MEM_STAT_FILL_BUSY = 0 →
        s.Does (.readObj h addr len) fun t => s.Taken t h x v ∧
          s.Replied t h x v vReadObj rDone 0 ((List.range 4).map fun i => s.extByte false (addr.toNat + i)) ∧ t.sram = s.sram ∧ t.mram = s.mram)) ∧
    (s.Takes h x v vHealth 1 [] →
      s.Does (.health h) fun t => s.Taken t h x v ∧ (∃ body, s.Replied t h x v vHealth rDone 0 body ∧ body.length = 64 ∧
        (body.drop 8).take 8 = beBytes 8 s.time.dev) ∧ t = { s with regs := t.regs, live := t.live, net := t.net, free := t.free }) ∧
    (∀ (area : Byte) (first count : BitVec 16),
      s.Takes h x v vReadCairn 4 (beBytes 1 area.toNat ++ [0] ++ beBytes 2 first.toNat ++ beBytes 2 count.toNat) → area.toNat ≤ 1 →
      1 ≤ count.toNat → count.toNat ≤ 31 → first.toNat + count.toNat ≤ (if area = 0 then 16320 else 64) →
      s.Does (.readCairn h area first count) fun t => s.Taken t h x v ∧ s.Replied t h x v vReadCairn rDone 0
        (beBytes 1 area.toNat ++ [0] ++ beBytes 2 (if area = 0 then s.fget Reg.CAIRN_STAT_FILL else s.fget Reg.CAIRN_STAT_LW_NEXT) ++
          beBytes 2 first.toNat ++ beBytes 2 count.toNat ++
          mslice 0 s.mram ((if area = 0 then cairnMain else cairnRing) + 32 * first.toNat) (32 * count.toNat)) ∧
        t = { s with regs := t.regs, live := t.live, net := t.net }) ∧
    (∀ (door : Byte) (first count : BitVec 16),
      s.Takes h x v vReadLedger 6 (beBytes 1 door.toNat ++ [0] ++ beBytes 2 first.toNat ++ beBytes 2 count.toNat) → door.toNat < 12 →
      s.ilRole door.toNat = 1 → 1 ≤ count.toNat → count.toNat ≤ 31 → first.toNat + count.toNat ≤ 4096 →
      s.Does (.readLedger h door first count) fun t => s.Taken t h x v ∧ s.Replied t h x v vReadLedger rDone 0
        (beBytes 1 door.toNat ++ [0] ++
          beBytes 2 (if s.fbit (Reg.LDG_STAT_EMPTY door.toNat) then 0xFFFF else s.fget (Reg.LDG_STAT_NEWEST door.toNat)) ++
          beBytes 4 (s.fget (Reg.LT_CYCLES_CYCLES door.toNat)) ++
          mslice 0 s.mram (0x10400000 + door.toNat * 0x20000 + 32 * first.toNat) (32 * count.toNat)) ∧
        t = { s with regs := t.regs, live := t.live, net := t.net })

/-- R51, R53, R62, R346, R353, R385, R386, R388, R389, R457. The verbs that act, each where the agreement check accepts it: the recorder is
cleared or waits for a reader; MAINTENANCE is entered and left at a commit; a door test or a learning run starts, waits for a door in
motion, or is aborted; an output is forced; bus-off recovery starts; a reset waits for its commit; a deferred verb is taken up or times
out. -/
def Obligations.ActingVerbsComplete : Prop :=
  ∀ (s : State) (h : VerbHdr) (x : Fin 4) (v : Sess),
    let reads (y : Fin 4) : Prop := ∃ w, s.sess y = some w ∧ w.reading = true
    let kept (t : State) : Prop := t.sram = s.sram ∧ t.mram = s.mram ∧ t.mode = s.mode
    let cleared (t : State) : Prop := t.fget Reg.CAIRN_STAT_FILL = 1 ∧ t.fbit Reg.CAIRN_STAT_FULL = false ∧
      (∀ a, cairnMain + 32 ≤ a → a < cairnMain + 32 * 16320 → mget 0 t.mram a = 0) ∧ s.sameMramOutside t cairnMain (32 * 16320) ∧ t.sram = s.sram
    let waits (t : State) (i : Waiting) : Prop := (∃ w, t.sess x = some w ∧ w.deferred = some (i, s.time.mono)) ∧
      t.net.sent = s.net.sent ∧ t.net.holds = s.net.holds ∧ kept t
    let held (t : State) (verb cmd k : Nat) : Prop :=
      ∃ g, mget none t.net.holds k = some g ∧ g.cmd = cmd ∧ g.from_ = s.chanIn k 0 ∧ g.sess = some (x.val, verb) ∧
        g.seq = ((mget 0 (s.link (chSlot k)).sentOut (16 * (k % 4) + 1)).toNat + 1) % 256
    let still (k : Nat) : Prop := s.mode = mMaint ∧ s.ilRole k = 1 ∧ s.dieValid (chSlot k) = true ∧ mget none s.net.holds k = none ∧
      s.chanIn k 0 ∈ [dLocked, dReleased, dOpen, dHalted]
    let moves (k : Nat) : Prop := s.mode = mMaint ∧ s.ilRole k = 1 ∧ s.dieValid (chSlot k) = true ∧ mget none s.net.holds k = none ∧
      s.chanIn k 0 = dReversing
    (s.Takes h x v vClearCairn 5 [] → s.mode = mMaint →
      ((∀ y : Fin 4, y ≠ x → ¬ reads y) →
        s.Does (.clearCairn h) fun t => s.Taken t h x v ∧ cleared t ∧ s.Replied t h x v vClearCairn rDone 0 []) ∧
      ((∃ y : Fin 4, y ≠ x ∧ reads y) → s.Does (.clearCairn h) fun t => waits t .clearCairn)) ∧
    (s.Takes h x v vSetMode 7 [1] → s.mode = mActive → s.modeReq = none → s.power.park = 0 → s.fbit Reg.IL_STAT_ZS_PROVEN = true → s.tractionOff = true →
      s.Does (.setModeEnter h) fun t => s.Taken t h x v ∧ t.modeReq = some { mode := mMaint, trig := trEnter } ∧ t.net.maintSess = some x.val ∧
        (x.val, vSetMode) ∈ t.net.atCommit ∧ kept t) ∧
    (s.Takes h x v vSetMode 7 [2] → s.mode = mMaint → s.modeReq = none →
      s.Does (.setModeLeave h) fun t => s.Taken t h x v ∧ t.modeReq = some { mode := mActive, trig := trLeave } ∧
        (x.val, vSetMode) ∈ t.net.atCommit ∧ kept t) ∧
    (∀ ch : Byte, ch.toNat < 12 →
      (s.Takes h x v vDoorTest 8 [ch, 0] → still ch.toNat → s.Does (.doorTestStart h ch) fun t => held t vDoorTest 5 ch.toNat ∧ kept t) ∧
      (s.Takes h x v vDoorTest 8 [ch, 0] → moves ch.toNat → s.Does (.doorTestStart h ch) fun t => waits t (.run false ch.toNat)) ∧
      (s.Takes h x v vLearn 9 [ch, 0] → still ch.toNat → s.Does (.learnProfileStart h ch) fun t => held t vLearn 6 ch.toNat ∧ kept t) ∧
      (s.Takes h x v vLearn 9 [ch, 0] → moves ch.toNat → s.Does (.learnProfileStart h ch) fun t => waits t (.run true ch.toNat)) ∧
      ∀ g, s.mode = mMaint → mget none s.net.holds ch.toNat = some g → g.phase ≤ 1 →
        (s.Takes h x v vDoorTest 8 [ch, 1] → g.cmd = 5 → s.Does (.doorTestAbort h ch) fun t => held t vDoorTest 3 ch.toNat ∧ kept t) ∧
        (s.Takes h x v vLearn 9 [ch, 1] → g.cmd = 6 → s.Does (.learnProfileAbort h ch) fun t => held t vLearn 3 ch.toNat ∧ kept t)) ∧
    (∀ kind num value : Byte, s.Takes h x v vForce 10 [kind, num, value, 0] → s.mode = mMaint → value.toNat ≤ 2 →
      (kind = 3 → num.toNat < 4 → s.canOn num.toNat = true →
        s.Does (.forceOutput h kind num value) fun t => s.Taken t h x v ∧ t.fget (Reg.CAN_STAT_LOOP num.toNat) = value.toNat ∧
          s.Replied t h x v vForce rDone 0 [] ∧ t = { s with regs := t.regs, live := t.live, net := t.net }) ∧
      (kind = 1 → num.toNat < 24 → s.fitted (4 + num.toNat / 12) = true → s.topo? 0x0501 num.toNat ≠ none → s.topoN 0x0501 num.toNat 10 1 0 ≠ 2 →
        s.Does (.forceOutput h kind num value) fun t => s.Taken t h x v ∧ (x.val, vForce) ∈ t.net.atCommit ∧ kept t ∧
          mget 0 t.net.forces num.toNat = (if value = 2 then 0 else value.toNat + 1))) ∧
    (∀ c : Byte, s.Takes h x v vBusoff 11 [c] → c.toNat < 4 → s.driving = true → s.fget (Reg.CAN_STAT_ERR_STATE c.toNat) = 2 →
      s.fbit (Reg.CAN_STAT_RECOVERING c.toNat) = false →
      s.Does (.busoffRecover h c) fun t => s.Taken t h x v ∧ t.fbit (Reg.CAN_STAT_RECOVERING c.toNat) = true ∧
        s.Replied t h x v vBusoff rDone 0 [] ∧ t = { s with regs := t.regs, live := t.live, net := t.net }) ∧
    (s.Takes h x v vReset 12 [] → s.mode ≠ mActive ∨ s.fbit Reg.IL_STAT_ZS_PROVEN = true →
      s.Does (.reset h) fun t => s.Taken t h x v ∧ t.net.resetDue = true ∧ s.Replied t h x v vReset rDone 0 [] ∧
        t = { s with regs := t.regs, live := t.live, net := t.net }) ∧
    (s.net.resetDue = true → s.inReset = false → s.mode ≠ mPark →
      s.Does .verbReset fun t => s.Restarted t 5 ∧ t.boot.cold = false ∧ commitPt s.time.gc ≤ t.time.dev) ∧
    (∀ i at_, s.sess x = some v → v.closing = false → v.deferred = some (i, at_) →
      (i = .clearCairn → s.mode = mMaint → (∀ y : Fin 4, y ≠ x → ¬ reads y) →
        s.Does (.deferResolve x) fun t => cleared t ∧ ∃ w, t.sess x = some w ∧ w.deferred = none) ∧
      (∀ learn k, k < 12 → i = .run learn k → still k →
        s.Does (.deferResolve x) fun t => held t (if learn then vLearn else vDoorTest) (if learn then 6 else 5) k ∧ kept t ∧
          ∃ w, t.sess x = some w ∧ w.deferred = none) ∧
      s.Does (.deferTimeout x) fun t => (∃ w, t.sess x = some w ∧ w.deferred = none) ∧
        at_ + s.topoN 0x0806 0 8 2 10000 * 1000000 ≤ t.time.mono ∧
        t.fget Reg.VERB_CNT_REFUSED = min 65535 (s.fget Reg.VERB_CNT_REFUSED + 1) ∧ kept t)

/-- R173, R178, R180, R183, R385. The change verbs of a driving module: a native transaction is accepted as pending with its point, or refused
with its result; a first chunk of a set is taken; a verified set is armed; a set in probation is armed for its return. -/
def Obligations.ChangeVerbsComplete : Prop :=
  ∀ (s : State) (h : VerbHdr) (x : Fin 4) (v : Sess), s.driving = true →
    (∀ (expGen : Word) (point : BitVec 64) (entries : List (BitVec 16 × Word)),
      let es := entries.map fun e => (e.1.toNat, e.2.toNat)
      s.Takes h x v vWriteParam 2 (beBytes 4 expGen.toNat ++ beBytes 8 point.toNat ++ beBytes 1 es.length ++ [0, 0, 0] ++
        (es.map fun e => beBytes 2 e.1 ++ [0, 0] ++ beBytes 4 e.2).flatten) →
      (s.nativeCheck false expGen.toNat point.toNat es = (0, 0) →
        s.Does (.writeParam h expGen point entries) fun t => s.Taken t h x v ∧ t.fbit Reg.CHG_STAT_NATIVE_PEND = true ∧
          t.fget Reg.NATIVE_RES_RESULT = gPending ∧ t.sram = s.sram ∧ (s.duplexNow = false → t.net.sent = s.net.sent) ∧
          ∃ n, t.chg.txn = some n ∧ n.entries = es ∧ n.sess = some x.val ∧
            n.point = (if point = 0 then gridAfter (s.time.dev + s.lead) else point.toNat)) ∧
      (∀ code i, s.nativeCheck false expGen.toNat point.toNat es = (code, i) → code ≠ 0 →
        s.Does (.writeParam h expGen point entries) fun t => s.Taken t h x v ∧ s.Replied t h x v vWriteParam rResult code [] ∧
          t.chg = s.chg ∧ t.sram = s.sram ∧ t.mram = s.mram)) ∧
    (∀ chunk : List Byte, s.Takes h x v vLoad 3 (beBytes 4 0 ++ beBytes 1 0 ++ [0, 0, 0] ++ chunk) → 12 ≤ chunk.length → chunk.length ≤ 1016 →
      s.chg.verify = false → s.chg.load = none →       s.Does (.loadProgram h 0 false chunk) fun t => s.Taken t h x v ∧ (∃ i, t.chg.load = some (i, chunk)) ∧ t.chg.verify = false ∧
        t.sram = s.sram ∧ (s.duplexNow = false → s.Replied t h x v vLoad rDone 0 [])) ∧
    (∀ (point : BitVec 64) i, s.Takes h x v vSwitch 3 (beBytes 8 point.toNat) → s.slotIn slVerified = some i → s.chg.load = none →
      s.chg.switchAt = none → s.pointOk 20000000 point.toNat = true →
      s.Does (.switchProgram h point) fun t => s.Taken t h x v ∧ t.chg.switchAt = some point.toNat ∧ t.chg.switchSess = some x.val ∧
        t.fget Reg.CHG_STAT_SWAP_STATE = 3 ∧ s.sameMramOutside t (slotBase i + 24) 8 ∧ t.sram = s.sram) ∧
    (∀ (point : BitVec 64) i, s.Takes h x v vRevert 3 (beBytes 8 point.toNat) → s.slotIn slProbation = some i → s.chg.revertAt = none →
      s.pointOk 20000000 point.toNat = true →
      s.Does (.revert h point) fun t => s.Taken t h x v ∧ t.chg.revertAt = some point.toNat ∧ t.chg.revertSess = some x.val ∧
        t.fget Reg.CHG_STAT_SWAP_STATE = 3 ∧ t.sram = s.sram ∧ t.mram = s.mram)

/-! ### Duplex operation (chapter 14) -/

/-- R393 to R397, R411, R414, R415. Claims: a standby claims at boot or takes over once `CLAIM_IN` has been absent for its time, and prepares the
dies after the settle time; an assertion of the peer's claim stops it or is recorded as a conflict; a conflict withdraws a claim, hands
over or stops the module; a claim is abandoned after 5 ms and lapses 1 ms after the last COMMIT; the release pulse and the claim gate
end. -/
def Obligations.ClaimsComplete : Prop :=
  ∀ s : State,
    let claims (t : State) (took : Bool) : Prop := t.dup.claimOut = true ∧ t.dup.claim = some (t.time.mono, took) ∧ t.dup.claimIn = false ∧
      t.fbit Reg.MODE_STAT_CLAIM_OUT = s.tap.vio ∧ t.mode = s.mode ∧ t.sram = s.sram
    let dropped (t : State) : Prop := t.dup.claimOut = false ∧ t.dup.claim = none ∧ t.fbit Reg.MODE_STAT_CLAIM_OUT = false
    (s.mayClaim false = true →
      s.Does .bootClaim fun t => claims t false ∧ (if s.dup.claimIn then s.time.mono else s.absentFor false) + 500000000 ≤ t.time.mono) ∧
    (s.mayClaim true = true → s.dup.peerSeen = true ∨ s.dup.claimIn = true →
      s.Does .takeover fun t => claims t true ∧ (if s.dup.claimIn then s.time.mono else s.absentFor true) + 500000 ≤ t.time.mono) ∧
    (∀ at_ took, s.dup.claim = some (at_, took) → s.mode = mStandby → s.dup.prep = none →
      (s.dup.claimIn = false →
        s.Does .claimSettle fun t => at_ + 250000 ≤ t.time.mono ∧ (∃ m, t.dup.prep = some m) ∧ t.dup.retry = none) ∧
      (s.dup.claimIn = false → took = true ∨ s.board.seatB = true →
        s.Does .claimInAssert fun t => dropped t ∧ t.dup.claimIn = true ∧ t.fbit Reg.MODE_STAT_CLAIM_IN = true ∧
          t = { s with regs := t.regs, dup := t.dup }) ∧
      (s.board.seatB = true → s.dup.claimIn = true → s.inReset = false →
        s.Does (.claimConflict false) fun t => dropped t ∧ s.dup.claimInAt + 1000000 ≤ t.time.mono ∧
          t = { s with time := t.time, power := t.power, regs := t.regs, dup := t.dup }) ∧
      (s.modeReq = none → s.room cCLAIM_ABANDONED →
        s.Does .claimAbandoned fun t => dropped t ∧ at_ + 5000000 ≤ t.time.mono ∧ t.dup.retry = some (took, t.time.mono) ∧
          s.Noted t cCLAIM_ABANDONED [] ∧ t = { s with time := t.time, power := t.power, regs := t.regs, dup := t.dup, cairn := t.cairn })) ∧
    (s.dup.claimIn = false → s.dup.claim = none → s.mode = mActive → s.board.seatB = false → s.room cCLAIM_CONFLICT_SEEN →
      s.Does .claimInAssert fun t => t.dup.claimOut = s.dup.claimOut ∧ t.dup.claimIn = true ∧ t.dup.claimInAt = s.time.mono ∧
        t.fbit Reg.DUP_FLAGS_CLAIM_CONFLICT_SEEN = true ∧ s.Noted t cCLAIM_CONFLICT_SEEN [] ∧
        t = { s with regs := t.regs, dup := t.dup, cairn := t.cairn }) ∧
    (s.board.seatB = true → s.dup.claimIn = true → s.inReset = false → s.power.crossAt = none → s.modeReq = none →
      (s.driving = true →
        s.Does (.claimConflict false) fun t => s.dup.claimInAt + 1000000 ≤ t.time.mono ∧ t.fget Reg.HANDOVER_LAST_CAUSE = 5 ∧
          t.modeReq = some { mode := mSafe, trig := 0x87, reason := 0x07, detail := 5 }) ∧
      (s.mode = mStandby →
        s.Does (.claimConflict true) fun t => s.dup.claimInAt + 2000000 ≤ t.time.mono ∧
          t.modeReq = some { mode := mSafe, trig := 0x8B, reason := 0x0B, detail := 0 })) ∧
    (s.driving = true → s.dup.claimOut = true →
      s.Does .claimLapse fun t => dropped t ∧ s.dup.commitAt + 1000000 ≤ t.time.mono ∧
        t = { s with time := t.time, power := t.power, regs := t.regs, dup := t.dup }) ∧
    (∀ at_, s.dup.relAt = some at_ →
      s.Does .peerReleaseEnd fun t => t.dup = { s.dup with relAt := none } ∧ t.fbit Reg.DUP_STAT_REL_OUT = false ∧
        at_ + s.topoN 0x0901 0 2 2 20 * 1000000 ≤ t.time.mono ∧ s.regsBut t [Reg.DUP_STAT_REL_OUT] ∧
        t = { s with time := t.time, power := t.power, regs := t.regs, dup := t.dup }) ∧
    (s.fbit Reg.DUP_STAT_CLAIM_GATED = true →
      s.Does .claimGateClear fun t => t.fbit Reg.DUP_STAT_CLAIM_GATED = false ∧ t.dup.claimIn = false ∧ t.dup.absentAt + 500000000 ≤ t.time.mono ∧
        t = { s with time := t.time, power := t.power, regs := t.regs, dup := t.dup })

/-- R398 to R402. The Rope link: it comes up with its sequence numbers at 0 and a measurement running, falls, runs on one lane and recovers; a
PROBE is echoed, an ECHO is measured, a NAK has its frame sent once more; a heartbeat goes out with the time, and one received makes the
peer present and compares images; the peer is lost after 1 ms without one. A damaged frame changes nothing and is answered with NAK; the second
NAK of one number gives the frame up. -/
def Obligations.RopeCompletes : Prop :=
  ∀ s : State,
    (∀ lat : BitVec 12, s.ropeUp = false → s.ropeLooped = false → s.inReset = false → s.mode ≠ mPark →
      s.Does (.ropeUp lat) fun t => t.ropeUp = true ∧ t.fget Reg.ROPE_LAT_LAT_NS = lat.toNat ∧ t.fget Reg.ROPE_LAT_LANE_LOCK = 3 ∧
        t.dup.rxSeq = 0 ∧ t.dup.measuring = true ∧ t.dup.stale = true ∧ t.fbit Reg.DUP_STAT_BELAY_OK = false ∧
        s.RopeSent t ((0x0C, leBytes 4 t.dup.tag) :: if s.mode = mStandby then [(0x03, [])] else []) ∧
        t = { s with regs := t.regs, dup := t.dup, net := t.net }) ∧
    (s.ropeUp = true →
      s.Does .ropeDown fun t => t.ropeUp = false ∧ t.fbit Reg.DUP_STAT_PRESENT = false ∧ t.fbit Reg.DUP_STAT_BELAY_OK = false ∧
        t.fbit Reg.DUP_FLAGS_ROPE_DOWN_SEEN = true ∧ t.dup.stale = true ∧ (s.chg.load = none → t.net = s.net) ∧ t.sram = s.sram) ∧
    (∀ lane : Fin 2, s.ropeUp = true →
      (s.dup.badLanes = 0 → s.room cROPE_DEGRADED →
        s.Does (.ropeDegraded lane) fun t => t.dup = { s.dup with badLanes := 2 ^ lane.val } ∧
          t.fget Reg.ROPE_LAT_LANE_LOCK = 3 - 2 ^ lane.val ∧ t.fbit Reg.DUP_STAT_ROPE_DEGRADED = true ∧
          s.Noted t cROPE_DEGRADED (leBytes 1 lane) ∧ t = { s with regs := t.regs, dup := t.dup, cairn := t.cairn }) ∧
      (s.dup.badLanes ≠ 0 → bit s.dup.badLanes lane = false →
        s.Does (.ropeDegraded lane) fun t => t.ropeUp = false ∧ t.fbit Reg.DUP_STAT_PRESENT = false ∧ (s.chg.load = none → t.net = s.net) ∧ t.sram = s.sram)) ∧
    (s.ropeUp = true →
      s.Does .ropeRestore fun t => t.dup = { s.dup with badLanes := 0 } ∧ t.fget Reg.ROPE_LAT_LANE_LOCK = 3 ∧
        t.fbit Reg.DUP_STAT_ROPE_DEGRADED = false ∧ s.regsBut t [Reg.ROPE_LAT_LANE_LOCK, Reg.DUP_STAT_ROPE_DEGRADED] ∧
        t = { s with regs := t.regs, dup := t.dup }) ∧
    (s.RopeOpen →
      (∀ (rx : Rx) (c : Instr), rx ≠ .ok →
        ((∃ f, c = .hb rx f) ∨ (∃ p, c = .belayDelta rx p) ∨ c = .belayReq rx ∨ (∃ g o b l, c = .belayFull rx g o b l) ∨
          (∃ b, c = .healthReport rx b) ∨ (∃ k p b, c = .change rx k p b) ∨ (∃ p r, c = .changeAck rx p r) ∨ (∃ n, c = .park rx n) ∨
          (∃ u y m, c = .cmpQuery rx u y m) ∨ (∃ u d y, c = .cmpVerdict rx u d y) ∨ (∃ q, c = .ropeNak rx q) ∨ (∃ q, c = .ropeProbe rx q) ∨
          (∃ r, c = .ropeEcho rx r) ∨ ∃ k d a b, c = .profile rx k d a b) →
        (s.dup.naked = false → s.Does c fun t => s.RopeSent t [(0x0B, leBytes 2 s.dup.rxSeq)] ∧ t.dup.rxSeq = s.dup.rxSeq ∧
          t.dup.naked = true ∧ t.fget Reg.ROPE_ERR_CRC_ERRORS = min 65535 (s.fget Reg.ROPE_ERR_CRC_ERRORS + 1) ∧
          s.regsBut t [Reg.ROPE_ERR_CRC_ERRORS] ∧ t = { s with regs := t.regs, dup := t.dup, net := t.net }) ∧
        (s.dup.naked = true → s.Does c fun t => t.dup.rxSeq = (s.dup.rxSeq + 1) % 65536 ∧ t.dup.naked = false ∧
          t.fget Reg.ROPE_ERR_CRC_ERRORS = min 65535 (s.fget Reg.ROPE_ERR_CRC_ERRORS + 1) ∧
          (∃ fs, s.RopeSent t ((0x0B, leBytes 2 s.dup.rxSeq) :: fs)) ∧ t = { s with regs := t.regs, dup := t.dup, net := t.net })) ∧
      (∀ tag : Word, s.Does (.ropeProbe .ok tag) fun t => s.RopeSent t [(0x0D, leBytes 4 tag.toNat)] ∧ t.dup.rxSeq = (s.dup.rxSeq + 1) % 65536 ∧
        t = { s with dup := t.dup, net := t.net }) ∧
      (∀ rtt, s.dup.measuring = true →
        (s.dup.rtts.length < 15 → s.Does (.ropeEcho .ok rtt) fun t => t.dup.rtts = rtt :: s.dup.rtts ∧
          s.RopeSent t [(0x0C, leBytes 4 ((s.dup.tag + 1) % 2 ^ 32))] ∧ t = { s with dup := t.dup, net := t.net }) ∧
        (15 ≤ s.dup.rtts.length → s.Does (.ropeEcho .ok rtt) fun t => t.dup.measuring = false ∧ t.dup.rtts = [] ∧
          t.fget Reg.ROPE_LAT_LAT_NS = clip 12 (((rtt :: s.dup.rtts).foldl (· + ·) 0 - 16 * 400) / 32) ∧ t.net = s.net ∧
          s.regsBut t [Reg.ROPE_LAT_LAT_NS] ∧ t = { s with regs := t.regs, dup := t.dup })) ∧
      (∀ (seq : BitVec 16) typ q p, s.dup.kept.find? (fun k => k.2.1 == seq.toNat) = some (typ, q, p) →
        (s.dup.resent.contains q = false → s.Does (.ropeNak .ok seq) fun t => s.RopeSent t [(typ, p)] ∧ t.dup.resent.contains q = true ∧
          t = { s with dup := t.dup, net := t.net }) ∧
        (s.dup.resent.contains q = true → s.Does (.ropeNak .ok seq) fun t => t.net = s.net ∧
          t.fget Reg.ROPE_ERR_DROPS = min 65535 (s.fget Reg.ROPE_ERR_DROPS + 1) ∧ t = { s with regs := t.regs, dup := t.dup })) ∧
      (s.Does .hbSend fun t => t.sram = s.sram ∧ t.mram = s.mram ∧ t.mode = s.mode ∧
        t.time.dev % 100000 = 0 ∧ ∃ p, s.RopeSent t [(0x01, p)] ∧ p.take 8 = leBytes 8 t.time.dev) ∧
      (∀ f : HbFrame, f.mode.toNat < 8 →
        s.Does (.hb .ok f) fun t => t.dup.hb = some f ∧ t.dup.hbAt = s.time.mono ∧ t.fget Reg.DUP_STAT_PEER_MODE = f.mode.toNat ∧
          t.fbit Reg.DUP_STAT_PRESENT = decide (f.mode.toNat ∈ [1, 2, 3]) ∧
          t.fbit Reg.DUP_STAT_IMAGE_SAME = (s.boot.image.isSome && f.lineage.toNat == s.imageId.1 && f.imgGen.toNat == s.imageId.2) ∧
          (s.mode = mStandby → f.mode = 2 → s.dup.firstHb = false →
            let err : Int := ((f.devTime + s.fget Reg.ROPE_LAT_LAT_NS : Nat) : Int) - s.time.dev
            t.time = { s.time with slew := err } ∧ t.fbit Reg.DUP_STAT_TIME_SYNC = decide (err.natAbs ≤ 1000)))) ∧
    (s.fbit Reg.DUP_STAT_PRESENT = true →
      s.Does .peerLost fun t => t.fbit Reg.DUP_STAT_PRESENT = false ∧ t.fbit Reg.MODE_STAT_DUPLEX = false ∧
        t.fbit Reg.DUP_FLAGS_PEER_LOST_SEEN = true ∧ s.dup.hbAt + 1000000 ≤ t.time.mono ∧ (s.chg.load = none → t.net = s.net) ∧ t.sram = s.sram)

/-- R69, R249, R406 to R409. The belay set at the standby and what the active module answers: a full set or a delta that follows is taken, one
that does not is asked for anew; a request is answered with a whole set; profiles are stored; a query waits for its task, and a verdict
or 100 ms without one resolves it; the alarm ends; the peer names the park commit. -/
def Obligations.BelayCompletes : Prop :=
  ∀ s : State, s.RopeOpen →
    let asked (t : State) : Prop := s.RopeSent t [(0x03, [])] ∧ t.dup.stale = true ∧ t.fbit Reg.DUP_STAT_BELAY_OK = false ∧ t.sram = s.sram
    (s.driving = true →
      s.Does (.belayReq .ok) fun t => t.fget Reg.BELAY_GEN_GEN = nextGen (s.fget Reg.BELAY_GEN_GEN) ∧ t.dup.manifest = [] ∧
        (∃ fs, fs ≠ [] ∧ s.RopeSent t fs ∧ ∀ f ∈ fs, f.1 = 0x04) ∧ t = { s with regs := t.regs, dup := t.dup, net := t.net }) ∧
    (∀ u : Task, ∀ (y : Word) (m : BitVec 256), s.driving = true →
      s.Does (.cmpQuery .ok u y m) fun t => (u.val, m.toNat, y.toNat) ∈ t.dup.asked ∧ t = { s with dup := t.dup }) ∧
    (s.mode = mStandby →
      (∀ p : List Byte, s.dup.stale = false → leAt p 4 4 = s.fget Reg.BELAY_GEN_GEN →
        s.Does (.belayDelta .ok p) fun t => t.fget Reg.BELAY_GEN_GEN = leAt p 0 4 ∧ t.fbit Reg.DUP_STAT_BELAY_OK = true ∧ t.dup.stale = false) ∧
      (∀ p : List Byte, s.dup.stale = true ∨ leAt p 4 4 ≠ s.fget Reg.BELAY_GEN_GEN → s.dup.full = none →
        s.Does (.belayDelta .ok p) fun t => asked t) ∧
      (∀ (g : Word) b, s.Does (.belayFull .ok g 0 b false) fun t => t.dup.full = some (g.toNat, b.length, mput 0 [] 0 b) ∧ t.net = s.net ∧
        t.sram = s.sram) ∧
      (∀ (g : Word) b, 4 ≤ b.length →
        s.Does (.belayFull .ok g 0 b true) fun t => t.fget Reg.BELAY_GEN_GEN = leAt b 0 4 ∧ t.fbit Reg.DUP_STAT_BELAY_OK = true ∧
          t.dup.stale = false ∧ t.dup.full = none ∧ t.dup.set = mput 0 [] 0 b) ∧
      (∀ (g : Word) o b l, o ≠ 0 → s.dup.full = none → s.Does (.belayFull .ok g o b l) fun t => asked t) ∧
      (∀ (k : DCh) (dir adapted : Bool) b,
        s.Does (.profile .ok k dir adapted b) fun t => bit (t.fget Reg.PROF_STAT_LEARNED) k = true ∧
          bit (t.link (chSlot k)).profDue (k.val % 4) = true ∧
          (∀ i, i < min 512 b.length → t.rd (0x980000 + k * 0x1000 + (if adapted then 0x400 else 0) + b2n dir * 0x200 + i) = b.getD i 0) ∧
          s.sameOutside t (0x980000 + k * 0x1000) 0x1000 ∧ t.mram = s.mram) ∧
      (∀ (u : Task) d (y : Word) y' at_, s.dup.query = some (u.val, y', at_) →
        (d = true ∨ (s.healthy && s.fbit Reg.DUP_STAT_PEER_HEALTHY) = false →
          s.Does (.cmpVerdict .ok u d y) fun t => t.dup = { s.dup with query := none, rxSeq := (s.dup.rxSeq + 1) % 65536, naked := false } ∧
            t = { s with dup := t.dup }) ∧
        (d = false → s.healthy = true → s.fbit Reg.DUP_STAT_PEER_HEALTHY = true →
          s.Does (.cmpVerdict .ok u d y) fun t => t.dup.query = none ∧ t.dup.resyncWait = true ∧ asked t ∧
            t = { s with regs := t.regs, dup := t.dup, net := t.net }) ∧
        s.Does .cmpVerdictTimeout fun t => t.dup.query = none ∧ t.dup.resyncWait = true ∧ asked t ∧ at_ + 100000000 ≤ t.time.mono) ∧
      (∀ n : BitVec 16,
        s.Does (.park .ok n) fun t => t.power.park = 3 ∧ t.power.parkNum < 65536 ∧ t = { s with power := t.power, dup := t.dup })) ∧
    (s.fbit Reg.DUP_FLAGS_CMP_ALARM = true →
      s.Does .resyncAlarmClear fun t => t.fbit Reg.DUP_FLAGS_CMP_ALARM = false ∧ t.fget Reg.CMP_STAT_RESYNC_HOUR = 0 ∧
        s.dup.resyncAt.headD 0 + 3600000000000 ≤ t.time.dev ∧ t.dup = { s.dup with resyncAt := [] } ∧
        t = { s with time := t.time, power := t.power, regs := t.regs, dup := t.dup })

/-- R184, R419 to R421. Health reports go out and are taken, or count as neither healthy nor ready where their CRC fails; the standby arms a
switch that the active module names and acknowledges it, and the acknowledgement is noted; a self-test that passes or fails sets its
bit. -/
def Obligations.HealthAndChangesComplete : Prop :=
  ∀ s : State,
    (s.RopeOpen →
      (s.Does .healthSend fun t => t.time.dev % 100000000 = 0 ∧ t.dup.hrSeq = (s.dup.hrSeq + 1) % 2 ^ 32 ∧ t.sram = s.sram ∧ t.mram = s.mram ∧ t.mode = s.mode ∧
        ∃ b, s.RopeSent t [(0x05, b)] ∧ b.length = 64) ∧
      (∀ b : List Byte, b.length = 64 → beAt b 62 2 = crc16 (b.take 62) →
        s.driving = false ∨ (∀ n ∈ satSlots, s.fbit (Reg.LINK_STAT_EXCLUDED n) = false) →
        s.Does (.healthReport .ok b) fun t => t.dup.hrAt = some s.time.mono ∧ t.fbit Reg.DUP_STAT_PEER_HEALTHY = bit (beAt b 2 2) 0 ∧
          t.fbit Reg.DUP_STAT_PEER_READY = bit (beAt b 2 2) 1 ∧ t.net = s.net ∧ t.sram = s.sram ∧ t.mram = s.mram) ∧
      (∀ b : List Byte, b.length ≠ 64 ∨ beAt b 62 2 ≠ crc16 (b.take 62) →
        s.Does (.healthReport .ok b) fun t => t.dup.hrAt = s.dup.hrAt ∧ t.fbit Reg.DUP_STAT_PEER_HEALTHY = false ∧
          t.fbit Reg.DUP_STAT_PEER_READY = false ∧ t.net = s.net ∧ t.sram = s.sram ∧ t.mram = s.mram) ∧
      (∀ (p : BitVec 64) i, s.mode = mStandby → p ≠ 0 → s.slotIn slVerified = some i → s.chg.load = none → s.chg.switchAt = none →
        s.pointOk namedLead p.toNat = true →
        s.Does (.change .ok 2 p []) fun t => t.chg.switchAt = some p.toNat ∧ t.chg.switchSess = none ∧
          t.fget Reg.SWAP_RES_RESULT = gPending ∧ s.RopeSent t [(0x07, beBytes 8 p.toNat ++ beBytes 1 gPending)] ∧ t.sram = s.sram) ∧
      (∀ p : BitVec 64, s.driving = true → p ≠ 0 → s.chg.switchAt = some p.toNat →
        s.time.dev + 10000000 ≤ samplePt p.toNat →
        s.Does (.changeAck .ok p (BitVec.ofNat 8 gPending)) fun t => t.chg.acked = true ∧ t.chg.switchAt = s.chg.switchAt ∧
          t = { s with chg := t.chg, dup := t.dup })) ∧
    (∀ pass, s.mode = mStandby →
      let told (t : State) (i : Nat) : Prop := bit t.dup.stFail i = (!pass) ∧ (∀ j, j ≠ i → bit t.dup.stFail j = bit s.dup.stFail j) ∧
        (pass = false → bit s.dup.stFail i = false → s.room cSELFTEST_FAIL → s.Noted t cSELFTEST_FAIL (leBytes 1 i)) ∧
        t = { s with regs := t.regs, dup := t.dup, cairn := t.cairn }
      (s.Does (.selftestMarch pass) fun t => told t 0) ∧ (s.Does (.selftestEthernet pass) fun t => told t 6) ∧
      ∀ (n : Slot) rtts, s.declared n = true → pass = !(rtts.isEmpty || latencyBad rtts) → (s.dup.stBad &&& 0xFF = 0 ∨ pass = false) →
        s.Does (.selftestLinkProbe n rtts) fun t => told t 7)

/-! ### Memory, the recorder and the Query Port (chapters 15 and 16) -/

/-- R429, R430, R432, R437, R446, R449, R455. Memory errors and the recorder: a corrected word is written back or was overwritten; a scrub pass
counts, and an uncorrectable word of the signal memory reads 0; a fill ends; a refresh renews the stamp of a corrected block; the record at
the head of the queue is written at the fill point; a token comes back; the operating count is saved. -/
def Obligations.MemoryCompletes : Prop :=
  ∀ s : State,
    (∀ (b : Fin 6) (addr : Word) (gone : Bool),
      let a := addr.toNat - addr.toNat % 8
      bankOf a = b.val → s.mem.wb.contains a = true →
      s.Does (.eccWriteback b addr gone) fun t => t.mem.wb.contains a = false ∧ (∀ x, x ≠ a → t.mem.wb.contains x = s.mem.wb.contains x) ∧
        t.mem.bad = (if gone then s.mem.bad.filter fun x => x != a else s.mem.bad) ∧ t = { s with mem := t.mem }) ∧
    (s.fbit Reg.MEM_FLAGS_CE_ALARM = true →
      s.Does .ceAlarmClear fun t => t.fbit Reg.MEM_FLAGS_CE_ALARM = false ∧
        overEnd (s.fget Reg.MEM_CFG2_CE_ALARM_LIM) s.mem.ceAt + 3600000000000 ≤ t.time.dev ∧ s.regsBut t [Reg.MEM_FLAGS_CE_ALARM] ∧
        t = { s with time := t.time, power := t.power, regs := t.regs }) ∧
    (s.mode ≠ mPark →
      let passed (t : State) : Prop := t.fget Reg.SCRUB_STAT_SCRUB_PASSES = (s.fget Reg.SCRUB_STAT_SCRUB_PASSES + 1) % 65536 ∧
        t.fbit Reg.MEM_STAT_SCRUB_BUSY = true ∧ t.mram = s.mram
      (s.Does (.scrub [] []) fun t => passed t ∧ t.sram = s.sram ∧ t.mem = s.mem) ∧
      (∀ w : Word, memMapped w.toNat = true → s.Does (.scrub [w] []) fun t => passed t ∧ t.mem.wb.contains (w.toNat - w.toNat % 8) = true ∧
        t.mem.ceCount = s.mem.ceCount + 1 ∧ t.sram = s.sram) ∧
      (∀ w : Word, 0x200000 ≤ w.toNat → w.toNat < 0x800000 → s.Does (.scrub [] [w]) fun t => passed t ∧
        (∀ i, i < 8 → t.rd (w.toNat - w.toNat % 8 + i) = 0) ∧ s.sameOutside t (w.toNat - w.toNat % 8) 8 ∧ t.fbit Reg.MEM_FLAGS_UE_SEEN = true)) ∧
    (∀ b : Fin 5, s.Does (.fillDone b) fun t => bit (t.fget Reg.MEM_STAT_FILL_BUSY) b = false ∧
      (∀ j : Fin 5, j ≠ b → bit (t.fget Reg.MEM_STAT_FILL_BUSY) j = bit (s.fget Reg.MEM_STAT_FILL_BUSY) j) ∧
      (bit (s.fget Reg.MEM_STAT_FILL_BUSY) b = true → s.mem.fillAt + fillNs b ≤ t.time.mono) ∧
      s.regsBut t [Reg.MEM_STAT_FILL_BUSY] ∧ t = { s with time := t.time, power := t.power, regs := t.regs }) ∧
    (∀ (addr : Word) (passEnd : Bool), s.mode ≠ mPark → s.mode ≠ mBoot → s.power.crossAt = none → s.refreshed addr.toNat = true →
      let told (t : State) : Prop := if passEnd then t.fget Reg.SCRUB_STAT_REFRESH_PASSES = (s.fget Reg.SCRUB_STAT_REFRESH_PASSES + 1) % 65536
        else t.fbit Reg.MEM_STAT_REFRESH_BUSY = true
      (s.Does (.refresh addr true passEnd) fun t => told t ∧ t.mrN (stampAt addr.toNat) 4 = s.opSec % 2 ^ 32 ∧
        s.sameMramOutside t (stampAt addr.toNat) 4 ∧ t.mem.wb.contains (addr.toNat - addr.toNat % 8) = true ∧ t.sram = s.sram) ∧
      (s.opSec ≤ s.mrN (stampAt addr.toNat) 4 + s.fget Reg.MEM_CFG2_REFRESH_D * 86400 →
        s.Does (.refresh addr false passEnd) fun t => told t ∧ t = { s with regs := t.regs })) ∧
    (∀ r q, s.mode ≠ mPark → (s.mode = mBoot → 10 ≤ s.boot.step) → s.cairn.queue = r :: q → s.fget Reg.CAIRN_STAT_FILL < 16319 →
      let at_ := cairnMain + 32 * s.fget Reg.CAIRN_STAT_FILL
      s.Does .cairnWrite fun t => t.cairn.queue = q ∧ t.fget Reg.CAIRN_STAT_FILL = s.fget Reg.CAIRN_STAT_FILL + 1 ∧
        mslice 0 t.mram at_ 32 = s.recBytes r ∧
        (∀ a, (a < at_ ∨ at_ + 32 ≤ a) → (a < cairnRing ∨ cairnRing + 64 * 32 ≤ a) → mget 0 t.mram a = mget 0 s.mram a) ∧ t.sram = s.sram) ∧
    (∀ code : BitVec 10, mget 0 s.cairn.spent code.toNat ≠ 0 →
      s.Does (.tokenRefill code) fun t => mget 0 t.cairn.spent code.toNat = mget 0 s.cairn.spent code.toNat - 1 ∧
        mget 0 s.cairn.since code.toNat + (s.rateOf code.toNat).2 * 1000000000 ≤ t.time.mono ∧
        t = { s with time := t.time, power := t.power, cairn := t.cairn } ∧ t.cairn.queue = s.cairn.queue) ∧
    (s.mode ≠ mPark → s.power.vlOk = true →
      s.Does .opCountSave fun t => t.mrN (hdrBase + 0x800) 6 = t.opCount % 2 ^ 48 ∧ t.power.opSaved = t.opSec ∧
        s.sameMramOutside t (hdrBase + 0x800) 6 ∧ t = { s with time := t.time, power := t.power, mram := t.mram })

/-- R464 to R467, R469, R470. The Query Port: a good submission takes the next ticket, a bad frame or an unknown command is rejected and
counted; a fetch carries the result; an acknowledgement frees the ticket; the status is carried by every transaction; a reset begins
and ends. -/
def Obligations.QueryPortCompletes : Prop :=
  ∀ s : State,
    let rejected (t : State) : Prop := t.qp.rejected = true ∧ t.qp.ticks = s.qp.ticks ∧ t.qp.issued = s.qp.issued ∧
      t.fget Reg.QP_CNT_FRAME_ERR = min 65535 (s.fget Reg.QP_CNT_FRAME_ERR + 1) ∧ s.regsBut t [Reg.QP_CNT_FRAME_ERR] ∧
      t = { s with regs := t.regs, qp := t.qp }
    let taken (t : State) (write : Bool) (addr len : Nat) (data : List Byte) : Prop :=
      t.qp.ticks.getLast? = some { num := s.qp.issued % 256, write, addr, len, data } ∧ t.qp.issued = s.qp.issued + 1 ∧ t.qp.rejected = false ∧
        t.qp.miso = s.qpStatus ∧ t.fget Reg.QP_STAT_NEXT_TICKET = (s.qp.issued + 1) % 256 ∧
        (∀ k ∈ s.qp.ticks, (s.qp.issued % 256 + 257 - k.num) % 256 ≤ 16 → k ∈ t.qp.ticks) ∧
        t = { s with regs := t.regs, qp := t.qp, links := t.links }
    (s.qpOn = true → s.Does .status fun t => t = { s with qp := { s.qp with miso := s.qpStatus } }) ∧
    (s.qpOn = true → s.qp.resetDue = false →
      (∀ (crc : BitVec 16) (addr : Word) (len : BitVec 16),
        let f : List Byte := [0x10, 0] ++ beBytes 4 addr.toNat ++ beBytes 2 len.toNat
        (crc16 f = crc.toNat → submitOk addr.toNat len.toNat = true →
          s.Does (.submitRead true crc addr len) fun t => taken t false addr.toNat len.toNat []) ∧
        (crc16 f ≠ crc.toNat ∨ submitOk addr.toNat len.toNat = false → s.Does (.submitRead true crc addr len) rejected)) ∧
      (∀ (crc : BitVec 16) (addr : Word) (len : BitVec 16) (data : List Byte), data.length = len.toNat →
        let f : List Byte := [0x11, 0] ++ beBytes 4 addr.toNat ++ beBytes 2 len.toNat ++ data
        (crc16 f = crc.toNat → submitOk addr.toNat len.toNat = true →
          s.Does (.submitWrite true crc addr len data) fun t => taken t true addr.toNat len.toNat data) ∧
        (crc16 f ≠ crc.toNat ∨ submitOk addr.toNat len.toNat = false → s.Does (.submitWrite true crc addr len data) rejected)) ∧
      (∀ c : Byte, c.toNat ∉ [0x10, 0x11, 0x20, 0x21, 0x30, 0xF0] → s.Does (.qpUnknownCommand c) rejected) ∧
      (∀ (ticket : Byte) (whole : Bool),
        s.Does (.fetch ticket whole) fun t => t.qp.miso = s.qpStatus ++ s.qpResult ticket.toNat ∧
          t.fget Reg.QP_CNT2_FETCHES = (s.fget Reg.QP_CNT2_FETCHES + 1) % 65536 ∧ t = { s with regs := t.regs, qp := t.qp } ∧
          (∀ k, s.qTick ticket.toNat = some k → k.res ≠ none → whole = true → t.qTick ticket.toNat = some { k with rep := true }) ∧
          (s.qTick ticket.toNat = none → t.qp.ticks = s.qp.ticks)) ∧
      (∀ (ticket : Byte) (crc : BitVec 16) k, s.qTick ticket.toNat = some k → k.res ≠ none → crc16 [0x21, ticket] = crc.toNat →
        s.Does (.qpAck ticket crc) fun t => t.qTick ticket.toNat = none ∧ (∀ j, j.num ≠ ticket.toNat → (j ∈ t.qp.ticks ↔ j ∈ s.qp.ticks)) ∧
          t.qp.miso = s.qpStatus ∧ t = { s with regs := t.regs, qp := t.qp })) ∧
    (∀ crc : BitVec 16, s.qpOn = true → crc16 ((0xF0 : Byte) :: beBytes 3 0x515052) = crc.toNat →
      s.Does (.qpReset 0x515052 crc) fun t => t = { s with qp := { s.qp with resetDue := true, miso := s.qpStatus } }) ∧
    (s.qp.resetDue = true →
      s.Does .qpResetDone fun t => t.qp = {} ∧ t.fbit Reg.QP_STAT_RESET_SEEN = true ∧ t.fget Reg.QP_STAT_LIVE = 0 ∧
        t.fget Reg.QP_CNT_SUBMITS = 0 ∧ t.fget Reg.QP_CNT_FRAME_ERR = 0 ∧ t = { s with regs := t.regs, qp := t.qp, links := t.links })

/-! ### Clocks, loop-backs and the test access port (chapter 17) -/

/-- R44, R60, R475, R476, R481, R482. Clocks and supplies: a lost reference or an unlocked PLL asks for SAFE with `CLOCK_FAIL` (the domain of a
lost reference is a free value); a failed crystal leaves the RC oscillator; the hold-up capacitance is measured at a cold boot; the claim
and release lands follow VIO. -/
def Obligations.ClocksComplete : Prop :=
  ∀ s : State,
    let fails (t : State) (d : Nat) : Prop := t.modeReq = some { mode := mSafe, trig := 0x88, reason := 0x08, detail := d }
    (s.driving = true → s.power.crossAt = none → s.modeReq = none →
      (s.Does .refclkLoss fun t => t.fbit Reg.CLK_STAT_REFCLK_OK = false ∧ t.fbit Reg.CLK_FLAGS_REFCLK_LOSS_SEEN = true ∧ (∃ d, fails t d) ∧
        t.mode = s.mode ∧
        ∀ n : Lsw, s.fitted (4 + n) = true → s.present (4 + n) = true → t.fbit (Reg.LSW_STAT_ON_LRC n) = true) ∧
      ∀ pll : Fin 8, s.Does (.pllUnlock pll) fun t => bit (t.fget Reg.CLK_STAT_PLL_LOCK) pll = false ∧
        t.fbit Reg.CLK_FLAGS_PLL_UNLOCK_SEEN = true ∧ fails t pll ∧ t.mode = s.mode) ∧
    (s.Does .xtalFail fun t => t.fbit Reg.CLK_STAT_XTAL_OK = false ∧ t.fbit Reg.CLK_STAT_ON_RC = true ∧ t.fbit Reg.CLK_FLAGS_XTAL_FAIL = true ∧
      s.regsBut t [Reg.CLK_STAT_XTAL_OK, Reg.CLK_STAT_ON_RC, Reg.CLK_FLAGS_XTAL_FAIL] ∧ t = { s with regs := t.regs }) ∧
    (∀ us : Nat, s.mode = mBoot → s.boot.cold = true →
      s.Does (.vhuMeasured us) fun t => t.fget Reg.VHU_CAP_CAP_UF = clip 12 (us * 3 / 80) ∧
        t.fbit Reg.VHU_CAP_VHU_WEAK = decide (us * 3 / 80 < 544) ∧ t.fbit Reg.VHU_CAP_MEASURED = true ∧
        s.regsBut t [Reg.VHU_CAP_CAP_UF, Reg.VHU_CAP_VHU_WEAK, Reg.VHU_CAP_MEASURED] ∧ t = { s with regs := t.regs }) ∧
    (∀ valid, s.Does (.ioSupplyValid true valid) fun t => t.tap.vioEth = valid ∧ t = { s with tap := { s.tap with vioEth := valid } }) ∧
    (∀ valid, s.Does (.ioSupplyValid false valid) fun t => t.tap.vio = valid ∧ t.fbit Reg.MODE_STAT_CLAIM_OUT = (s.dup.claimOut && valid) ∧
      t.fbit Reg.DUP_STAT_REL_OUT = (s.dup.relAt.isSome && valid) ∧ t = { s with regs := t.regs, tap := { s.tap with vio := valid } })

/-- R489, R490, Table 17.10. A loop-back request on any interface gets result 5 where the test is not provided, 3 where the mode does not
allow it, 4 where its channel is in the wrong state, and starts otherwise; a request while one runs changes only `LB_CTRL` (log entry 120
chose that); the test ends with its result. -/
def Obligations.LoopbacksComplete : Prop :=
  ∀ s : State,
    let asked (t : State) (iface depth num arg : Nat) : Prop :=
      t = { s with regs := t.regs, tap := t.tap } ∧ t.fget Reg.LB_CTRL_IFACE = iface ∧ t.fget Reg.LB_CTRL_DEPTH = depth ∧
      t.fget Reg.LB_CTRL_INST = num ∧ t.fget Reg.LB_CTRL_ARG = arg ∧
      let quiet := s.lbQuiet iface depth num
      if s.fbit Reg.LB_STAT_BUSY = true then t.tap = s.tap ∧ t.fget Reg.LB_STAT_RESULT = s.fget Reg.LB_STAT_RESULT
      else if lbProvided iface depth num = false then t.tap = s.tap ∧ t.fget Reg.LB_STAT_RESULT = 5
      else if s.mode ≠ mMaint ∧ ¬ (quiet = true ∧ s.mode ∈ [mStandby, mActive, mSafe]) then t.tap = s.tap ∧ t.fget Reg.LB_STAT_RESULT = 3
      else if s.lbState iface depth num arg = false then t.tap = s.tap ∧ t.fget Reg.LB_STAT_RESULT = 4
      else t.fbit Reg.LB_STAT_BUSY = true ∧ t.fget Reg.LB_STAT_RESULT = 0 ∧ t.tap = { s.tap with lb := some { iface, depth, num, quiet } }
    (∀ (d : BitVec 2) (n : Byte),
      (s.Does (.lbDieLink d n) fun t => asked t 1 d.toNat n.toNat 0) ∧ (s.Does (.lbRope d) fun t => asked t 2 d.toNat 0 0) ∧
      (s.Does (.lbEthernet d n) fun t => asked t 3 d.toNat n.toNat 0) ∧ (s.Does (.lbXspi d) fun t => asked t 4 d.toNat 0 0) ∧
      (s.Does (.lbQueryPort d) fun t => asked t 5 d.toNat 0 0) ∧ (s.Does (.lbDoorDrive d n) fun t => asked t 6 d.toNat n.toNat 0) ∧
      (s.Does (.lbDoorInputs d n) fun t => asked t 7 d.toNat n.toNat 0) ∧ (s.Does (.lbLoadChannel d n) fun t => asked t 8 d.toNat n.toNat 0) ∧
      ∀ a : Byte, s.Does (.lbFieldIo d n a) fun t => asked t 9 d.toNat n.toNat a.toNat) ∧
    (∀ pass (errors : BitVec 16), s.fbit Reg.LB_STAT_BUSY = true →
      s.Does (.loopbackDone pass errors) fun t => t.fget Reg.LB_STAT_RESULT = (if pass then 1 else 2) ∧
        t.fget Reg.LB_STAT_ERRORS = errors.toNat ∧ t.fbit Reg.LB_STAT_BUSY = false ∧ t.tap = { s.tap with lb := none } ∧
        s.regsBut t [Reg.LB_STAT_RESULT, Reg.LB_STAT_ERRORS, Reg.LB_STAT_BUSY] ∧ t = { s with regs := t.regs, tap := t.tap })

/-- R62, R491 to R493, Table 17.11. The test access port: a test instruction resets the control die with cause JTAG and holds it; any other one
selects its register and, after a test instruction, ends the hold with one more reset; SYSRESET resets; fuse fields are shown, and
programmed under the conditions of R493 alone. -/
def Obligations.TestPortCompletes : Prop :=
  ∀ s : State,
    let holds (t : State) (ir : Nat) (tdo : List Byte) : Prop := t.tap.ir = ir ∧ t.tap.tdo = tdo ∧ t.tap.held = true ∧ t.inReset = true ∧
      (s.tap.held = false → s.Restarted t 6) ∧ (s.tap.held = true → t = { s with tap := t.tap })
    let picks (t : State) (ir : Nat) : Prop := t.tap.ir = ir ∧ t.tap.held = false ∧
      (s.tap.held = true → s.Restarted t 6) ∧ (s.tap.held = false → t = { s with tap := t.tap })
    (∀ cells capture, (s.Does (.extest cells capture) fun t => holds t 0x00 capture ∧ t.tap.cells = cells) ∧
      s.Does (.samplePreload cells capture) fun t => picks t 0x01 ∧ t.tap.tdo = capture ∧ t.tap.cells = cells) ∧
    (s.Does .clamp fun t => holds t 0x03 [0]) ∧ (s.Does .highz fun t => holds t 0x04 [0]) ∧
    (∀ fail, s.Does (.mbistRun fail) fun t => holds t 0x40 (leBytes 1 fail.toNat)) ∧
    (∀ fail, s.Does (.lbistRun fail) fun t => holds t 0x41 (leBytes 1 fail.toNat)) ∧
    (s.board.fuses.prodLock = false → s.Does .scanTest fun t => holds t 0x50 []) ∧
    (s.board.fuses.prodLock = true → s.Does .scanTest fun t => picks t 0xFF ∧ t.tap.tdo = [0]) ∧
    (s.Does .bypass fun t => picks t 0xFF ∧ t.tap.tdo = [0]) ∧
    (s.Does .idcode fun t => picks t 0x02 ∧ t.tap.tdo = leBytes 4 (t.fget Reg.JTAG_ID_IDCODE)) ∧
    (s.Does .testLogicReset fun t => picks t 0x02 ∧ t.tap.tdo = leBytes 4 (t.fget Reg.JTAG_ID_IDCODE)) ∧
    (s.Does .fuseRead fun t => picks t 0x30 ∧ t.tap.tdo = s.board.fuses.shown) ∧
    (s.Does .sysreset fun t => s.Restarted t 6 ∧ t.tap.ir = 0x10 ∧ t.tap.held = false) ∧
    (∀ (field : Fin 6) value readBack vlOk, s.tap.held = false → s.inReset = false →
      let fuses := s.board.fuses
      let blank := if field.val < 4 then fuses.keyHash.getD field [] = [] else fuses.secret.getD (field - 4) [] = []
      let may := s.mode = mSafe ∧ s.fget Reg.SAFE_REASON_REASON = 0x01 ∧ vlOk = true ∧ blank
      (¬ may → s.Does (.fuseProg field value readBack vlOk) fun t => t.fget Reg.FUSE_STAT_FUSE_RESULT = 2 ∧
        s.regsBut t [Reg.FUSE_STAT_FUSE_RESULT] ∧ t = { s with regs := t.regs, tap := t.tap }) ∧
      (may → readBack = true → fuses.keyHash.length = 4 → fuses.secret.length = 2 →
        s.Does (.fuseProg field value readBack vlOk) fun t => t.fget Reg.FUSE_STAT_FUSE_RESULT = 1 ∧
          (field.val < 4 → t.board.fuses = { fuses with keyHash := fuses.keyHash.set field (bytes32 value) }) ∧
          (4 ≤ field.val → t.board.fuses = { fuses with secret := fuses.secret.set (field - 4) (bytes32 value) }) ∧
          t = { s with regs := t.regs, tap := t.tap, board := t.board }) ∧
      (may → readBack = false →
        s.Does (.fuseProg field value readBack vlOk) fun t => t.fget Reg.FUSE_STAT_FUSE_RESULT = 3 ∧
          (field.val < 4 → bit t.board.fuses.revoked field = true)))

/-- R6, R206, R207. Debug: an attach removes the module's binding and halts lane A; once halted, a step runs one instruction, whose writes go
into the debug write buffer alone; the registers of lane A are read and written; memory is read through the debug windows; the buffer is
read; a resume lets the lane run. A part with suffix L treats each as BYPASS. -/
def Obligations.DebugCompletes : Prop :=
  ∀ s : State, s.tap.held = false →
    let shut (c : Instr) : Prop := s.Does c fun t => t.tap.ir = 0xFF ∧ t.tap.tdo = [0] ∧ t = { s with tap := t.tap }
    (s.board.fuses.sufL = true →
      shut .dbgAttach ∧ shut .dbgHalt ∧ shut .dbgStep ∧ shut .dbgResume ∧ (∀ r w, shut (.dbgRegAccess r w)) ∧
        (∀ a w, shut (.dbgMemAccess a w)) ∧ ∀ i, shut (.dbgBufferRead i)) ∧
    (s.board.fuses.sufL = false → s.inReset = false →
      (s.fbit Reg.DEBUG_STAT_ATTACHED = false → bit s.liveLanes 0 = true → bit (s.fget Reg.VOTE_STAT_EXCLUDED) 0 = false →
        s.Does .dbgAttach fun t => t.tap.ir = 0x20 ∧ t.fbit Reg.DEBUG_STAT_ATTACHED = true ∧ t.fbit Reg.MODE_STAT_DEBUG_UNBOUND = true ∧
          t.fbit Reg.DEBUG_STAT_HALTED = true ∧ t.eng.dbgOut = true ∧ t.sram = s.sram ∧ t.mram = s.mram) ∧
      (s.fbit Reg.DEBUG_STAT_ATTACHED = true → s.eng.dbgOut = true →
        (s.Does .dbgHalt fun t => t.tap.ir = 0x21 ∧ t.fbit Reg.DEBUG_STAT_HALTED = true ∧ t.sram = s.sram ∧ t.mram = s.mram) ∧
        (s.fbit Reg.DEBUG_STAT_HALTED = true →
          (∀ a, s.dbgAct = some a →
            let at_ := progBase + 4 * ((mget ({} : Prog) s.eng.prog s.tap.task).base + s.tap.ctx.pc)
            let w := s.rdN at_ 4
            let op := w / 2 ^ 24
            let o : Opnd := { area := BitVec.ofNat 4 (w / 2 ^ 20), off := BitVec.ofNat 20 w, lit := BitVec.ofNat 32 (s.rdN (at_ + 4) 4) }
            let v : LaneView := ⟨{ s with tap := { s.tap with ir := 0x21, tdo := [] } }, s.tap.task, a, []⟩
            let refused := (laneReads op o v s.tap.ctx (laneFn op o v s.tap.ctx)).filter fun g => !s.allowed 2 g.1 g.2 false
            let r := laneFn op o (refused.foldl LaneView.blank v) s.tap.ctx
            s.Does .dbgStep fun t => t.tap.ctx = r.ctx ∧ t.eng.dbgBuf = (s.eng.dbgBuf ++ dbgWords r).take 64 ∧
              (refused = [] → t.cairn = s.cairn) ∧ (refused ≠ [] → s.fget Reg.PROT_STAT_VIOL_COUNT < t.fget Reg.PROT_STAT_VIOL_COUNT ∨
                s.fget Reg.PROT_STAT_VIOL_COUNT = 65535) ∧
              t = { s with regs := t.regs, live := t.live, cairn := t.cairn, tap := t.tap, eng := { s.eng with dbgBuf := t.eng.dbgBuf } }) ∧
          (s.Does .dbgResume fun t => t.fbit Reg.DEBUG_STAT_HALTED = false ∧ t.tap.ranFrom = s.time.mono ∧ t.tap.ctx = s.tap.ctx ∧
            s.regsBut t [Reg.DEBUG_STAT_HALTED] ∧ t = { s with regs := t.regs, tap := t.tap }) ∧
          (∀ r, s.Does (.dbgRegAccess r none) fun t => t.tap.tdo = leBytes 4 (dbgGet s.tap.ctx r).toNat ∧ t.tap.ctx = s.tap.ctx ∧
            t = { s with tap := t.tap }) ∧
          (∀ r w, s.Does (.dbgRegAccess r (some w)) fun t => t.tap.ctx = dbgSet s.tap.ctx w r ∧ t = { s with tap := t.tap }) ∧
          ∀ i : Fin 64, s.Does (.dbgBufferRead i) fun t => t = { s with tap := t.tap } ∧
            ∀ a w, s.eng.dbgBuf[i.val]? = some (a, w) → t.tap.tdo = leBytes 4 a ++ leBytes 4 w.toNat)) ∧
      (s.fbit Reg.DEBUG_STAT_ATTACHED = true → s.fbit Reg.PROT_STAT_PROT_LOCK = true →
        ∀ addr : Word, let a := addr.toNat - addr.toNat % 4
          (s.allowed 2 a 4 false = false → s.Does (.dbgMemAccess addr none) fun t => t.tap.tdo = leBytes 4 0 ++ leBytes 1 aProtected ∧
            t.sram = s.sram ∧ t.mram = s.mram) ∧
          (s.allowed 2 a 4 false = true → memMapped a = true → s.mem.bad.contains (a - a % 8) = false → opaqueStore a = false →
            s.fget Reg.MEM_STAT_FILL_BUSY = 0 →
            s.Does (.dbgMemAccess addr none) fun t => t = { s with tap := t.tap } ∧
              t.tap.tdo = leBytes 4 (leNat ((List.range 4).map fun i => s.extByte false (a + i))) ++ leBytes 1 aOk)) ∧
      (s.fbit Reg.DEBUG_STAT_ATTACHED = true → s.fbit Reg.PROT_STAT_PROT_LOCK = false →
        ∀ (addr : Word) w, s.Does (.dbgMemAccess addr w) fun t => t.tap.wait = s.tap.wait ++ [(addr.toNat, w)] ∧ t = { s with tap := t.tap }))

/-! ### The voter, and the block as a whole -/

/-- R193 to R196, R198, Table 7.2. With three lanes voting, one lane whose write events differ is outvoted, whatever instruction runs: memory
takes the majority's writes, both other lanes hold the majority's context, the lane is excluded and the minority event is flagged with
its class. With two lanes voting, or with no majority, a difference stops the engine: nothing of the instruction reaches memory, which
stands as the abandoned activations leave it (R163), and the block asks for SAFE. -/
def Obligations.VoterMasksOneLane : Prop :=
  ∀ (s : State) (t : Nat) (a : Act) (i : Instr) (l n : Nat) (ok : State → Nat → Bool) (f : LaneView → Ctx → LaneOut),
    exec i s = s.instr l n ok f noPost → ok s t = true →
    (∀ (c : Ctx) (z : Lane) (k : Nat), s.OneApart t a c z →
      let o := f (s.viewOf t a) c
      let bad := f ⟨s, t, a, s.eng.sbuf.getD z []⟩ (a.ctx.getD z {})
      diffClass o.evs bad.evs = some k →
      ∃ s', exec i s = .next s' ∧ s.Wrote s' o.wr ∧ s'.mram = s.mram ∧
        (∃ a', s'.act t = some a' ∧ ∀ y : Lane, y ≠ z → a'.ctx.getD y {} = o.ctx) ∧
        bit (s'.fget Reg.VOTE_STAT_EXCLUDED) z = true ∧ (∀ y : Lane, y ≠ z → bit (s'.fget Reg.VOTE_STAT_EXCLUDED) y = false) ∧
        s'.fbit Reg.VOTE_FLAGS_MINORITY = true ∧ s'.fget Reg.VOTE_STAT_LAST_CLASS = k % 16 ∧ s'.eng.frozen = false) ∧
    (s.laneState ≠ laneUnbound → s.running = true → s.eng.frozen = false → (t < 16 → s.checking = false) → s.eng.run.getD 0 none = some t → s.act t = some a →
      let evs (x : Nat) : List (Nat × Nat) := (f ⟨s, t, a, s.eng.sbuf.getD x []⟩ (a.ctx.getD x {})).evs
      (∃ x y, x < y ∧ lanesOf s.execMask = [x, y] ∧ s.votingMask = s.execMask ∧ (diffClass (evs x) (evs y)).isSome = true) ∨
        (s.execMask = 7 ∧ s.votingMask = 7 ∧ (diffClass (evs 0) (evs 1)).isSome = true ∧ (diffClass (evs 0) (evs 2)).isSome = true ∧
          (diffClass (evs 1) (evs 2)).isSome = true) →
      s.Does i fun s' => s'.eng.frozen = true ∧ s'.mram = s.mram ∧
        (s.modeReq = none → s'.sram = ((s.rollback s.actMask).qRestore s.actMask).sram) ∧
        (s.power.crossAt = none → s.modeReq = none → ∃ r, s'.modeReq = some r ∧ r.mode = mSafe ∧ (r.reason = 3 ∨ r.reason = 4)))

/-- R115, R142. A word that the verification of programs refuses does not run: the command answers a refusal. -/
def Obligations.RefusedWordsDoNotRun : Prop :=
  ∀ (s : State) (t : Nat) (a : Act) (c : Ctx) (l : Lane) (o : Opnd) (i : BitVec 11) (x : BitVec 10) (g : BitVec 18) (user : Byte)
    (lit : Word) (n : Ctl) (b : Buf), s.Agree t a c →
    let refused (p : Instr) : Prop := exec p s = .refused .illFormed
    (∀ p ∈ ([(0x01, .ld l o), (0x02, .ldn l o), (0x03, .and_ l o), (0x04, .andn l o), (0x05, .or_ l o), (0x06, .orn l o), (0x07, .xor_ l o),
        (0x10, .st l o), (0x11, .stn l o), (0x12, .set_ l o), (0x13, .rst l o), (0x14, .pe l o), (0x15, .ne l o)] : List (Nat × Instr)),
      opndOk p.1 o s t = false → refused p.2) ∧
    (∀ p ∈ ([(0x20, .ton l o), (0x21, .tof l o), (0x22, .tp l o), (0x30, .lw l o), (0x32, .sw l o), (0x33, .lwx l o), (0x34, .swx l o),
        (0x40, .add l o), (0x41, .sub l o), (0x42, .mul l o), (0x43, .div l o), (0x44, .mod l o)] : List (Nat × Instr)),
      opndOk p.1 o s t = false → refused p.2) ∧
    (∀ p ∈ ([(0x48, .cmpEq l o), (0x49, .cmpNe l o), (0x4A, .cmpLt l o), (0x4B, .cmpLe l o), (0x4C, .cmpGt l o), (0x4D, .cmpGe l o),
        (0x50, .limit l o), (0x51, .scl l o), (0x52, .movb l o), (0x58, .atadd l o), (0x59, .atswp l o)] : List (Nat × Instr)),
      opndOk p.1 o s t = false → refused p.2) ∧
    (∀ p ∈ ([(0x08, .ab l), (0x09, .ob l), (0x0A, .be l), (0x35, .lix l), (0x74, .ret l), (0x7F, .endAct l)] : List (Nat × Instr)),
      wordOk p.1 0 0 s t = false → refused p.2) ∧
    (wordOk 0x31 0 0 s t = false → refused (.lwk l lit)) ∧
    (∀ p ∈ ([(0x24, 0, .ctu l i), (0x25, 0, .ctd l i), (0x26, 0, .ctud l i), (0x24, 0x800, .ctuR l i), (0x25, 0x1000, .ctdL l i),
        (0x26, 0x800, .ctudR l i), (0x26, 0x1000, .ctudL l i), (0x26, 0x1800, .ctudD l i)] : List (Nat × Nat × Instr)),
      wordOk p.1 5 (p.2.1 + i.toNat) s t = false → refused p.2.2) ∧
    (∀ p ∈ ([(0x60, .xlock l x), (0x61, .xfree l x)] : List (Nat × Instr)), wordOk p.1 9 (x.toNat * 1024) s t = false → refused p.2) ∧
    (∀ p ∈ ([(bufObj (n.val * 64 + b.val), .xreqTransmit l n b), (bufObj (n.val * 64 + b.val), .xreqCancel l n b),
        (0x010 + n.val, .xreqRecover l n), (0x010 + n.val, .xreqReset l n), (0, .xreqPark l)] : List (Nat × Instr)),
      wordOk 0x62 9 (p.1 * 1024) s t = false → refused p.2) ∧
    (∀ p ∈ ([(0x68, 0, .warn l user), (0x69, 0, .faultI l user false), (0x69, 256, .faultI l user true)] : List (Nat × Nat × Instr)),
      wordOk p.1 0 (user.toNat + p.2.1) s t = false → refused p.2.2) ∧
    ∀ p ∈ ([(0x70, .jmp l g), (0x71, .jc l g), (0x72, .jnc l g), (0x73, .call l g)] : List (Nat × Instr)),
      wordOk p.1 0 g.toNat s t = false → refused p.2

/-- R12, R13. Whatever the fields of a register, as long as they share no bit: a bit outside all of them reads 0, and neither a write nor a
read changes it; a bit of a read-only field changes by neither; a `W1C` bit falls where 1 is written; an `RC` bit falls at a read. -/
def Obligations.RegisterBitsFollowTheirAccess : Prop :=
  ∀ (fs : List FieldRow) (v w j : Nat),
    (∀ f ∈ fs, f.lo ≤ f.hi) → fs.Pairwise (fun f g => f.hi < g.lo ∨ g.hi < f.lo) →
    ((∀ f ∈ fs, j < f.lo ∨ f.hi < j) →
      (readValue fs v).testBit j = false ∧ (afterWrite fs v w).testBit j = v.testBit j ∧ (afterRead fs v).testBit j = v.testBit j) ∧
    ∀ f ∈ fs, f.lo ≤ j → j ≤ f.hi →
      (readValue fs v).testBit j = (v.testBit j && f.acc != .wo) ∧
      (afterWrite fs v w).testBit j = (match f.acc with
        | .rw => w.testBit j
        | .w1c => v.testBit j && !w.testBit j
        | _ => v.testBit j) ∧
      (afterRead fs v).testBit j = (v.testBit j && f.acc != .rc)

/-- The step takes the command at the front of the queue and runs it with the queue's rest. On an empty queue the block idles for one cycle of
CLK_PTP, 4 ns (the model's choice; log entry 2). -/
def Obligations.StepRunsTheFront : Prop :=
  ∀ (s : State),
    (∀ (c : Instr) (rest : List Instr), s.pending = c :: rest → step s = exec c { s with pending := rest }) ∧
    (s.pending = [] → ∃ t, step s = .next t ∧ t.pending = [] ∧ t.time.mono = s.time.mono + 4 ∧ t.sram = s.sram ∧ t.mram = s.mram ∧
      t.eng = s.eng ∧ t.mode = s.mode)

/-- R62, R97, Table 2.7. After power-on: the boot ROM runs step 1 of a cold boot in BOOT, the cause is `POR`, no command waits, no link is up and
no die admitted, the engine holds nothing, and both memories are in canonical form. -/
def Obligations.ResetIsInBoot : Prop :=
  let s := State.reset
  s.mode = mBoot ∧ s.boot.step = 1 ∧ s.boot.cold = true ∧ s.fget Reg.RESET_CAUSE_CAUSE = 1 ∧ s.pending = [] ∧ s.eng = {} ∧ s.memOk = true ∧
    (∀ n : Slot, s.linkIsUp n = false ∧ s.admitted n = false) ∧ s.modeReq = none ∧ s.inReset = false

/-- No command looks at or changes the queue of the commands that wait behind it. -/
def Obligations.CommandsLeaveTheQueue : Prop :=
  ∀ (c : Instr) (s t : State), exec c s = .next t → t.pending = s.pending

/-- R425, R434. Every step keeps both memories in canonical form, so that equal memories are equal data. -/
def Obligations.StepKeepsTheMemoriesCanonical : Prop :=
  ∀ s t : State, s.memOk = true → step s = .next t → t.memOk = true

/-- R6, R83, R91, R493. No step un-blows a fuse: a revoked key slot stays revoked, a programmed key hash or secret is never programmed again, and
the production lock, the suffix fuse, the trims and the serial number are as they were. Nor does any step write the flash, or change
anything else that the build and the board fix, but the seat strap read at power-on. -/
def Obligations.FusesStayBlown : Prop :=
  ∀ s t : State, step s = .next t →
    let f := s.board.fuses
    let g := t.board.fuses
    (∀ k, bit f.revoked k = true → bit g.revoked k = true) ∧ (∀ k, f.keyHash.getD k [] ≠ [] → g.keyHash.getD k [] = f.keyHash.getD k []) ∧
      (∀ k, f.secret.getD k [] ≠ [] → g.secret.getD k [] = f.secret.getD k []) ∧ g.prodLock = f.prodLock ∧ g.sufL = f.sufL ∧
      g.trims = f.trims ∧ g.serial = f.serial ∧ g.macBase = f.macBase ∧ g.spares = f.spares ∧
      t.board = { s.board with seatB := t.board.seatB, fuses := g }
end

