-- ==== Sys2Proof/Laws/Sparse.lean ====
section
/-! SUPPORT. Laws of the sparse maps: a read after a write gives the value written and every other address as before, on any map;
every operation keeps the canonical form. -/

namespace Sys2Proof.Machine

variable {α : Type} [DecidableEq α] {d v : α} {m : List (Nat × α)} {k j lo n : Nat}

/-! ### Reading -/

@[simp] theorem mget_nil (d : α) (k : Nat) : mget d [] k = d := rfl

omit [DecidableEq α] in
theorem mget_mdel_same : mget d (mdel k m) k = d := by
  induction m with
  | nil => rfl
  | cons p t ih =>
    by_cases h : p.1 = k
    · simp [mdel, h, ih]
    · simp [mdel, mget, h, ih]

omit [DecidableEq α] in
theorem mget_mdel_other (h : j ≠ k) : mget d (mdel k m) j = mget d m j := by
  induction m with
  | nil => rfl
  | cons p t ih =>
    by_cases hk : p.1 = k
    · have : p.1 ≠ j := fun e => h (e ▸ hk)
      simp [mdel, mget, hk, ih, hk ▸ this]
    · simp only [mdel, hk, if_false, mget, ih]

theorem mget_mcons_same (h : mget d m k = d) : mget d (mcons d k v m) k = v := by
  unfold mcons
  split <;> simp_all [mget]

theorem mget_mcons_other (h : j ≠ k) : mget d (mcons d k v m) j = mget d m j := by
  unfold mcons
  split
  · rfl
  · simp [mget, h.symm]

@[simp] theorem mget_mset_same : mget d (mset d m k v) k = v := by
  induction m with
  | nil => exact mget_mcons_same rfl
  | cons p t ih =>
    obtain ⟨a, w⟩ := p
    unfold mset
    split
    · exact mget_mcons_same (by rw [mget, if_neg (by omega)]; exact mget_mdel_same)
    · split
      · exact mget_mcons_same mget_mdel_same
      · rw [mget, if_neg (fun e => by omega)]
        exact ih

theorem mget_mset_other (h : j ≠ k) : mget d (mset d m k v) j = mget d m j := by
  induction m with
  | nil => exact mget_mcons_other h
  | cons p t ih =>
    obtain ⟨a, w⟩ := p
    unfold mset
    split
    · rw [mget_mcons_other h]
      simp only [mget, mget_mdel_other h]
    · split
      · rename_i hka
        rw [mget_mcons_other h, mget_mdel_other h, mget, if_neg (fun e => h (by omega))]
      · simp only [mget, ih]

/-- A read after a write. -/
theorem mget_mset : mget d (mset d m k v) j = if j = k then v else mget d m j := by
  split
  · next h => rw [h, mget_mset_same]
  · next h => exact mget_mset_other h

omit [DecidableEq α] in
/-- A read after a clear. -/
theorem mget_mclear : mget d (mclear lo n m) k = if lo ≤ k ∧ k < lo + n then d else mget d m k := by
  induction m with
  | nil => simp [mclear]
  | cons p t ih =>
    obtain ⟨a, w⟩ := p
    unfold mclear at ih ⊢
    simp only [List.filter_cons]
    by_cases hk : a = k
    · subst hk
      split <;> split <;> simp_all [mget] <;> omega
    · split <;> simp [mget, hk, ih]

/-- A read outside a run of written bytes. -/
theorem mget_mput_outside {vs : List α} {a : Nat} (h : k < a ∨ a + vs.length ≤ k) : mget d (mput d m a vs) k = mget d m k := by
  induction vs generalizing m a with
  | nil => rfl
  | cons w vs ih =>
    simp only [List.length_cons] at h
    rw [mput, ih (by omega), mget_mset_other (by omega)]

/-- A read inside a run of written bytes. -/
theorem mget_mput_inside {vs : List α} {a i : Nat} (h : i < vs.length) : mget d (mput d m a vs) (a + i) = vs[i] := by
  induction vs generalizing m a i with
  | nil => simp at h
  | cons w vs ih =>
    cases i with
    | zero => rw [mput, mget_mput_outside (by omega)]; simp
    | succ i =>
      rw [mput, show a + (i + 1) = a + 1 + i by omega, ih (by simpa using h)]
      simp

@[simp] theorem mslice_length {a : Nat} : (mslice d m a n).length = n := by
  induction n generalizing a with
  | zero => rfl
  | succ n ih => simp [mslice, ih]

/-- A read of a run of written bytes gives them back. -/
theorem mslice_mput {vs : List α} {a : Nat} : mslice d (mput d m a vs) a vs.length = vs := by
  induction vs generalizing m a with
  | nil => rfl
  | cons w vs ih =>
    rw [List.length_cons, mslice, mput, ih, mget_mput_outside (by omega)]
    simp

/-! ### The canonical form -/

theorem mokFrom_mono {hi : Nat} (h : lo ≤ hi) (hm : mokFrom d hi m = true) : mokFrom d lo m = true := by
  cases m with
  | nil => rfl
  | cons p t =>
    simp only [mokFrom, Bool.and_eq_true, decide_eq_true_eq] at hm ⊢
    exact ⟨by omega, hm.2⟩

theorem mokFrom_filter (p : Nat × α → Bool) (hm : mokFrom d lo m = true) : mokFrom d lo (m.filter p) = true := by
  induction m generalizing lo with
  | nil => rfl
  | cons q t ih =>
    simp only [mokFrom, Bool.and_eq_true, decide_eq_true_eq] at hm
    rw [List.filter_cons]
    split
    · simp only [mokFrom, Bool.and_eq_true, decide_eq_true_eq]
      exact ⟨hm.1, hm.2.1, ih hm.2.2⟩
    · exact ih (mokFrom_mono (by omega) hm.2.2)

theorem mdel_eq_filter (k : Nat) (m : List (Nat × α)) : mdel k m = m.filter fun p => decide (p.1 ≠ k) := by
  induction m with
  | nil => rfl
  | cons p t ih => by_cases h : p.1 = k <;> simp [mdel, h, ih]

theorem mokFrom_mcons (hk : lo ≤ k) (hm : mokFrom d (k + 1) m = true) : mokFrom d lo (mcons d k v m) = true := by
  unfold mcons
  split
  · exact mokFrom_mono (by omega) hm
  · simp [mokFrom, *]

theorem mokFrom_mset (hk : lo ≤ k) (hm : mokFrom d lo m = true) : mokFrom d lo (mset d m k v) = true := by
  induction m generalizing lo with
  | nil => exact mokFrom_mcons hk rfl
  | cons p t ih =>
    obtain ⟨a, w⟩ := p
    simp only [mokFrom, Bool.and_eq_true, decide_eq_true_eq] at hm
    have hdel : mokFrom d (a + 1) (mdel k t) = true := mdel_eq_filter k t ▸ mokFrom_filter _ hm.2.2
    unfold mset
    split
    · refine mokFrom_mcons hk ?_
      simp only [mokFrom, Bool.and_eq_true, decide_eq_true_eq]
      exact ⟨by omega, hm.2.1, hdel⟩
    · split
      · next h => exact mokFrom_mcons hk (h ▸ hdel)
      · simp only [mokFrom, Bool.and_eq_true, decide_eq_true_eq]
        exact ⟨hm.1, hm.2.1, ih (by omega) hm.2.2⟩

/-- A write keeps the canonical form. -/
theorem mok_mset (hm : mok d m = true) : mok d (mset d m k v) = true := mokFrom_mset (Nat.zero_le k) hm

/-- A run of writes keeps the canonical form. -/
theorem mok_mput {vs : List α} {a : Nat} (hm : mok d m = true) : mok d (mput d m a vs) = true := by
  induction vs generalizing m a with
  | nil => exact hm
  | cons w vs ih => exact ih (mok_mset hm)

/-- A clear keeps the canonical form. -/
theorem mok_mclear (hm : mok d m = true) : mok d (mclear lo n m) = true := mokFrom_filter _ hm

/-- A filter keeps the canonical form. -/
theorem mok_filter {p : Nat × α → Bool} (hm : mok d m = true) : mok d (m.filter p) = true := mokFrom_filter p hm

end Sys2Proof.Machine
end

