-- ==== Sys2Proof/Laws/State.lean ====
section
/-! SUPPORT. Laws of the named operations on the state: what each leaves alone, field by field, and what a read of a register, of memory
or of a part gives after a write. -/

namespace Sys2Proof.Machine

variable (s : State)

/-! ### `fset` changes only `regs`. -/

@[simp] theorem State.fset_pending (f : Fld) (v : Nat) : (s.fset f v).pending = s.pending := rfl
@[simp] theorem State.fset_free (f : Fld) (v : Nat) : (s.fset f v).free = s.free := rfl
@[simp] theorem State.fset_time (f : Fld) (v : Nat) : (s.fset f v).time = s.time := rfl
@[simp] theorem State.fset_board (f : Fld) (v : Nat) : (s.fset f v).board = s.board := rfl
@[simp] theorem State.fset_live (f : Fld) (v : Nat) : (s.fset f v).live = s.live := rfl
@[simp] theorem State.fset_capt (f : Fld) (v : Nat) : (s.fset f v).capt = s.capt := rfl
@[simp] theorem State.fset_sram (f : Fld) (v : Nat) : (s.fset f v).sram = s.sram := rfl
@[simp] theorem State.fset_mram (f : Fld) (v : Nat) : (s.fset f v).mram = s.mram := rfl
@[simp] theorem State.fset_boot (f : Fld) (v : Nat) : (s.fset f v).boot = s.boot := rfl
@[simp] theorem State.fset_power (f : Fld) (v : Nat) : (s.fset f v).power = s.power := rfl
@[simp] theorem State.fset_modeReq (f : Fld) (v : Nat) : (s.fset f v).modeReq = s.modeReq := rfl
@[simp] theorem State.fset_cairn (f : Fld) (v : Nat) : (s.fset f v).cairn = s.cairn := rfl
@[simp] theorem State.fset_ledger (f : Fld) (v : Nat) : (s.fset f v).ledger = s.ledger := rfl
@[simp] theorem State.fset_links (f : Fld) (v : Nat) : (s.fset f v).links = s.links := rfl
@[simp] theorem State.fset_sats (f : Fld) (v : Nat) : (s.fset f v).sats = s.sats := rfl
@[simp] theorem State.fset_eng (f : Fld) (v : Nat) : (s.fset f v).eng = s.eng := rfl
@[simp] theorem State.fset_chg (f : Fld) (v : Nat) : (s.fset f v).chg = s.chg := rfl
@[simp] theorem State.fset_ctls (f : Fld) (v : Nat) : (s.fset f v).ctls = s.ctls := rfl
@[simp] theorem State.fset_bufs (f : Fld) (v : Nat) : (s.fset f v).bufs = s.bufs := rfl
@[simp] theorem State.fset_cimg (f : Fld) (v : Nat) : (s.fset f v).cimg = s.cimg := rfl
@[simp] theorem State.fset_cnext (f : Fld) (v : Nat) : (s.fset f v).cnext = s.cnext := rfl
@[simp] theorem State.fset_doors (f : Fld) (v : Nat) : (s.fset f v).doors = s.doors := rfl
@[simp] theorem State.fset_ddies (f : Fld) (v : Nat) : (s.fset f v).ddies = s.ddies := rfl
@[simp] theorem State.fset_loads (f : Fld) (v : Nat) : (s.fset f v).loads = s.loads := rfl
@[simp] theorem State.fset_ldies (f : Fld) (v : Nat) : (s.fset f v).ldies = s.ldies := rfl
@[simp] theorem State.fset_fields (f : Fld) (v : Nat) : (s.fset f v).fields = s.fields := rfl
@[simp] theorem State.fset_net (f : Fld) (v : Nat) : (s.fset f v).net = s.net := rfl
@[simp] theorem State.fset_il (f : Fld) (v : Nat) : (s.fset f v).il = s.il := rfl
@[simp] theorem State.fset_dup (f : Fld) (v : Nat) : (s.fset f v).dup = s.dup := rfl
@[simp] theorem State.fset_mem (f : Fld) (v : Nat) : (s.fset f v).mem = s.mem := rfl
@[simp] theorem State.fset_qp (f : Fld) (v : Nat) : (s.fset f v).qp = s.qp := rfl
@[simp] theorem State.fset_reads (f : Fld) (v : Nat) : (s.fset f v).reads = s.reads := rfl
@[simp] theorem State.fset_tap (f : Fld) (v : Nat) : (s.fset f v).tap = s.tap := rfl

/-! ### `fput` changes only `regs`. -/

@[simp] theorem State.fput_pending (f : Fld) (b : Bool) : (s.fput f b).pending = s.pending := rfl
@[simp] theorem State.fput_free (f : Fld) (b : Bool) : (s.fput f b).free = s.free := rfl
@[simp] theorem State.fput_time (f : Fld) (b : Bool) : (s.fput f b).time = s.time := rfl
@[simp] theorem State.fput_board (f : Fld) (b : Bool) : (s.fput f b).board = s.board := rfl
@[simp] theorem State.fput_live (f : Fld) (b : Bool) : (s.fput f b).live = s.live := rfl
@[simp] theorem State.fput_capt (f : Fld) (b : Bool) : (s.fput f b).capt = s.capt := rfl
@[simp] theorem State.fput_sram (f : Fld) (b : Bool) : (s.fput f b).sram = s.sram := rfl
@[simp] theorem State.fput_mram (f : Fld) (b : Bool) : (s.fput f b).mram = s.mram := rfl
@[simp] theorem State.fput_boot (f : Fld) (b : Bool) : (s.fput f b).boot = s.boot := rfl
@[simp] theorem State.fput_power (f : Fld) (b : Bool) : (s.fput f b).power = s.power := rfl
@[simp] theorem State.fput_modeReq (f : Fld) (b : Bool) : (s.fput f b).modeReq = s.modeReq := rfl
@[simp] theorem State.fput_cairn (f : Fld) (b : Bool) : (s.fput f b).cairn = s.cairn := rfl
@[simp] theorem State.fput_ledger (f : Fld) (b : Bool) : (s.fput f b).ledger = s.ledger := rfl
@[simp] theorem State.fput_links (f : Fld) (b : Bool) : (s.fput f b).links = s.links := rfl
@[simp] theorem State.fput_sats (f : Fld) (b : Bool) : (s.fput f b).sats = s.sats := rfl
@[simp] theorem State.fput_eng (f : Fld) (b : Bool) : (s.fput f b).eng = s.eng := rfl
@[simp] theorem State.fput_chg (f : Fld) (b : Bool) : (s.fput f b).chg = s.chg := rfl
@[simp] theorem State.fput_ctls (f : Fld) (b : Bool) : (s.fput f b).ctls = s.ctls := rfl
@[simp] theorem State.fput_bufs (f : Fld) (b : Bool) : (s.fput f b).bufs = s.bufs := rfl
@[simp] theorem State.fput_cimg (f : Fld) (b : Bool) : (s.fput f b).cimg = s.cimg := rfl
@[simp] theorem State.fput_cnext (f : Fld) (b : Bool) : (s.fput f b).cnext = s.cnext := rfl
@[simp] theorem State.fput_doors (f : Fld) (b : Bool) : (s.fput f b).doors = s.doors := rfl
@[simp] theorem State.fput_ddies (f : Fld) (b : Bool) : (s.fput f b).ddies = s.ddies := rfl
@[simp] theorem State.fput_loads (f : Fld) (b : Bool) : (s.fput f b).loads = s.loads := rfl
@[simp] theorem State.fput_ldies (f : Fld) (b : Bool) : (s.fput f b).ldies = s.ldies := rfl
@[simp] theorem State.fput_fields (f : Fld) (b : Bool) : (s.fput f b).fields = s.fields := rfl
@[simp] theorem State.fput_net (f : Fld) (b : Bool) : (s.fput f b).net = s.net := rfl
@[simp] theorem State.fput_il (f : Fld) (b : Bool) : (s.fput f b).il = s.il := rfl
@[simp] theorem State.fput_dup (f : Fld) (b : Bool) : (s.fput f b).dup = s.dup := rfl
@[simp] theorem State.fput_mem (f : Fld) (b : Bool) : (s.fput f b).mem = s.mem := rfl
@[simp] theorem State.fput_qp (f : Fld) (b : Bool) : (s.fput f b).qp = s.qp := rfl
@[simp] theorem State.fput_reads (f : Fld) (b : Bool) : (s.fput f b).reads = s.reads := rfl
@[simp] theorem State.fput_tap (f : Fld) (b : Bool) : (s.fput f b).tap = s.tap := rfl

/-! ### `fon` changes only `regs`. -/

@[simp] theorem State.fon_pending (f : Fld) : (s.fon f).pending = s.pending := rfl
@[simp] theorem State.fon_free (f : Fld) : (s.fon f).free = s.free := rfl
@[simp] theorem State.fon_time (f : Fld) : (s.fon f).time = s.time := rfl
@[simp] theorem State.fon_board (f : Fld) : (s.fon f).board = s.board := rfl
@[simp] theorem State.fon_live (f : Fld) : (s.fon f).live = s.live := rfl
@[simp] theorem State.fon_capt (f : Fld) : (s.fon f).capt = s.capt := rfl
@[simp] theorem State.fon_sram (f : Fld) : (s.fon f).sram = s.sram := rfl
@[simp] theorem State.fon_mram (f : Fld) : (s.fon f).mram = s.mram := rfl
@[simp] theorem State.fon_boot (f : Fld) : (s.fon f).boot = s.boot := rfl
@[simp] theorem State.fon_power (f : Fld) : (s.fon f).power = s.power := rfl
@[simp] theorem State.fon_modeReq (f : Fld) : (s.fon f).modeReq = s.modeReq := rfl
@[simp] theorem State.fon_cairn (f : Fld) : (s.fon f).cairn = s.cairn := rfl
@[simp] theorem State.fon_ledger (f : Fld) : (s.fon f).ledger = s.ledger := rfl
@[simp] theorem State.fon_links (f : Fld) : (s.fon f).links = s.links := rfl
@[simp] theorem State.fon_sats (f : Fld) : (s.fon f).sats = s.sats := rfl
@[simp] theorem State.fon_eng (f : Fld) : (s.fon f).eng = s.eng := rfl
@[simp] theorem State.fon_chg (f : Fld) : (s.fon f).chg = s.chg := rfl
@[simp] theorem State.fon_ctls (f : Fld) : (s.fon f).ctls = s.ctls := rfl
@[simp] theorem State.fon_bufs (f : Fld) : (s.fon f).bufs = s.bufs := rfl
@[simp] theorem State.fon_cimg (f : Fld) : (s.fon f).cimg = s.cimg := rfl
@[simp] theorem State.fon_cnext (f : Fld) : (s.fon f).cnext = s.cnext := rfl
@[simp] theorem State.fon_doors (f : Fld) : (s.fon f).doors = s.doors := rfl
@[simp] theorem State.fon_ddies (f : Fld) : (s.fon f).ddies = s.ddies := rfl
@[simp] theorem State.fon_loads (f : Fld) : (s.fon f).loads = s.loads := rfl
@[simp] theorem State.fon_ldies (f : Fld) : (s.fon f).ldies = s.ldies := rfl
@[simp] theorem State.fon_fields (f : Fld) : (s.fon f).fields = s.fields := rfl
@[simp] theorem State.fon_net (f : Fld) : (s.fon f).net = s.net := rfl
@[simp] theorem State.fon_il (f : Fld) : (s.fon f).il = s.il := rfl
@[simp] theorem State.fon_dup (f : Fld) : (s.fon f).dup = s.dup := rfl
@[simp] theorem State.fon_mem (f : Fld) : (s.fon f).mem = s.mem := rfl
@[simp] theorem State.fon_qp (f : Fld) : (s.fon f).qp = s.qp := rfl
@[simp] theorem State.fon_reads (f : Fld) : (s.fon f).reads = s.reads := rfl
@[simp] theorem State.fon_tap (f : Fld) : (s.fon f).tap = s.tap := rfl

/-! ### `fsat` changes only `regs`. -/

@[simp] theorem State.fsat_pending (f : Fld) (n : Nat) : (s.fsat f n).pending = s.pending := rfl
@[simp] theorem State.fsat_free (f : Fld) (n : Nat) : (s.fsat f n).free = s.free := rfl
@[simp] theorem State.fsat_time (f : Fld) (n : Nat) : (s.fsat f n).time = s.time := rfl
@[simp] theorem State.fsat_board (f : Fld) (n : Nat) : (s.fsat f n).board = s.board := rfl
@[simp] theorem State.fsat_live (f : Fld) (n : Nat) : (s.fsat f n).live = s.live := rfl
@[simp] theorem State.fsat_capt (f : Fld) (n : Nat) : (s.fsat f n).capt = s.capt := rfl
@[simp] theorem State.fsat_sram (f : Fld) (n : Nat) : (s.fsat f n).sram = s.sram := rfl
@[simp] theorem State.fsat_mram (f : Fld) (n : Nat) : (s.fsat f n).mram = s.mram := rfl
@[simp] theorem State.fsat_boot (f : Fld) (n : Nat) : (s.fsat f n).boot = s.boot := rfl
@[simp] theorem State.fsat_power (f : Fld) (n : Nat) : (s.fsat f n).power = s.power := rfl
@[simp] theorem State.fsat_modeReq (f : Fld) (n : Nat) : (s.fsat f n).modeReq = s.modeReq := rfl
@[simp] theorem State.fsat_cairn (f : Fld) (n : Nat) : (s.fsat f n).cairn = s.cairn := rfl
@[simp] theorem State.fsat_ledger (f : Fld) (n : Nat) : (s.fsat f n).ledger = s.ledger := rfl
@[simp] theorem State.fsat_links (f : Fld) (n : Nat) : (s.fsat f n).links = s.links := rfl
@[simp] theorem State.fsat_sats (f : Fld) (n : Nat) : (s.fsat f n).sats = s.sats := rfl
@[simp] theorem State.fsat_eng (f : Fld) (n : Nat) : (s.fsat f n).eng = s.eng := rfl
@[simp] theorem State.fsat_chg (f : Fld) (n : Nat) : (s.fsat f n).chg = s.chg := rfl
@[simp] theorem State.fsat_ctls (f : Fld) (n : Nat) : (s.fsat f n).ctls = s.ctls := rfl
@[simp] theorem State.fsat_bufs (f : Fld) (n : Nat) : (s.fsat f n).bufs = s.bufs := rfl
@[simp] theorem State.fsat_cimg (f : Fld) (n : Nat) : (s.fsat f n).cimg = s.cimg := rfl
@[simp] theorem State.fsat_cnext (f : Fld) (n : Nat) : (s.fsat f n).cnext = s.cnext := rfl
@[simp] theorem State.fsat_doors (f : Fld) (n : Nat) : (s.fsat f n).doors = s.doors := rfl
@[simp] theorem State.fsat_ddies (f : Fld) (n : Nat) : (s.fsat f n).ddies = s.ddies := rfl
@[simp] theorem State.fsat_loads (f : Fld) (n : Nat) : (s.fsat f n).loads = s.loads := rfl
@[simp] theorem State.fsat_ldies (f : Fld) (n : Nat) : (s.fsat f n).ldies = s.ldies := rfl
@[simp] theorem State.fsat_fields (f : Fld) (n : Nat) : (s.fsat f n).fields = s.fields := rfl
@[simp] theorem State.fsat_net (f : Fld) (n : Nat) : (s.fsat f n).net = s.net := rfl
@[simp] theorem State.fsat_il (f : Fld) (n : Nat) : (s.fsat f n).il = s.il := rfl
@[simp] theorem State.fsat_dup (f : Fld) (n : Nat) : (s.fsat f n).dup = s.dup := rfl
@[simp] theorem State.fsat_mem (f : Fld) (n : Nat) : (s.fsat f n).mem = s.mem := rfl
@[simp] theorem State.fsat_qp (f : Fld) (n : Nat) : (s.fsat f n).qp = s.qp := rfl
@[simp] theorem State.fsat_reads (f : Fld) (n : Nat) : (s.fsat f n).reads = s.reads := rfl
@[simp] theorem State.fsat_tap (f : Fld) (n : Nat) : (s.fsat f n).tap = s.tap := rfl

/-! ### `fmod` changes only `regs`. -/

@[simp] theorem State.fmod_pending (f : Fld) (n : Nat) : (s.fmod f n).pending = s.pending := rfl
@[simp] theorem State.fmod_free (f : Fld) (n : Nat) : (s.fmod f n).free = s.free := rfl
@[simp] theorem State.fmod_time (f : Fld) (n : Nat) : (s.fmod f n).time = s.time := rfl
@[simp] theorem State.fmod_board (f : Fld) (n : Nat) : (s.fmod f n).board = s.board := rfl
@[simp] theorem State.fmod_live (f : Fld) (n : Nat) : (s.fmod f n).live = s.live := rfl
@[simp] theorem State.fmod_capt (f : Fld) (n : Nat) : (s.fmod f n).capt = s.capt := rfl
@[simp] theorem State.fmod_sram (f : Fld) (n : Nat) : (s.fmod f n).sram = s.sram := rfl
@[simp] theorem State.fmod_mram (f : Fld) (n : Nat) : (s.fmod f n).mram = s.mram := rfl
@[simp] theorem State.fmod_boot (f : Fld) (n : Nat) : (s.fmod f n).boot = s.boot := rfl
@[simp] theorem State.fmod_power (f : Fld) (n : Nat) : (s.fmod f n).power = s.power := rfl
@[simp] theorem State.fmod_modeReq (f : Fld) (n : Nat) : (s.fmod f n).modeReq = s.modeReq := rfl
@[simp] theorem State.fmod_cairn (f : Fld) (n : Nat) : (s.fmod f n).cairn = s.cairn := rfl
@[simp] theorem State.fmod_ledger (f : Fld) (n : Nat) : (s.fmod f n).ledger = s.ledger := rfl
@[simp] theorem State.fmod_links (f : Fld) (n : Nat) : (s.fmod f n).links = s.links := rfl
@[simp] theorem State.fmod_sats (f : Fld) (n : Nat) : (s.fmod f n).sats = s.sats := rfl
@[simp] theorem State.fmod_eng (f : Fld) (n : Nat) : (s.fmod f n).eng = s.eng := rfl
@[simp] theorem State.fmod_chg (f : Fld) (n : Nat) : (s.fmod f n).chg = s.chg := rfl
@[simp] theorem State.fmod_ctls (f : Fld) (n : Nat) : (s.fmod f n).ctls = s.ctls := rfl
@[simp] theorem State.fmod_bufs (f : Fld) (n : Nat) : (s.fmod f n).bufs = s.bufs := rfl
@[simp] theorem State.fmod_cimg (f : Fld) (n : Nat) : (s.fmod f n).cimg = s.cimg := rfl
@[simp] theorem State.fmod_cnext (f : Fld) (n : Nat) : (s.fmod f n).cnext = s.cnext := rfl
@[simp] theorem State.fmod_doors (f : Fld) (n : Nat) : (s.fmod f n).doors = s.doors := rfl
@[simp] theorem State.fmod_ddies (f : Fld) (n : Nat) : (s.fmod f n).ddies = s.ddies := rfl
@[simp] theorem State.fmod_loads (f : Fld) (n : Nat) : (s.fmod f n).loads = s.loads := rfl
@[simp] theorem State.fmod_ldies (f : Fld) (n : Nat) : (s.fmod f n).ldies = s.ldies := rfl
@[simp] theorem State.fmod_fields (f : Fld) (n : Nat) : (s.fmod f n).fields = s.fields := rfl
@[simp] theorem State.fmod_net (f : Fld) (n : Nat) : (s.fmod f n).net = s.net := rfl
@[simp] theorem State.fmod_il (f : Fld) (n : Nat) : (s.fmod f n).il = s.il := rfl
@[simp] theorem State.fmod_dup (f : Fld) (n : Nat) : (s.fmod f n).dup = s.dup := rfl
@[simp] theorem State.fmod_mem (f : Fld) (n : Nat) : (s.fmod f n).mem = s.mem := rfl
@[simp] theorem State.fmod_qp (f : Fld) (n : Nat) : (s.fmod f n).qp = s.qp := rfl
@[simp] theorem State.fmod_reads (f : Fld) (n : Nat) : (s.fmod f n).reads = s.reads := rfl
@[simp] theorem State.fmod_tap (f : Fld) (n : Nat) : (s.fmod f n).tap = s.tap := rfl

/-! ### `fmax` changes only `regs`. -/

@[simp] theorem State.fmax_pending (f : Fld) (n : Nat) : (s.fmax f n).pending = s.pending := rfl
@[simp] theorem State.fmax_free (f : Fld) (n : Nat) : (s.fmax f n).free = s.free := rfl
@[simp] theorem State.fmax_time (f : Fld) (n : Nat) : (s.fmax f n).time = s.time := rfl
@[simp] theorem State.fmax_board (f : Fld) (n : Nat) : (s.fmax f n).board = s.board := rfl
@[simp] theorem State.fmax_live (f : Fld) (n : Nat) : (s.fmax f n).live = s.live := rfl
@[simp] theorem State.fmax_capt (f : Fld) (n : Nat) : (s.fmax f n).capt = s.capt := rfl
@[simp] theorem State.fmax_sram (f : Fld) (n : Nat) : (s.fmax f n).sram = s.sram := rfl
@[simp] theorem State.fmax_mram (f : Fld) (n : Nat) : (s.fmax f n).mram = s.mram := rfl
@[simp] theorem State.fmax_boot (f : Fld) (n : Nat) : (s.fmax f n).boot = s.boot := rfl
@[simp] theorem State.fmax_power (f : Fld) (n : Nat) : (s.fmax f n).power = s.power := rfl
@[simp] theorem State.fmax_modeReq (f : Fld) (n : Nat) : (s.fmax f n).modeReq = s.modeReq := rfl
@[simp] theorem State.fmax_cairn (f : Fld) (n : Nat) : (s.fmax f n).cairn = s.cairn := rfl
@[simp] theorem State.fmax_ledger (f : Fld) (n : Nat) : (s.fmax f n).ledger = s.ledger := rfl
@[simp] theorem State.fmax_links (f : Fld) (n : Nat) : (s.fmax f n).links = s.links := rfl
@[simp] theorem State.fmax_sats (f : Fld) (n : Nat) : (s.fmax f n).sats = s.sats := rfl
@[simp] theorem State.fmax_eng (f : Fld) (n : Nat) : (s.fmax f n).eng = s.eng := rfl
@[simp] theorem State.fmax_chg (f : Fld) (n : Nat) : (s.fmax f n).chg = s.chg := rfl
@[simp] theorem State.fmax_ctls (f : Fld) (n : Nat) : (s.fmax f n).ctls = s.ctls := rfl
@[simp] theorem State.fmax_bufs (f : Fld) (n : Nat) : (s.fmax f n).bufs = s.bufs := rfl
@[simp] theorem State.fmax_cimg (f : Fld) (n : Nat) : (s.fmax f n).cimg = s.cimg := rfl
@[simp] theorem State.fmax_cnext (f : Fld) (n : Nat) : (s.fmax f n).cnext = s.cnext := rfl
@[simp] theorem State.fmax_doors (f : Fld) (n : Nat) : (s.fmax f n).doors = s.doors := rfl
@[simp] theorem State.fmax_ddies (f : Fld) (n : Nat) : (s.fmax f n).ddies = s.ddies := rfl
@[simp] theorem State.fmax_loads (f : Fld) (n : Nat) : (s.fmax f n).loads = s.loads := rfl
@[simp] theorem State.fmax_ldies (f : Fld) (n : Nat) : (s.fmax f n).ldies = s.ldies := rfl
@[simp] theorem State.fmax_fields (f : Fld) (n : Nat) : (s.fmax f n).fields = s.fields := rfl
@[simp] theorem State.fmax_net (f : Fld) (n : Nat) : (s.fmax f n).net = s.net := rfl
@[simp] theorem State.fmax_il (f : Fld) (n : Nat) : (s.fmax f n).il = s.il := rfl
@[simp] theorem State.fmax_dup (f : Fld) (n : Nat) : (s.fmax f n).dup = s.dup := rfl
@[simp] theorem State.fmax_mem (f : Fld) (n : Nat) : (s.fmax f n).mem = s.mem := rfl
@[simp] theorem State.fmax_qp (f : Fld) (n : Nat) : (s.fmax f n).qp = s.qp := rfl
@[simp] theorem State.fmax_reads (f : Fld) (n : Nat) : (s.fmax f n).reads = s.reads := rfl
@[simp] theorem State.fmax_tap (f : Fld) (n : Nat) : (s.fmax f n).tap = s.tap := rfl

/-! ### `lset` changes only `live`. -/

@[simp] theorem State.lset_pending (f : Fld) (v : Nat) : (s.lset f v).pending = s.pending := rfl
@[simp] theorem State.lset_free (f : Fld) (v : Nat) : (s.lset f v).free = s.free := rfl
@[simp] theorem State.lset_time (f : Fld) (v : Nat) : (s.lset f v).time = s.time := rfl
@[simp] theorem State.lset_board (f : Fld) (v : Nat) : (s.lset f v).board = s.board := rfl
@[simp] theorem State.lset_regs (f : Fld) (v : Nat) : (s.lset f v).regs = s.regs := rfl
@[simp] theorem State.lset_capt (f : Fld) (v : Nat) : (s.lset f v).capt = s.capt := rfl
@[simp] theorem State.lset_sram (f : Fld) (v : Nat) : (s.lset f v).sram = s.sram := rfl
@[simp] theorem State.lset_mram (f : Fld) (v : Nat) : (s.lset f v).mram = s.mram := rfl
@[simp] theorem State.lset_boot (f : Fld) (v : Nat) : (s.lset f v).boot = s.boot := rfl
@[simp] theorem State.lset_power (f : Fld) (v : Nat) : (s.lset f v).power = s.power := rfl
@[simp] theorem State.lset_modeReq (f : Fld) (v : Nat) : (s.lset f v).modeReq = s.modeReq := rfl
@[simp] theorem State.lset_cairn (f : Fld) (v : Nat) : (s.lset f v).cairn = s.cairn := rfl
@[simp] theorem State.lset_ledger (f : Fld) (v : Nat) : (s.lset f v).ledger = s.ledger := rfl
@[simp] theorem State.lset_links (f : Fld) (v : Nat) : (s.lset f v).links = s.links := rfl
@[simp] theorem State.lset_sats (f : Fld) (v : Nat) : (s.lset f v).sats = s.sats := rfl
@[simp] theorem State.lset_eng (f : Fld) (v : Nat) : (s.lset f v).eng = s.eng := rfl
@[simp] theorem State.lset_chg (f : Fld) (v : Nat) : (s.lset f v).chg = s.chg := rfl
@[simp] theorem State.lset_ctls (f : Fld) (v : Nat) : (s.lset f v).ctls = s.ctls := rfl
@[simp] theorem State.lset_bufs (f : Fld) (v : Nat) : (s.lset f v).bufs = s.bufs := rfl
@[simp] theorem State.lset_cimg (f : Fld) (v : Nat) : (s.lset f v).cimg = s.cimg := rfl
@[simp] theorem State.lset_cnext (f : Fld) (v : Nat) : (s.lset f v).cnext = s.cnext := rfl
@[simp] theorem State.lset_doors (f : Fld) (v : Nat) : (s.lset f v).doors = s.doors := rfl
@[simp] theorem State.lset_ddies (f : Fld) (v : Nat) : (s.lset f v).ddies = s.ddies := rfl
@[simp] theorem State.lset_loads (f : Fld) (v : Nat) : (s.lset f v).loads = s.loads := rfl
@[simp] theorem State.lset_ldies (f : Fld) (v : Nat) : (s.lset f v).ldies = s.ldies := rfl
@[simp] theorem State.lset_fields (f : Fld) (v : Nat) : (s.lset f v).fields = s.fields := rfl
@[simp] theorem State.lset_net (f : Fld) (v : Nat) : (s.lset f v).net = s.net := rfl
@[simp] theorem State.lset_il (f : Fld) (v : Nat) : (s.lset f v).il = s.il := rfl
@[simp] theorem State.lset_dup (f : Fld) (v : Nat) : (s.lset f v).dup = s.dup := rfl
@[simp] theorem State.lset_mem (f : Fld) (v : Nat) : (s.lset f v).mem = s.mem := rfl
@[simp] theorem State.lset_qp (f : Fld) (v : Nat) : (s.lset f v).qp = s.qp := rfl
@[simp] theorem State.lset_reads (f : Fld) (v : Nat) : (s.lset f v).reads = s.reads := rfl
@[simp] theorem State.lset_tap (f : Fld) (v : Nat) : (s.lset f v).tap = s.tap := rfl

/-! ### `lsat` changes only `live`. -/

@[simp] theorem State.lsat_pending (f : Fld) : (s.lsat f).pending = s.pending := rfl
@[simp] theorem State.lsat_free (f : Fld) : (s.lsat f).free = s.free := rfl
@[simp] theorem State.lsat_time (f : Fld) : (s.lsat f).time = s.time := rfl
@[simp] theorem State.lsat_board (f : Fld) : (s.lsat f).board = s.board := rfl
@[simp] theorem State.lsat_regs (f : Fld) : (s.lsat f).regs = s.regs := rfl
@[simp] theorem State.lsat_capt (f : Fld) : (s.lsat f).capt = s.capt := rfl
@[simp] theorem State.lsat_sram (f : Fld) : (s.lsat f).sram = s.sram := rfl
@[simp] theorem State.lsat_mram (f : Fld) : (s.lsat f).mram = s.mram := rfl
@[simp] theorem State.lsat_boot (f : Fld) : (s.lsat f).boot = s.boot := rfl
@[simp] theorem State.lsat_power (f : Fld) : (s.lsat f).power = s.power := rfl
@[simp] theorem State.lsat_modeReq (f : Fld) : (s.lsat f).modeReq = s.modeReq := rfl
@[simp] theorem State.lsat_cairn (f : Fld) : (s.lsat f).cairn = s.cairn := rfl
@[simp] theorem State.lsat_ledger (f : Fld) : (s.lsat f).ledger = s.ledger := rfl
@[simp] theorem State.lsat_links (f : Fld) : (s.lsat f).links = s.links := rfl
@[simp] theorem State.lsat_sats (f : Fld) : (s.lsat f).sats = s.sats := rfl
@[simp] theorem State.lsat_eng (f : Fld) : (s.lsat f).eng = s.eng := rfl
@[simp] theorem State.lsat_chg (f : Fld) : (s.lsat f).chg = s.chg := rfl
@[simp] theorem State.lsat_ctls (f : Fld) : (s.lsat f).ctls = s.ctls := rfl
@[simp] theorem State.lsat_bufs (f : Fld) : (s.lsat f).bufs = s.bufs := rfl
@[simp] theorem State.lsat_cimg (f : Fld) : (s.lsat f).cimg = s.cimg := rfl
@[simp] theorem State.lsat_cnext (f : Fld) : (s.lsat f).cnext = s.cnext := rfl
@[simp] theorem State.lsat_doors (f : Fld) : (s.lsat f).doors = s.doors := rfl
@[simp] theorem State.lsat_ddies (f : Fld) : (s.lsat f).ddies = s.ddies := rfl
@[simp] theorem State.lsat_loads (f : Fld) : (s.lsat f).loads = s.loads := rfl
@[simp] theorem State.lsat_ldies (f : Fld) : (s.lsat f).ldies = s.ldies := rfl
@[simp] theorem State.lsat_fields (f : Fld) : (s.lsat f).fields = s.fields := rfl
@[simp] theorem State.lsat_net (f : Fld) : (s.lsat f).net = s.net := rfl
@[simp] theorem State.lsat_il (f : Fld) : (s.lsat f).il = s.il := rfl
@[simp] theorem State.lsat_dup (f : Fld) : (s.lsat f).dup = s.dup := rfl
@[simp] theorem State.lsat_mem (f : Fld) : (s.lsat f).mem = s.mem := rfl
@[simp] theorem State.lsat_qp (f : Fld) : (s.lsat f).qp = s.qp := rfl
@[simp] theorem State.lsat_reads (f : Fld) : (s.lsat f).reads = s.reads := rfl
@[simp] theorem State.lsat_tap (f : Fld) : (s.lsat f).tap = s.tap := rfl

/-! ### `lmod` changes only `live`. -/

@[simp] theorem State.lmod_pending (f : Fld) : (s.lmod f).pending = s.pending := rfl
@[simp] theorem State.lmod_free (f : Fld) : (s.lmod f).free = s.free := rfl
@[simp] theorem State.lmod_time (f : Fld) : (s.lmod f).time = s.time := rfl
@[simp] theorem State.lmod_board (f : Fld) : (s.lmod f).board = s.board := rfl
@[simp] theorem State.lmod_regs (f : Fld) : (s.lmod f).regs = s.regs := rfl
@[simp] theorem State.lmod_capt (f : Fld) : (s.lmod f).capt = s.capt := rfl
@[simp] theorem State.lmod_sram (f : Fld) : (s.lmod f).sram = s.sram := rfl
@[simp] theorem State.lmod_mram (f : Fld) : (s.lmod f).mram = s.mram := rfl
@[simp] theorem State.lmod_boot (f : Fld) : (s.lmod f).boot = s.boot := rfl
@[simp] theorem State.lmod_power (f : Fld) : (s.lmod f).power = s.power := rfl
@[simp] theorem State.lmod_modeReq (f : Fld) : (s.lmod f).modeReq = s.modeReq := rfl
@[simp] theorem State.lmod_cairn (f : Fld) : (s.lmod f).cairn = s.cairn := rfl
@[simp] theorem State.lmod_ledger (f : Fld) : (s.lmod f).ledger = s.ledger := rfl
@[simp] theorem State.lmod_links (f : Fld) : (s.lmod f).links = s.links := rfl
@[simp] theorem State.lmod_sats (f : Fld) : (s.lmod f).sats = s.sats := rfl
@[simp] theorem State.lmod_eng (f : Fld) : (s.lmod f).eng = s.eng := rfl
@[simp] theorem State.lmod_chg (f : Fld) : (s.lmod f).chg = s.chg := rfl
@[simp] theorem State.lmod_ctls (f : Fld) : (s.lmod f).ctls = s.ctls := rfl
@[simp] theorem State.lmod_bufs (f : Fld) : (s.lmod f).bufs = s.bufs := rfl
@[simp] theorem State.lmod_cimg (f : Fld) : (s.lmod f).cimg = s.cimg := rfl
@[simp] theorem State.lmod_cnext (f : Fld) : (s.lmod f).cnext = s.cnext := rfl
@[simp] theorem State.lmod_doors (f : Fld) : (s.lmod f).doors = s.doors := rfl
@[simp] theorem State.lmod_ddies (f : Fld) : (s.lmod f).ddies = s.ddies := rfl
@[simp] theorem State.lmod_loads (f : Fld) : (s.lmod f).loads = s.loads := rfl
@[simp] theorem State.lmod_ldies (f : Fld) : (s.lmod f).ldies = s.ldies := rfl
@[simp] theorem State.lmod_fields (f : Fld) : (s.lmod f).fields = s.fields := rfl
@[simp] theorem State.lmod_net (f : Fld) : (s.lmod f).net = s.net := rfl
@[simp] theorem State.lmod_il (f : Fld) : (s.lmod f).il = s.il := rfl
@[simp] theorem State.lmod_dup (f : Fld) : (s.lmod f).dup = s.dup := rfl
@[simp] theorem State.lmod_mem (f : Fld) : (s.lmod f).mem = s.mem := rfl
@[simp] theorem State.lmod_qp (f : Fld) : (s.lmod f).qp = s.qp := rfl
@[simp] theorem State.lmod_reads (f : Fld) : (s.lmod f).reads = s.reads := rfl
@[simp] theorem State.lmod_tap (f : Fld) : (s.lmod f).tap = s.tap := rfl

/-! ### `setLaneState` changes only `regs`. -/

@[simp] theorem State.setLaneState_pending (v : Nat) : (s.setLaneState v).pending = s.pending := rfl
@[simp] theorem State.setLaneState_free (v : Nat) : (s.setLaneState v).free = s.free := rfl
@[simp] theorem State.setLaneState_time (v : Nat) : (s.setLaneState v).time = s.time := rfl
@[simp] theorem State.setLaneState_board (v : Nat) : (s.setLaneState v).board = s.board := rfl
@[simp] theorem State.setLaneState_live (v : Nat) : (s.setLaneState v).live = s.live := rfl
@[simp] theorem State.setLaneState_capt (v : Nat) : (s.setLaneState v).capt = s.capt := rfl
@[simp] theorem State.setLaneState_sram (v : Nat) : (s.setLaneState v).sram = s.sram := rfl
@[simp] theorem State.setLaneState_mram (v : Nat) : (s.setLaneState v).mram = s.mram := rfl
@[simp] theorem State.setLaneState_boot (v : Nat) : (s.setLaneState v).boot = s.boot := rfl
@[simp] theorem State.setLaneState_power (v : Nat) : (s.setLaneState v).power = s.power := rfl
@[simp] theorem State.setLaneState_modeReq (v : Nat) : (s.setLaneState v).modeReq = s.modeReq := rfl
@[simp] theorem State.setLaneState_cairn (v : Nat) : (s.setLaneState v).cairn = s.cairn := rfl
@[simp] theorem State.setLaneState_ledger (v : Nat) : (s.setLaneState v).ledger = s.ledger := rfl
@[simp] theorem State.setLaneState_links (v : Nat) : (s.setLaneState v).links = s.links := rfl
@[simp] theorem State.setLaneState_sats (v : Nat) : (s.setLaneState v).sats = s.sats := rfl
@[simp] theorem State.setLaneState_eng (v : Nat) : (s.setLaneState v).eng = s.eng := rfl
@[simp] theorem State.setLaneState_chg (v : Nat) : (s.setLaneState v).chg = s.chg := rfl
@[simp] theorem State.setLaneState_ctls (v : Nat) : (s.setLaneState v).ctls = s.ctls := rfl
@[simp] theorem State.setLaneState_bufs (v : Nat) : (s.setLaneState v).bufs = s.bufs := rfl
@[simp] theorem State.setLaneState_cimg (v : Nat) : (s.setLaneState v).cimg = s.cimg := rfl
@[simp] theorem State.setLaneState_cnext (v : Nat) : (s.setLaneState v).cnext = s.cnext := rfl
@[simp] theorem State.setLaneState_doors (v : Nat) : (s.setLaneState v).doors = s.doors := rfl
@[simp] theorem State.setLaneState_ddies (v : Nat) : (s.setLaneState v).ddies = s.ddies := rfl
@[simp] theorem State.setLaneState_loads (v : Nat) : (s.setLaneState v).loads = s.loads := rfl
@[simp] theorem State.setLaneState_ldies (v : Nat) : (s.setLaneState v).ldies = s.ldies := rfl
@[simp] theorem State.setLaneState_fields (v : Nat) : (s.setLaneState v).fields = s.fields := rfl
@[simp] theorem State.setLaneState_net (v : Nat) : (s.setLaneState v).net = s.net := rfl
@[simp] theorem State.setLaneState_il (v : Nat) : (s.setLaneState v).il = s.il := rfl
@[simp] theorem State.setLaneState_dup (v : Nat) : (s.setLaneState v).dup = s.dup := rfl
@[simp] theorem State.setLaneState_mem (v : Nat) : (s.setLaneState v).mem = s.mem := rfl
@[simp] theorem State.setLaneState_qp (v : Nat) : (s.setLaneState v).qp = s.qp := rfl
@[simp] theorem State.setLaneState_reads (v : Nat) : (s.setLaneState v).reads = s.reads := rfl
@[simp] theorem State.setLaneState_tap (v : Nat) : (s.setLaneState v).tap = s.tap := rfl

/-! ### `advance` changes only `time`, `power`. -/

@[simp] theorem State.advance_pending (dt : Nat) : (s.advance dt).pending = s.pending := rfl
@[simp] theorem State.advance_free (dt : Nat) : (s.advance dt).free = s.free := rfl
@[simp] theorem State.advance_board (dt : Nat) : (s.advance dt).board = s.board := rfl
@[simp] theorem State.advance_regs (dt : Nat) : (s.advance dt).regs = s.regs := rfl
@[simp] theorem State.advance_live (dt : Nat) : (s.advance dt).live = s.live := rfl
@[simp] theorem State.advance_capt (dt : Nat) : (s.advance dt).capt = s.capt := rfl
@[simp] theorem State.advance_sram (dt : Nat) : (s.advance dt).sram = s.sram := rfl
@[simp] theorem State.advance_mram (dt : Nat) : (s.advance dt).mram = s.mram := rfl
@[simp] theorem State.advance_boot (dt : Nat) : (s.advance dt).boot = s.boot := rfl
@[simp] theorem State.advance_modeReq (dt : Nat) : (s.advance dt).modeReq = s.modeReq := rfl
@[simp] theorem State.advance_cairn (dt : Nat) : (s.advance dt).cairn = s.cairn := rfl
@[simp] theorem State.advance_ledger (dt : Nat) : (s.advance dt).ledger = s.ledger := rfl
@[simp] theorem State.advance_links (dt : Nat) : (s.advance dt).links = s.links := rfl
@[simp] theorem State.advance_sats (dt : Nat) : (s.advance dt).sats = s.sats := rfl
@[simp] theorem State.advance_eng (dt : Nat) : (s.advance dt).eng = s.eng := rfl
@[simp] theorem State.advance_chg (dt : Nat) : (s.advance dt).chg = s.chg := rfl
@[simp] theorem State.advance_ctls (dt : Nat) : (s.advance dt).ctls = s.ctls := rfl
@[simp] theorem State.advance_bufs (dt : Nat) : (s.advance dt).bufs = s.bufs := rfl
@[simp] theorem State.advance_cimg (dt : Nat) : (s.advance dt).cimg = s.cimg := rfl
@[simp] theorem State.advance_cnext (dt : Nat) : (s.advance dt).cnext = s.cnext := rfl
@[simp] theorem State.advance_doors (dt : Nat) : (s.advance dt).doors = s.doors := rfl
@[simp] theorem State.advance_ddies (dt : Nat) : (s.advance dt).ddies = s.ddies := rfl
@[simp] theorem State.advance_loads (dt : Nat) : (s.advance dt).loads = s.loads := rfl
@[simp] theorem State.advance_ldies (dt : Nat) : (s.advance dt).ldies = s.ldies := rfl
@[simp] theorem State.advance_fields (dt : Nat) : (s.advance dt).fields = s.fields := rfl
@[simp] theorem State.advance_net (dt : Nat) : (s.advance dt).net = s.net := rfl
@[simp] theorem State.advance_il (dt : Nat) : (s.advance dt).il = s.il := rfl
@[simp] theorem State.advance_dup (dt : Nat) : (s.advance dt).dup = s.dup := rfl
@[simp] theorem State.advance_mem (dt : Nat) : (s.advance dt).mem = s.mem := rfl
@[simp] theorem State.advance_qp (dt : Nat) : (s.advance dt).qp = s.qp := rfl
@[simp] theorem State.advance_reads (dt : Nat) : (s.advance dt).reads = s.reads := rfl
@[simp] theorem State.advance_tap (dt : Nat) : (s.advance dt).tap = s.tap := rfl

/-! ### `toDev` changes only `time`, `power`. -/

@[simp] theorem State.toDev_pending (t : Nat) : (s.toDev t).pending = s.pending := by unfold State.toDev; split <;> rfl
@[simp] theorem State.toDev_free (t : Nat) : (s.toDev t).free = s.free := by unfold State.toDev; split <;> rfl
@[simp] theorem State.toDev_board (t : Nat) : (s.toDev t).board = s.board := by unfold State.toDev; split <;> rfl
@[simp] theorem State.toDev_regs (t : Nat) : (s.toDev t).regs = s.regs := by unfold State.toDev; split <;> rfl
@[simp] theorem State.toDev_live (t : Nat) : (s.toDev t).live = s.live := by unfold State.toDev; split <;> rfl
@[simp] theorem State.toDev_capt (t : Nat) : (s.toDev t).capt = s.capt := by unfold State.toDev; split <;> rfl
@[simp] theorem State.toDev_sram (t : Nat) : (s.toDev t).sram = s.sram := by unfold State.toDev; split <;> rfl
@[simp] theorem State.toDev_mram (t : Nat) : (s.toDev t).mram = s.mram := by unfold State.toDev; split <;> rfl
@[simp] theorem State.toDev_boot (t : Nat) : (s.toDev t).boot = s.boot := by unfold State.toDev; split <;> rfl
@[simp] theorem State.toDev_modeReq (t : Nat) : (s.toDev t).modeReq = s.modeReq := by unfold State.toDev; split <;> rfl
@[simp] theorem State.toDev_cairn (t : Nat) : (s.toDev t).cairn = s.cairn := by unfold State.toDev; split <;> rfl
@[simp] theorem State.toDev_ledger (t : Nat) : (s.toDev t).ledger = s.ledger := by unfold State.toDev; split <;> rfl
@[simp] theorem State.toDev_links (t : Nat) : (s.toDev t).links = s.links := by unfold State.toDev; split <;> rfl
@[simp] theorem State.toDev_sats (t : Nat) : (s.toDev t).sats = s.sats := by unfold State.toDev; split <;> rfl
@[simp] theorem State.toDev_eng (t : Nat) : (s.toDev t).eng = s.eng := by unfold State.toDev; split <;> rfl
@[simp] theorem State.toDev_chg (t : Nat) : (s.toDev t).chg = s.chg := by unfold State.toDev; split <;> rfl
@[simp] theorem State.toDev_ctls (t : Nat) : (s.toDev t).ctls = s.ctls := by unfold State.toDev; split <;> rfl
@[simp] theorem State.toDev_bufs (t : Nat) : (s.toDev t).bufs = s.bufs := by unfold State.toDev; split <;> rfl
@[simp] theorem State.toDev_cimg (t : Nat) : (s.toDev t).cimg = s.cimg := by unfold State.toDev; split <;> rfl
@[simp] theorem State.toDev_cnext (t : Nat) : (s.toDev t).cnext = s.cnext := by unfold State.toDev; split <;> rfl
@[simp] theorem State.toDev_doors (t : Nat) : (s.toDev t).doors = s.doors := by unfold State.toDev; split <;> rfl
@[simp] theorem State.toDev_ddies (t : Nat) : (s.toDev t).ddies = s.ddies := by unfold State.toDev; split <;> rfl
@[simp] theorem State.toDev_loads (t : Nat) : (s.toDev t).loads = s.loads := by unfold State.toDev; split <;> rfl
@[simp] theorem State.toDev_ldies (t : Nat) : (s.toDev t).ldies = s.ldies := by unfold State.toDev; split <;> rfl
@[simp] theorem State.toDev_fields (t : Nat) : (s.toDev t).fields = s.fields := by unfold State.toDev; split <;> rfl
@[simp] theorem State.toDev_net (t : Nat) : (s.toDev t).net = s.net := by unfold State.toDev; split <;> rfl
@[simp] theorem State.toDev_il (t : Nat) : (s.toDev t).il = s.il := by unfold State.toDev; split <;> rfl
@[simp] theorem State.toDev_dup (t : Nat) : (s.toDev t).dup = s.dup := by unfold State.toDev; split <;> rfl
@[simp] theorem State.toDev_mem (t : Nat) : (s.toDev t).mem = s.mem := by unfold State.toDev; split <;> rfl
@[simp] theorem State.toDev_qp (t : Nat) : (s.toDev t).qp = s.qp := by unfold State.toDev; split <;> rfl
@[simp] theorem State.toDev_reads (t : Nat) : (s.toDev t).reads = s.reads := by unfold State.toDev; split <;> rfl
@[simp] theorem State.toDev_tap (t : Nat) : (s.toDev t).tap = s.tap := by unfold State.toDev; split <;> rfl

/-! ### `toMono` changes only `time`, `power`. -/

@[simp] theorem State.toMono_pending (t : Nat) : (s.toMono t).pending = s.pending := rfl
@[simp] theorem State.toMono_free (t : Nat) : (s.toMono t).free = s.free := rfl
@[simp] theorem State.toMono_board (t : Nat) : (s.toMono t).board = s.board := rfl
@[simp] theorem State.toMono_regs (t : Nat) : (s.toMono t).regs = s.regs := rfl
@[simp] theorem State.toMono_live (t : Nat) : (s.toMono t).live = s.live := rfl
@[simp] theorem State.toMono_capt (t : Nat) : (s.toMono t).capt = s.capt := rfl
@[simp] theorem State.toMono_sram (t : Nat) : (s.toMono t).sram = s.sram := rfl
@[simp] theorem State.toMono_mram (t : Nat) : (s.toMono t).mram = s.mram := rfl
@[simp] theorem State.toMono_boot (t : Nat) : (s.toMono t).boot = s.boot := rfl
@[simp] theorem State.toMono_modeReq (t : Nat) : (s.toMono t).modeReq = s.modeReq := rfl
@[simp] theorem State.toMono_cairn (t : Nat) : (s.toMono t).cairn = s.cairn := rfl
@[simp] theorem State.toMono_ledger (t : Nat) : (s.toMono t).ledger = s.ledger := rfl
@[simp] theorem State.toMono_links (t : Nat) : (s.toMono t).links = s.links := rfl
@[simp] theorem State.toMono_sats (t : Nat) : (s.toMono t).sats = s.sats := rfl
@[simp] theorem State.toMono_eng (t : Nat) : (s.toMono t).eng = s.eng := rfl
@[simp] theorem State.toMono_chg (t : Nat) : (s.toMono t).chg = s.chg := rfl
@[simp] theorem State.toMono_ctls (t : Nat) : (s.toMono t).ctls = s.ctls := rfl
@[simp] theorem State.toMono_bufs (t : Nat) : (s.toMono t).bufs = s.bufs := rfl
@[simp] theorem State.toMono_cimg (t : Nat) : (s.toMono t).cimg = s.cimg := rfl
@[simp] theorem State.toMono_cnext (t : Nat) : (s.toMono t).cnext = s.cnext := rfl
@[simp] theorem State.toMono_doors (t : Nat) : (s.toMono t).doors = s.doors := rfl
@[simp] theorem State.toMono_ddies (t : Nat) : (s.toMono t).ddies = s.ddies := rfl
@[simp] theorem State.toMono_loads (t : Nat) : (s.toMono t).loads = s.loads := rfl
@[simp] theorem State.toMono_ldies (t : Nat) : (s.toMono t).ldies = s.ldies := rfl
@[simp] theorem State.toMono_fields (t : Nat) : (s.toMono t).fields = s.fields := rfl
@[simp] theorem State.toMono_net (t : Nat) : (s.toMono t).net = s.net := rfl
@[simp] theorem State.toMono_il (t : Nat) : (s.toMono t).il = s.il := rfl
@[simp] theorem State.toMono_dup (t : Nat) : (s.toMono t).dup = s.dup := rfl
@[simp] theorem State.toMono_mem (t : Nat) : (s.toMono t).mem = s.mem := rfl
@[simp] theorem State.toMono_qp (t : Nat) : (s.toMono t).qp = s.qp := rfl
@[simp] theorem State.toMono_reads (t : Nat) : (s.toMono t).reads = s.reads := rfl
@[simp] theorem State.toMono_tap (t : Nat) : (s.toMono t).tap = s.tap := rfl

/-! ### `regrid` changes only `time`. -/

@[simp] theorem State.regrid_pending : (s.regrid).pending = s.pending := by unfold State.regrid; rfl
@[simp] theorem State.regrid_free : (s.regrid).free = s.free := by unfold State.regrid; rfl
@[simp] theorem State.regrid_board : (s.regrid).board = s.board := by unfold State.regrid; rfl
@[simp] theorem State.regrid_regs : (s.regrid).regs = s.regs := by unfold State.regrid; rfl
@[simp] theorem State.regrid_live : (s.regrid).live = s.live := by unfold State.regrid; rfl
@[simp] theorem State.regrid_capt : (s.regrid).capt = s.capt := by unfold State.regrid; rfl
@[simp] theorem State.regrid_sram : (s.regrid).sram = s.sram := by unfold State.regrid; rfl
@[simp] theorem State.regrid_mram : (s.regrid).mram = s.mram := by unfold State.regrid; rfl
@[simp] theorem State.regrid_boot : (s.regrid).boot = s.boot := by unfold State.regrid; rfl
@[simp] theorem State.regrid_power : (s.regrid).power = s.power := by unfold State.regrid; rfl
@[simp] theorem State.regrid_modeReq : (s.regrid).modeReq = s.modeReq := by unfold State.regrid; rfl
@[simp] theorem State.regrid_cairn : (s.regrid).cairn = s.cairn := by unfold State.regrid; rfl
@[simp] theorem State.regrid_ledger : (s.regrid).ledger = s.ledger := by unfold State.regrid; rfl
@[simp] theorem State.regrid_links : (s.regrid).links = s.links := by unfold State.regrid; rfl
@[simp] theorem State.regrid_sats : (s.regrid).sats = s.sats := by unfold State.regrid; rfl
@[simp] theorem State.regrid_eng : (s.regrid).eng = s.eng := by unfold State.regrid; rfl
@[simp] theorem State.regrid_chg : (s.regrid).chg = s.chg := by unfold State.regrid; rfl
@[simp] theorem State.regrid_ctls : (s.regrid).ctls = s.ctls := by unfold State.regrid; rfl
@[simp] theorem State.regrid_bufs : (s.regrid).bufs = s.bufs := by unfold State.regrid; rfl
@[simp] theorem State.regrid_cimg : (s.regrid).cimg = s.cimg := by unfold State.regrid; rfl
@[simp] theorem State.regrid_cnext : (s.regrid).cnext = s.cnext := by unfold State.regrid; rfl
@[simp] theorem State.regrid_doors : (s.regrid).doors = s.doors := by unfold State.regrid; rfl
@[simp] theorem State.regrid_ddies : (s.regrid).ddies = s.ddies := by unfold State.regrid; rfl
@[simp] theorem State.regrid_loads : (s.regrid).loads = s.loads := by unfold State.regrid; rfl
@[simp] theorem State.regrid_ldies : (s.regrid).ldies = s.ldies := by unfold State.regrid; rfl
@[simp] theorem State.regrid_fields : (s.regrid).fields = s.fields := by unfold State.regrid; rfl
@[simp] theorem State.regrid_net : (s.regrid).net = s.net := by unfold State.regrid; rfl
@[simp] theorem State.regrid_il : (s.regrid).il = s.il := by unfold State.regrid; rfl
@[simp] theorem State.regrid_dup : (s.regrid).dup = s.dup := by unfold State.regrid; rfl
@[simp] theorem State.regrid_mem : (s.regrid).mem = s.mem := by unfold State.regrid; rfl
@[simp] theorem State.regrid_qp : (s.regrid).qp = s.qp := by unfold State.regrid; rfl
@[simp] theorem State.regrid_reads : (s.regrid).reads = s.reads := by unfold State.regrid; rfl
@[simp] theorem State.regrid_tap : (s.regrid).tap = s.tap := by unfold State.regrid; rfl

/-! ### `wr` changes only `sram`. -/

@[simp] theorem State.wr_pending (a : Nat) (b : Byte) : (s.wr a b).pending = s.pending := rfl
@[simp] theorem State.wr_free (a : Nat) (b : Byte) : (s.wr a b).free = s.free := rfl
@[simp] theorem State.wr_time (a : Nat) (b : Byte) : (s.wr a b).time = s.time := rfl
@[simp] theorem State.wr_board (a : Nat) (b : Byte) : (s.wr a b).board = s.board := rfl
@[simp] theorem State.wr_regs (a : Nat) (b : Byte) : (s.wr a b).regs = s.regs := rfl
@[simp] theorem State.wr_live (a : Nat) (b : Byte) : (s.wr a b).live = s.live := rfl
@[simp] theorem State.wr_capt (a : Nat) (b : Byte) : (s.wr a b).capt = s.capt := rfl
@[simp] theorem State.wr_mram (a : Nat) (b : Byte) : (s.wr a b).mram = s.mram := rfl
@[simp] theorem State.wr_boot (a : Nat) (b : Byte) : (s.wr a b).boot = s.boot := rfl
@[simp] theorem State.wr_power (a : Nat) (b : Byte) : (s.wr a b).power = s.power := rfl
@[simp] theorem State.wr_modeReq (a : Nat) (b : Byte) : (s.wr a b).modeReq = s.modeReq := rfl
@[simp] theorem State.wr_cairn (a : Nat) (b : Byte) : (s.wr a b).cairn = s.cairn := rfl
@[simp] theorem State.wr_ledger (a : Nat) (b : Byte) : (s.wr a b).ledger = s.ledger := rfl
@[simp] theorem State.wr_links (a : Nat) (b : Byte) : (s.wr a b).links = s.links := rfl
@[simp] theorem State.wr_sats (a : Nat) (b : Byte) : (s.wr a b).sats = s.sats := rfl
@[simp] theorem State.wr_eng (a : Nat) (b : Byte) : (s.wr a b).eng = s.eng := rfl
@[simp] theorem State.wr_chg (a : Nat) (b : Byte) : (s.wr a b).chg = s.chg := rfl
@[simp] theorem State.wr_ctls (a : Nat) (b : Byte) : (s.wr a b).ctls = s.ctls := rfl
@[simp] theorem State.wr_bufs (a : Nat) (b : Byte) : (s.wr a b).bufs = s.bufs := rfl
@[simp] theorem State.wr_cimg (a : Nat) (b : Byte) : (s.wr a b).cimg = s.cimg := rfl
@[simp] theorem State.wr_cnext (a : Nat) (b : Byte) : (s.wr a b).cnext = s.cnext := rfl
@[simp] theorem State.wr_doors (a : Nat) (b : Byte) : (s.wr a b).doors = s.doors := rfl
@[simp] theorem State.wr_ddies (a : Nat) (b : Byte) : (s.wr a b).ddies = s.ddies := rfl
@[simp] theorem State.wr_loads (a : Nat) (b : Byte) : (s.wr a b).loads = s.loads := rfl
@[simp] theorem State.wr_ldies (a : Nat) (b : Byte) : (s.wr a b).ldies = s.ldies := rfl
@[simp] theorem State.wr_fields (a : Nat) (b : Byte) : (s.wr a b).fields = s.fields := rfl
@[simp] theorem State.wr_net (a : Nat) (b : Byte) : (s.wr a b).net = s.net := rfl
@[simp] theorem State.wr_il (a : Nat) (b : Byte) : (s.wr a b).il = s.il := rfl
@[simp] theorem State.wr_dup (a : Nat) (b : Byte) : (s.wr a b).dup = s.dup := rfl
@[simp] theorem State.wr_mem (a : Nat) (b : Byte) : (s.wr a b).mem = s.mem := rfl
@[simp] theorem State.wr_qp (a : Nat) (b : Byte) : (s.wr a b).qp = s.qp := rfl
@[simp] theorem State.wr_reads (a : Nat) (b : Byte) : (s.wr a b).reads = s.reads := rfl
@[simp] theorem State.wr_tap (a : Nat) (b : Byte) : (s.wr a b).tap = s.tap := rfl

/-! ### `wrN` changes only `sram`. -/

@[simp] theorem State.wrN_pending (a n v : Nat) : (s.wrN a n v).pending = s.pending := rfl
@[simp] theorem State.wrN_free (a n v : Nat) : (s.wrN a n v).free = s.free := rfl
@[simp] theorem State.wrN_time (a n v : Nat) : (s.wrN a n v).time = s.time := rfl
@[simp] theorem State.wrN_board (a n v : Nat) : (s.wrN a n v).board = s.board := rfl
@[simp] theorem State.wrN_regs (a n v : Nat) : (s.wrN a n v).regs = s.regs := rfl
@[simp] theorem State.wrN_live (a n v : Nat) : (s.wrN a n v).live = s.live := rfl
@[simp] theorem State.wrN_capt (a n v : Nat) : (s.wrN a n v).capt = s.capt := rfl
@[simp] theorem State.wrN_mram (a n v : Nat) : (s.wrN a n v).mram = s.mram := rfl
@[simp] theorem State.wrN_boot (a n v : Nat) : (s.wrN a n v).boot = s.boot := rfl
@[simp] theorem State.wrN_power (a n v : Nat) : (s.wrN a n v).power = s.power := rfl
@[simp] theorem State.wrN_modeReq (a n v : Nat) : (s.wrN a n v).modeReq = s.modeReq := rfl
@[simp] theorem State.wrN_cairn (a n v : Nat) : (s.wrN a n v).cairn = s.cairn := rfl
@[simp] theorem State.wrN_ledger (a n v : Nat) : (s.wrN a n v).ledger = s.ledger := rfl
@[simp] theorem State.wrN_links (a n v : Nat) : (s.wrN a n v).links = s.links := rfl
@[simp] theorem State.wrN_sats (a n v : Nat) : (s.wrN a n v).sats = s.sats := rfl
@[simp] theorem State.wrN_eng (a n v : Nat) : (s.wrN a n v).eng = s.eng := rfl
@[simp] theorem State.wrN_chg (a n v : Nat) : (s.wrN a n v).chg = s.chg := rfl
@[simp] theorem State.wrN_ctls (a n v : Nat) : (s.wrN a n v).ctls = s.ctls := rfl
@[simp] theorem State.wrN_bufs (a n v : Nat) : (s.wrN a n v).bufs = s.bufs := rfl
@[simp] theorem State.wrN_cimg (a n v : Nat) : (s.wrN a n v).cimg = s.cimg := rfl
@[simp] theorem State.wrN_cnext (a n v : Nat) : (s.wrN a n v).cnext = s.cnext := rfl
@[simp] theorem State.wrN_doors (a n v : Nat) : (s.wrN a n v).doors = s.doors := rfl
@[simp] theorem State.wrN_ddies (a n v : Nat) : (s.wrN a n v).ddies = s.ddies := rfl
@[simp] theorem State.wrN_loads (a n v : Nat) : (s.wrN a n v).loads = s.loads := rfl
@[simp] theorem State.wrN_ldies (a n v : Nat) : (s.wrN a n v).ldies = s.ldies := rfl
@[simp] theorem State.wrN_fields (a n v : Nat) : (s.wrN a n v).fields = s.fields := rfl
@[simp] theorem State.wrN_net (a n v : Nat) : (s.wrN a n v).net = s.net := rfl
@[simp] theorem State.wrN_il (a n v : Nat) : (s.wrN a n v).il = s.il := rfl
@[simp] theorem State.wrN_dup (a n v : Nat) : (s.wrN a n v).dup = s.dup := rfl
@[simp] theorem State.wrN_mem (a n v : Nat) : (s.wrN a n v).mem = s.mem := rfl
@[simp] theorem State.wrN_qp (a n v : Nat) : (s.wrN a n v).qp = s.qp := rfl
@[simp] theorem State.wrN_reads (a n v : Nat) : (s.wrN a n v).reads = s.reads := rfl
@[simp] theorem State.wrN_tap (a n v : Nat) : (s.wrN a n v).tap = s.tap := rfl

/-! ### `mwN` changes only `mram`. -/

@[simp] theorem State.mwN_pending (a n v : Nat) : (s.mwN a n v).pending = s.pending := rfl
@[simp] theorem State.mwN_free (a n v : Nat) : (s.mwN a n v).free = s.free := rfl
@[simp] theorem State.mwN_time (a n v : Nat) : (s.mwN a n v).time = s.time := rfl
@[simp] theorem State.mwN_board (a n v : Nat) : (s.mwN a n v).board = s.board := rfl
@[simp] theorem State.mwN_regs (a n v : Nat) : (s.mwN a n v).regs = s.regs := rfl
@[simp] theorem State.mwN_live (a n v : Nat) : (s.mwN a n v).live = s.live := rfl
@[simp] theorem State.mwN_capt (a n v : Nat) : (s.mwN a n v).capt = s.capt := rfl
@[simp] theorem State.mwN_sram (a n v : Nat) : (s.mwN a n v).sram = s.sram := rfl
@[simp] theorem State.mwN_boot (a n v : Nat) : (s.mwN a n v).boot = s.boot := rfl
@[simp] theorem State.mwN_power (a n v : Nat) : (s.mwN a n v).power = s.power := rfl
@[simp] theorem State.mwN_modeReq (a n v : Nat) : (s.mwN a n v).modeReq = s.modeReq := rfl
@[simp] theorem State.mwN_cairn (a n v : Nat) : (s.mwN a n v).cairn = s.cairn := rfl
@[simp] theorem State.mwN_ledger (a n v : Nat) : (s.mwN a n v).ledger = s.ledger := rfl
@[simp] theorem State.mwN_links (a n v : Nat) : (s.mwN a n v).links = s.links := rfl
@[simp] theorem State.mwN_sats (a n v : Nat) : (s.mwN a n v).sats = s.sats := rfl
@[simp] theorem State.mwN_eng (a n v : Nat) : (s.mwN a n v).eng = s.eng := rfl
@[simp] theorem State.mwN_chg (a n v : Nat) : (s.mwN a n v).chg = s.chg := rfl
@[simp] theorem State.mwN_ctls (a n v : Nat) : (s.mwN a n v).ctls = s.ctls := rfl
@[simp] theorem State.mwN_bufs (a n v : Nat) : (s.mwN a n v).bufs = s.bufs := rfl
@[simp] theorem State.mwN_cimg (a n v : Nat) : (s.mwN a n v).cimg = s.cimg := rfl
@[simp] theorem State.mwN_cnext (a n v : Nat) : (s.mwN a n v).cnext = s.cnext := rfl
@[simp] theorem State.mwN_doors (a n v : Nat) : (s.mwN a n v).doors = s.doors := rfl
@[simp] theorem State.mwN_ddies (a n v : Nat) : (s.mwN a n v).ddies = s.ddies := rfl
@[simp] theorem State.mwN_loads (a n v : Nat) : (s.mwN a n v).loads = s.loads := rfl
@[simp] theorem State.mwN_ldies (a n v : Nat) : (s.mwN a n v).ldies = s.ldies := rfl
@[simp] theorem State.mwN_fields (a n v : Nat) : (s.mwN a n v).fields = s.fields := rfl
@[simp] theorem State.mwN_net (a n v : Nat) : (s.mwN a n v).net = s.net := rfl
@[simp] theorem State.mwN_il (a n v : Nat) : (s.mwN a n v).il = s.il := rfl
@[simp] theorem State.mwN_dup (a n v : Nat) : (s.mwN a n v).dup = s.dup := rfl
@[simp] theorem State.mwN_mem (a n v : Nat) : (s.mwN a n v).mem = s.mem := rfl
@[simp] theorem State.mwN_qp (a n v : Nat) : (s.mwN a n v).qp = s.qp := rfl
@[simp] theorem State.mwN_reads (a n v : Nat) : (s.mwN a n v).reads = s.reads := rfl
@[simp] theorem State.mwN_tap (a n v : Nat) : (s.mwN a n v).tap = s.tap := rfl

/-! ### `mwBytes` changes only `mram`. -/

@[simp] theorem State.mwBytes_pending (a : Nat) (l : List Byte) : (s.mwBytes a l).pending = s.pending := rfl
@[simp] theorem State.mwBytes_free (a : Nat) (l : List Byte) : (s.mwBytes a l).free = s.free := rfl
@[simp] theorem State.mwBytes_time (a : Nat) (l : List Byte) : (s.mwBytes a l).time = s.time := rfl
@[simp] theorem State.mwBytes_board (a : Nat) (l : List Byte) : (s.mwBytes a l).board = s.board := rfl
@[simp] theorem State.mwBytes_regs (a : Nat) (l : List Byte) : (s.mwBytes a l).regs = s.regs := rfl
@[simp] theorem State.mwBytes_live (a : Nat) (l : List Byte) : (s.mwBytes a l).live = s.live := rfl
@[simp] theorem State.mwBytes_capt (a : Nat) (l : List Byte) : (s.mwBytes a l).capt = s.capt := rfl
@[simp] theorem State.mwBytes_sram (a : Nat) (l : List Byte) : (s.mwBytes a l).sram = s.sram := rfl
@[simp] theorem State.mwBytes_boot (a : Nat) (l : List Byte) : (s.mwBytes a l).boot = s.boot := rfl
@[simp] theorem State.mwBytes_power (a : Nat) (l : List Byte) : (s.mwBytes a l).power = s.power := rfl
@[simp] theorem State.mwBytes_modeReq (a : Nat) (l : List Byte) : (s.mwBytes a l).modeReq = s.modeReq := rfl
@[simp] theorem State.mwBytes_cairn (a : Nat) (l : List Byte) : (s.mwBytes a l).cairn = s.cairn := rfl
@[simp] theorem State.mwBytes_ledger (a : Nat) (l : List Byte) : (s.mwBytes a l).ledger = s.ledger := rfl
@[simp] theorem State.mwBytes_links (a : Nat) (l : List Byte) : (s.mwBytes a l).links = s.links := rfl
@[simp] theorem State.mwBytes_sats (a : Nat) (l : List Byte) : (s.mwBytes a l).sats = s.sats := rfl
@[simp] theorem State.mwBytes_eng (a : Nat) (l : List Byte) : (s.mwBytes a l).eng = s.eng := rfl
@[simp] theorem State.mwBytes_chg (a : Nat) (l : List Byte) : (s.mwBytes a l).chg = s.chg := rfl
@[simp] theorem State.mwBytes_ctls (a : Nat) (l : List Byte) : (s.mwBytes a l).ctls = s.ctls := rfl
@[simp] theorem State.mwBytes_bufs (a : Nat) (l : List Byte) : (s.mwBytes a l).bufs = s.bufs := rfl
@[simp] theorem State.mwBytes_cimg (a : Nat) (l : List Byte) : (s.mwBytes a l).cimg = s.cimg := rfl
@[simp] theorem State.mwBytes_cnext (a : Nat) (l : List Byte) : (s.mwBytes a l).cnext = s.cnext := rfl
@[simp] theorem State.mwBytes_doors (a : Nat) (l : List Byte) : (s.mwBytes a l).doors = s.doors := rfl
@[simp] theorem State.mwBytes_ddies (a : Nat) (l : List Byte) : (s.mwBytes a l).ddies = s.ddies := rfl
@[simp] theorem State.mwBytes_loads (a : Nat) (l : List Byte) : (s.mwBytes a l).loads = s.loads := rfl
@[simp] theorem State.mwBytes_ldies (a : Nat) (l : List Byte) : (s.mwBytes a l).ldies = s.ldies := rfl
@[simp] theorem State.mwBytes_fields (a : Nat) (l : List Byte) : (s.mwBytes a l).fields = s.fields := rfl
@[simp] theorem State.mwBytes_net (a : Nat) (l : List Byte) : (s.mwBytes a l).net = s.net := rfl
@[simp] theorem State.mwBytes_il (a : Nat) (l : List Byte) : (s.mwBytes a l).il = s.il := rfl
@[simp] theorem State.mwBytes_dup (a : Nat) (l : List Byte) : (s.mwBytes a l).dup = s.dup := rfl
@[simp] theorem State.mwBytes_mem (a : Nat) (l : List Byte) : (s.mwBytes a l).mem = s.mem := rfl
@[simp] theorem State.mwBytes_qp (a : Nat) (l : List Byte) : (s.mwBytes a l).qp = s.qp := rfl
@[simp] theorem State.mwBytes_reads (a : Nat) (l : List Byte) : (s.mwBytes a l).reads = s.reads := rfl
@[simp] theorem State.mwBytes_tap (a : Nat) (l : List Byte) : (s.mwBytes a l).tap = s.tap := rfl

/-! ### `setLink` changes only `links`. -/

@[simp] theorem State.setLink_pending (n : Nat) (l : Link) : (s.setLink n l).pending = s.pending := rfl
@[simp] theorem State.setLink_free (n : Nat) (l : Link) : (s.setLink n l).free = s.free := rfl
@[simp] theorem State.setLink_time (n : Nat) (l : Link) : (s.setLink n l).time = s.time := rfl
@[simp] theorem State.setLink_board (n : Nat) (l : Link) : (s.setLink n l).board = s.board := rfl
@[simp] theorem State.setLink_regs (n : Nat) (l : Link) : (s.setLink n l).regs = s.regs := rfl
@[simp] theorem State.setLink_live (n : Nat) (l : Link) : (s.setLink n l).live = s.live := rfl
@[simp] theorem State.setLink_capt (n : Nat) (l : Link) : (s.setLink n l).capt = s.capt := rfl
@[simp] theorem State.setLink_sram (n : Nat) (l : Link) : (s.setLink n l).sram = s.sram := rfl
@[simp] theorem State.setLink_mram (n : Nat) (l : Link) : (s.setLink n l).mram = s.mram := rfl
@[simp] theorem State.setLink_boot (n : Nat) (l : Link) : (s.setLink n l).boot = s.boot := rfl
@[simp] theorem State.setLink_power (n : Nat) (l : Link) : (s.setLink n l).power = s.power := rfl
@[simp] theorem State.setLink_modeReq (n : Nat) (l : Link) : (s.setLink n l).modeReq = s.modeReq := rfl
@[simp] theorem State.setLink_cairn (n : Nat) (l : Link) : (s.setLink n l).cairn = s.cairn := rfl
@[simp] theorem State.setLink_ledger (n : Nat) (l : Link) : (s.setLink n l).ledger = s.ledger := rfl
@[simp] theorem State.setLink_sats (n : Nat) (l : Link) : (s.setLink n l).sats = s.sats := rfl
@[simp] theorem State.setLink_eng (n : Nat) (l : Link) : (s.setLink n l).eng = s.eng := rfl
@[simp] theorem State.setLink_chg (n : Nat) (l : Link) : (s.setLink n l).chg = s.chg := rfl
@[simp] theorem State.setLink_ctls (n : Nat) (l : Link) : (s.setLink n l).ctls = s.ctls := rfl
@[simp] theorem State.setLink_bufs (n : Nat) (l : Link) : (s.setLink n l).bufs = s.bufs := rfl
@[simp] theorem State.setLink_cimg (n : Nat) (l : Link) : (s.setLink n l).cimg = s.cimg := rfl
@[simp] theorem State.setLink_cnext (n : Nat) (l : Link) : (s.setLink n l).cnext = s.cnext := rfl
@[simp] theorem State.setLink_doors (n : Nat) (l : Link) : (s.setLink n l).doors = s.doors := rfl
@[simp] theorem State.setLink_ddies (n : Nat) (l : Link) : (s.setLink n l).ddies = s.ddies := rfl
@[simp] theorem State.setLink_loads (n : Nat) (l : Link) : (s.setLink n l).loads = s.loads := rfl
@[simp] theorem State.setLink_ldies (n : Nat) (l : Link) : (s.setLink n l).ldies = s.ldies := rfl
@[simp] theorem State.setLink_fields (n : Nat) (l : Link) : (s.setLink n l).fields = s.fields := rfl
@[simp] theorem State.setLink_net (n : Nat) (l : Link) : (s.setLink n l).net = s.net := rfl
@[simp] theorem State.setLink_il (n : Nat) (l : Link) : (s.setLink n l).il = s.il := rfl
@[simp] theorem State.setLink_dup (n : Nat) (l : Link) : (s.setLink n l).dup = s.dup := rfl
@[simp] theorem State.setLink_mem (n : Nat) (l : Link) : (s.setLink n l).mem = s.mem := rfl
@[simp] theorem State.setLink_qp (n : Nat) (l : Link) : (s.setLink n l).qp = s.qp := rfl
@[simp] theorem State.setLink_reads (n : Nat) (l : Link) : (s.setLink n l).reads = s.reads := rfl
@[simp] theorem State.setLink_tap (n : Nat) (l : Link) : (s.setLink n l).tap = s.tap := rfl

/-! ### `setSat` changes only `sats`. -/

@[simp] theorem State.setSat_pending (n : Nat) (x : Sat) : (s.setSat n x).pending = s.pending := rfl
@[simp] theorem State.setSat_free (n : Nat) (x : Sat) : (s.setSat n x).free = s.free := rfl
@[simp] theorem State.setSat_time (n : Nat) (x : Sat) : (s.setSat n x).time = s.time := rfl
@[simp] theorem State.setSat_board (n : Nat) (x : Sat) : (s.setSat n x).board = s.board := rfl
@[simp] theorem State.setSat_regs (n : Nat) (x : Sat) : (s.setSat n x).regs = s.regs := rfl
@[simp] theorem State.setSat_live (n : Nat) (x : Sat) : (s.setSat n x).live = s.live := rfl
@[simp] theorem State.setSat_capt (n : Nat) (x : Sat) : (s.setSat n x).capt = s.capt := rfl
@[simp] theorem State.setSat_sram (n : Nat) (x : Sat) : (s.setSat n x).sram = s.sram := rfl
@[simp] theorem State.setSat_mram (n : Nat) (x : Sat) : (s.setSat n x).mram = s.mram := rfl
@[simp] theorem State.setSat_boot (n : Nat) (x : Sat) : (s.setSat n x).boot = s.boot := rfl
@[simp] theorem State.setSat_power (n : Nat) (x : Sat) : (s.setSat n x).power = s.power := rfl
@[simp] theorem State.setSat_modeReq (n : Nat) (x : Sat) : (s.setSat n x).modeReq = s.modeReq := rfl
@[simp] theorem State.setSat_cairn (n : Nat) (x : Sat) : (s.setSat n x).cairn = s.cairn := rfl
@[simp] theorem State.setSat_ledger (n : Nat) (x : Sat) : (s.setSat n x).ledger = s.ledger := rfl
@[simp] theorem State.setSat_links (n : Nat) (x : Sat) : (s.setSat n x).links = s.links := rfl
@[simp] theorem State.setSat_eng (n : Nat) (x : Sat) : (s.setSat n x).eng = s.eng := rfl
@[simp] theorem State.setSat_chg (n : Nat) (x : Sat) : (s.setSat n x).chg = s.chg := rfl
@[simp] theorem State.setSat_ctls (n : Nat) (x : Sat) : (s.setSat n x).ctls = s.ctls := rfl
@[simp] theorem State.setSat_bufs (n : Nat) (x : Sat) : (s.setSat n x).bufs = s.bufs := rfl
@[simp] theorem State.setSat_cimg (n : Nat) (x : Sat) : (s.setSat n x).cimg = s.cimg := rfl
@[simp] theorem State.setSat_cnext (n : Nat) (x : Sat) : (s.setSat n x).cnext = s.cnext := rfl
@[simp] theorem State.setSat_doors (n : Nat) (x : Sat) : (s.setSat n x).doors = s.doors := rfl
@[simp] theorem State.setSat_ddies (n : Nat) (x : Sat) : (s.setSat n x).ddies = s.ddies := rfl
@[simp] theorem State.setSat_loads (n : Nat) (x : Sat) : (s.setSat n x).loads = s.loads := rfl
@[simp] theorem State.setSat_ldies (n : Nat) (x : Sat) : (s.setSat n x).ldies = s.ldies := rfl
@[simp] theorem State.setSat_fields (n : Nat) (x : Sat) : (s.setSat n x).fields = s.fields := rfl
@[simp] theorem State.setSat_net (n : Nat) (x : Sat) : (s.setSat n x).net = s.net := rfl
@[simp] theorem State.setSat_il (n : Nat) (x : Sat) : (s.setSat n x).il = s.il := rfl
@[simp] theorem State.setSat_dup (n : Nat) (x : Sat) : (s.setSat n x).dup = s.dup := rfl
@[simp] theorem State.setSat_mem (n : Nat) (x : Sat) : (s.setSat n x).mem = s.mem := rfl
@[simp] theorem State.setSat_qp (n : Nat) (x : Sat) : (s.setSat n x).qp = s.qp := rfl
@[simp] theorem State.setSat_reads (n : Nat) (x : Sat) : (s.setSat n x).reads = s.reads := rfl
@[simp] theorem State.setSat_tap (n : Nat) (x : Sat) : (s.setSat n x).tap = s.tap := rfl

/-! ### `setAct` changes only `eng`. -/

@[simp] theorem State.setAct_pending (t : Nat) (a : Option Act) : (s.setAct t a).pending = s.pending := rfl
@[simp] theorem State.setAct_free (t : Nat) (a : Option Act) : (s.setAct t a).free = s.free := rfl
@[simp] theorem State.setAct_time (t : Nat) (a : Option Act) : (s.setAct t a).time = s.time := rfl
@[simp] theorem State.setAct_board (t : Nat) (a : Option Act) : (s.setAct t a).board = s.board := rfl
@[simp] theorem State.setAct_regs (t : Nat) (a : Option Act) : (s.setAct t a).regs = s.regs := rfl
@[simp] theorem State.setAct_live (t : Nat) (a : Option Act) : (s.setAct t a).live = s.live := rfl
@[simp] theorem State.setAct_capt (t : Nat) (a : Option Act) : (s.setAct t a).capt = s.capt := rfl
@[simp] theorem State.setAct_sram (t : Nat) (a : Option Act) : (s.setAct t a).sram = s.sram := rfl
@[simp] theorem State.setAct_mram (t : Nat) (a : Option Act) : (s.setAct t a).mram = s.mram := rfl
@[simp] theorem State.setAct_boot (t : Nat) (a : Option Act) : (s.setAct t a).boot = s.boot := rfl
@[simp] theorem State.setAct_power (t : Nat) (a : Option Act) : (s.setAct t a).power = s.power := rfl
@[simp] theorem State.setAct_modeReq (t : Nat) (a : Option Act) : (s.setAct t a).modeReq = s.modeReq := rfl
@[simp] theorem State.setAct_cairn (t : Nat) (a : Option Act) : (s.setAct t a).cairn = s.cairn := rfl
@[simp] theorem State.setAct_ledger (t : Nat) (a : Option Act) : (s.setAct t a).ledger = s.ledger := rfl
@[simp] theorem State.setAct_links (t : Nat) (a : Option Act) : (s.setAct t a).links = s.links := rfl
@[simp] theorem State.setAct_sats (t : Nat) (a : Option Act) : (s.setAct t a).sats = s.sats := rfl
@[simp] theorem State.setAct_chg (t : Nat) (a : Option Act) : (s.setAct t a).chg = s.chg := rfl
@[simp] theorem State.setAct_ctls (t : Nat) (a : Option Act) : (s.setAct t a).ctls = s.ctls := rfl
@[simp] theorem State.setAct_bufs (t : Nat) (a : Option Act) : (s.setAct t a).bufs = s.bufs := rfl
@[simp] theorem State.setAct_cimg (t : Nat) (a : Option Act) : (s.setAct t a).cimg = s.cimg := rfl
@[simp] theorem State.setAct_cnext (t : Nat) (a : Option Act) : (s.setAct t a).cnext = s.cnext := rfl
@[simp] theorem State.setAct_doors (t : Nat) (a : Option Act) : (s.setAct t a).doors = s.doors := rfl
@[simp] theorem State.setAct_ddies (t : Nat) (a : Option Act) : (s.setAct t a).ddies = s.ddies := rfl
@[simp] theorem State.setAct_loads (t : Nat) (a : Option Act) : (s.setAct t a).loads = s.loads := rfl
@[simp] theorem State.setAct_ldies (t : Nat) (a : Option Act) : (s.setAct t a).ldies = s.ldies := rfl
@[simp] theorem State.setAct_fields (t : Nat) (a : Option Act) : (s.setAct t a).fields = s.fields := rfl
@[simp] theorem State.setAct_net (t : Nat) (a : Option Act) : (s.setAct t a).net = s.net := rfl
@[simp] theorem State.setAct_il (t : Nat) (a : Option Act) : (s.setAct t a).il = s.il := rfl
@[simp] theorem State.setAct_dup (t : Nat) (a : Option Act) : (s.setAct t a).dup = s.dup := rfl
@[simp] theorem State.setAct_mem (t : Nat) (a : Option Act) : (s.setAct t a).mem = s.mem := rfl
@[simp] theorem State.setAct_qp (t : Nat) (a : Option Act) : (s.setAct t a).qp = s.qp := rfl
@[simp] theorem State.setAct_reads (t : Nat) (a : Option Act) : (s.setAct t a).reads = s.reads := rfl
@[simp] theorem State.setAct_tap (t : Nat) (a : Option Act) : (s.setAct t a).tap = s.tap := rfl

/-! ### `enqueueRec` changes only `regs`, `cairn`. -/

@[simp] theorem State.enqueueRec_pending (r : CRec) : (s.enqueueRec r).pending = s.pending := by
  unfold State.enqueueRec; dsimp only; split
  · rfl
  · split
    · split <;> rfl
    · rfl
@[simp] theorem State.enqueueRec_free (r : CRec) : (s.enqueueRec r).free = s.free := by
  unfold State.enqueueRec; dsimp only; split
  · rfl
  · split
    · split <;> rfl
    · rfl
@[simp] theorem State.enqueueRec_time (r : CRec) : (s.enqueueRec r).time = s.time := by
  unfold State.enqueueRec; dsimp only; split
  · rfl
  · split
    · split <;> rfl
    · rfl
@[simp] theorem State.enqueueRec_board (r : CRec) : (s.enqueueRec r).board = s.board := by
  unfold State.enqueueRec; dsimp only; split
  · rfl
  · split
    · split <;> rfl
    · rfl
@[simp] theorem State.enqueueRec_live (r : CRec) : (s.enqueueRec r).live = s.live := by
  unfold State.enqueueRec; dsimp only; split
  · rfl
  · split
    · split <;> rfl
    · rfl
@[simp] theorem State.enqueueRec_capt (r : CRec) : (s.enqueueRec r).capt = s.capt := by
  unfold State.enqueueRec; dsimp only; split
  · rfl
  · split
    · split <;> rfl
    · rfl
@[simp] theorem State.enqueueRec_sram (r : CRec) : (s.enqueueRec r).sram = s.sram := by
  unfold State.enqueueRec; dsimp only; split
  · rfl
  · split
    · split <;> rfl
    · rfl
@[simp] theorem State.enqueueRec_mram (r : CRec) : (s.enqueueRec r).mram = s.mram := by
  unfold State.enqueueRec; dsimp only; split
  · rfl
  · split
    · split <;> rfl
    · rfl
@[simp] theorem State.enqueueRec_boot (r : CRec) : (s.enqueueRec r).boot = s.boot := by
  unfold State.enqueueRec; dsimp only; split
  · rfl
  · split
    · split <;> rfl
    · rfl
@[simp] theorem State.enqueueRec_power (r : CRec) : (s.enqueueRec r).power = s.power := by
  unfold State.enqueueRec; dsimp only; split
  · rfl
  · split
    · split <;> rfl
    · rfl
@[simp] theorem State.enqueueRec_modeReq (r : CRec) : (s.enqueueRec r).modeReq = s.modeReq := by
  unfold State.enqueueRec; dsimp only; split
  · rfl
  · split
    · split <;> rfl
    · rfl
@[simp] theorem State.enqueueRec_ledger (r : CRec) : (s.enqueueRec r).ledger = s.ledger := by
  unfold State.enqueueRec; dsimp only; split
  · rfl
  · split
    · split <;> rfl
    · rfl
@[simp] theorem State.enqueueRec_links (r : CRec) : (s.enqueueRec r).links = s.links := by
  unfold State.enqueueRec; dsimp only; split
  · rfl
  · split
    · split <;> rfl
    · rfl
@[simp] theorem State.enqueueRec_sats (r : CRec) : (s.enqueueRec r).sats = s.sats := by
  unfold State.enqueueRec; dsimp only; split
  · rfl
  · split
    · split <;> rfl
    · rfl
@[simp] theorem State.enqueueRec_eng (r : CRec) : (s.enqueueRec r).eng = s.eng := by
  unfold State.enqueueRec; dsimp only; split
  · rfl
  · split
    · split <;> rfl
    · rfl
@[simp] theorem State.enqueueRec_chg (r : CRec) : (s.enqueueRec r).chg = s.chg := by
  unfold State.enqueueRec; dsimp only; split
  · rfl
  · split
    · split <;> rfl
    · rfl
@[simp] theorem State.enqueueRec_ctls (r : CRec) : (s.enqueueRec r).ctls = s.ctls := by
  unfold State.enqueueRec; dsimp only; split
  · rfl
  · split
    · split <;> rfl
    · rfl
@[simp] theorem State.enqueueRec_bufs (r : CRec) : (s.enqueueRec r).bufs = s.bufs := by
  unfold State.enqueueRec; dsimp only; split
  · rfl
  · split
    · split <;> rfl
    · rfl
@[simp] theorem State.enqueueRec_cimg (r : CRec) : (s.enqueueRec r).cimg = s.cimg := by
  unfold State.enqueueRec; dsimp only; split
  · rfl
  · split
    · split <;> rfl
    · rfl
@[simp] theorem State.enqueueRec_cnext (r : CRec) : (s.enqueueRec r).cnext = s.cnext := by
  unfold State.enqueueRec; dsimp only; split
  · rfl
  · split
    · split <;> rfl
    · rfl
@[simp] theorem State.enqueueRec_doors (r : CRec) : (s.enqueueRec r).doors = s.doors := by
  unfold State.enqueueRec; dsimp only; split
  · rfl
  · split
    · split <;> rfl
    · rfl
@[simp] theorem State.enqueueRec_ddies (r : CRec) : (s.enqueueRec r).ddies = s.ddies := by
  unfold State.enqueueRec; dsimp only; split
  · rfl
  · split
    · split <;> rfl
    · rfl
@[simp] theorem State.enqueueRec_loads (r : CRec) : (s.enqueueRec r).loads = s.loads := by
  unfold State.enqueueRec; dsimp only; split
  · rfl
  · split
    · split <;> rfl
    · rfl
@[simp] theorem State.enqueueRec_ldies (r : CRec) : (s.enqueueRec r).ldies = s.ldies := by
  unfold State.enqueueRec; dsimp only; split
  · rfl
  · split
    · split <;> rfl
    · rfl
@[simp] theorem State.enqueueRec_fields (r : CRec) : (s.enqueueRec r).fields = s.fields := by
  unfold State.enqueueRec; dsimp only; split
  · rfl
  · split
    · split <;> rfl
    · rfl
@[simp] theorem State.enqueueRec_net (r : CRec) : (s.enqueueRec r).net = s.net := by
  unfold State.enqueueRec; dsimp only; split
  · rfl
  · split
    · split <;> rfl
    · rfl
@[simp] theorem State.enqueueRec_il (r : CRec) : (s.enqueueRec r).il = s.il := by
  unfold State.enqueueRec; dsimp only; split
  · rfl
  · split
    · split <;> rfl
    · rfl
@[simp] theorem State.enqueueRec_dup (r : CRec) : (s.enqueueRec r).dup = s.dup := by
  unfold State.enqueueRec; dsimp only; split
  · rfl
  · split
    · split <;> rfl
    · rfl
@[simp] theorem State.enqueueRec_mem (r : CRec) : (s.enqueueRec r).mem = s.mem := by
  unfold State.enqueueRec; dsimp only; split
  · rfl
  · split
    · split <;> rfl
    · rfl
@[simp] theorem State.enqueueRec_qp (r : CRec) : (s.enqueueRec r).qp = s.qp := by
  unfold State.enqueueRec; dsimp only; split
  · rfl
  · split
    · split <;> rfl
    · rfl
@[simp] theorem State.enqueueRec_reads (r : CRec) : (s.enqueueRec r).reads = s.reads := by
  unfold State.enqueueRec; dsimp only; split
  · rfl
  · split
    · split <;> rfl
    · rfl
@[simp] theorem State.enqueueRec_tap (r : CRec) : (s.enqueueRec r).tap = s.tap := by
  unfold State.enqueueRec; dsimp only; split
  · rfl
  · split
    · split <;> rfl
    · rfl

/-! ### `recordAs` changes only `regs`, `cairn`. -/

@[simp] theorem State.recordAs_pending (sev code slot task cyc : Nat) (data : List Byte) : (s.recordAs sev code slot task cyc data).pending = s.pending := by
  unfold State.recordAs; dsimp only; split
  · exact State.enqueueRec_pending _ _
  · split
    · exact State.enqueueRec_pending _ _
    · rfl
@[simp] theorem State.recordAs_free (sev code slot task cyc : Nat) (data : List Byte) : (s.recordAs sev code slot task cyc data).free = s.free := by
  unfold State.recordAs; dsimp only; split
  · exact State.enqueueRec_free _ _
  · split
    · exact State.enqueueRec_free _ _
    · rfl
@[simp] theorem State.recordAs_time (sev code slot task cyc : Nat) (data : List Byte) : (s.recordAs sev code slot task cyc data).time = s.time := by
  unfold State.recordAs; dsimp only; split
  · exact State.enqueueRec_time _ _
  · split
    · exact State.enqueueRec_time _ _
    · rfl
@[simp] theorem State.recordAs_board (sev code slot task cyc : Nat) (data : List Byte) : (s.recordAs sev code slot task cyc data).board = s.board := by
  unfold State.recordAs; dsimp only; split
  · exact State.enqueueRec_board _ _
  · split
    · exact State.enqueueRec_board _ _
    · rfl
@[simp] theorem State.recordAs_live (sev code slot task cyc : Nat) (data : List Byte) : (s.recordAs sev code slot task cyc data).live = s.live := by
  unfold State.recordAs; dsimp only; split
  · exact State.enqueueRec_live _ _
  · split
    · exact State.enqueueRec_live _ _
    · rfl
@[simp] theorem State.recordAs_capt (sev code slot task cyc : Nat) (data : List Byte) : (s.recordAs sev code slot task cyc data).capt = s.capt := by
  unfold State.recordAs; dsimp only; split
  · exact State.enqueueRec_capt _ _
  · split
    · exact State.enqueueRec_capt _ _
    · rfl
@[simp] theorem State.recordAs_sram (sev code slot task cyc : Nat) (data : List Byte) : (s.recordAs sev code slot task cyc data).sram = s.sram := by
  unfold State.recordAs; dsimp only; split
  · exact State.enqueueRec_sram _ _
  · split
    · exact State.enqueueRec_sram _ _
    · rfl
@[simp] theorem State.recordAs_mram (sev code slot task cyc : Nat) (data : List Byte) : (s.recordAs sev code slot task cyc data).mram = s.mram := by
  unfold State.recordAs; dsimp only; split
  · exact State.enqueueRec_mram _ _
  · split
    · exact State.enqueueRec_mram _ _
    · rfl
@[simp] theorem State.recordAs_boot (sev code slot task cyc : Nat) (data : List Byte) : (s.recordAs sev code slot task cyc data).boot = s.boot := by
  unfold State.recordAs; dsimp only; split
  · exact State.enqueueRec_boot _ _
  · split
    · exact State.enqueueRec_boot _ _
    · rfl
@[simp] theorem State.recordAs_power (sev code slot task cyc : Nat) (data : List Byte) : (s.recordAs sev code slot task cyc data).power = s.power := by
  unfold State.recordAs; dsimp only; split
  · exact State.enqueueRec_power _ _
  · split
    · exact State.enqueueRec_power _ _
    · rfl
@[simp] theorem State.recordAs_modeReq (sev code slot task cyc : Nat) (data : List Byte) : (s.recordAs sev code slot task cyc data).modeReq = s.modeReq := by
  unfold State.recordAs; dsimp only; split
  · exact State.enqueueRec_modeReq _ _
  · split
    · exact State.enqueueRec_modeReq _ _
    · rfl
@[simp] theorem State.recordAs_ledger (sev code slot task cyc : Nat) (data : List Byte) : (s.recordAs sev code slot task cyc data).ledger = s.ledger := by
  unfold State.recordAs; dsimp only; split
  · exact State.enqueueRec_ledger _ _
  · split
    · exact State.enqueueRec_ledger _ _
    · rfl
@[simp] theorem State.recordAs_links (sev code slot task cyc : Nat) (data : List Byte) : (s.recordAs sev code slot task cyc data).links = s.links := by
  unfold State.recordAs; dsimp only; split
  · exact State.enqueueRec_links _ _
  · split
    · exact State.enqueueRec_links _ _
    · rfl
@[simp] theorem State.recordAs_sats (sev code slot task cyc : Nat) (data : List Byte) : (s.recordAs sev code slot task cyc data).sats = s.sats := by
  unfold State.recordAs; dsimp only; split
  · exact State.enqueueRec_sats _ _
  · split
    · exact State.enqueueRec_sats _ _
    · rfl
@[simp] theorem State.recordAs_eng (sev code slot task cyc : Nat) (data : List Byte) : (s.recordAs sev code slot task cyc data).eng = s.eng := by
  unfold State.recordAs; dsimp only; split
  · exact State.enqueueRec_eng _ _
  · split
    · exact State.enqueueRec_eng _ _
    · rfl
@[simp] theorem State.recordAs_chg (sev code slot task cyc : Nat) (data : List Byte) : (s.recordAs sev code slot task cyc data).chg = s.chg := by
  unfold State.recordAs; dsimp only; split
  · exact State.enqueueRec_chg _ _
  · split
    · exact State.enqueueRec_chg _ _
    · rfl
@[simp] theorem State.recordAs_ctls (sev code slot task cyc : Nat) (data : List Byte) : (s.recordAs sev code slot task cyc data).ctls = s.ctls := by
  unfold State.recordAs; dsimp only; split
  · exact State.enqueueRec_ctls _ _
  · split
    · exact State.enqueueRec_ctls _ _
    · rfl
@[simp] theorem State.recordAs_bufs (sev code slot task cyc : Nat) (data : List Byte) : (s.recordAs sev code slot task cyc data).bufs = s.bufs := by
  unfold State.recordAs; dsimp only; split
  · exact State.enqueueRec_bufs _ _
  · split
    · exact State.enqueueRec_bufs _ _
    · rfl
@[simp] theorem State.recordAs_cimg (sev code slot task cyc : Nat) (data : List Byte) : (s.recordAs sev code slot task cyc data).cimg = s.cimg := by
  unfold State.recordAs; dsimp only; split
  · exact State.enqueueRec_cimg _ _
  · split
    · exact State.enqueueRec_cimg _ _
    · rfl
@[simp] theorem State.recordAs_cnext (sev code slot task cyc : Nat) (data : List Byte) : (s.recordAs sev code slot task cyc data).cnext = s.cnext := by
  unfold State.recordAs; dsimp only; split
  · exact State.enqueueRec_cnext _ _
  · split
    · exact State.enqueueRec_cnext _ _
    · rfl
@[simp] theorem State.recordAs_doors (sev code slot task cyc : Nat) (data : List Byte) : (s.recordAs sev code slot task cyc data).doors = s.doors := by
  unfold State.recordAs; dsimp only; split
  · exact State.enqueueRec_doors _ _
  · split
    · exact State.enqueueRec_doors _ _
    · rfl
@[simp] theorem State.recordAs_ddies (sev code slot task cyc : Nat) (data : List Byte) : (s.recordAs sev code slot task cyc data).ddies = s.ddies := by
  unfold State.recordAs; dsimp only; split
  · exact State.enqueueRec_ddies _ _
  · split
    · exact State.enqueueRec_ddies _ _
    · rfl
@[simp] theorem State.recordAs_loads (sev code slot task cyc : Nat) (data : List Byte) : (s.recordAs sev code slot task cyc data).loads = s.loads := by
  unfold State.recordAs; dsimp only; split
  · exact State.enqueueRec_loads _ _
  · split
    · exact State.enqueueRec_loads _ _
    · rfl
@[simp] theorem State.recordAs_ldies (sev code slot task cyc : Nat) (data : List Byte) : (s.recordAs sev code slot task cyc data).ldies = s.ldies := by
  unfold State.recordAs; dsimp only; split
  · exact State.enqueueRec_ldies _ _
  · split
    · exact State.enqueueRec_ldies _ _
    · rfl
@[simp] theorem State.recordAs_fields (sev code slot task cyc : Nat) (data : List Byte) : (s.recordAs sev code slot task cyc data).fields = s.fields := by
  unfold State.recordAs; dsimp only; split
  · exact State.enqueueRec_fields _ _
  · split
    · exact State.enqueueRec_fields _ _
    · rfl
@[simp] theorem State.recordAs_net (sev code slot task cyc : Nat) (data : List Byte) : (s.recordAs sev code slot task cyc data).net = s.net := by
  unfold State.recordAs; dsimp only; split
  · exact State.enqueueRec_net _ _
  · split
    · exact State.enqueueRec_net _ _
    · rfl
@[simp] theorem State.recordAs_il (sev code slot task cyc : Nat) (data : List Byte) : (s.recordAs sev code slot task cyc data).il = s.il := by
  unfold State.recordAs; dsimp only; split
  · exact State.enqueueRec_il _ _
  · split
    · exact State.enqueueRec_il _ _
    · rfl
@[simp] theorem State.recordAs_dup (sev code slot task cyc : Nat) (data : List Byte) : (s.recordAs sev code slot task cyc data).dup = s.dup := by
  unfold State.recordAs; dsimp only; split
  · exact State.enqueueRec_dup _ _
  · split
    · exact State.enqueueRec_dup _ _
    · rfl
@[simp] theorem State.recordAs_mem (sev code slot task cyc : Nat) (data : List Byte) : (s.recordAs sev code slot task cyc data).mem = s.mem := by
  unfold State.recordAs; dsimp only; split
  · exact State.enqueueRec_mem _ _
  · split
    · exact State.enqueueRec_mem _ _
    · rfl
@[simp] theorem State.recordAs_qp (sev code slot task cyc : Nat) (data : List Byte) : (s.recordAs sev code slot task cyc data).qp = s.qp := by
  unfold State.recordAs; dsimp only; split
  · exact State.enqueueRec_qp _ _
  · split
    · exact State.enqueueRec_qp _ _
    · rfl
@[simp] theorem State.recordAs_reads (sev code slot task cyc : Nat) (data : List Byte) : (s.recordAs sev code slot task cyc data).reads = s.reads := by
  unfold State.recordAs; dsimp only; split
  · exact State.enqueueRec_reads _ _
  · split
    · exact State.enqueueRec_reads _ _
    · rfl
@[simp] theorem State.recordAs_tap (sev code slot task cyc : Nat) (data : List Byte) : (s.recordAs sev code slot task cyc data).tap = s.tap := by
  unfold State.recordAs; dsimp only; split
  · exact State.enqueueRec_tap _ _
  · split
    · exact State.enqueueRec_tap _ _
    · rfl

/-! ### `recordFrom` changes only `regs`, `cairn`. -/

@[simp] theorem State.recordFrom_pending (code slot task : Nat) (data : List Byte) : (s.recordFrom code slot task data).pending = s.pending := State.recordAs_pending ..
@[simp] theorem State.recordFrom_free (code slot task : Nat) (data : List Byte) : (s.recordFrom code slot task data).free = s.free := State.recordAs_free ..
@[simp] theorem State.recordFrom_time (code slot task : Nat) (data : List Byte) : (s.recordFrom code slot task data).time = s.time := State.recordAs_time ..
@[simp] theorem State.recordFrom_board (code slot task : Nat) (data : List Byte) : (s.recordFrom code slot task data).board = s.board := State.recordAs_board ..
@[simp] theorem State.recordFrom_live (code slot task : Nat) (data : List Byte) : (s.recordFrom code slot task data).live = s.live := State.recordAs_live ..
@[simp] theorem State.recordFrom_capt (code slot task : Nat) (data : List Byte) : (s.recordFrom code slot task data).capt = s.capt := State.recordAs_capt ..
@[simp] theorem State.recordFrom_sram (code slot task : Nat) (data : List Byte) : (s.recordFrom code slot task data).sram = s.sram := State.recordAs_sram ..
@[simp] theorem State.recordFrom_mram (code slot task : Nat) (data : List Byte) : (s.recordFrom code slot task data).mram = s.mram := State.recordAs_mram ..
@[simp] theorem State.recordFrom_boot (code slot task : Nat) (data : List Byte) : (s.recordFrom code slot task data).boot = s.boot := State.recordAs_boot ..
@[simp] theorem State.recordFrom_power (code slot task : Nat) (data : List Byte) : (s.recordFrom code slot task data).power = s.power := State.recordAs_power ..
@[simp] theorem State.recordFrom_modeReq (code slot task : Nat) (data : List Byte) : (s.recordFrom code slot task data).modeReq = s.modeReq := State.recordAs_modeReq ..
@[simp] theorem State.recordFrom_ledger (code slot task : Nat) (data : List Byte) : (s.recordFrom code slot task data).ledger = s.ledger := State.recordAs_ledger ..
@[simp] theorem State.recordFrom_links (code slot task : Nat) (data : List Byte) : (s.recordFrom code slot task data).links = s.links := State.recordAs_links ..
@[simp] theorem State.recordFrom_sats (code slot task : Nat) (data : List Byte) : (s.recordFrom code slot task data).sats = s.sats := State.recordAs_sats ..
@[simp] theorem State.recordFrom_eng (code slot task : Nat) (data : List Byte) : (s.recordFrom code slot task data).eng = s.eng := State.recordAs_eng ..
@[simp] theorem State.recordFrom_chg (code slot task : Nat) (data : List Byte) : (s.recordFrom code slot task data).chg = s.chg := State.recordAs_chg ..
@[simp] theorem State.recordFrom_ctls (code slot task : Nat) (data : List Byte) : (s.recordFrom code slot task data).ctls = s.ctls := State.recordAs_ctls ..
@[simp] theorem State.recordFrom_bufs (code slot task : Nat) (data : List Byte) : (s.recordFrom code slot task data).bufs = s.bufs := State.recordAs_bufs ..
@[simp] theorem State.recordFrom_cimg (code slot task : Nat) (data : List Byte) : (s.recordFrom code slot task data).cimg = s.cimg := State.recordAs_cimg ..
@[simp] theorem State.recordFrom_cnext (code slot task : Nat) (data : List Byte) : (s.recordFrom code slot task data).cnext = s.cnext := State.recordAs_cnext ..
@[simp] theorem State.recordFrom_doors (code slot task : Nat) (data : List Byte) : (s.recordFrom code slot task data).doors = s.doors := State.recordAs_doors ..
@[simp] theorem State.recordFrom_ddies (code slot task : Nat) (data : List Byte) : (s.recordFrom code slot task data).ddies = s.ddies := State.recordAs_ddies ..
@[simp] theorem State.recordFrom_loads (code slot task : Nat) (data : List Byte) : (s.recordFrom code slot task data).loads = s.loads := State.recordAs_loads ..
@[simp] theorem State.recordFrom_ldies (code slot task : Nat) (data : List Byte) : (s.recordFrom code slot task data).ldies = s.ldies := State.recordAs_ldies ..
@[simp] theorem State.recordFrom_fields (code slot task : Nat) (data : List Byte) : (s.recordFrom code slot task data).fields = s.fields := State.recordAs_fields ..
@[simp] theorem State.recordFrom_net (code slot task : Nat) (data : List Byte) : (s.recordFrom code slot task data).net = s.net := State.recordAs_net ..
@[simp] theorem State.recordFrom_il (code slot task : Nat) (data : List Byte) : (s.recordFrom code slot task data).il = s.il := State.recordAs_il ..
@[simp] theorem State.recordFrom_dup (code slot task : Nat) (data : List Byte) : (s.recordFrom code slot task data).dup = s.dup := State.recordAs_dup ..
@[simp] theorem State.recordFrom_mem (code slot task : Nat) (data : List Byte) : (s.recordFrom code slot task data).mem = s.mem := State.recordAs_mem ..
@[simp] theorem State.recordFrom_qp (code slot task : Nat) (data : List Byte) : (s.recordFrom code slot task data).qp = s.qp := State.recordAs_qp ..
@[simp] theorem State.recordFrom_reads (code slot task : Nat) (data : List Byte) : (s.recordFrom code slot task data).reads = s.reads := State.recordAs_reads ..
@[simp] theorem State.recordFrom_tap (code slot task : Nat) (data : List Byte) : (s.recordFrom code slot task data).tap = s.tap := State.recordAs_tap ..

/-! ### `record` changes only `regs`, `cairn`. -/

@[simp] theorem State.record_pending (code : Nat) (data : List Byte) : (s.record code data).pending = s.pending := State.recordFrom_pending ..
@[simp] theorem State.record_free (code : Nat) (data : List Byte) : (s.record code data).free = s.free := State.recordFrom_free ..
@[simp] theorem State.record_time (code : Nat) (data : List Byte) : (s.record code data).time = s.time := State.recordFrom_time ..
@[simp] theorem State.record_board (code : Nat) (data : List Byte) : (s.record code data).board = s.board := State.recordFrom_board ..
@[simp] theorem State.record_live (code : Nat) (data : List Byte) : (s.record code data).live = s.live := State.recordFrom_live ..
@[simp] theorem State.record_capt (code : Nat) (data : List Byte) : (s.record code data).capt = s.capt := State.recordFrom_capt ..
@[simp] theorem State.record_sram (code : Nat) (data : List Byte) : (s.record code data).sram = s.sram := State.recordFrom_sram ..
@[simp] theorem State.record_mram (code : Nat) (data : List Byte) : (s.record code data).mram = s.mram := State.recordFrom_mram ..
@[simp] theorem State.record_boot (code : Nat) (data : List Byte) : (s.record code data).boot = s.boot := State.recordFrom_boot ..
@[simp] theorem State.record_power (code : Nat) (data : List Byte) : (s.record code data).power = s.power := State.recordFrom_power ..
@[simp] theorem State.record_modeReq (code : Nat) (data : List Byte) : (s.record code data).modeReq = s.modeReq := State.recordFrom_modeReq ..
@[simp] theorem State.record_ledger (code : Nat) (data : List Byte) : (s.record code data).ledger = s.ledger := State.recordFrom_ledger ..
@[simp] theorem State.record_links (code : Nat) (data : List Byte) : (s.record code data).links = s.links := State.recordFrom_links ..
@[simp] theorem State.record_sats (code : Nat) (data : List Byte) : (s.record code data).sats = s.sats := State.recordFrom_sats ..
@[simp] theorem State.record_eng (code : Nat) (data : List Byte) : (s.record code data).eng = s.eng := State.recordFrom_eng ..
@[simp] theorem State.record_chg (code : Nat) (data : List Byte) : (s.record code data).chg = s.chg := State.recordFrom_chg ..
@[simp] theorem State.record_ctls (code : Nat) (data : List Byte) : (s.record code data).ctls = s.ctls := State.recordFrom_ctls ..
@[simp] theorem State.record_bufs (code : Nat) (data : List Byte) : (s.record code data).bufs = s.bufs := State.recordFrom_bufs ..
@[simp] theorem State.record_cimg (code : Nat) (data : List Byte) : (s.record code data).cimg = s.cimg := State.recordFrom_cimg ..
@[simp] theorem State.record_cnext (code : Nat) (data : List Byte) : (s.record code data).cnext = s.cnext := State.recordFrom_cnext ..
@[simp] theorem State.record_doors (code : Nat) (data : List Byte) : (s.record code data).doors = s.doors := State.recordFrom_doors ..
@[simp] theorem State.record_ddies (code : Nat) (data : List Byte) : (s.record code data).ddies = s.ddies := State.recordFrom_ddies ..
@[simp] theorem State.record_loads (code : Nat) (data : List Byte) : (s.record code data).loads = s.loads := State.recordFrom_loads ..
@[simp] theorem State.record_ldies (code : Nat) (data : List Byte) : (s.record code data).ldies = s.ldies := State.recordFrom_ldies ..
@[simp] theorem State.record_fields (code : Nat) (data : List Byte) : (s.record code data).fields = s.fields := State.recordFrom_fields ..
@[simp] theorem State.record_net (code : Nat) (data : List Byte) : (s.record code data).net = s.net := State.recordFrom_net ..
@[simp] theorem State.record_il (code : Nat) (data : List Byte) : (s.record code data).il = s.il := State.recordFrom_il ..
@[simp] theorem State.record_dup (code : Nat) (data : List Byte) : (s.record code data).dup = s.dup := State.recordFrom_dup ..
@[simp] theorem State.record_mem (code : Nat) (data : List Byte) : (s.record code data).mem = s.mem := State.recordFrom_mem ..
@[simp] theorem State.record_qp (code : Nat) (data : List Byte) : (s.record code data).qp = s.qp := State.recordFrom_qp ..
@[simp] theorem State.record_reads (code : Nat) (data : List Byte) : (s.record code data).reads = s.reads := State.recordFrom_reads ..
@[simp] theorem State.record_tap (code : Nat) (data : List Byte) : (s.record code data).tap = s.tap := State.recordFrom_tap ..

/-! ### `setMode` changes only `regs`, `cairn`. -/

@[simp] theorem State.setMode_pending (m trig : Nat) : (s.setMode m trig).pending = s.pending := by
  unfold State.setMode; exact (State.record_pending ..).trans ((State.fmod_pending ..).trans (State.fset_pending ..))
@[simp] theorem State.setMode_free (m trig : Nat) : (s.setMode m trig).free = s.free := by
  unfold State.setMode; exact (State.record_free ..).trans ((State.fmod_free ..).trans (State.fset_free ..))
@[simp] theorem State.setMode_time (m trig : Nat) : (s.setMode m trig).time = s.time := by
  unfold State.setMode; exact (State.record_time ..).trans ((State.fmod_time ..).trans (State.fset_time ..))
@[simp] theorem State.setMode_board (m trig : Nat) : (s.setMode m trig).board = s.board := by
  unfold State.setMode; exact (State.record_board ..).trans ((State.fmod_board ..).trans (State.fset_board ..))
@[simp] theorem State.setMode_live (m trig : Nat) : (s.setMode m trig).live = s.live := by
  unfold State.setMode; exact (State.record_live ..).trans ((State.fmod_live ..).trans (State.fset_live ..))
@[simp] theorem State.setMode_capt (m trig : Nat) : (s.setMode m trig).capt = s.capt := by
  unfold State.setMode; exact (State.record_capt ..).trans ((State.fmod_capt ..).trans (State.fset_capt ..))
@[simp] theorem State.setMode_sram (m trig : Nat) : (s.setMode m trig).sram = s.sram := by
  unfold State.setMode; exact (State.record_sram ..).trans ((State.fmod_sram ..).trans (State.fset_sram ..))
@[simp] theorem State.setMode_mram (m trig : Nat) : (s.setMode m trig).mram = s.mram := by
  unfold State.setMode; exact (State.record_mram ..).trans ((State.fmod_mram ..).trans (State.fset_mram ..))
@[simp] theorem State.setMode_boot (m trig : Nat) : (s.setMode m trig).boot = s.boot := by
  unfold State.setMode; exact (State.record_boot ..).trans ((State.fmod_boot ..).trans (State.fset_boot ..))
@[simp] theorem State.setMode_power (m trig : Nat) : (s.setMode m trig).power = s.power := by
  unfold State.setMode; exact (State.record_power ..).trans ((State.fmod_power ..).trans (State.fset_power ..))
@[simp] theorem State.setMode_modeReq (m trig : Nat) : (s.setMode m trig).modeReq = s.modeReq := by
  unfold State.setMode; exact (State.record_modeReq ..).trans ((State.fmod_modeReq ..).trans (State.fset_modeReq ..))
@[simp] theorem State.setMode_ledger (m trig : Nat) : (s.setMode m trig).ledger = s.ledger := by
  unfold State.setMode; exact (State.record_ledger ..).trans ((State.fmod_ledger ..).trans (State.fset_ledger ..))
@[simp] theorem State.setMode_links (m trig : Nat) : (s.setMode m trig).links = s.links := by
  unfold State.setMode; exact (State.record_links ..).trans ((State.fmod_links ..).trans (State.fset_links ..))
@[simp] theorem State.setMode_sats (m trig : Nat) : (s.setMode m trig).sats = s.sats := by
  unfold State.setMode; exact (State.record_sats ..).trans ((State.fmod_sats ..).trans (State.fset_sats ..))
@[simp] theorem State.setMode_eng (m trig : Nat) : (s.setMode m trig).eng = s.eng := by
  unfold State.setMode; exact (State.record_eng ..).trans ((State.fmod_eng ..).trans (State.fset_eng ..))
@[simp] theorem State.setMode_chg (m trig : Nat) : (s.setMode m trig).chg = s.chg := by
  unfold State.setMode; exact (State.record_chg ..).trans ((State.fmod_chg ..).trans (State.fset_chg ..))
@[simp] theorem State.setMode_ctls (m trig : Nat) : (s.setMode m trig).ctls = s.ctls := by
  unfold State.setMode; exact (State.record_ctls ..).trans ((State.fmod_ctls ..).trans (State.fset_ctls ..))
@[simp] theorem State.setMode_bufs (m trig : Nat) : (s.setMode m trig).bufs = s.bufs := by
  unfold State.setMode; exact (State.record_bufs ..).trans ((State.fmod_bufs ..).trans (State.fset_bufs ..))
@[simp] theorem State.setMode_cimg (m trig : Nat) : (s.setMode m trig).cimg = s.cimg := by
  unfold State.setMode; exact (State.record_cimg ..).trans ((State.fmod_cimg ..).trans (State.fset_cimg ..))
@[simp] theorem State.setMode_cnext (m trig : Nat) : (s.setMode m trig).cnext = s.cnext := by
  unfold State.setMode; exact (State.record_cnext ..).trans ((State.fmod_cnext ..).trans (State.fset_cnext ..))
@[simp] theorem State.setMode_doors (m trig : Nat) : (s.setMode m trig).doors = s.doors := by
  unfold State.setMode; exact (State.record_doors ..).trans ((State.fmod_doors ..).trans (State.fset_doors ..))
@[simp] theorem State.setMode_ddies (m trig : Nat) : (s.setMode m trig).ddies = s.ddies := by
  unfold State.setMode; exact (State.record_ddies ..).trans ((State.fmod_ddies ..).trans (State.fset_ddies ..))
@[simp] theorem State.setMode_loads (m trig : Nat) : (s.setMode m trig).loads = s.loads := by
  unfold State.setMode; exact (State.record_loads ..).trans ((State.fmod_loads ..).trans (State.fset_loads ..))
@[simp] theorem State.setMode_ldies (m trig : Nat) : (s.setMode m trig).ldies = s.ldies := by
  unfold State.setMode; exact (State.record_ldies ..).trans ((State.fmod_ldies ..).trans (State.fset_ldies ..))
@[simp] theorem State.setMode_fields (m trig : Nat) : (s.setMode m trig).fields = s.fields := by
  unfold State.setMode; exact (State.record_fields ..).trans ((State.fmod_fields ..).trans (State.fset_fields ..))
@[simp] theorem State.setMode_net (m trig : Nat) : (s.setMode m trig).net = s.net := by
  unfold State.setMode; exact (State.record_net ..).trans ((State.fmod_net ..).trans (State.fset_net ..))
@[simp] theorem State.setMode_il (m trig : Nat) : (s.setMode m trig).il = s.il := by
  unfold State.setMode; exact (State.record_il ..).trans ((State.fmod_il ..).trans (State.fset_il ..))
@[simp] theorem State.setMode_dup (m trig : Nat) : (s.setMode m trig).dup = s.dup := by
  unfold State.setMode; exact (State.record_dup ..).trans ((State.fmod_dup ..).trans (State.fset_dup ..))
@[simp] theorem State.setMode_mem (m trig : Nat) : (s.setMode m trig).mem = s.mem := by
  unfold State.setMode; exact (State.record_mem ..).trans ((State.fmod_mem ..).trans (State.fset_mem ..))
@[simp] theorem State.setMode_qp (m trig : Nat) : (s.setMode m trig).qp = s.qp := by
  unfold State.setMode; exact (State.record_qp ..).trans ((State.fmod_qp ..).trans (State.fset_qp ..))
@[simp] theorem State.setMode_reads (m trig : Nat) : (s.setMode m trig).reads = s.reads := by
  unfold State.setMode; exact (State.record_reads ..).trans ((State.fmod_reads ..).trans (State.fset_reads ..))
@[simp] theorem State.setMode_tap (m trig : Nat) : (s.setMode m trig).tap = s.tap := by
  unfold State.setMode; exact (State.record_tap ..).trans ((State.fmod_tap ..).trans (State.fset_tap ..))

/-! ### `setClaim` changes only `regs`, `dup`. -/

@[simp] theorem State.setClaim_pending (b : Bool) : (s.setClaim b).pending = s.pending := by
  unfold State.setClaim; dsimp only; split <;> split <;> rfl
@[simp] theorem State.setClaim_free (b : Bool) : (s.setClaim b).free = s.free := by
  unfold State.setClaim; dsimp only; split <;> split <;> rfl
@[simp] theorem State.setClaim_time (b : Bool) : (s.setClaim b).time = s.time := by
  unfold State.setClaim; dsimp only; split <;> split <;> rfl
@[simp] theorem State.setClaim_board (b : Bool) : (s.setClaim b).board = s.board := by
  unfold State.setClaim; dsimp only; split <;> split <;> rfl
@[simp] theorem State.setClaim_live (b : Bool) : (s.setClaim b).live = s.live := by
  unfold State.setClaim; dsimp only; split <;> split <;> rfl
@[simp] theorem State.setClaim_capt (b : Bool) : (s.setClaim b).capt = s.capt := by
  unfold State.setClaim; dsimp only; split <;> split <;> rfl
@[simp] theorem State.setClaim_sram (b : Bool) : (s.setClaim b).sram = s.sram := by
  unfold State.setClaim; dsimp only; split <;> split <;> rfl
@[simp] theorem State.setClaim_mram (b : Bool) : (s.setClaim b).mram = s.mram := by
  unfold State.setClaim; dsimp only; split <;> split <;> rfl
@[simp] theorem State.setClaim_boot (b : Bool) : (s.setClaim b).boot = s.boot := by
  unfold State.setClaim; dsimp only; split <;> split <;> rfl
@[simp] theorem State.setClaim_power (b : Bool) : (s.setClaim b).power = s.power := by
  unfold State.setClaim; dsimp only; split <;> split <;> rfl
@[simp] theorem State.setClaim_modeReq (b : Bool) : (s.setClaim b).modeReq = s.modeReq := by
  unfold State.setClaim; dsimp only; split <;> split <;> rfl
@[simp] theorem State.setClaim_cairn (b : Bool) : (s.setClaim b).cairn = s.cairn := by
  unfold State.setClaim; dsimp only; split <;> split <;> rfl
@[simp] theorem State.setClaim_ledger (b : Bool) : (s.setClaim b).ledger = s.ledger := by
  unfold State.setClaim; dsimp only; split <;> split <;> rfl
@[simp] theorem State.setClaim_links (b : Bool) : (s.setClaim b).links = s.links := by
  unfold State.setClaim; dsimp only; split <;> split <;> rfl
@[simp] theorem State.setClaim_sats (b : Bool) : (s.setClaim b).sats = s.sats := by
  unfold State.setClaim; dsimp only; split <;> split <;> rfl
@[simp] theorem State.setClaim_eng (b : Bool) : (s.setClaim b).eng = s.eng := by
  unfold State.setClaim; dsimp only; split <;> split <;> rfl
@[simp] theorem State.setClaim_chg (b : Bool) : (s.setClaim b).chg = s.chg := by
  unfold State.setClaim; dsimp only; split <;> split <;> rfl
@[simp] theorem State.setClaim_ctls (b : Bool) : (s.setClaim b).ctls = s.ctls := by
  unfold State.setClaim; dsimp only; split <;> split <;> rfl
@[simp] theorem State.setClaim_bufs (b : Bool) : (s.setClaim b).bufs = s.bufs := by
  unfold State.setClaim; dsimp only; split <;> split <;> rfl
@[simp] theorem State.setClaim_cimg (b : Bool) : (s.setClaim b).cimg = s.cimg := by
  unfold State.setClaim; dsimp only; split <;> split <;> rfl
@[simp] theorem State.setClaim_cnext (b : Bool) : (s.setClaim b).cnext = s.cnext := by
  unfold State.setClaim; dsimp only; split <;> split <;> rfl
@[simp] theorem State.setClaim_doors (b : Bool) : (s.setClaim b).doors = s.doors := by
  unfold State.setClaim; dsimp only; split <;> split <;> rfl
@[simp] theorem State.setClaim_ddies (b : Bool) : (s.setClaim b).ddies = s.ddies := by
  unfold State.setClaim; dsimp only; split <;> split <;> rfl
@[simp] theorem State.setClaim_loads (b : Bool) : (s.setClaim b).loads = s.loads := by
  unfold State.setClaim; dsimp only; split <;> split <;> rfl
@[simp] theorem State.setClaim_ldies (b : Bool) : (s.setClaim b).ldies = s.ldies := by
  unfold State.setClaim; dsimp only; split <;> split <;> rfl
@[simp] theorem State.setClaim_fields (b : Bool) : (s.setClaim b).fields = s.fields := by
  unfold State.setClaim; dsimp only; split <;> split <;> rfl
@[simp] theorem State.setClaim_net (b : Bool) : (s.setClaim b).net = s.net := by
  unfold State.setClaim; dsimp only; split <;> split <;> rfl
@[simp] theorem State.setClaim_il (b : Bool) : (s.setClaim b).il = s.il := by
  unfold State.setClaim; dsimp only; split <;> split <;> rfl
@[simp] theorem State.setClaim_mem (b : Bool) : (s.setClaim b).mem = s.mem := by
  unfold State.setClaim; dsimp only; split <;> split <;> rfl
@[simp] theorem State.setClaim_qp (b : Bool) : (s.setClaim b).qp = s.qp := by
  unfold State.setClaim; dsimp only; split <;> split <;> rfl
@[simp] theorem State.setClaim_reads (b : Bool) : (s.setClaim b).reads = s.reads := by
  unfold State.setClaim; dsimp only; split <;> split <;> rfl
@[simp] theorem State.setClaim_tap (b : Bool) : (s.setClaim b).tap = s.tap := by
  unfold State.setClaim; dsimp only; split <;> split <;> rfl

/-! ### `nowSafe` changes only `regs`, `cairn`, `dup`. -/

@[simp] theorem State.nowSafe_pending (reason detail trig : Nat) : (s.nowSafe reason detail trig).pending = s.pending := by
  unfold State.nowSafe; exact (State.setClaim_pending ..).trans ((State.fset_pending ..).trans ((State.fset_pending ..).trans (State.setMode_pending ..)))
@[simp] theorem State.nowSafe_free (reason detail trig : Nat) : (s.nowSafe reason detail trig).free = s.free := by
  unfold State.nowSafe; exact (State.setClaim_free ..).trans ((State.fset_free ..).trans ((State.fset_free ..).trans (State.setMode_free ..)))
@[simp] theorem State.nowSafe_time (reason detail trig : Nat) : (s.nowSafe reason detail trig).time = s.time := by
  unfold State.nowSafe; exact (State.setClaim_time ..).trans ((State.fset_time ..).trans ((State.fset_time ..).trans (State.setMode_time ..)))
@[simp] theorem State.nowSafe_board (reason detail trig : Nat) : (s.nowSafe reason detail trig).board = s.board := by
  unfold State.nowSafe; exact (State.setClaim_board ..).trans ((State.fset_board ..).trans ((State.fset_board ..).trans (State.setMode_board ..)))
@[simp] theorem State.nowSafe_live (reason detail trig : Nat) : (s.nowSafe reason detail trig).live = s.live := by
  unfold State.nowSafe; exact (State.setClaim_live ..).trans ((State.fset_live ..).trans ((State.fset_live ..).trans (State.setMode_live ..)))
@[simp] theorem State.nowSafe_capt (reason detail trig : Nat) : (s.nowSafe reason detail trig).capt = s.capt := by
  unfold State.nowSafe; exact (State.setClaim_capt ..).trans ((State.fset_capt ..).trans ((State.fset_capt ..).trans (State.setMode_capt ..)))
@[simp] theorem State.nowSafe_sram (reason detail trig : Nat) : (s.nowSafe reason detail trig).sram = s.sram := by
  unfold State.nowSafe; exact (State.setClaim_sram ..).trans ((State.fset_sram ..).trans ((State.fset_sram ..).trans (State.setMode_sram ..)))
@[simp] theorem State.nowSafe_mram (reason detail trig : Nat) : (s.nowSafe reason detail trig).mram = s.mram := by
  unfold State.nowSafe; exact (State.setClaim_mram ..).trans ((State.fset_mram ..).trans ((State.fset_mram ..).trans (State.setMode_mram ..)))
@[simp] theorem State.nowSafe_boot (reason detail trig : Nat) : (s.nowSafe reason detail trig).boot = s.boot := by
  unfold State.nowSafe; exact (State.setClaim_boot ..).trans ((State.fset_boot ..).trans ((State.fset_boot ..).trans (State.setMode_boot ..)))
@[simp] theorem State.nowSafe_power (reason detail trig : Nat) : (s.nowSafe reason detail trig).power = s.power := by
  unfold State.nowSafe; exact (State.setClaim_power ..).trans ((State.fset_power ..).trans ((State.fset_power ..).trans (State.setMode_power ..)))
@[simp] theorem State.nowSafe_modeReq (reason detail trig : Nat) : (s.nowSafe reason detail trig).modeReq = s.modeReq := by
  unfold State.nowSafe; exact (State.setClaim_modeReq ..).trans ((State.fset_modeReq ..).trans ((State.fset_modeReq ..).trans (State.setMode_modeReq ..)))
@[simp] theorem State.nowSafe_ledger (reason detail trig : Nat) : (s.nowSafe reason detail trig).ledger = s.ledger := by
  unfold State.nowSafe; exact (State.setClaim_ledger ..).trans ((State.fset_ledger ..).trans ((State.fset_ledger ..).trans (State.setMode_ledger ..)))
@[simp] theorem State.nowSafe_links (reason detail trig : Nat) : (s.nowSafe reason detail trig).links = s.links := by
  unfold State.nowSafe; exact (State.setClaim_links ..).trans ((State.fset_links ..).trans ((State.fset_links ..).trans (State.setMode_links ..)))
@[simp] theorem State.nowSafe_sats (reason detail trig : Nat) : (s.nowSafe reason detail trig).sats = s.sats := by
  unfold State.nowSafe; exact (State.setClaim_sats ..).trans ((State.fset_sats ..).trans ((State.fset_sats ..).trans (State.setMode_sats ..)))
@[simp] theorem State.nowSafe_eng (reason detail trig : Nat) : (s.nowSafe reason detail trig).eng = s.eng := by
  unfold State.nowSafe; exact (State.setClaim_eng ..).trans ((State.fset_eng ..).trans ((State.fset_eng ..).trans (State.setMode_eng ..)))
@[simp] theorem State.nowSafe_chg (reason detail trig : Nat) : (s.nowSafe reason detail trig).chg = s.chg := by
  unfold State.nowSafe; exact (State.setClaim_chg ..).trans ((State.fset_chg ..).trans ((State.fset_chg ..).trans (State.setMode_chg ..)))
@[simp] theorem State.nowSafe_ctls (reason detail trig : Nat) : (s.nowSafe reason detail trig).ctls = s.ctls := by
  unfold State.nowSafe; exact (State.setClaim_ctls ..).trans ((State.fset_ctls ..).trans ((State.fset_ctls ..).trans (State.setMode_ctls ..)))
@[simp] theorem State.nowSafe_bufs (reason detail trig : Nat) : (s.nowSafe reason detail trig).bufs = s.bufs := by
  unfold State.nowSafe; exact (State.setClaim_bufs ..).trans ((State.fset_bufs ..).trans ((State.fset_bufs ..).trans (State.setMode_bufs ..)))
@[simp] theorem State.nowSafe_cimg (reason detail trig : Nat) : (s.nowSafe reason detail trig).cimg = s.cimg := by
  unfold State.nowSafe; exact (State.setClaim_cimg ..).trans ((State.fset_cimg ..).trans ((State.fset_cimg ..).trans (State.setMode_cimg ..)))
@[simp] theorem State.nowSafe_cnext (reason detail trig : Nat) : (s.nowSafe reason detail trig).cnext = s.cnext := by
  unfold State.nowSafe; exact (State.setClaim_cnext ..).trans ((State.fset_cnext ..).trans ((State.fset_cnext ..).trans (State.setMode_cnext ..)))
@[simp] theorem State.nowSafe_doors (reason detail trig : Nat) : (s.nowSafe reason detail trig).doors = s.doors := by
  unfold State.nowSafe; exact (State.setClaim_doors ..).trans ((State.fset_doors ..).trans ((State.fset_doors ..).trans (State.setMode_doors ..)))
@[simp] theorem State.nowSafe_ddies (reason detail trig : Nat) : (s.nowSafe reason detail trig).ddies = s.ddies := by
  unfold State.nowSafe; exact (State.setClaim_ddies ..).trans ((State.fset_ddies ..).trans ((State.fset_ddies ..).trans (State.setMode_ddies ..)))
@[simp] theorem State.nowSafe_loads (reason detail trig : Nat) : (s.nowSafe reason detail trig).loads = s.loads := by
  unfold State.nowSafe; exact (State.setClaim_loads ..).trans ((State.fset_loads ..).trans ((State.fset_loads ..).trans (State.setMode_loads ..)))
@[simp] theorem State.nowSafe_ldies (reason detail trig : Nat) : (s.nowSafe reason detail trig).ldies = s.ldies := by
  unfold State.nowSafe; exact (State.setClaim_ldies ..).trans ((State.fset_ldies ..).trans ((State.fset_ldies ..).trans (State.setMode_ldies ..)))
@[simp] theorem State.nowSafe_fields (reason detail trig : Nat) : (s.nowSafe reason detail trig).fields = s.fields := by
  unfold State.nowSafe; exact (State.setClaim_fields ..).trans ((State.fset_fields ..).trans ((State.fset_fields ..).trans (State.setMode_fields ..)))
@[simp] theorem State.nowSafe_net (reason detail trig : Nat) : (s.nowSafe reason detail trig).net = s.net := by
  unfold State.nowSafe; exact (State.setClaim_net ..).trans ((State.fset_net ..).trans ((State.fset_net ..).trans (State.setMode_net ..)))
@[simp] theorem State.nowSafe_il (reason detail trig : Nat) : (s.nowSafe reason detail trig).il = s.il := by
  unfold State.nowSafe; exact (State.setClaim_il ..).trans ((State.fset_il ..).trans ((State.fset_il ..).trans (State.setMode_il ..)))
@[simp] theorem State.nowSafe_mem (reason detail trig : Nat) : (s.nowSafe reason detail trig).mem = s.mem := by
  unfold State.nowSafe; exact (State.setClaim_mem ..).trans ((State.fset_mem ..).trans ((State.fset_mem ..).trans (State.setMode_mem ..)))
@[simp] theorem State.nowSafe_qp (reason detail trig : Nat) : (s.nowSafe reason detail trig).qp = s.qp := by
  unfold State.nowSafe; exact (State.setClaim_qp ..).trans ((State.fset_qp ..).trans ((State.fset_qp ..).trans (State.setMode_qp ..)))
@[simp] theorem State.nowSafe_reads (reason detail trig : Nat) : (s.nowSafe reason detail trig).reads = s.reads := by
  unfold State.nowSafe; exact (State.setClaim_reads ..).trans ((State.fset_reads ..).trans ((State.fset_reads ..).trans (State.setMode_reads ..)))
@[simp] theorem State.nowSafe_tap (reason detail trig : Nat) : (s.nowSafe reason detail trig).tap = s.tap := by
  unfold State.nowSafe; exact (State.setClaim_tap ..).trans ((State.fset_tap ..).trans ((State.fset_tap ..).trans (State.setMode_tap ..)))

/-! ### `recordSafe` changes only `regs`, `cairn`. -/

@[simp] theorem State.recordSafe_pending (reason detail : Nat) (stop : Option (Nat × Nat)) : (s.recordSafe reason detail stop).pending = s.pending := by
  unfold State.recordSafe; exact State.record_pending ..
@[simp] theorem State.recordSafe_free (reason detail : Nat) (stop : Option (Nat × Nat)) : (s.recordSafe reason detail stop).free = s.free := by
  unfold State.recordSafe; exact State.record_free ..
@[simp] theorem State.recordSafe_time (reason detail : Nat) (stop : Option (Nat × Nat)) : (s.recordSafe reason detail stop).time = s.time := by
  unfold State.recordSafe; exact State.record_time ..
@[simp] theorem State.recordSafe_board (reason detail : Nat) (stop : Option (Nat × Nat)) : (s.recordSafe reason detail stop).board = s.board := by
  unfold State.recordSafe; exact State.record_board ..
@[simp] theorem State.recordSafe_live (reason detail : Nat) (stop : Option (Nat × Nat)) : (s.recordSafe reason detail stop).live = s.live := by
  unfold State.recordSafe; exact State.record_live ..
@[simp] theorem State.recordSafe_capt (reason detail : Nat) (stop : Option (Nat × Nat)) : (s.recordSafe reason detail stop).capt = s.capt := by
  unfold State.recordSafe; exact State.record_capt ..
@[simp] theorem State.recordSafe_sram (reason detail : Nat) (stop : Option (Nat × Nat)) : (s.recordSafe reason detail stop).sram = s.sram := by
  unfold State.recordSafe; exact State.record_sram ..
@[simp] theorem State.recordSafe_mram (reason detail : Nat) (stop : Option (Nat × Nat)) : (s.recordSafe reason detail stop).mram = s.mram := by
  unfold State.recordSafe; exact State.record_mram ..
@[simp] theorem State.recordSafe_boot (reason detail : Nat) (stop : Option (Nat × Nat)) : (s.recordSafe reason detail stop).boot = s.boot := by
  unfold State.recordSafe; exact State.record_boot ..
@[simp] theorem State.recordSafe_power (reason detail : Nat) (stop : Option (Nat × Nat)) : (s.recordSafe reason detail stop).power = s.power := by
  unfold State.recordSafe; exact State.record_power ..
@[simp] theorem State.recordSafe_modeReq (reason detail : Nat) (stop : Option (Nat × Nat)) : (s.recordSafe reason detail stop).modeReq = s.modeReq := by
  unfold State.recordSafe; exact State.record_modeReq ..
@[simp] theorem State.recordSafe_ledger (reason detail : Nat) (stop : Option (Nat × Nat)) : (s.recordSafe reason detail stop).ledger = s.ledger := by
  unfold State.recordSafe; exact State.record_ledger ..
@[simp] theorem State.recordSafe_links (reason detail : Nat) (stop : Option (Nat × Nat)) : (s.recordSafe reason detail stop).links = s.links := by
  unfold State.recordSafe; exact State.record_links ..
@[simp] theorem State.recordSafe_sats (reason detail : Nat) (stop : Option (Nat × Nat)) : (s.recordSafe reason detail stop).sats = s.sats := by
  unfold State.recordSafe; exact State.record_sats ..
@[simp] theorem State.recordSafe_eng (reason detail : Nat) (stop : Option (Nat × Nat)) : (s.recordSafe reason detail stop).eng = s.eng := by
  unfold State.recordSafe; exact State.record_eng ..
@[simp] theorem State.recordSafe_chg (reason detail : Nat) (stop : Option (Nat × Nat)) : (s.recordSafe reason detail stop).chg = s.chg := by
  unfold State.recordSafe; exact State.record_chg ..
@[simp] theorem State.recordSafe_ctls (reason detail : Nat) (stop : Option (Nat × Nat)) : (s.recordSafe reason detail stop).ctls = s.ctls := by
  unfold State.recordSafe; exact State.record_ctls ..
@[simp] theorem State.recordSafe_bufs (reason detail : Nat) (stop : Option (Nat × Nat)) : (s.recordSafe reason detail stop).bufs = s.bufs := by
  unfold State.recordSafe; exact State.record_bufs ..
@[simp] theorem State.recordSafe_cimg (reason detail : Nat) (stop : Option (Nat × Nat)) : (s.recordSafe reason detail stop).cimg = s.cimg := by
  unfold State.recordSafe; exact State.record_cimg ..
@[simp] theorem State.recordSafe_cnext (reason detail : Nat) (stop : Option (Nat × Nat)) : (s.recordSafe reason detail stop).cnext = s.cnext := by
  unfold State.recordSafe; exact State.record_cnext ..
@[simp] theorem State.recordSafe_doors (reason detail : Nat) (stop : Option (Nat × Nat)) : (s.recordSafe reason detail stop).doors = s.doors := by
  unfold State.recordSafe; exact State.record_doors ..
@[simp] theorem State.recordSafe_ddies (reason detail : Nat) (stop : Option (Nat × Nat)) : (s.recordSafe reason detail stop).ddies = s.ddies := by
  unfold State.recordSafe; exact State.record_ddies ..
@[simp] theorem State.recordSafe_loads (reason detail : Nat) (stop : Option (Nat × Nat)) : (s.recordSafe reason detail stop).loads = s.loads := by
  unfold State.recordSafe; exact State.record_loads ..
@[simp] theorem State.recordSafe_ldies (reason detail : Nat) (stop : Option (Nat × Nat)) : (s.recordSafe reason detail stop).ldies = s.ldies := by
  unfold State.recordSafe; exact State.record_ldies ..
@[simp] theorem State.recordSafe_fields (reason detail : Nat) (stop : Option (Nat × Nat)) : (s.recordSafe reason detail stop).fields = s.fields := by
  unfold State.recordSafe; exact State.record_fields ..
@[simp] theorem State.recordSafe_net (reason detail : Nat) (stop : Option (Nat × Nat)) : (s.recordSafe reason detail stop).net = s.net := by
  unfold State.recordSafe; exact State.record_net ..
@[simp] theorem State.recordSafe_il (reason detail : Nat) (stop : Option (Nat × Nat)) : (s.recordSafe reason detail stop).il = s.il := by
  unfold State.recordSafe; exact State.record_il ..
@[simp] theorem State.recordSafe_dup (reason detail : Nat) (stop : Option (Nat × Nat)) : (s.recordSafe reason detail stop).dup = s.dup := by
  unfold State.recordSafe; exact State.record_dup ..
@[simp] theorem State.recordSafe_mem (reason detail : Nat) (stop : Option (Nat × Nat)) : (s.recordSafe reason detail stop).mem = s.mem := by
  unfold State.recordSafe; exact State.record_mem ..
@[simp] theorem State.recordSafe_qp (reason detail : Nat) (stop : Option (Nat × Nat)) : (s.recordSafe reason detail stop).qp = s.qp := by
  unfold State.recordSafe; exact State.record_qp ..
@[simp] theorem State.recordSafe_reads (reason detail : Nat) (stop : Option (Nat × Nat)) : (s.recordSafe reason detail stop).reads = s.reads := by
  unfold State.recordSafe; exact State.record_reads ..
@[simp] theorem State.recordSafe_tap (reason detail : Nat) (stop : Option (Nat × Nat)) : (s.recordSafe reason detail stop).tap = s.tap := by
  unfold State.recordSafe; exact State.record_tap ..

/-! ### Register fields -/

theorem fieldOf_putField_same (v lo w x : Nat) : fieldOf (putField v lo w x) lo w = x % 2 ^ w := by
  unfold putField fieldOf
  have hlo : 0 < 2 ^ lo := Nat.two_pow_pos lo
  have hw : 0 < 2 ^ w := Nat.two_pow_pos w
  have h1 : v = (v / 2 ^ lo) * 2 ^ lo + v % 2 ^ lo := by rw [Nat.mul_comm]; exact (Nat.div_add_mod v _).symm
  have h2 : v / 2 ^ lo = (v / 2 ^ lo / 2 ^ w) * 2 ^ w + v / 2 ^ lo % 2 ^ w := by rw [Nat.mul_comm]; exact (Nat.div_add_mod _ _).symm
  have h3 : v - v / 2 ^ lo % 2 ^ w * 2 ^ lo = (v / 2 ^ lo / 2 ^ w) * 2 ^ w * 2 ^ lo + v % 2 ^ lo := by
    have : v = (v / 2 ^ lo / 2 ^ w) * 2 ^ w * 2 ^ lo + v / 2 ^ lo % 2 ^ w * 2 ^ lo + v % 2 ^ lo := by
      rw [← Nat.add_mul, ← h2]; exact h1
    omega
  rw [h3]
  have h4 : (v / 2 ^ lo / 2 ^ w) * 2 ^ w * 2 ^ lo + v % 2 ^ lo + x % 2 ^ w * 2 ^ lo
      = ((v / 2 ^ lo / 2 ^ w) * 2 ^ w + x % 2 ^ w) * 2 ^ lo + v % 2 ^ lo := by rw [Nat.add_mul]; omega
  rw [h4, Nat.add_comm, Nat.add_mul_div_right _ _ hlo, Nat.div_eq_of_lt (Nat.mod_lt _ hlo), Nat.zero_add, Nat.add_comm,
    Nat.add_mul_mod_self_right, Nat.mod_mod]

theorem testBit_fieldOf (v lo w i : Nat) : (fieldOf v lo w).testBit i = (decide (i < w) && v.testBit (lo + i)) := by
  unfold fieldOf
  rw [Nat.testBit_mod_two_pow, Nat.testBit_div_two_pow, Nat.add_comm]

/-- Bit by bit: a field write replaces the field's bits and leaves every other one. -/
theorem testBit_putField (v lo w x i : Nat) :
    (putField v lo w x).testBit i = if lo ≤ i ∧ i < lo + w then x.testBit (i - lo) else v.testBit i := by
  have hlo : 0 < 2 ^ lo := Nat.two_pow_pos lo
  have hw : 0 < 2 ^ w := Nat.two_pow_pos w
  have h1 : v = (v / 2 ^ lo) * 2 ^ lo + v % 2 ^ lo := by rw [Nat.mul_comm]; exact (Nat.div_add_mod v _).symm
  have h2 : v / 2 ^ lo = (v / 2 ^ lo / 2 ^ w) * 2 ^ w + v / 2 ^ lo % 2 ^ w := by rw [Nat.mul_comm]; exact (Nat.div_add_mod _ _).symm
  have h4 : putField v lo w x = 2 ^ lo * (2 ^ w * (v / 2 ^ lo / 2 ^ w) + x % 2 ^ w) + v % 2 ^ lo := by
    unfold putField fieldOf
    have : v = (v / 2 ^ lo / 2 ^ w) * 2 ^ w * 2 ^ lo + v / 2 ^ lo % 2 ^ w * 2 ^ lo + v % 2 ^ lo := by
      rw [← Nat.add_mul, ← h2]; exact h1
    have e : 2 ^ lo * (2 ^ w * (v / 2 ^ lo / 2 ^ w) + x % 2 ^ w) = (v / 2 ^ lo / 2 ^ w) * 2 ^ w * 2 ^ lo + x % 2 ^ w * 2 ^ lo := by
      rw [Nat.mul_add, Nat.mul_comm (2 ^ w), Nat.mul_comm (2 ^ lo), Nat.mul_comm (2 ^ lo)]
    rw [e]; omega
  rw [h4, Nat.testBit_two_pow_mul_add _ (Nat.mod_lt _ hlo)]
  by_cases hi : i < lo
  · rw [if_pos hi, if_neg (by omega), Nat.testBit_mod_two_pow]; simp [hi]
  · rw [if_neg hi, Nat.testBit_two_pow_mul_add _ (Nat.mod_lt _ hw)]
    by_cases hj : i < lo + w
    · rw [if_pos (by omega), if_pos (by omega), Nat.testBit_mod_two_pow]
      simp only [show i - lo < w by omega, decide_true, Bool.true_and]
    · rw [if_neg (by omega), if_neg (by omega), Nat.testBit_div_two_pow, Nat.testBit_div_two_pow]
      congr 1; omega

theorem fieldOf_putField_disjoint {v lo w x lo' w' : Nat} (h : lo' + w' ≤ lo ∨ lo + w ≤ lo') :
    fieldOf (putField v lo w x) lo' w' = fieldOf v lo' w' := by
  apply Nat.eq_of_testBit_eq
  intro i
  rw [testBit_fieldOf, testBit_fieldOf, testBit_putField]
  by_cases hi : i < w'
  · rw [if_neg (by omega)]
  · simp [hi]

/-- A field reads back what was written to it, to its width. -/
theorem State.fget_fset_same (f : Fld) (v : Nat) : (s.fset f v).fget f = v % 2 ^ (f.hi + 1 - f.lo) := by
  simp [State.fget, State.fset, fieldOf_putField_same]

/-- A write of a field leaves the fields of other registers alone. -/
theorem State.fget_fset_addr {f g : Fld} {v : Nat} (h : g.addr ≠ f.addr) : (s.fset f v).fget g = s.fget g := by
  simp [State.fget, State.fset, mget_mset_other h]

/-- A write of a field leaves the other fields of its register alone. -/
theorem State.fget_fset_bits {f g : Fld} {v : Nat} (h : g.hi + 1 ≤ f.lo ∨ f.hi + 1 ≤ g.lo) (hg : g.lo ≤ g.hi) (hf : f.lo ≤ f.hi) :
    (s.fset f v).fget g = s.fget g := by
  by_cases ha : g.addr = f.addr
  · simp only [State.fget, State.fset, ha, mget_mset_same]
    exact fieldOf_putField_disjoint (by omega)
  · exact State.fget_fset_addr s ha

/-- Two fields that share no bit of a register. -/
def Fld.apart (g f : Fld) : Bool := decide (g.addr ≠ f.addr) || decide (g.hi < f.lo) || decide (f.hi < g.lo)

/-- A write of a field leaves every field apart from it alone. -/
theorem State.fget_fset_apart {f g : Fld} {v : Nat} (h : g.apart f = true) (hg : g.lo ≤ g.hi) (hf : f.lo ≤ f.hi) :
    (s.fset f v).fget g = s.fget g := by
  simp only [Fld.apart, Bool.or_eq_true, decide_eq_true_eq] at h
  rcases h with (h | h) | h
  · exact State.fget_fset_addr s h
  · exact State.fget_fset_bits s (.inl h) hg hf
  · exact State.fget_fset_bits s (.inr h) hg hf

theorem State.fbit_fput_same {f : Fld} (b : Bool) (h : f.lo ≤ f.hi) : (s.fput f b).fbit f = b := by
  have h2 : 1 < 2 ^ (f.hi + 1 - f.lo) := Nat.one_lt_two_pow (by omega)
  unfold State.fbit State.fput
  rw [State.fget_fset_same]
  cases b
  · simp [b2n]
  · simp [b2n, Nat.mod_eq_of_lt h2]

theorem State.fbit_fon_same {f : Fld} (h : f.lo ≤ f.hi) : (s.fon f).fbit f = true := s.fbit_fput_same true h

theorem State.fbit_fset_apart {f g : Fld} {v : Nat} (h : g.apart f = true) (hg : g.lo ≤ g.hi) (hf : f.lo ≤ f.hi) :
    (s.fset f v).fbit g = s.fbit g := by
  unfold State.fbit; rw [State.fget_fset_apart s h hg hf]

/-- A read of registers looks at the register file alone. -/
theorem State.fget_congr {s t : State} (h : t.regs = s.regs) (f : Fld) : t.fget f = s.fget f := by unfold State.fget; rw [h]

/-! ### Memory -/

@[simp] theorem State.rd_wr_same (a : Nat) (b : Byte) : (s.wr a b).rd a = b := mget_mset_same

theorem State.rd_wr_other {a c : Nat} {b : Byte} (h : c ≠ a) : (s.wr a b).rd c = s.rd c := mget_mset_other h

/-! ### Links, satellites, activations -/

@[simp] theorem State.link_setLink (n : Nat) (l : Link) : (s.setLink n l).link n = l := mget_mset_same

theorem State.link_setLink_other {n m : Nat} {l : Link} (h : m ≠ n) : (s.setLink n l).link m = s.link m := mget_mset_other h

@[simp] theorem State.sat_setSat (n : Nat) (x : Sat) : (s.setSat n x).sat n = x := mget_mset_same

theorem State.sat_setSat_other {n m : Nat} {x : Sat} (h : m ≠ n) : (s.setSat n x).sat m = s.sat m := mget_mset_other h

@[simp] theorem State.act_setAct (t : Nat) (a : Option Act) : (s.setAct t a).act t = a := mget_mset_same

theorem State.act_setAct_other {t u : Nat} {a : Option Act} (h : u ≠ t) : (s.setAct t a).act u = s.act u := mget_mset_other h

/-! ### Time -/

/-- Time never runs back: `mono` moves on by exactly the time that passes. -/
@[simp] theorem State.advance_mono (dt : Nat) : (s.advance dt).time.mono = s.time.mono + dt := rfl

/-- Moving to an instant of device time that lies ahead reaches it. -/
theorem State.toDev_dev {t : Nat} (h : s.time.dev < t) : (s.toDev t).time.dev = t := by
  unfold State.toDev; rw [if_neg (by omega)]

theorem State.toDev_past {t : Nat} (h : t ≤ s.time.dev) : s.toDev t = s := by unfold State.toDev; rw [if_pos h]


end Sys2Proof.Machine
end

