-- ==== Sys2Proof/Laws/Engine.lean ====
section
/-! SUPPORT. Laws of an engine instruction on lanes that agree: the vote passes, every lane takes the new context, and memory changes
by the instruction's writes alone. -/

namespace Sys2Proof.Machine

/-! ### What the steps of an instruction leave alone -/

section
variable (s : State)

/-- Two states with the same activations up to everything but contexts' owners: the context of every lane of every task agrees. -/
def sameCtx (s t : State) : Prop := ∀ u a, s.act u = some a → ∃ b, t.act u = some b ∧ b.ctx = a.ctx

theorem sameCtx.refl (s : State) : sameCtx s s := fun _ a h => ⟨a, h, rfl⟩

theorem sameCtx.trans {s t u : State} (h : sameCtx s t) (g : sameCtx t u) : sameCtx s u := fun k a ha => by
  obtain ⟨b, hb, e⟩ := h k a ha
  obtain ⟨c, hc, e'⟩ := g k b hb
  exact ⟨c, hc, e'.trans e⟩

theorem sameCtx.of_eng {s t : State} (h : t.eng.acts = s.eng.acts) : sameCtx s t := fun u a ha =>
  ⟨a, by unfold State.act at *; rw [h]; exact ha, rfl⟩

theorem sameCtx.eng {s t u : State} (h : sameCtx s t) (e : u.eng = t.eng) : sameCtx s u :=
  h.trans (.of_eng (by rw [e]))

theorem sameCtx.setAct {s : State} {u : Nat} {a b : Act} (h : s.act u = some a) (e : b.ctx = a.ctx) :
    sameCtx s (s.setAct u (some b)) := fun k x hx => by
  by_cases hk : k = u
  · subst hk
    exact ⟨b, State.act_setAct .., by rw [e]; simp_all⟩
  · exact ⟨x, by rw [State.act_setAct_other _ hk]; exact hx, rfl⟩

/-- R166. A copy that is given up touches the engine's books, the registers and the recorder alone. -/
theorem State.ckAbandon_acts (c : Ckpt) : (s.ckAbandon c).eng.acts = s.eng.acts := by
  simp [State.ckAbandon]

@[simp] theorem State.ckAbandon_sram (c : Ckpt) : (s.ckAbandon c).sram = s.sram := by simp [State.ckAbandon]

theorem State.preserve_sameCtx (b : Nat) : sameCtx s (s.preserve b) := by
  unfold State.preserve
  split
  · split
    · exact .refl s
    · split
      · exact .of_eng (s.ckAbandon_acts _)
      · exact .of_eng rfl
  · exact .refl s

theorem State.overflow_sameCtx (t : Nat) : sameCtx s (s.overflow t) := by
  unfold State.overflow
  split
  · next a h =>
    split
    · exact .refl s
    · have h1 := sameCtx.setAct (b := { a with nonAtomic := true }) h rfl
      exact h1.trans (.of_eng (by simp))
  · exact .refl s

theorem State.journalTake_sameCtx (t b : Nat) : sameCtx s (s.journalTake t b) := by
  unfold State.journalTake
  dsimp only
  split
  · exact .refl s
  · repeat' split
    all_goals first | exact .refl s | exact s.overflow_sameCtx t

theorem State.engWr_sameCtx (t : Nat) (w : MemWr) : sameCtx s (s.engWr t w) := by
  unfold State.engWr
  dsimp only
  split
  · exact ((s.journalTake_sameCtx t _).trans (State.preserve_sameCtx _ _)).trans (.of_eng rfl)
  · exact .of_eng rfl

theorem State.progErr_sameCtx (t e pc : Nat) : sameCtx s (s.progErr t e pc) := by
  unfold State.progErr
  split
  · next a h =>
    split
    · exact .refl s
    · refine sameCtx.eng ?_ (State.recordFrom_eng ..)
      exact sameCtx.setAct h rfl
  · exact .refl s

theorem State.foldl_engWr_sameCtx (t : Nat) (ws : List MemWr) : sameCtx s (ws.foldl (fun s w => s.engWr t w) s) := by
  induction ws generalizing s with
  | nil => exact .refl s
  | cons w ws ih => exact (s.engWr_sameCtx t w).trans (ih _)

theorem State.commitOut_sameCtx (t pc : Nat) (o : LaneOut) : sameCtx s (s.commitOut t pc o) := by
  unfold State.commitOut
  dsimp only
  refine sameCtx.trans (s.foldl_engWr_sameCtx t o.wr) ?_
  generalize o.wr.foldl (fun s w => s.engWr t w) s = u
  have hx : ∀ v, sameCtx u v → sameCtx u (match o.err with | some e => v.progErr t e pc | none => v) := fun v h => by
    cases o.err with
    | none => exact h
    | some e => exact h.trans (v.progErr_sameCtx t e pc)
  cases o.xwr with
  | none => exact hx u (.refl u)
  | some x =>
    cases h : u.act t with
    | none => exact hx u (.refl u)
    | some a => exact hx _ (sameCtx.setAct h rfl)

/-! ### Memory under an instruction -/

@[simp] theorem State.preserve_sram (b : Nat) : (s.preserve b).sram = s.sram := by
  unfold State.preserve
  split
  · split
    · rfl
    · split <;> [exact s.ckAbandon_sram _; rfl]
  · rfl

@[simp] theorem State.overflow_sram (t : Nat) : (s.overflow t).sram = s.sram := by
  unfold State.overflow
  split <;> [(split <;> [rfl; simp]); rfl]

@[simp] theorem State.journalTake_sram (t b : Nat) : (s.journalTake t b).sram = s.sram := by
  unfold State.journalTake
  dsimp only
  split
  · rfl
  · repeat' split
    all_goals simp

@[simp] theorem State.progErr_sram (t e pc : Nat) : (s.progErr t e pc).sram = s.sram := by
  unfold State.progErr
  split <;> [(split <;> [rfl; simp]); rfl]

theorem State.rd_congr {s t : State} (h : t.sram = s.sram) (a : Nat) : t.rd a = s.rd a := by unfold State.rd; rw [h]

/-- A voted write changes the byte at its address under its mask, and nothing else. -/
theorem State.rd_engWr (t : Nat) (w : MemWr) (x : Nat) :
    (s.engWr t w).rd x = if w.addr = x then mergeByte (s.rd x) w.data w.mask else s.rd x := by
  unfold State.engWr
  dsimp only
  generalize hu : (if inData w.addr then _ else s : State) = u
  have hs : u.sram = s.sram := by
    rw [← hu]; split
    · simp [State.setDirty]
    · rfl
  by_cases h : w.addr = x
  · subst h; rw [if_pos rfl, State.rd_wr_same, State.rd_congr hs]
  · rw [if_neg h, State.rd_wr_other _ (Ne.symm h), State.rd_congr hs]

theorem State.rd_foldl_engWr (t : Nat) (ws : List MemWr) (x : Nat) :
    (ws.foldl (fun s w => s.engWr t w) s).rd x =
      ws.foldl (fun b w => if w.addr = x then mergeByte b w.data w.mask else b) (s.rd x) := by
  induction ws generalizing s with
  | nil => rfl
  | cons w ws ih => rw [List.foldl_cons, ih, State.rd_engWr, List.foldl_cons]

theorem State.rd_commitOut (t pc : Nat) (o : LaneOut) (x : Nat) :
    (s.commitOut t pc o).rd x = o.wr.foldl (fun b w => if w.addr = x then mergeByte b w.data w.mask else b) (s.rd x) := by
  rw [← s.rd_foldl_engWr t]
  unfold State.commitOut
  dsimp only
  refine State.rd_congr ?_ x
  split <;> split <;> simp

@[simp] theorem State.clocks_act (t n u : Nat) : (s.clocks t n).act u = s.act u := by
  unfold State.clocks; dsimp only; split <;> rfl

@[simp] theorem State.clocks_sram (t n : Nat) : (s.clocks t n).sram = s.sram := by
  unfold State.clocks; dsimp only; split <;> rfl

theorem State.clocks_vtest (t n : Nat) : (s.clocks t n).eng.vtest = s.eng.vtest := by
  unfold State.clocks; dsimp only; split <;> rfl

/-- R199. Where no self-test waits, an instruction makes none. -/
theorem State.selfTest_idle {s : State} (h : s.eng.vtest = none) (vs : List (Nat × List (Nat × Nat))) : s.selfTest vs = s := by
  unfold State.selfTest; rw [h]

theorem State.clocks_regs (t n : Nat) : (s.clocks t n).regs = s.regs := by
  unfold State.clocks; dsimp only; split <;> rfl

@[simp] theorem State.setCtx_sram (t l : Nat) (c : Ctx) : (s.setCtx t l c).sram = s.sram := by
  unfold State.setCtx; split <;> rfl

end

/-! ### The vote of lanes that agree -/

theorem diffClass_self (e : List (Nat × Nat)) : diffClass e e = none := by
  induction e with
  | nil => rfl
  | cons x t ih => simp [diffClass, ih]

theorem vote_same (l : Nat) (ls : List Nat) (e : List (Nat × Nat)) : vote ((l :: ls).map fun k => (k, e)) = .pass l none := by
  match ls with
  | [] => rfl
  | [_] => simp [vote, diffClass_self]
  | _ :: _ :: _ => simp [vote, diffClass_self]

theorem lanesOf_lt {m l : Nat} (h : l ∈ lanesOf m) : l < 3 := by
  unfold lanesOf at h
  have := List.mem_of_mem_filter h
  simp only [List.mem_cons, List.not_mem_nil, or_false] at this
  omega

/-- What an instruction of `n` clocks on agreeing lanes has done before its writes: the lanes' contexts are the new one, time and the
engine's own books have moved on, and nothing else has changed. -/
structure State.Ran (s S : State) (t : Nat) (a : Act) (c : Ctx) : Prop where
  act : ∃ cs, S.act t = some { a with ctx := cs, started := true } ∧ ∀ l ∈ lanesOf s.execMask, cs.getD l {} = c
  rest : S = { s with time := S.time, power := S.power, eng := S.eng }
  locks : S.eng.lockOf = s.eng.lockOf
  journal : S.eng.journal = s.eng.journal
  others : ∀ u, u ≠ t → S.act u = s.act u

theorem State.Ran.sram {s S : State} {t a c} (h : s.Ran S t a c) : S.sram = s.sram := by rw [h.rest]
theorem State.Ran.regs {s S : State} {t a c} (h : s.Ran S t a c) : S.regs = s.regs := by rw [h.rest]
theorem State.Ran.mram {s S : State} {t a c} (h : s.Ran S t a c) : S.mram = s.mram := by rw [h.rest]

theorem State.setCtx_of {s : State} {t l : Nat} {c : Ctx} {a : Act} (h : s.act t = some a) :
    s.setCtx t l c = s.setAct t (some { a with ctx := a.ctx.set l c, started := true }) := by
  unfold State.setCtx; rw [h]

/-- The contexts of several lanes set in turn. -/
theorem State.foldl_setCtx {s : State} {t : Nat} {a : Act} {c : Ctx} (ls : List Nat) (hl : ls ≠ []) (h3 : ∀ l ∈ ls, l < a.ctx.length)
    (h : s.act t = some a) :
    ∃ cs, (ls.foldl (fun s l => s.setCtx t l c) s).act t = some { a with ctx := cs, started := true } ∧
      cs.length = a.ctx.length ∧ (∀ l, cs.getD l {} = if l ∈ ls then c else a.ctx.getD l {}) ∧
      (∀ u, u ≠ t → (ls.foldl (fun s l => s.setCtx t l c) s).act u = s.act u) ∧
      ∃ e : Engine, ls.foldl (fun s l => s.setCtx t l c) s = { s with eng := e } ∧ e = { s.eng with acts := e.acts } := by
  induction ls generalizing s a with
  | nil => exact absurd rfl hl
  | cons l ls ih =>
    rw [List.foldl_cons, State.setCtx_of h]
    have hlen : l < a.ctx.length := h3 l (List.mem_cons_self ..)
    by_cases hn : ls = []
    · subst hn
      refine ⟨a.ctx.set l c, State.act_setAct .., by simp, fun k => ?_, fun u hu => State.act_setAct_other _ hu, _, rfl, rfl⟩
      by_cases hk : k = l
      · subst hk; simp [List.getD_eq_getElem?_getD, hlen]
      · simp [List.getD_eq_getElem?_getD, hk, Ne.symm hk]
    · obtain ⟨cs, h1, h2, h4, h5, e, h6, h7⟩ :=
        ih (s := s.setAct t (some { a with ctx := a.ctx.set l c, started := true }))
          (a := { a with ctx := a.ctx.set l c, started := true }) hn
          (fun k hk => by simpa using h3 k (List.mem_cons_of_mem _ hk)) (State.act_setAct ..)
      refine ⟨cs, h1, by simpa using h2, fun k => ?_, fun u hu => (h5 u hu).trans (State.act_setAct_other _ hu), e, h6, ?_⟩
      · rw [h4 k]
        by_cases hk : k ∈ ls
        · simp [hk]
        · by_cases hkl : k = l
          · subst hkl; simp [hk, List.getD_eq_getElem?_getD, hlen]
          · simp [hk, hkl, List.getD_eq_getElem?_getD, Ne.symm hkl]
      · rw [h7]; rfl

/-- One instruction on lanes that agree: it completes, every executing lane takes its new context, and what it writes is what the
voter passes. -/
theorem State.instr_agree {s : State} {t : Nat} {a : Act} {c : Ctx} (h : s.Agree t a c) (l n : Nat) {ok : State → Nat → Bool}
    (f : LaneView → Ctx → LaneOut) (post : State → Nat → LaneOut → State) (hok : ok s t = true) :
    ∃ S, s.instr l n ok f post = .next (post (S.commitOut t c.pc (f (s.viewOf t a) c)) t (f (s.viewOf t a) c)) ∧
      s.Ran S t a (f (s.viewOf t a) c).ctx := by
  generalize ho : f (s.viewOf t a) c = o
  obtain ⟨k, ks, hks⟩ := List.exists_cons_of_ne_nil h.some
  have hb : (s.laneState == laneUnbound) = false := by simpa using h.bound
  have hcur : s.current l = some (t, a) := by
    have hr := h.run
    rw [List.getD_eq_getElem?_getD] at hr
    unfold State.current
    have hc : (decide (t < 16) && s.checking) = false := by
      by_cases h16 : t < 16 <;> simp [h16, h.clear]
    simp only [h.bound, h.free, h.running, List.getD_eq_getElem?_getD, hr, hc, h.act, if_false, Bool.not_true, Bool.or_self,
      decide_false, Bool.false_and, Bool.false_eq_true, Option.map_some]
  have houts : ((lanesOf s.execMask).map fun l => (l, f ⟨s, t, a, s.eng.sbuf.getD l []⟩ (a.ctx.getD l {})))
      = (lanesOf s.execMask).map fun l => (l, o) := by
    refine List.map_congr_left fun l hl => ?_
    rw [h.same l hl, h.empty l hl, ← ho]
  have hvs : (((lanesOf s.execMask).map fun l => (l, o)).filter fun p => bit s.votingMask p.1)
      = (lanesOf s.execMask).map fun l => (l, o) := by
    refine List.filter_eq_self.2 fun p hp => ?_
    obtain ⟨l, hl, rfl⟩ := List.mem_map.1 hp
    exact h.votes l hl
  have hact : (s.clocks t n).act t = some a := by rw [State.clocks_act, h.act]
  obtain ⟨cs, h1, -, h4, h5, e, h6, h7⟩ := State.foldl_setCtx (c := o.ctx) (lanesOf s.execMask) h.some
    (fun l hl => by rw [h.three]; exact lanesOf_lt hl) hact
  have hS : ((lanesOf s.execMask).map fun l => (l, o)).foldl (fun s p => s.setCtx t p.1 p.2.ctx) (s.clocks t n)
      = (lanesOf s.execMask).foldl (fun s l => s.setCtx t l o.ctx) (s.clocks t n) := List.foldl_map
  rw [← hS] at h1 h5 h6
  generalize hX : ((lanesOf s.execMask).map fun l => (l, o)).foldl (fun s p => s.setCtx t p.1 p.2.ctx) (s.clocks t n) = X at h1 h5 h6
  refine ⟨{ X with
    eng := { X.eng with
      sbuf := ((lanesOf s.execMask).map fun l => (l, o)).foldl (fun sb p =>
        if bit (X.fget Reg.VOTE_STAT_EXCLUDED) p.1 then sb.set p.1 ((p.2.entries ++ sb.getD p.1 []).take 4) else sb)
        X.eng.sbuf } }, ?_, ?_⟩
  · have hpc : (a.ctx.getD (((((lanesOf s.execMask).map fun l => (l, o)).map fun p => (p.1, p.2.evs)).map (·.1)).headD 0) {}).pc = c.pc := by
      rw [hks]
      exact congrArg Ctx.pc (h.same k (by rw [hks]; exact List.mem_cons_self ..))
    have hself : ∀ vs, (s.clocks t n).selfTest vs = s.clocks t n := fun vs =>
      State.selfTest_idle (by rw [State.clocks_vtest]; exact h.idle) vs
    have hv : vote (((lanesOf s.execMask).map fun l => (l, o)).map fun p => (p.1, p.2.evs)) = .pass k none := by
      rw [List.map_map, hks]; exact vote_same k ks o.evs
    have hf : (((lanesOf s.execMask).map fun l => (l, o)).find? fun p => p.1 == k) = some (k, o) := by
      rw [hks]; simp
    unfold State.instr
    rw [hcur]
    dsimp only
    rw [hok, if_neg (by simp), if_neg h.bound]
    unfold State.voted
    dsimp only
    rw [houts, hvs, hv]
    dsimp only
    rw [hf]
    dsimp only
    rw [hself, hX]
    exact congrArg (fun p => Host.Outcome.next (post (State.commitOut _ t p o) t o)) hpc
  · refine ⟨⟨cs, h1, fun l hl => by rw [h4 l, if_pos hl]⟩, ?_, ?_, ?_, ?_⟩
    · rw [h6]; unfold State.clocks; dsimp only; split <;> rfl
    · rw [h6]; dsimp only; rw [h7]; unfold State.clocks; dsimp only; split <;> rfl
    · rw [h6]; dsimp only; rw [h7]; unfold State.clocks; dsimp only; split <;> rfl
    · intro u hu
      exact (h5 u hu).trans (State.clocks_act ..)

/-- After an instruction that writes no object and makes no request of its own, every executing lane holds its new context. -/
theorem State.Ran.lanesHold {s S : State} {t pc : Nat} {a : Act} {o : LaneOut} {c : Ctx} (h : s.Ran S t a c) :
    s.LanesHold (S.commitOut t pc o) t c := by
  obtain ⟨cs, h1, h2⟩ := h.act
  obtain ⟨b, hb, e⟩ := S.commitOut_sameCtx t pc o t _ h1
  exact ⟨b, hb, fun l hl => by rw [e]; exact h2 l hl⟩

/-- The writes of a run of bytes. -/
def runWrites (lo : Nat) : List Byte → List MemWr
  | [] => []
  | d :: t => ⟨lo, d, 0xFF⟩ :: runWrites (lo + 1) t

@[simp] theorem LaneOut.stores_ctx (o : LaneOut) (lo : Nat) (bs : List Byte) : (o.stores lo bs).ctx = o.ctx := by
  induction bs generalizing o lo with
  | nil => rfl
  | cons d t ih => rw [LaneOut.stores, ih]; rfl

@[simp] theorem LaneOut.stores_wr (o : LaneOut) (lo : Nat) (bs : List Byte) : (o.stores lo bs).wr = o.wr ++ runWrites lo bs := by
  induction bs generalizing o lo with
  | nil => simp [LaneOut.stores, runWrites]
  | cons d t ih => rw [LaneOut.stores, ih]; simp [LaneOut.store, LaneOut.ev, runWrites]

@[simp] theorem LaneOut.stores_xwr (o : LaneOut) (lo : Nat) (bs : List Byte) : (o.stores lo bs).xwr = o.xwr := by
  induction bs generalizing o lo with
  | nil => rfl
  | cons d t ih => rw [LaneOut.stores, ih]; rfl

@[simp] theorem LaneOut.stores_err (o : LaneOut) (lo : Nat) (bs : List Byte) : (o.stores lo bs).err = o.err := by
  induction bs generalizing o lo with
  | nil => rfl
  | cons d t ih => rw [LaneOut.stores, ih]; rfl

@[simp] theorem mergeByte_all (b d : Byte) : mergeByte b d 255#8 = d := by
  have : (255#8 : Byte) = BitVec.allOnes 8 := rfl
  rw [mergeByte, this, BitVec.not_allOnes, BitVec.and_zero, BitVec.zero_or, BitVec.and_allOnes]

theorem foldl_runWrites_outside {x lo : Nat} {bs : List Byte} (h : x < lo ∨ lo + bs.length ≤ x) (b : Byte) :
    (runWrites lo bs).foldl (fun b w => if w.addr = x then mergeByte b w.data w.mask else b) b = b := by
  induction bs generalizing lo with
  | nil => rfl
  | cons d t ih =>
    simp only [List.length_cons] at h
    rw [runWrites, List.foldl_cons, if_neg (by simp only; omega)]
    exact ih (by omega)

/-- A run of writes leaves the bytes at their place and every other byte alone. -/
theorem State.Wrote.stored {s s' : State} {lo : Nat} {bs : List Byte} (h : s.Wrote s' (runWrites lo bs)) : s.Stored s' lo bs := by
  refine ⟨?_, fun x hx => by rw [h x, foldl_runWrites_outside hx]⟩
  have key : ∀ (bs : List Byte) (lo : Nat) (g : Nat → Byte),
      (∀ x, lo ≤ x → s'.rd x = (runWrites lo bs).foldl (fun b w => if w.addr = x then mergeByte b w.data w.mask else b) (g x)) →
      mslice 0 s'.sram lo bs.length = bs := by
    intro bs
    induction bs with
    | nil => intros; rfl
    | cons d t ih =>
      intro lo g hg
      rw [List.length_cons, mslice]
      congr 1
      · have h0 := hg lo (Nat.le_refl lo)
        rw [runWrites, List.foldl_cons, if_pos rfl, foldl_runWrites_outside (by omega)] at h0
        exact h0.trans (mergeByte_all ..)
      · refine ih (lo + 1) g fun x hx => ?_
        rw [hg x (by omega), runWrites, List.foldl_cons, if_neg (by simp only; omega)]
  exact key bs lo s.rd fun x _ => h x

/-- Memory after an instruction: the voter's writes, byte by byte. -/
theorem State.Ran.wrote {s S : State} {t pc : Nat} {a : Act} {o : LaneOut} {c : Ctx} (h : s.Ran S t a c) :
    s.Wrote (S.commitOut t pc o) o.wr := fun x => by
  rw [State.rd_commitOut, State.rd_congr h.sram]

end Sys2Proof.Machine
end

