-- ==== Sys2Proof/Tests/Slice0.lean ====
section
/-! SUPPORT. Small tests: ill-formed commands are refused by WellFormed, no word spells a command, and for every statement that has
hypotheses a concrete state and operands that meet them, clause by clause. -/

namespace Sys2Proof.Tests

set_option Elab.async false

open Sys2Proof.Machine

/-! ### Operands that cannot occur -/

def hdr (tag : List Byte) : VerbHdr := { port := 0, sess := 0, ctr := 0, badLen := false, tag }

def frame (data : List Byte) (len : Nat) : CanFrame :=
  { id := 0, ide := false, rtr := false, fdf := false, brs := false, esi := false, dlc := 0, data, len }

def beat (devTime grid : Nat) : HbFrame :=
  { devTime, grid, mode := 2, seat := 0, flags := 0, ccount := 0, belayGen := 0, lineage := 0, imgGen := 0, paramGen := 0, setSeq := 0 }

theorem test_wellformed_refuses_current_bits : (Instr.currentLoopTick 0 [] [] []).wf = false := by decide
theorem test_wellformed_refuses_offset_bits : (Instr.offsetMeasured 0 [] []).wf = false := by decide
theorem test_wellformed_refuses_can_data : (Instr.canRxFrame 0 (frame (List.replicate 65 0) 0) false).wf = false := by decide
theorem test_wellformed_refuses_can_length : (Instr.canRefMessage 0 (frame [] (2 ^ 32))).wf = false := by decide
theorem test_wellformed_refuses_can_data_of_a_reference : (Instr.canRefMessage 0 (frame (List.replicate 65 0) 0)).wf = false := by decide
theorem test_wellformed_refuses_can_length_of_a_frame : (Instr.canRxFrame 0 (frame [] (2 ^ 32)) false).wf = false := by decide
theorem test_wellformed_refuses_telegram : (Instr.pdReceive 0 0 0 0 (List.replicate 1433 0)).wf = false := by decide +kernel
theorem test_wellformed_refuses_heartbeat_time : (Instr.hb .ok (beat (2 ^ 64) 0)).wf = false := by decide
theorem test_wellformed_refuses_heartbeat_grid : (Instr.hb .ok (beat 0 (2 ^ 64))).wf = false := by decide
theorem test_wellformed_refuses_belay_offset : (Instr.belayFull .ok 0 65536 [] false).wf = false := by decide
theorem test_wellformed_refuses_belay_length : (Instr.belayFull .ok 0 0 (List.replicate 2041 0) false).wf = false := by decide +kernel
theorem test_wellformed_refuses_health : (Instr.healthReport .ok []).wf = false := by decide
theorem test_wellformed_refuses_profile : (Instr.profile .ok 0 false false []).wf = false := by decide
theorem test_wellformed_refuses_fuse_value : (Instr.fuseProg 0 [] true true).wf = false := by decide
theorem test_wellformed_refuses_verb_tag : (Instr.clearCairn (hdr [])).wf = false := by decide
theorem test_wellformed_accepts_verb : (Instr.clearCairn (hdr (List.replicate 16 0))).wf = true := by decide

/-! ### The table gives no row any bits -/

theorem test_no_word_spells_a_command : decodeTableWord 32 0x01000000 = none := rfl

theorem test_withFetchWord_changes_nothing : State.reset.withFetchWord 32 0x01000000 = State.reset := rfl

/-! ### Check values: R85, R314, R419, and the digest of "abc" in FIPS 180-4 -/

theorem test_crc32c_check_value : crc32c ("123456789".toList.map fun c => BitVec.ofNat 8 c.toNat) = 0xE3069283 := by decide +kernel

theorem test_crc16_check_value : crc16 ("123456789".toList.map fun c => BitVec.ofNat 8 c.toNat) = 0x29B1 := by decide +kernel

theorem test_crc8_check_value : crc8 ("123456789".toList.map fun c => BitVec.ofNat 8 c.toNat) = 0xDF := by decide +kernel

theorem test_sha256_of_abc : sha256 [0x61, 0x62, 0x63] = [0xba, 0x78, 0x16, 0xbf, 0x8f, 0x01, 0xcf, 0xea, 0x41, 0x41, 0x40, 0xde, 0x5d, 0xae,
    0x22, 0x23, 0xb0, 0x03, 0x61, 0xa3, 0x96, 0x17, 0x7a, 0x9c, 0xb4, 0x10, 0xff, 0x61, 0xf2, 0x00, 0x15, 0xad] := by decide +kernel

/-! ### States for the witnesses -/

/-- A small state in mode `m`. -/
def st (m : Nat) : State := { State.reset with regs := [], cairn := {}, boot := {} }.fset Reg.MODE_STAT_MODE m

/-- Link `n` up and its die admitted, with the link `l`. -/
def stUp (m n : Nat) (l : Link) : State := (((st m).fon (Reg.LINK_STAT_UP n)).fon (Reg.LINK_STAT_ADMITTED n)).setLink n l

def byt (l : List Nat) : List Byte := l.map (BitVec.ofNat 8)

def rc (ty inst : Nat) (l : List Nat) : Rec := { ty, inst, data := byt l }

def a0 : Act := { cyc := 5, g := 1, at_ := 9, wait := 0, waitNet := false, ready := true, sArea := [] }

def img : Image := { gen := 0, lineage := 0, req := 128, keyIdx := 0, hflags := 0, prot := [], hash := [] }

/-! ### The logic engine -/

/-- Task 3 runs in three voting lanes, which all hold `c`; it owns buffer 3 of controller 1. -/
def engS (c : Ctx) : State :=
  let s := ((st 2).fset Reg.VOTE_STAT_LIVE 7).fset Reg.VOTE_STAT_VOTING 7
  { s with eng := { s.eng with run := [some 3, none, none], acts := [(3, some { a0 with ctx := [c, c, c] })] }
           boot := { s.boot with topo := [rc 0x701 1 [15, 3, 1, 29, 10, 10, 1, 29, 10, 10, 30, 0], rc 0x702 67 [1, 3, 0, 0, 5, 0, 0, 0],
             rc 0x0204 0 []] } }

theorem witness_Agree (c : Ctx) : (engS c).Agree 3 { a0 with ctx := [c, c, c] } c where
  bound := by rw [show (engS c).laneState = (engS {}).laneState from rfl]; decide
  running := by rw [show (engS c).running = (engS {}).running from rfl]; decide
  free := rfl
  idle := rfl
  clear := by rw [show (engS c).checking = (engS {}).checking from rfl]; decide
  run := rfl
  act := rfl
  three := rfl
  some := by rw [show (engS c).execMask = (engS {}).execMask from rfl]; decide
  votes := by rw [show (engS c).execMask = (engS {}).execMask from rfl, show (engS c).votingMask = (engS {}).votingMask from rfl]; decide
  same := by
    rw [show (engS c).execMask = (engS {}).execMask from rfl, show lanesOf (engS {}).execMask = [0, 1, 2] by decide]
    intro l hl
    simp only [List.mem_cons, List.not_mem_nil, or_false] at hl
    rcases hl with rfl | rfl | rfl <;> rfl
  empty := by
    rw [show (engS c).execMask = (engS {}).execMask from rfl, show lanesOf (engS {}).execMask = [0, 1, 2] by decide]
    intro l hl
    simp only [List.mem_cons, List.not_mem_nil, or_false] at hl
    rcases hl with rfl | rfl | rfl <;> rfl

def opd (area off : Nat) (lit : Nat := 0) : Opnd := ⟨BitVec.ofNat 4 area, BitVec.ofNat 20 off, BitVec.ofNat 32 lit⟩

theorem witness_BitLogicCompletes :
    (∀ op ∈ [1, 2], opndOk op (opd 0 1) (engS {}) 3 = true) ∧ (∀ op ∈ [1, 2, 3, 4, 5, 6, 7], opndOk op (opd 3 0x17BFFF) (engS {}) 3 = true) ∧
    (∀ op ∈ [1, 2, 3, 4, 5, 6, 7], opndOk op (opd 9 (0x143 * 1024)) (engS {}) 3 = true) ∧
    ∀ op ∈ [8, 9, 10], wordOk op 0 0 (engS { br := [(true, false)] }) 3 = true := by decide +kernel

theorem witness_BitStoresAndEdgesComplete :
    (∀ op ∈ [0x10, 0x11, 0x12, 0x13], opndOk op (opd 3 7) (engS { cr := true }) 3 = true) ∧
    ∀ op ∈ [0x14, 0x15], opndOk op (opd 6 16383) (engS {}) 3 = true := by decide +kernel

theorem witness_TimersComplete :
    (∀ op ∈ [0x20, 0x21, 0x22], opndOk op (opd 4 2047) (engS { wa := 5 }) 3 = true ∧ opndOk op (opd 4 0) (engS { wa := -1 }) 3 = true) ∧
    (-1 : Word).toInt < 0 ∧ ¬ (5 : Word).toInt < 0 ∧ bit (mget (0 : Byte) a0.sArea 1).toNat 2 = false := by decide +kernel

theorem witness_CountersComplete :
    (∀ op ∈ [0x24, 0x25, 0x26], wordOk op 5 2047 (engS {}) 3 = true) ∧ wordOk 0x24 5 (0x800 + 2047) (engS {}) 3 = true ∧
    wordOk 0x25 5 (0x1000 + 2047) (engS {}) 3 = true ∧
    ∀ f ∈ [0x800, 0x1000, 0x1800], wordOk 0x26 5 f (engS {}) 3 = true := by decide +kernel

theorem witness_LoadsAndStoresComplete :
    opndOk 0x30 (opd 8 0xFFF) (engS {}) 3 = true ∧ opndOk 0x30 (opd 9 (0x143 * 1024)) (engS {}) 3 = true ∧ wordOk 0x31 0 0 (engS {}) 3 = true ∧
    opndOk 0x33 (opd 3 0xBDFF) (engS { ix := 0xFFFF }) 3 = true ∧ wordOk 0x35 0 0 (engS {}) 3 = true ∧
    (opndOk 0x32 (opd 3 0xBDFF) (engS {}) 3 = true ∧ (opd 3 0xBDFF).area ≠ 9) ∧
    (opndOk 0x32 (opd 9 (0x143 * 1024 + 2)) (engS {}) 3 = true ∧ (opd 9 (0x143 * 1024 + 2)).area = 9) ∧
    opndOk 0x34 (opd 3 0xBDFF) (engS {}) 3 = true ∧ 4 * (0xBDFF + 0) + 4 ≤ areaSize 3 ∧
    opndOk 0x34 (opd 3 0xBDFF) (engS { ix := 1 }) 3 = true ∧ ¬ 4 * (0xBDFF + 1) + 4 ≤ areaSize 3 := by decide +kernel

theorem witness_ArithmeticCompletes :
    (∀ op ∈ [0x40, 0x41, 0x42, 0x43, 0x44], opndOk op (opd 0 0 0) (engS {}) 3 = true ∧ opndOk op (opd 7 0x3FFF) (engS {}) 3 = true) := by
  decide +kernel

theorem witness_ComparesComplete :
    (∀ op ∈ [0x48, 0x49, 0x4A, 0x4B, 0x4C, 0x4D], opndOk op (opd 0 0 0x80000000) (engS {}) 3 = true ∧ opndOk op (opd 2 0x3FFF) (engS {}) 3 = true) := by
  decide +kernel

theorem witness_BlockInstructionsComplete :
    opndOk 0x50 (opd 7 0x3FFE) (engS {}) 3 = true ∧ opndOk 0x51 (opd 7 0x3FFC) (engS {}) 3 = true ∧
    (opndOk 0x52 (opd 3 0 0x30000100) (engS { wa := 1024 }) 3 = true ∧ opndOk 0x52 (opd 3 0 0x30000100) (engS { wa := 1025 }) 3 = true) ∧
    (0x30000100 / 2 ^ 28 = 3 ∧ 4 * (0x30000100 % 2 ^ 20) + 4 * 1024 ≤ areaSize 3) := by decide +kernel

theorem witness_AtomicsAndLocksComplete :
    (∀ op ∈ [0x58, 0x59], opndOk op (opd 3 0xBDFF) (engS {}) 3 = true) ∧
    ∀ op ∈ [0x60, 0x61], wordOk op 9 (0x143 * 1024) (engS {}) 3 = true := by decide +kernel

theorem witness_RequestsComplete :
    bufObj 67 = 0x143 ∧ wordOk 0x62 9 (bufObj 67 * 1024) (engS { wa := 1 }) 3 = true ∧ wordOk 0x62 9 (0x011 * 1024) (engS { wa := 1 }) 3 = true := by
  decide +kernel

theorem witness_FlowCompletes :
    (∀ op ∈ [0x70, 0x71, 0x72, 0x73], wordOk op 0 (2 ^ 18 - 1) (engS {}) 3 = true) ∧ wordOk 0x74 0 0 (engS { rs := [2 ^ 18 - 1] }) 3 = true ∧
    ({ rs := [2 ^ 18 - 1] } : Ctx).rs = [2 ^ 18 - 1] := by decide +kernel

/-- Lane B holds another context. -/
def engD (x y z : Ctx) : State := let s := engS x; { s with eng := { s.eng with acts := [(3, some { a0 with ctx := [x, y, z] })] } }

theorem witness_OneApart (c d : Ctx) : (engD c d c).OneApart 3 { a0 with ctx := [c, d, c] } c 1 where
  bound := by rw [show (engD c d c).laneState = (engS {}).laneState from rfl]; decide
  running := by rw [show (engD c d c).running = (engS {}).running from rfl]; decide
  free := rfl
  idle := rfl
  clear := by rw [show (engD c d c).checking = (engS {}).checking from rfl]; decide
  run := rfl
  act := rfl
  three := rfl
  all := by
    rw [show (engD c d c).execMask = (engS {}).execMask from rfl, show (engD c d c).votingMask = (engS {}).votingMask from rfl]; decide
  same := by
    intro l hl
    rcases l with ⟨_ | _ | _ | n, h⟩
    · exact ⟨rfl, rfl⟩
    · exact absurd rfl hl
    · exact ⟨rfl, rfl⟩
    · omega

/-- Three lanes, of which one or two differ; and two lanes. -/
theorem witness_VoterMasksOneLane :
    let f := laneStore (·.cr) (fun _ => true) (opd 3 9)
    let e (c : Ctx) : List (Nat × Nat) := (f ((engS {}).viewOf 3 a0) c).evs
    (∀ s, exec (.st 0 (opd 3 9)) s = s.instr 0 1 (opndOk 0x10 (opd 3 9)) f noPost) ∧ opndOk 0x10 (opd 3 9) (engS {}) 3 = true ∧
    diffClass (e { cr := true }) (e {}) = some 9 ∧ diffClass (e { cr := true }) (e { pc := 9 }) = some 9 ∧ diffClass (e {}) (e { pc := 9 }) = some 7 ∧
    lanesOf ((engS {}).fset Reg.VOTE_STAT_LIVE 3).execMask = [0, 1] ∧
    ((engS {}).fset Reg.VOTE_STAT_LIVE 3).votingMask = ((engS {}).fset Reg.VOTE_STAT_LIVE 3).execMask :=
  ⟨fun _ => rfl, by decide +kernel, by decide +kernel, by decide +kernel, by decide +kernel, by decide +kernel, by decide +kernel⟩

theorem witness_RefusedWordsDoNotRun :
    opndOk 0x01 (opd 10 0) (engS {}) 3 = false ∧ opndOk 0x20 (opd 3 0) (engS {}) 3 = false ∧ opndOk 0x48 (opd 6 0) (engS {}) 3 = false ∧
    wordOk 0x26 5 0x800 { engS {} with boot := { topo := [rc 0x0202 3 [0, 1]] } } 3 = false ∧
    wordOk 0x60 9 (7 * 1024) (engS {}) 3 = false ∧ wordOk 0x62 9 (bufObj 68 * 1024) (engS {}) 3 = false := by decide +kernel

theorem witness_EndAndEventsComplete :
    (∀ p ∈ [(0x7F, 0), (0x68, 255), (0x69, 255), (0x69, 511)], wordOk p.1 0 p.2 (engS { cr := true }) 3 = true) ∧
    wordOk 0x62 9 0 (engS { wa := 1 }) 3 = true ∧
    (mget 0 (engS {}).cairn.spent (cUSER + 255) < ((engS {}).rateOf (cUSER + 255)).1 ∧ (engS {}).cairn.queue.length < 256) ∧
    ({ cr := true } : Ctx).cr = true ∧ (engS {}).driving = true ∧ (engS {}).power.crossAt = none ∧ (engS {}).modeReq = none := by decide +kernel

/-! ### Die links and the coherent cycle -/

/-- `f` stands next at the control die on link `n`; `downS`: at the satellite. -/
def upS (n : Nat) (f : Frame) (l : Link := {}) : State := stUp 2 n { l with up := [f], ctlRx := f.seq }
def downS (n : Nat) (f : Frame) (l : Link := {}) : State := stUp 2 n { l with down := [f], satRx := f.seq }
def fr (typ : Nat) (p : List Nat) : Frame := ({ typ, payload := byt p } : Frame).seal

theorem witness_UpNext (f : Frame) (l : Link) (w : f.whole = true) :
    (upS 2 f l).UpNext 2 f [] ∧ (upS 3 f l).UpNext 3 f [] ∧ (upS 4 f l).UpNext 4 f [] ∧ (upS 7 f l).UpNext 7 f [] := by
  have h (n : Slot) (g : (upS n { typ := 0, payload := [] } {}).linkIsUp n = true) : (upS n f l).UpNext n f [] :=
    ⟨by simp [upS, stUp, State.link, State.setLink], by simp [upS, stUp, State.link, State.setLink], w, g, rfl⟩
  exact ⟨h 2 (by decide), h 3 (by decide), h 4 (by decide), h 7 (by decide)⟩

theorem witness_DownNext (f : Frame) (l : Link) (w : f.whole = true) : (downS 3 f l).DownNext 3 f [] ∧ (downS 7 f l).DownNext 7 f [] := by
  have h (n : Slot) (g : (downS n { typ := 0, payload := [] } {}).linkIsUp n = true)
      (p : (downS n { typ := 0, payload := [] } {}).present n = true) : (downS n f l).DownNext n f [] :=
    ⟨by simp [downS, stUp, State.link, State.setLink], by simp [downS, stUp, State.link, State.setLink], w, g, rfl, p⟩
  exact ⟨h 3 (by decide) (by decide), h 7 (by decide) (by decide)⟩

theorem witness_frames_are_whole :
    (fr 2 [1, 0, 5, 0, 1, 0, 9]).whole = true ∧ (fr 3 [1, 0]).whole = true ∧ (fr 4 [2, 0]).whole = true ∧ (fr 0x0E []).whole = true ∧
    (fr 7 [0, 1, 0, 0]).whole = true ∧ (fr 8 [2, 0, 0, 0, 3, 4, 5, 6, 0]).whole = true ∧ (fr 13 [2, 0, 0, 0]).whole = true ∧
    (fr 9 [2, 1, 0, 0, 0, 0, 0, 0]).whole = true ∧ (fr 11 [0xF1, 5, 3]).whole = true ∧ (fr 1 []).whole = true ∧
    ({ fr 3 [1, 0] with crc := 0 } : Frame).whole = false := by decide +kernel

theorem witness_LinkStatesComplete :
    ((st 2).linkIsUp 7 = false ∧ (st 2).fitted 7 = true ∧ (st 2).present 7 = true ∧ (st 2).mode ≠ mPark ∧ (st 2).looped 7 = false) ∧
    (stUp 2 3 {}).linkIsUp 3 = true ∧
    (let s : State := { st 2 with boot := { topo := [rc 0x0601 1 []] } }; s.linkIsUp 7 = false ∧ s.declared 7 = true ∧ s.mode ≠ mPark) ∧
    (let s := stUp 2 7 { failSince := some 1 }
     (s.link 7).failSince.isSome = true ∧ s.linkIsUp 7 = true ∧ (s.link 7).measuring = false ∧ s.fbit (Reg.LINK_STAT_EXCLUDED 7) = false ∧
       (s.link 7).failSince = some 1 ∧ s.mode ≠ mBoot ∧ s.mode ≠ mPark) ∧
    (let r : RegAcc := { req := 2, write := false, off := 2, data := 0 }
     let s := stUp 2 7 { regQ := [r], regAt := some 0 }
     (s.link 7).regAt = some 0 ∧ (s.link 7).regQ = r :: [] ∧ r.req = 2) ∧
    (let s : State := { st 0 with boot := { step := 8, image := some img } }
     s.inReset = false ∧ s.mode = mBoot ∧ s.boot.step = 8 ∧ s.fitted 7 = true ∧ s.declared 7 = true ∧ s.linkIsUp 7 = false) := by decide +kernel

theorem witness_SatelliteFramesComplete :
    (((downS 3 (fr 2 [1, 0, 5, 0, 1, 0, 9])).sat 3).ccount + 1) % 65536 = leAt (byt [1, 0, 5, 0, 1, 0, 9]) 0 2 ∧
    (let g : Frame := { typ := 3, seq := 2, payload := [] }
     ((((downS 3 (fr 4 [2, 0]) { satKept := [(g, false)] }).link 3).satKept.find? fun k => k.1.seq == leAt (byt [2, 0]) 0 2) = some (g, false)) ∧
     (((downS 3 (fr 4 [2, 0]) { satKept := [(g, true)] }).link 3).satKept.find? fun k => k.1.seq == leAt (byt [2, 0]) 0 2) = some (g, true) ∧
     g.typ ∉ [6, 7, 8]) ∧
    ((satFields (satBase 3 + leAt (byt [0, 1, 0, 0, 1, 2, 3, 4]) 0 4)).isSome = true ∧ 0x100 % 0x40 ≠ 0x18) ∧
    satFields (satBase 3 + 0xFFC) = none ∧
    ((satFields (satBase 7 + 0x10)).isSome = true ∧ (0x10 : Nat) ≠ 0x1C) := by decide +kernel

theorem witness_ControlAnswersComplete :
    (let l := (upS 3 (fr 3 [1, 0]) { stageNum := some 1 }).link 3
     l.stageNum = some 1 ∧ leAt (byt [1, 0]) 0 2 = 1 ∧ 1 ≠ (upS 3 (fr 3 [1, 0]) { stageNum := some 1 }).fget Reg.COMMIT_NUM_CCOUNT ∧
       l.resync = false ∧ leAt (byt [2, 0]) 0 2 ≠ 1) ∧
    (let s := { upS 3 (fr 0x0E []) with time := { confirmDue := true, sentTo := 8 } }
     s.time.confirmDue = true ∧ bit s.time.sentTo 3 = true ∧ (fr 0x0E []).ccount = s.fget Reg.COMMIT_NUM_CCOUNT) ∧
    (let g : Frame := { typ := 9, seq := 2, payload := [] }
     (((upS 7 (fr 4 [2, 0]) { ctlKept := [(g, false)] }).link 7).ctlKept.find? fun k => k.1.seq == leAt (byt [2, 0]) 0 2) = some (g, false) ∧
     (((upS 7 (fr 4 [2, 0]) { ctlKept := [(g, true)] }).link 7).ctlKept.find? fun k => k.1.seq == leAt (byt [2, 0]) 0 2) = some (g, true) ∧
     g.typ ∉ [6, 7, 8]) ∧
    (let r : RegAcc := { req := 2, write := false, off := 2, data := 0 }
     let l := (upS 7 (fr 8 [2, 0, 0, 0, 3, 4, 5, 6, 0]) { regQ := [r], regAt := some 0 }).link 7
     l.regAt = some 0 ∧ l.regQ = r :: [] ∧ r.req = 2 ∧ leAt (byt [2, 0, 0, 0, 3, 4, 5, 6, 0]) 0 4 = r.off % 2 ^ 32) ∧
    (let l := (upS 7 (fr 13 [2, 0, 0, 0]) { measuring := true, probeTag := 2, rtts := List.replicate 14 500 }).link 7
     l.measuring = true ∧ leAt (byt [2, 0, 0, 0]) 0 4 = l.probeTag ∧ l.rtts.length < 15) ∧
    ((upS 7 (fr 13 [2, 0, 0, 0]) { measuring := true, probeTag := 2, rtts := List.replicate 15 500 }).link 7).rtts.length = 15 := by
  decide +kernel

theorem witness_DamagedFramesAreDiscarded : (fr 3 [1, 0]).typ = 3 ∧ Rx.badCrc ≠ .ok ∧ (upS 7 (fr 3 [1, 0])).looped 7 = false ∧
    (upS 7 (fr 3 [1, 0])).linkIsUp 7 = true ∧ (downS 7 (fr 3 [1, 0])).present 7 = true := by decide

/-- Event task 17, with its trigger. -/
def evTask (kind arg : Nat) (s : State) : State :=
  { s.fon (Reg.TASK_STAT_ENABLED 17) with
    boot := { topo := [{ ty := 0x0202, inst := 17, data := [0, 0, 0] ++ leBytes 1 kind ++ [0, 0, 0, 0] ++ leBytes 4 arg }] } }

theorem witness_ControlReportsComplete :
    (let s := evTask 3 0xFF09 (upS 3 (fr 9 [2, 1, 0, 0, 0, 0, 0, 0]))
     s.running = true ∧ s.power.crossAt = none ∧ s.taskOn 17 = true ∧ s.topoN 0x0202 17 3 1 0 = 3 ∧ s.topoN 0x0202 17 8 4 0 % 16 = 4 * (3 - 1) + 1 ∧
       s.topoN 0x0202 17 8 4 0 / 256 % 256 = 0xFF) ∧
    (let s := evTask 4 31 (upS 4 (fr 9 [wTrip, 1, 0, 0, 0, 0, 0, 0]))
     s.taskOn 17 = true ∧ s.topoN 0x0202 17 3 1 0 = 4 ∧ leAt (byt [wTrip]) 0 1 = wTrip ∧ s.topoN 0x0202 17 8 4 0 % 32 = 31) ∧
    (let s := evTask 2 (32 + 3 + 256) (upS 7 (fr 9 [1, 3, 1, 0, 0, 0, 0, 0]))
     s.taskOn 17 = true ∧ s.topoN 0x0202 17 3 1 0 = 2 ∧ s.topoN 0x0202 17 8 4 0 % 64 = 32 * (7 - 6) + 3 ∧
       bit (s.topoN 0x0202 17 8 4 0 / 256) 0 = true) ∧
    leAt (byt [11]) 0 1 < 12 ∧ (leAt (byt [0xF0, 11]) 0 1 = 0xF0 ∧ leAt (byt [0xF0, 11]) 1 1 < 12) ∧
    (let s : State := { upS 2 (fr 11 [0xF1, 5, 3]) with ledger := [(5, { isOpen := true, state := 2 })] }
     leAt (byt [0xF1, 5, 3]) 0 1 = 0xF1 ∧ leAt (byt [0xF1, 5, 3]) 1 1 < 12 ∧ s.mode ≠ mStandby ∧ (s.lrec 5).isOpen = true ∧
       leAt (byt [0xF1, 5, 3]) 2 1 ≠ dLocked) ∧
    (((upS 7 (fr 1 []) { inputDue := true }).link 7).inputDue = true ∧ ((upS 7 (fr 1 []) { inputDue := true }).link 7).inputIn = false) := by
  decide +kernel

theorem witness_CoherentCycleCompletes :
    ((stUp 2 3 {}).sampling = true ∧ (stUp 2 3 {}).time.sampled = false) ∧
    (let s := stUp 2 7 { latchDue := true }
     (s.link 7).latchDue = true ∧ s.present 7 = true ∧ s.linkIsUp 7 = true) ∧
    (stUp 2 7 {}).inReset = false ∧
    (let s : State := { stUp 2 7 { inputDue := true } with time := { gs := 1 } }
     s.running = true ∧ (s.link 7).inputDue = true ∧ (s.link 7).inputIn = false) ∧
    (let s := stUp 2 7 {}
     s.commits = true ∧ s.time.emitted = false ∧ ∀ n ∈ satSlots, s.admitted n = true → (s.link n).lresetMiss = false ∧ (s.link n).ackWrong = false ∧
        ((s.link n).stageNum = none ∨ (s.link n).acked.isSome = true)) ∧
    (let s := stUp 2 3 { commitDue := true }
     (s.link 3).commitDue = true ∧ s.present 3 = true ∧ s.looped 3 = false ∧ s.linkIsUp 3 = true) ∧
    (let s := (stUp 2 7 { commitDue := true }).fon (Reg.FIO_STAT_MODE_C 1)
     (s.link 7).commitDue = true ∧ s.modeC (7 - 6) = true) ∧
    (let s := stUp 2 7 { commitDue := true }
     (s.link 7).commitDue = true ∧ s.present 7 = true ∧ s.looped 7 = false ∧ s.modeC (7 - 6) = false) ∧
    (let s : State := { stUp 2 7 {} with time := { gc := 1, confirmDue := true, sentTo := 128, publishDue := true } }
     s.time.confirmDue = true ∧ bit s.time.sentTo 7 = true ∧ bit s.time.confirmed 7 = false ∧ s.time.publishDue = true) := by decide +kernel

theorem witness_StageDeadlinesComplete :
    (let f : Frame := { typ := 2, payload := [] }
     let s := stUp 2 7 { stageNum := some 1, ctlKept := [(f, false)] }
     (s.link 7).stageNum = some 1 ∧ (s.link 7).acked = none ∧ (s.link 7).stageResent = false ∧ (s.link 7).resync = false ∧
       ((s.link 7).ctlKept.find? fun g => g.1.typ == 2 || g.1.typ == 0x0A) = some (f, false)) ∧
    (let s := (stUp 2 7 {}).setSat 7 { staged := some (1, false, [], 5) }
     (s.sat 7).staged = some (1, false, [], 5) ∧ s.present 7 = true) ∧
    (let s := stUp 2 7 {}; s.mode ≠ mPark ∧ satSlots.any (fun n => s.admitted n) = true ∧ s.admitted 7 = true ∧ s.linkIsUp 7 = true) := by decide +kernel

theorem witness_RegisterAccessCompletes :
    ((st 2).mode ≠ mPark ∧ slotOfAddr 0x40020900 = none ∧ (ctlFields 0x40020900).isSome = true ∧
      0x40020900 ∉ [0x40000000, 0x40000010, Reg.SNAP_CTRL_SNAP_REQ.addr, Reg.LB_CTRL_START.addr]) ∧
    (slotOfAddr 0x47000014 = some 7 ∧ (st 2).fitted 7 = true) ∧
    (st 2).fbit Reg.SNAP_CTRL_SNAP_BUSY = false ∧ ((st 2).fon Reg.SNAP_CTRL_SNAP_BUSY).fbit Reg.SNAP_CTRL_SNAP_BUSY = true := by decide +kernel

/-! ### Modes, resets and power -/

/-- Parked, with every wake source and a wake-up time of 1 s. -/
def parkS : State := { st 4 with boot := { topo := [rc 0x0102 0 [7, 15, 1, 0, 0, 0]] } }

theorem witness_ResetsComplete :
    (let s : State := { st 2 with power := { hold := true } }; s.power.hold = true) ∧
    ((st 2).tap.pinLow = false ∧ (st 2).tap.held = false ∧ (st 2).power.hold = false ∧ (st 2).mode ≠ mPark ∧ (st 2).inReset = false) ∧
    (let s : State := { st 2 with tap := { pinLow := true } }; s.tap.pinLow = true) ∧ (st 2).fitted 7 = true ∧
    (let s : State := { st 2 with boot := { topo := [rc 0x701 1 [15], rc 0x702 67 [0, 2]] } }; s.mode ≠ mPark ∧ s.bufOn 67 = true) := by decide +kernel

theorem witness_ParkAndPowerFailComplete :
    (let s : State := { st 2 with power := { park := 2 } }; s.power.park = 2 ∧ s.mode = mActive ∧ s.duplexNow = false) ∧
    (parkS.wakeOn 0 = true ∧ parkS.wakeOn 1 = true ∧ bit (parkS.topoN 0x0102 0 1 1 0) 3 = true ∧ parkS.wakeOn 2 = true ∧
      parkS.topoN 0x0102 0 2 4 0 ≠ 0) ∧
    (let s : State := { st 2 with power := { wakeAt := some 7 } }; s.power.wakeAt = some 7) ∧
    ((st 2).power.crossAt = none ∧ (st 2).power.hold = false) ∧
    (let s := (st 2).setAct 3 (some { a0 with pf := true })
     (taskNums.find? fun t => match s.act t with | some a => a.pf | none => false) = some 3 ∧ s.act 3 = some { a0 with pf := true }) ∧
    (let s : State := { st 2 with power := { crossAt := some 0 } }
     s.power.crossAt.isSome = true ∧ s.commits = true ∧ s.pfWait = false ∧ ∀ e ∈ s.eng.ended, e.out = true) ∧
    (let s : State := { st 2 with power := { crossAt := some 0, committed := true, claimDue := true } }
     s.power.claimDue = true ∧ s.power.crossAt = some 0 ∧ s.power.hold = false ∧ s.running = true ∧ s.power.committed = true) := by decide +kernel

theorem witness_HousekeepingCompletes :
    (∀ n ∈ [1, 2, 3], let s : State := { st 0 with boot := { step := n, cold := true } }
     s.inReset = false ∧ s.mode = mBoot ∧ s.boot.step = n ∧ s.fget Reg.BOOT_STAT_BOOT_LOOPS ≠ 3 ∧ s.modeReq = none ∧ s.boot.cold = true ∧
       s.tap.wait = []) ∧
    ((st 2).inReset = false ∧ (st 2).mode ≠ mBoot ∧ (st 2).mode ≠ mPark) ∧
    (let s : State := { st 2 with boot := { image := some img, firstSample := 1 } }
     s.boot.image = some img ∧ s.boot.firstSample ≠ 0 ∧ s.fbit Reg.BOOT_STAT_FROM_SHADOW = false ∧ s.shadowValid = false) ∧
    ((st 3).mode = mMaint ∧ (st 3).modeReq = none) ∧
    (let s : State := { st 2 with time := { gc := 1 } }
     s.eng.ckpt = none ∧ s.running = true ∧ s.power.crossAt = none ∧ 0 < s.time.gc ∧ s.fget Reg.CKPT_SEQ_SEQ = 0 ∧ s.parkCut = false ∧
       s.cutIsDue = true) ∧
    (let k : Ckpt := { slot := 3, gc := 5, blks := 0, hold := [], flags := 0, pubs := [], parGen := 0, carried := 0 }
     let s : State := { st 2 with eng := { ckpt := some k } }
     s.eng.ckpt = some k ∧ k.slot < 4) := by decide +kernel

/-! ### The voter, tasks and online change -/

def taskS : State :=
  { (engS {}).fon (Reg.TASK_STAT_ENABLED 17) with
    boot := { topo := [{ ty := 0x0202, inst := 17, data := [0, 0, 0] ++ leBytes 1 8 ++ [0, 0, 0, 0] ++ leBytes 4 3 ++ leBytes 4 0 ++ leBytes 4 7 }] } }

theorem witness_VoterAndTimersComplete :
    (let s := (engS {}).fset Reg.VOTE_STAT_EXCLUDED 4
     let s : State := { s with eng := { s.eng with boundary := 4 } }
     bit (s.fget Reg.VOTE_STAT_EXCLUDED) 2 = true ∧ bit s.eng.boundary 2 = true ∧ s.eng.frozen = false ∧ bit s.eng.retire 2 = false ∧
       s.eng.dbgWait = false) ∧
    (let s := engS {}
     s.laneState ≠ laneUnbound ∧ s.running = true ∧ s.eng.frozen = false ∧ s.soleLane = false) ∧
    (let s0 := engS {}
     let s : State := { s0 with eng := { s0.eng with vtest := some none } }
     let vs (x : Nat) : List (Nat × List (Nat × Nat)) := [(0, [(0, 1)]), (1, [(0, 1)]), (2, [(0, x)])]
     s.driving = true ∧ s.testStep (s.fget Reg.VTEST_STAT_NEXT_STEP) = 0 ∧ s.power.crossAt = none ∧ s.modeReq = none ∧
       (((vs 1).find? fun p => p.1 == 0).bind fun p => injected 0 p.2) = some [(0, 0)] ∧ vote (vs 1) = .pass 0 none ∧
       flagOf 3 0 (vote ((vs 1).map fun p => if p.1 = 0 then (0, [(0, 0)]) else p)) = some (0, 0) ∧
       (none : Option (Nat × Nat)) ≠ some (0, 0) ∧ vote (vs 2) = .pass 0 (some (2, 0))) ∧
    (taskS.running = true ∧ taskS.power.crossAt = none ∧ taskS.taskOn 17 = true ∧ taskS.topoN 0x0202 17 3 1 0 = 8 ∧
      0 < taskS.topoN 0x0202 17 8 4 0) ∧
    ((taskS.setAct 17 (some a0)).act 17 = some a0 ∧ a0.pf = false ∧ (taskS.setAct 17 (some a0)).topoN 0x0202 17 16 4 10000 ≠ 0) := by decide +kernel

theorem witness_ChangeEventsComplete :
    (let x : Txn := { point := 40, entries := [], sess := some 0, ring := 17, acked := false }
     let y : Txn := { x with acked := true }
     let s : State := { taskS with chg := { txn := some y } }
     s.chg.txn = some y ∧ y.acked = true) ∧
    (let s : State := { taskS with chg := { verify := true, load := some (2, []) } }
     s.chg.verify = true ∧ s.chg.load = some (2, []) ∧ 2 ≤ 2 ∧ 1 < 2) ∧
    (let s := taskS.setSlot 1 slVerified
     let s : State := { s with chg := { switchAt := some 3, acked := true } }
     s.chg.switchAt = some 3 ∧ s.slotIn slVerified = some 1 ∧ s.chg.acked = true) ∧
    (let s := (taskS.setSlot 1 slProbation).setSlot 0 slActive
     let s : State := { s with chg := { probEnd := some 3, revertAt := some 2, acked := true } }
     s.chg.probEnd = some 3 ∧ s.slotIn slProbation = some 1 ∧ s.chg.revertAt = some 2 ∧ s.slotIn slActive = some 0 ∧ s.chg.acked = true) ∧
    (let x : Txn := { point := 40, entries := [], sess := some 0, ring := 17, acked := false }
     let s : State := { taskS.fon Reg.MODE_STAT_DUPLEX with chg := { txn := some x } }
     s.chg.txn = some x ∧ x.acked = false ∧ ∀ v ∈ s.unacked, x.point ≤ v.1) ∧
    (let s := taskS.setSlot 1 slVerified
     let s : State := { s with chg := { switchAt := some 3 } }
     s.chg.txn = none ∧ s.chg.switchAt = some 3 ∧ s.chg.acked = false ∧ (∀ v ∈ s.unacked, 3 ≤ v.1) ∧ s.slotIn slVerified = some 1) ∧
    (let s : State := { taskS with chg := { revertAt := some 3 } }
     s.chg.txn = none ∧ s.chg.switchAt = none ∧ s.chg.revertAt = some 3 ∧ s.chg.acked = false) := by decide +kernel

/-! ### Doors, loads and field dies -/

/-- Channel 5 of door die 1 (slot 2), configured with role `role`. -/
def doorS (d : Door) (ap : Bytes := []) (role : Nat := 1) : State :=
  let s := (stUp 2 2 {}).fon (Reg.DRV_STAT_CONFIGURED 1)
  let s := s.setSat 2 { applied := ap, everCommit := true, cfg :=
    [rc 0x301 5 ([role, 0, 4, 0] ++ [160, 0, 0xF4, 1, 2, 0, 0xC4, 9, 0xE8, 3] ++ List.replicate 14 1 ++ [80, 0, 10, 1, 1, 0, 1, 0, 1, 0]),
     rc 0x302 5 (List.replicate 24 1), rc 0x303 5 (List.replicate 24 1), rc 0x402 5 (List.replicate 30 1), rc 0x404 5 (List.replicate 30 1),
     rc 0x405 1 (List.replicate 8 1), rc 0x305 1 [0xFF, 1]] }
  s.setDoor 5 d

def drive (n : Nat) : Door := { state := n, en := true, gates := true }

/-- The filter's sum over a window of ones. -/
theorem sincSum_ones (j : Nat) : sincSum 16 (List.replicate (j + 46) true) = 4096 := by
  rw [Nat.add_comm, List.replicate_add, sincSum, show 3 * 16 - 2 = (List.replicate 46 true).length by decide]
  rw [show List.range (List.replicate 46 true).length = List.range (List.replicate 46 true).length ++ [] by simp,
    List.zip_append (by simp)]
  simp only [List.zip_nil_right, List.append_nil]
  decide +kernel

/-- The sum of samples of ones, and then of no bits. -/
theorem sincTotal_ones (n r a : Nat) :
    sincTotal (n + r) (List.replicate (16 * n + 30) true) a = sincTotal r (List.replicate 30 true) (a + 4096 * n) := by
  induction n generalizing a with
  | zero => simp
  | succ n ih =>
    rw [show n + 1 + r = (n + r) + 1 by omega, show 16 * (n + 1) + 30 = 16 * n + 46 by omega]
    rw [sincTotal, sincSum_ones, List.drop_replicate, show 16 * n + 46 - 16 = 16 * n + 30 by omega, ih]
    congr 1; omega

theorem sincTotal_none (n a : Nat) : sincTotal n [] a = a := by
  induction n generalizing a with
  | zero => rfl
  | succ n ih => rw [sincTotal, show sincSum 16 [] = 0 from rfl]; exact ih a

theorem sincTotal_half : sincTotal 4096 (List.replicate (16 * 2047 + 30) true) 0 = 4096 * 2047 + 3840 := by
  have h := sincTotal_ones 2047 2049 0
  rw [show 2047 + 2049 = 4096 by rfl] at h
  rw [h, show (2049 : Nat) = 2047 + 2 by rfl]
  rw [sincTotal, sincTotal]
  show sincTotal 2047 [] _ = _
  rw [sincTotal_none]
  rfl

/-- A stream half of whose bits are ones: an offset near 0. -/
def halfOnes : List Bool := List.replicate (16 * 2047 + 30) true

theorem witness_offset_in_range : ¬ ((doorS { state := 3, offAt := some 5 }).iFs 5 < 20 * ((doorS { state := 3, offAt := some 5 }).bitOffset 5 halfOnes).natAbs) := by
  unfold State.bitOffset halfOnes
  rw [sincTotal_half]
  decide +kernel

theorem witness_DoorMeasurementsComplete :
    (let s := doorS (drive 4)
     let d := s.door 5
     s.chOn 5 = true ∧ s.chShadow 5 = false ∧ d.state ≠ s.code 5 dFault tFault ∧ s.frozenCh 5 = false ∧ s.resuming 5 = false ∧
       s.drvN 5 3 1 0 ≠ 2 ∧ d.dcLow = false ∧ (d.en && d.stopping) = false) ∧
    (let d := (doorS { drive 4 with react := 1 }).door 5; (d.en && d.stopping) = true) ∧
    (let s := doorS { state := 3, lowAt := some 5 }
     let d := s.door 5
     s.chOn 5 = true ∧ s.chShadow 5 = false ∧ d.en = false ∧ d.offAt = none ∧ d.lowAt = some 5) ∧
    (let s := doorS { state := 3, offAt := some 5 }
     (s.door 5).offAt = some 5 ∧ s.iFs 5 < 20 * (s.bitOffset 5 []).natAbs) ∧
    ((doorS { state := 4, dcLow := true }).door 5).dcLow = true ∧
    (let s := doorS { state := 4 }
     bit (s.door 5).raw 0 ≠ true ∧ s.inDeb 5 0 ≠ 0 ∧ s.loopsIn 7 5 = false) ∧
    (let s := doorS { state := 4, raw := 1, debAt := [(0, some 9)] }
     bit (s.door 5).raw 0 = true ∧ mget none (s.door 5).debAt 0 = some 9) ∧
    (let s0 := doorS { state := 4 }
     let s := s0.setSat 2 { s0.sat 2 with cfg := rc 0x304 5 (List.replicate 20 0) :: (s0.sat 2).cfg }
     s.inDeb 5 0 = 0 ∧ s.chOn 5 = true ∧ bit (s.door 5).raw 0 ≠ true) := by
  and_intros <;> decide +kernel

theorem witness_DoorRowsComplete :
    (let s := doorS (drive 1)
     let d := s.door 5
     s.chOn 5 = true ∧ s.frozenCh 5 = false ∧ s.chShadow 5 = false ∧ s.isDoor 5 = true ∧ d.posValid = false ∧ d.rise = 0 ∧ d.aborting = false ∧
       d.run = 0 ∧ d.maintWas = false ∧ d.awaits = false ∧ d.state = dReleased ∧ s.ctrl 5 0 = false) ∧
    (let s := doorS (drive tStowed) ((List.range 8).map fun i => (16 + i, 1)) 2
     let d := s.door 5
     s.chOn 5 = true ∧ s.frozenCh 5 = false ∧ s.chShadow 5 = false ∧ s.isDoor 5 = false ∧ d.posValid = false ∧ d.rise = 0 ∧ d.aborting = false ∧
       d.run = 0 ∧ d.maintWas = false ∧ d.awaits = false ∧ d.state = tStowed ∧ s.newCmd 5 = some 1 ∧ s.ctrl 5 0 = true ∧ 0 < s.extE 5 (s.cmdB 5 3)) ∧
    (let s := doorS { drive dClosing with forceAt := some 5, defAt := some 5 }
     let d := s.door 5
     s.chOn 5 = true ∧ s.frozenCh 5 = false ∧ d.react = 0 ∧ d.forceAt = some 5 ∧ d.defAt = some 5 ∧ s.armed 5 = true ∧ s.isDoor 5 = true ∧
       s.deficitOn 5 = true ∧ d.state ∈ [dOpening, dClosing, tDeploying, tStowing]) ∧
    (let s := doorS { drive dHalted with both := some 5 }
     let d := s.door 5
     s.chOn 5 = true ∧ s.frozenCh 5 = false ∧ d.both = some 5 ∧ d.posValid = false ∧ d.state ∈ [dHalted, tHalted, tStowing]) ∧
    (let s := doorS { drive 4 with plausAt := some 5 }
     s.chOn 5 = true ∧ s.chShadow 5 = false ∧ (s.door 5).state ≠ s.code 5 dFault tFault ∧ (s.door 5).plausAt = some 5) ∧
    ((doorS (drive dUnlocking)).chOn 5 = true ∧ (doorS (drive dUnlocking)).frozenCh 5 = false ∧ ((doorS (drive dUnlocking)).door 5).state = dUnlocking) ∧
    (let s := doorS { drive tDeploying with contAt := some 5 } [] 2
     s.chOn 5 = true ∧ s.frozenCh 5 = false ∧ s.isDoor 5 = false ∧ (s.door 5).state = tDeploying ∧ (s.door 5).contAt = some 5) ∧
    (let s := doorS { drive dReversing with react := 3 }
     s.chOn 5 = true ∧ s.frozenCh 5 = false ∧ s.isDoor 5 = true ∧ (s.door 5).state = dReversing ∧ (s.door 5).react = 3 ∧
       (s.door 5).attempt < s.nMax 5) ∧
    (let s := doorS { drive dReversing with react := 3, attempt := 255 }; ¬ (s.door 5).attempt < s.nMax 5) ∧
    (let s := doorS { drive 4 with run := 1, goal := 2 }
     s.chOn 5 = true ∧ s.frozenCh 5 = false ∧ (s.door 5).run = 1 ∧ (s.door 5).goal = 2) := by
  and_intros <;> decide +kernel

theorem witness_DoorDieCompletes :
    (let s := doorS (drive 4)
     s.present (1 + 1) = true ∧ (s.sat (1 + 1)).everCommit = true ∧ s.fbit (Reg.DRV_STAT_SILENT 1) = false ∧ 5 / 4 = 1 ∧ s.role 5 ≠ 0 ∧
       s.fbit (Reg.DRV_MODE_SHADOW 1) ≠ true) ∧
    (let s := (doorS (drive 4)).fon (Reg.DRV_MODE_SHADOW 1); s.present (1 + 1) = true ∧ s.fbit (Reg.DRV_MODE_SHADOW 1) ≠ false) ∧
    (let s := doorS { drive 4 with evPend := some 3, evAt := some 4 }
     (s.door 5).evPend = some 3 ∧ (s.door 5).evAt = some 4 ∧ s.linkIsUp (chSlot 5) = true ∧ s.present (chSlot 5) = true) ∧
    (let s := doorS (drive dClosing)
     s.chOn 5 = true ∧ bit (s.dieN (chSlot 5) 0x0305 (5 / 4) 0 1 0) (5 % 4) = true ∧ inMotion (s.door 5).state = true ∧
       ((s.door 5).traceDiv + 1) % s.dieN (chSlot 5) 0x0305 (5 / 4) 1 1 1 = 0 ∧ s.linkIsUp (chSlot 5) = true) ∧
    (let s := (doorS (drive dClosing)).fset (Reg.LINK_STAT_UP 2) 0; s.chOn 5 = true ∧ s.linkIsUp (chSlot 5) = false) ∧
    (((doorS { state := 4, resumeAt := some 4 }).door 5).resumeAt = some 4 ∧ ((doorS { state := 4, resumeAt := some 4 }).door 5).en = false) ∧
    (let s := (doorS { state := 4, divAt := some 4 }).fon (Reg.DRV_MODE_SHADOW 1)
     s.chShadow 5 = true ∧ (s.door 5).diverge = false ∧ (s.door 5).divAt = some 4) ∧
    ((doorS { state := 4, window := [(3, 4)], winSet := true }).door 5).winSet = true := by decide +kernel

/-- Channels 2 and 3 of load die 0 (slot 4). -/
def loadS (l : Load) (pair : Nat := 0) (fl : Nat := 0x30) : State :=
  let s := (stUp 2 4 {}).fon (Reg.LSW_STAT_CONFIGURED 0)
  let s := s.setSat 4 { powered := true, applied := [(2, 1)], cfg :=
    [rc 0x501 2 [1, 2, 0x58, 2, 0xff, 0xff, 0xff, 0xff, 0xff, fl, pair, 0, 50, 0, 100, 0, 100, 0, 0, 0],
     rc 0x501 3 [1, 2, 0x58, 2, 0xff, 0xff, 0xff, 0xff, 0xff, 0x30, 2, 0, 50, 0, 100, 0, 100, 0, 0, 0]] }
  s.modLoad 2 fun _ => l

theorem witness_LoadChannelsComplete :
    (let s := loadS { state := lOn }
     s.ldUsed 2 = true ∧ s.lowerOf 2 = 2 ∧ s.pair 2 = 0 ∧ (s.load 2).state = lOn ∧ s.lswRel 2 = false ∧ s.fbit (Reg.LSW_MODE_STBY (2 / 12)) = false ∧
       s.band 2 ≠ 3 ∧ (s.load 2).isOn = true ∧ s.pair 2 ≠ 2) ∧
    (let s := loadS { state := lOn, limAt := some 7, revAt := some 7, openAt := some 9 }
     (s.load (s.lowerOf 2)).state = lOn ∧ (s.load (s.lowerOf 2)).limAt = some 7 ∧ (s.load (s.lowerOf 2)).isOn = true ∧
       (s.load (s.lowerOf 2)).revAt = some 7 ∧ (s.load 2).openAt = some 9) ∧
    (let s := loadS { state := lInrush, winEnd := some 7 }; (s.load (s.lowerOf 2)).state = lInrush ∧ (s.load (s.lowerOf 2)).winEnd = some 7) ∧
    (let s := loadS { state := lDeferred, rearmWait := true, tripAt := some 9 }
     (s.load 2).state = lDeferred ∧ (s.load 2).rearmWait = true ∧ (s.load 2).tripAt = some 9 ∧ (s.load 2).bandWait = false ∧ s.band 2 ≠ 2) ∧
    (let s := (loadS { state := lOff }).toMono 200000000
     s.ldUsed 2 = true ∧ s.pair 2 ≠ 2 ∧ (s.load 2).isOn = false ∧ s.lflag 2 4 = true ∧ s.band 2 = 0 ∧ (s.load 2).offAt + 100000000 ≤ s.time.mono ∧
       (s.load 2).chkHigh = decide (400 < 400)) ∧
    (let s := (loadS { state := lOff }).fset (Reg.LSW_STAT_BAND 0) 1
     s.ldUsed 2 = true ∧ s.pair 2 ≠ 2 ∧ (s.load 2).isOn = false ∧ s.lflag 2 4 = true ∧ s.band 2 ≠ 0) ∧
    (let s := loadS { state := lOn, pairAt := some 9 } 1
     s.pair 2 = 1 ∧ (s.load 2).pairDone = false ∧ (s.load 2).pairAt = some 9 ∧ (s.load 2).isOn = true) := by decide +kernel

theorem witness_LoadDiesComplete :
    (let s := loadS { state := lOn }
     s.present (4 + 0) = true ∧ s.fbit (Reg.LSW_STAT_RELEASED 0) = false ∧ 2 / 12 = 0 ∧ (s.load 2).state ∉ [lUnused, lSlave, lReleased]) ∧
    (let s : State := { loadS { state := lOn } with ldies := [(0, { lowAt := [some 9, some 5, none] })] }
     let low (c : Nat) : Option Nat := (mget ({} : LoadDie) s.ldies 0).lowAt.getD c none
     s.present (4 + 0) = true ∧ s.fget (Reg.LSW_STAT_BAND 0) ≤ 1 ∧ 1 < 3 ∧ low 1 = some 5 ∧ low 0 = some 9 ∧ low 2 = none ∧ 5 ≤ 9 ∧
       (800#16).toNat < bandLow 1) ∧
    (let s : State := { (loadS { state := lDipOff }).fset (Reg.LSW_STAT_BAND 0) 2 with ldies := [(0, { riseAt := some 4 })] }
     s.present (4 + 0) = true ∧ s.fget (Reg.LSW_STAT_BAND 0) ≠ 0 ∧ (mget ({} : LoadDie) s.ldies 0).riseAt = some 4 ∧
       s.fget (Reg.LSW_STAT_BAND 0) = 2 ∧ (s.load 2).state = lDipOff ∧
       (bandReturn (s.fget (Reg.LSW_STAT_BAND 0) - 1)).1 ≤ (900#16).toNat) ∧
    (let s := loadS { state := lDipOff, slotAt := some 6 } 0 0x11
     (s.load 2).slotAt = some 6 ∧ (s.load 2).state = lDipOff ∧ s.band 2 < 2 ∧ s.lswRel 2 = false ∧ s.ldOn 2 = true ∧ s.dipRestore 2 = true) ∧
    (loadS { state := lDipOff, slotAt := some 6 } 0 0x10).dipRestore 2 = false ∧
    (let s := loadS { state := lOn, evPend := some 7, evAt := some 6 }
     (s.load 2).evPend = some 7 ∧ (s.load 2).evAt = some 6 ∧ s.linkIsUp (ldSlot 2) = true ∧ s.present (ldSlot 2) = true) := by decide +kernel

/-- Field die 0 (slot 6) with fast input 1. -/
def fieldS (x : Field) : State :=
  let s := (stUp 2 6 {}).fon (Reg.FIO_STAT_CONFIGURED 0)
  let s := s.setSat 6 { powered := true, applied := [(0, 3)], cfg :=
    [rc 0x604 0 (List.flatten (List.replicate 16 [1, 0, 4, 0])), rc 0x602 0 (List.flatten (List.replicate 4 [100, 0, 0, 0]) ++ List.replicate 112 0),
     rc 0x603 1 [2, 0, 0, 0, 10, 0, 0, 0, 0, 0, 0, 0]] }
  s.modField 0 fun _ => x

def driven : Field := { hasSet := true, fdo := 0xFFFF, everApply := true, vi := 2400 }

theorem witness_FieldOutputsComplete :
    (let s := fieldS driven
     s.present (6 + 0) = true ∧ (s.fio 0).viLow = false ∧ (s.fio 0).stopped = false ∧ s.fioOn 0 = true ∧ (s.fio 0).lowAt = none ∧
       bit (s.fio 0).raw 3 ≠ true ∧ s.dieN (6 + 0) 0x0602 0 (4 * 3) 2 1000 = 100 ∧ s.dieN (6 + 0) 0x0602 0 (4 * 4) 2 1000 = 0 ∧ (s.fio 0).fast.length = 8 ∧ s.fastN 0 1 0 1 0 = 2 ∧
       ((s.fio 0).fast.getD 1 {}).ftmo = false ∧ s.outOn 0 15 = true ∧ s.outMode 0 15 ≠ 0 ∧ bit (s.fio 0).hot 15 = false) ∧
    (let s := fieldS { driven with lowAt := some 7, raw := 8, debAt := [(3, some 9)] }
     (s.fio 0).lowAt = some 7 ∧ (s.fio 0).viLow = false ∧ bit (s.fio 0).raw 3 = true ∧ mget none (s.fio 0).debAt 3 = some 9) ∧
    (let s := fieldS { driven with viLow := true, okAt := some 7 }; (s.fio 0).okAt = some 7 ∧ (s.fio 0).stopped = false) ∧
    (let s := fieldS { driven with stopped := true }; (s.fio 0).stopped = true ∧ s.modeC 0 = false) ∧
    (let s := fieldS { driven with evPend := [(31, true, 77)] }
     ((s.fio 0).evPend.find? fun p => p.1 == 31) = some (31, true, 77) ∧ s.linkIsUp (6 + 0) = true ∧ s.present (6 + 0) = true) ∧
    (let s := fieldS { driven with ovl := 8 }
     bit (s.fio 0).ovl 3 = true ∧ bit (s.outFlags 0 3) 2 = true ∧ bit (s.fio 0).fdo 3 = true ∧ bit (s.fio 0).hot 3 = false) ∧
    bit ((fieldS { driven with hot := 8 }).fio 0).hot 3 = true ∧
    (let s := fieldS { driven with applyAt := 5 }
     s.fioOn 0 = true ∧ (s.fio 0).safeAct = false ∧ (s.fio 0).everApply = true ∧ (s.fio 0).hasSet = true ∧ (s.fio 0).stopped = false ∧
       s.fbit (Reg.FIO_MODE_STBY 0) = false ∧ s.fbit (Reg.FIO_STAT_RELEASED 0) = false) := by decide +kernel

theorem witness_FieldItemsComplete :
    (let s := fieldS driven
     s.fioRuns 0 = true ∧ s.modeC 0 = false ∧ (s.fio 0).stopped = false ∧ (s.fio 0).outRx = (s.fio 0).outTx ∧ (s.fio 0).outTx < 256 ∧
       (s.fio 0).applyNum = none ∧ s.fbit (Reg.FIO_STAT_XLOSS 0) = false ∧ Rx.badCrc ≠ .ok) ∧
    (let o : OutItem := ⟨2, false, false, 77, 5⟩
     let s := fieldS { driven with applyNum := some 258, held := some o, fnum := some 1 }
     (s.fio 0).applyNum = some 258 ∧ (s.fio 0).stopped = false ∧ (s.fio 0).held = some o ∧ o.target = 258 % 256 ∧ (s.fio 0).fnum = some 1 ∧
       (1 + 1) % 256 = 258 % 256 ∧ o.resync = false ∧ (fieldS { driven with applyNum := some 258, held := some o }).fio 0 =
       { driven with applyNum := some 258, held := some o, fnum := none } ∧ ({ o with resync := true } : OutItem).resync = true) ∧
    (let s := fieldS { driven with applyNum := some 258, ackw := some (some 2) }
     (s.fio 0).applyNum = some 258 ∧ (s.fio 0).held = none ∧ (s.fio 0).ackw = some (some (258 % 256)) ∧ s.present 6 = true ∧
       s.linkIsUp 6 = true) ∧
    (let s := fieldS { driven with sampleDue := true }
     (s.fio 0).inRx = (s.fio 0).inTx ∧ (s.fio 0).inTx < 256 ∧ (s.fio 0).sampleDue = true ∧ s.linkIsUp 6 = true) ∧
    (let s := (fieldS driven).fon (Reg.FIO_STAT_XLOSS 0); s.modeC 0 = false ∧ s.fbit (Reg.FIO_STAT_XLOSS 0) = true ∧ s.mode ≠ mPark) ∧
    ((fieldS { driven with goodAt := some 4 }).fio 0).goodAt = some 4 ∧
    (let s := (fieldS driven).fon (Reg.FIO_STAT_MODE_C 0); s.fioOn 0 = true ∧ s.modeC 0 = true ∧ s.fbit (Reg.FIO_STAT_XLOSS 0) = false ∧ s.mode ≠ mPark ∧
     (s.fio 0).stopped = false ∧ (s.fio 0).viLow = false) := by
  decide +kernel

/-! ### The interlock unit and the peer's release -/

/-- The interlock unit configured, with every condition old enough. -/
def ilS (m : Nat) : State :=
  { st m with
    il := { sampT := 5000000000, lowAt := some 0, discAt := some 0, moveAt := some 0, relAt := [some 0, some 0],
            rbAt := [some 0, some 0, some 0, some 0], evalAt := some 77, te := true, loop := true }
    boot := { topo := [rc 0x401 0 ([3] ++ List.replicate 17 0 ++ [10, 0, 10, 0, 10, 0, 0, 0, 0, 0, 0, 0, 10, 0]), rc 0x202 3 [0, 0, 0, 0, 4, 0, 0, 0, 0, 0]] } }

theorem witness_room (code : Fin 1024) : (st 2).room code := ⟨by decide, Or.inr (by
  show mget 0 [] code.val < _
  unfold State.rateOf; revert code; decide +kernel)⟩

theorem witness_InterlocksComplete :
    (ilS 2).ilOn = true ∧
    (let s := ((ilS 2).fon Reg.IL_STAT_ZS_A_LOW).fon Reg.IL_STAT_ZS_B_LOW
     s.fbit Reg.IL_STAT_ZS_A_LOW = true ∧ s.fbit Reg.IL_STAT_ZS_B_LOW = true ∧ s.fbit Reg.IL_STAT_ZS_DISCREPANT = false ∧
       s.lasted s.il.lowAt (s.ilN 18 2 2000) = true) ∧
    ((ilS 2).fbit Reg.IL_STAT_ZS_DISCREPANT = false ∧ (ilS 2).lasted (ilS 2).il.discAt ((ilS 2).ilN 20 2 5000) = true ∧
      (ilS 2).room cZS_DISCREPANT) ∧
    (let s := (ilS 2).fon Reg.IL_STAT_ZS_DISCREPANT; s.fbit Reg.IL_STAT_ZS_DISCREPANT = true ∧ s.lasted s.il.moveAt 1000 = true) ∧
    ((ilS 2).il.relRec.length = 2 ∧ (ilS 2).il.relRec.getD (b2n true) false = false ∧
      (ilS 2).lasted ((ilS 2).il.relAt.getD (b2n true) none) ((ilS 2).ilN 30 2 5000) = true ∧ (ilS 2).room cREL_DISCREPANT) ∧
    (∀ half : Fin 4, (ilS 2).lasted ((ilS 2).il.rbAt.getD half none) ((ilS 2).ilN 22 2 100) = true) ∧
    ((ilS 2).fbit Reg.IL_STAT_TE_RB_FAULT = false ∧ (ilS 2).fbit Reg.IL_STAT_LOOP_RB_FAULT = false ∧ (ilS 2).fbit Reg.MODE_STAT_DUPLEX = false ∧
      (ilS 2).room cTE_READBACK ∧ (ilS 2).room cLOOP_READBACK) ∧
    (let s := (ilS 2).fon Reg.MODE_STAT_DUPLEX
     s.driving = true ∧ s.fbit Reg.MODE_STAT_DUPLEX = true ∧ s.power.crossAt = none ∧ s.modeReq = none) ∧
    ((ilS 2).il.evalAt = some 77 ∧ (ilS 2).running = true ∧ (ilS 2).fbit Reg.IL_STAT_IL_STALE = false) ∧
    (let s : State := (ilS 2).setLink 1 { profDue := 4 }; bit (s.link (chSlot 2)).profDue (2 % 4) = true ∧ s.mode ≠ mPark) ∧
    ((ilS 2).fbit Reg.DUP_STAT_REL_IN = false ∧ (ilS 2).power.crossAt = none ∧ (ilS 2).inReset = false ∧ (ilS 2).fitted 7 = true ∧
      (ilS 2).present 7 = true) ∧
    (let s : State := { ilS 2 with power := { crossAt := some 7 } }; s.power.crossAt = some 7 ∧ s.power.hold = false) ∧
    ((ilS 2).fon Reg.DUP_STAT_REL_IN).fbit Reg.DUP_STAT_REL_IN = true := by
  and_intros <;> decide +kernel

/-! ### Message bus controllers -/

/-- Controller 1: receive buffer 3 behind a filter of base identifier 7, transmit buffer 5, and, with `tt`, a schedule of two windows. -/
def canS (x : CCtl) (m : Nat := 2) (flags : Nat := 15) (tt : Bool := false) (wt : Nat := 1) : State :=
  let s : State := { st m with boot := { firstSample := 9, topo :=
    [rc 0x701 1 [flags, 3, 1, 29, 10, 10, 1, 29, 10, 10, 30, 0], rc 0x702 67 [0, 2, 0, 0, 5, 0, 0, 0],
     rc 0x702 69 [1, 2, 0, 0, 0, 0, 0, 0, 7, 0, 0, 0, 8, 0, 0, 0], rc 0x703 1 [1, 0, 0, 0, 0, 0, 0x1C, 0, 0, 0, 0xFC, 0x1F, 3, 0xD, 0, 0]] ++
    if tt then [rc 0x704 1 ([2, 1, 2, 0, 8, 0, 0, 0, 100, 0, 0, 0, 0, 0, 40, 0] ++ List.replicate 60 0 ++ [4, 0, wt, 5] ++ List.replicate 60 0)]
    else [] } }
  s.setCtl 1 x

def joined : CCtl := { joined := true, refAt := 5 }
def sending : CCtl := { joined with bus := some 5 }
def waiting : CBuf := { pend := true, tx := { xid := 7, fmt := 8, data := [], time := 0 } }
def msg : CanFrame := { id := 0x1C0000, ide := false, rtr := false, fdf := false, brs := false, esi := false, dlc := 2, data := byt [1, 2], len := 0 }

theorem witness_CanFramesComplete :
    (let s := canS {}
     s.canOn 1 = true ∧ s.boot.firstSample ≠ 0 ∧ s.mode ≠ mPark ∧ s.mode ≠ mBoot ∧ (s.ctl 1).joined = false) ∧
    (let s := canS joined
     (s.ctl 1).joined = true ∧ s.mode ≠ mBoot ∧ s.mode ≠ mPark ∧ s.canFilter 1 msg = some 67 ∧ s.bufOn 67 = true ∧ s.bufTx 67 = false ∧
       (s.buf 67).held = false ∧ 2 ≤ 3 ∧ s.canFilter 1 { msg with id := 0x240000 } = none ∧ s.canFlag 1 3 = true) ∧
    (let s := (canS joined).setBuf 67 { held := true, newest := some 3 }
     (s.buf 67).held = true ∧ (s.buf 67).newest = some 3 ∧ s.bufOn 67 = true ∧ s.bufTx 67 = false ∧ s.topoN 0x0702 67 4 2 0 ≠ 0) ∧
    (let s := (canS joined).setBuf 69 waiting; s.canMaySend 1 = true ∧ (s.ctl 1).bus = none ∧ s.canPick 1 = some 69) ∧
    (let s := (canS sending).setBuf 69 { waiting with tries := 3 }
     (s.ctl 1).bus = some 5 ∧ (s.ctl 1).listenWait = false ∧ (s.buf 69).wait = none ∧ s.topoN 0x0701 1 1 1 0 ≤ (s.buf 69).tries ∧
       s.fbit (Reg.CAN_STAT_LISTEN 1) = false ∧ s.fget (Reg.CAN_STAT_ERR_STATE 1) ≠ 2 ∧ 128 < 256 ∧ (s.ctl 1).joined = true) ∧
    (let s := (canS sending).setBuf 69 { waiting with wait := some (waiting.tx, true), cancelDef := true }
     (s.buf 69).wait = some (waiting.tx, true) ∧ (s.buf 69).cancelDef = true) ∧
    (let s := (canS joined).fon (Reg.CAN_STAT_RECOVERING 1); s.fbit (Reg.CAN_STAT_RECOVERING 1) = true ∧ s.room cCAN_RECOVERED) ∧
    (let s := canS joined 2 7; (s.ctl 1).joined = true ∧ s.canFlag 1 3 = false) := by
  and_intros <;> decide +kernel

theorem witness_CanScheduleCompletes :
    (let s := (canS { joined with refs := 1 } 2 15 true).fset (Reg.CAN_STAT_TT_SYNC 1) 1
     let f : CanFrame := { msg with id := 11 }
     (s.ctl 1).joined = true ∧ s.ttOn 1 = true ∧ f.id.toNat / 8 = s.topoN 0x0704 1 4 4 0 % 2 ^ 29 / 8 ∧ f.ide = bit (s.topoN 0x0704 1 4 4 0) 29 ∧
       f.rtr = false ∧ f.data ≠ [] ∧ s.fget (Reg.CAN_STAT_TT_SYNC 1) = 1 ∧ 1 ≤ (s.ctl 1).refs ∧ (s.ctl 1).stopped = false ∧ s.topoN 0x0704 1 0 1 0 = 2 ∧
       s.canMaySend 1 = true ∧ (s.ctl 1).bus = none) ∧
    (let s := ((canS joined 2 15 true).fset (Reg.CAN_STAT_TT_SYNC 1) 2).setBuf 69 waiting
     s.ttOn 1 = true ∧ (s.ctl 1).joined = true ∧ s.fget (Reg.CAN_STAT_TT_SYNC 1) = 2 ∧ 1 < s.topoN 0x0704 1 2 1 0 ∧
       s.ttType 1 (s.fget (Reg.CAN_TT_CYCLE 1)) 1 = 1 ∧ s.ttBuf 1 (s.fget (Reg.CAN_TT_CYCLE 1)) 1 = 69 ∧ (s.buf 69).pend = true ∧
       (s.ctl 1).stopped = false ∧ s.canMaySend 1 = true ∧ (s.ctl 1).bus = none ∧ 69 / 64 = 1) ∧
    (((canS { sending with exclusive := true } 2 15 true).ctl 1).exclusive = true ∧ ((canS sending 2 15 true).ctl 1).bus.isSome = true) ∧
    (let s := (canS { joined with rxWin := 8 } 2 15 true 2).fset (Reg.CAN_STAT_TT_SYNC 1) 2
     s.ttOn 1 = true ∧ s.fget (Reg.CAN_STAT_TT_SYNC 1) = 2 ∧ s.ttType 1 (s.fget (Reg.CAN_TT_CYCLE 1)) 1 ≠ 1) ∧
    (let x := (canS { joined with bus := some 64 } 2 15 true).ctl 1; x.bus = some 64 ∧ x.listenWait = false) ∧
    (let s := canS joined 1; s.mode = mStandby ∧ s.canOn 1 = true ∧ (s.ctl 1).joined = true) := by
  and_intros <;> decide +kernel

/-! ### The train network -/

/-- Port 1 up, with telegram 4 received, 6 published, and safety container 3 in telegram 4. -/
def netS (m : Nat := 2) : State :=
  ({ st m with boot := { topo := [rc 0x801 1 [9, 0, 0, 0, 5, 6, 7, 8, 9, 9, 9, 9],
    rc 0x802 4 [0, 2, 4, 0, 7, 0, 0, 0, 0, 0, 0, 0, 0, 0, 0, 0, 5, 0, 0, 0, 10, 0, 0, 0],
    rc 0x802 6 [1, 2, 4, 0, 8, 0, 0, 0, 0, 0, 0, 0, 0, 0, 0, 0, 5, 0, 1, 0, 0, 0, 0, 0],
    rc 0x804 3 [4, 0, 0, 0, 4, 0, 4, 2, 1, 0, 0, 0, 2, 0, 0, 0, 9, 0], rc 0x805 0 [1, 0, 3, 0, 10, 0, 0, 0],
    rc 0x806 0 ([0, 0, 0, 0, 2] ++ List.replicate 20 0)] } } : State).fon (Reg.PORT_STAT_LINK 1)

theorem witness_PortFramesComplete :
    (netS.portOn 1 = true ∧ netS.mode ≠ mBoot ∧ netS.mode ≠ mPark ∧ netS.portUp 1 = true ∧ (0x08070605 : Word).toNat = netS.portIp 1 ∧
      (5 : Word).toNat ≠ netS.portIp 1 ∧ ((mget [] netS.net.icmpAt 1).filter fun t => decide (netS.time.mono < t + 1000000000)).length < 10 ∧
      bit (netS.topoN 0x0806 0 4 1 4) 1 = true) ∧
    (let s := (st 2).fon (Reg.PORT_STAT_LINK 2)
     let s : State := { s with boot := { topo := [rc 0x801 2 [9, 0, 0, 0, 5, 6, 7, 8, 9, 9, 9, 9], rc 0x806 0 [0, 0, 0, 0, 2]] }
                               net := { s.net with icmpAt := [(2, List.replicate 10 0)] } }
     s.portUp 2 = true ∧ 10 ≤ ((mget [] s.net.icmpAt 2).filter fun t => decide (s.time.mono < t + 1000000000)).length ∧
       bit (s.topoN 0x0806 0 4 1 4) 2 = false) := by and_intros <;> decide +kernel

theorem witness_TelegramsComplete :
    (netS.portUp 1 = true ∧ 4 ∈ netS.telsOf 0 ∧ netS.topoN 0x0802 4 4 4 0 = (7 : Word).toNat ∧ netS.topoN 0x0802 4 12 4 0 = 0 ∧
      netS.topoN 0x0802 4 2 2 0 = (byt [1, 2, 3, 4]).length ∧ bit (netS.topoN 0x0802 4 1 1 0) 1 = true ∧ (netS.tel 4).fresh = true) ∧
    (netS.telIs 6 1 = true ∧ netS.driving = true ∧ bit (netS.topoN 0x0802 6 1 1 3) 1 = true ∧ netS.scOf 6 = none) ∧
    (let s := netS.setTel 4 { fresh := false, copy := some ⟨5, [], 9⟩ }
     (s.tel 4).copy = some ⟨5, [], 9⟩ ∧ s.telIs 4 0 = true ∧ s.telTmo 4 ≠ 0 ∧ (s.tel 4).fresh = false ∧ s.room cTEL_TIMEOUT) ∧
    (let s := (netS.setTel 4 { planeB := some 5 }).fon (Reg.TEL_STAT_PLANE_B_OK 4)
     (s.tel 4).planeB = some 5 ∧ s.fbit (Reg.TEL_STAT_PLANE_B_OK 4) = true ∧ s.telTmo 4 ≠ 0 ∧ s.room cPLANE_LOSS) ∧
    (let s := netS.setSc 3 { valid := true, sscAt := 5 }; (s.sc 3).valid = true ∧ s.room cSC_REJECT) ∧
    (let s : State := { netS with net := { netS.net with building := true, pAt := 100 } }; s.net.building = true) := by
  and_intros <;> decide +kernel

theorem witness_PtpCompletes :
    (let s := netS.fset Reg.NET_STAT_PTP_PORT 1
     s.ptpOn 1 = true ∧ 1 = s.ptpPort ∧ s.net.best = none) ∧
    (let s : State := { netS.fset Reg.NET_STAT_PTP_PORT 1 with net := { inLock := 15, outLock := 3, twoStep := some (1, 140), dreqAt := some 50 } }
     s.net.twoStep = some (1, 140) ∧ s.net.dreqAt = some 50 ∧ 15 ≤ s.net.inLock ∧ 3 ≤ s.net.outLock) ∧
    (netS.topoN 0x0805 0 0 1 1 = 1 ∧ netS.mode ≠ mBoot ∧ netS.mode ≠ mPark ∧ bit (netS.topoN 0x0805 0 2 1 3) (1 - netS.ptpPort) = true ∧
      netS.portOn (1 - netS.ptpPort) = true ∧ netS.fbit Reg.NET_STAT_PTP_HOLDOVER = false ∧ netS.room cPTP_LOST) := by
  and_intros <;> decide +kernel

/-! ### Maintenance verbs -/

/-- A session of role 1 in place 2, on port 2, with key 1, 2, 3. -/
def sess : Sess := { role := 1, key := byt [1, 2, 3], idleAt := 0, last := 4 }

def verbS (m : Nat := 3) (v : Sess := sess) : State :=
  let s : State := { st m with boot := { topo := [rc 0x801 2 [9, 0, 0, 0, 5, 6, 7, 8, 9, 9, 9, 9], rc 0xB01 1 [1, 15, 255, 255, 7, 0, 0, 0],
    rc 0x301 5 [1, 0, 4, 0], rc 0x701 1 [15], rc 0x501 3 [1, 2, 3, 4, 5, 6, 7, 8, 9, 0x30, 0, 0, 0]] } }
  (s.fon (Reg.PORT_STAT_LINK 2)).setSess 2 (some v)

/-- The request with its tag, not evaluated here. -/
def request (verb : Nat) (body : List Byte) (ctr : Word := 9) : VerbHdr :=
  let h : VerbHdr := { port := 2, sess := 2, ctr, badLen := false, tag := [] }
  { h with tag := verbTag sess.key (verbFrame h verb body) }

theorem takes_of {s : State} {v : Sess} (verb mask : Nat) (body : List Byte) (ctr : Word) (hb : body.length ≤ 1024) (hv : s.sess 2 = some v)
    (hk : v.key = sess.key) (hn : v.last < ctr.toNat ∧ ctr.toNat < 2 ^ 32 - 1) (hd : v.deferred = none) (hc : v.closing = false)
    (hp : s.inReset = false ∧ s.portUp 2 = true ∧ s.verbPort 2 = true)
    (hr : (16 ≤ mask ∨ bit (s.topoN 0x0B01 v.role 2 2 0x0053) mask = true) ∧ bit (s.topoN 0x0B01 v.role 1 1 4) 2 = true) :
    s.Takes (request verb body ctr) 2 v verb mask body where
  alive := hp.1
  port := hp.2.1
  takes := hp.2.2
  id := rfl
  held := hv
  form := ⟨rfl, hb⟩
  tag := by rw [hk]; rfl
  newer := hn
  role := hr.1
  may := hr.2
  free := hd
  open_ := hc

/-- Every verb of the tables is taken in the session, with any body that fits; the counter at its lowest and highest. -/
theorem witness_Takes (verb : Nat) (mask : Fin 17) (body : List Byte) (hb : body.length ≤ 1024) :
    (verbS 2).Takes (request verb body 5) 2 sess verb mask body ∧ verbS.Takes (request verb body 0xFFFFFFFE) 2 sess verb mask body := by
  have h : ∀ m ∈ [2, 3], (verbS m).sess 2 = some sess ∧ (verbS m).inReset = false ∧ (verbS m).portUp 2 = true ∧ (verbS m).verbPort 2 = true ∧
      (∀ k : Fin 17, 16 ≤ k.val ∨ bit ((verbS m).topoN 0x0B01 sess.role 2 2 0x0053) k = true) ∧
      bit ((verbS m).topoN 0x0B01 sess.role 1 1 4) 2 = true := by decide +kernel
  obtain ⟨a1, a2, a3, a4, a5, a6⟩ := h 2 (by decide)
  obtain ⟨b1, b2, b3, b4, b5, b6⟩ := h 3 (by decide)
  exact ⟨takes_of verb mask body 5 hb a1 rfl (by decide) rfl rfl ⟨a2, a3, a4⟩ ⟨a5 mask, a6⟩,
    takes_of verb mask body 0xFFFFFFFE hb b1 rfl (by decide) rfl rfl ⟨b2, b3, b4⟩ ⟨b5 mask, b6⟩⟩

/-- The first agent window open over the low 16 MiB. -/
def openS (s : State) : State := ((s.fset (Reg.WIN_ATTR_ATTR 0 0) 5).fset (Reg.WIN_BASE_BASE 0 0) 0).fset (Reg.WIN_LIMIT_LIMIT 0 0) 0xFFFFFF

theorem witness_ReadingVerbsComplete :
    (let s : State := { verbS with board := { (verbS).board with fuses := { (verbS).board.fuses with secret := [List.replicate 32 7, []] } } }
     s.inReset = false ∧ s.portUp 2 = true ∧ s.verbPort 2 = true ∧ s.fbit Reg.NET_STAT_OPEN_LOCKOUT = false ∧
       bit (s.topoN 0x0B01 1 1 1 4) 2 = true ∧ s.sess 0 = none ∧ (List.replicate 16 (5 : Byte)).length = 16) ∧
    (verbS.sess 2 = some sess ∧ (verbS.fon Reg.NET_STAT_OPEN_LOCKOUT).fbit Reg.NET_STAT_OPEN_LOCKOUT = true) ∧
    (submitOk 0x20000 4 = true ∧ verbS.allowed 0 0x20000 4 false = false) ∧
    (let s := openS verbS
     s.allowed 0 0x20000 4 false = true ∧ memMapped 0x20000 = true ∧ s.mem.bad.contains (0x20000 - 0x20000 % 8) = false ∧
       opaqueStore 0x20000 = false ∧ s.fget Reg.MEM_STAT_FILL_BUSY = 0) ∧
    (1 ≤ 31 ∧ 16289 + 31 ≤ 16320 ∧ 33 + 31 ≤ 64 ∧ 4065 + 31 ≤ 4096 ∧ 5 < 12 ∧ verbS.ilRole 5 = 1) := by and_intros <;> decide +kernel

/-- A role key exists, and the opening request carries its tag. -/
theorem witness_roleKey : (let s : State := { verbS with board := { (verbS).board with fuses := { (verbS).board.fuses with secret := [List.replicate 32 7, []] } } }
    (s.roleKey 1).isSome = true) := by unfold State.roleKey; rfl

/-- Channel 5 reports state `n`. -/
def standS (s : State) (n : Nat) : State :=
  ((s.fon (Reg.LINK_STAT_UP (chSlot 5))).fon (Reg.LINK_STAT_ADMITTED (chSlot 5))).setLink (chSlot 5)
    { inputsBad := false, lastOk := byt (List.replicate (8 + 32 * (5 % 4)) 0 ++ [n] ++ List.replicate 40 0) }

theorem witness_ActingVerbsComplete :
    ((verbS).mode = mMaint ∧ ∀ y : Fin 4, y ≠ 2 → verbS.sess y = none) ∧
    (let s := (verbS).setSess 3 (some { sess with reading := true }); s.sess 3 = some { sess with reading := true }) ∧
    (let s := (verbS 2).fon Reg.IL_STAT_ZS_PROVEN
     let s : State := { s with boot := { s.boot with topo := s.boot.topo ++ [rc 0x401 0 ([3, 0, 0, 2, 3, 255, 255] ++ List.replicate 30 0)] } }
     let s := ((s.fon (Reg.LINK_STAT_UP 6)).fon (Reg.LINK_STAT_ADMITTED 6)).setLink 6 { inputsBad := false, lastOk := List.replicate 40 0 }
     s.mode = mActive ∧ s.modeReq = none ∧ s.power.park = 0 ∧ s.fbit Reg.IL_STAT_ZS_PROVEN = true ∧ s.tractionOff = true) ∧
    (let s := standS verbS dLocked
     s.mode = mMaint ∧ s.modeReq = none ∧ s.ilRole 5 = 1 ∧ s.dieValid (chSlot 5) = true ∧ mget none s.net.holds 5 = none ∧
       s.chanIn 5 0 ∈ [dLocked, dReleased, dOpen, dHalted]) ∧
    (let s := standS verbS dReversing; s.dieValid (chSlot 5) = true ∧ s.chanIn 5 0 = dReversing) ∧
    (let g : Hold := { cmd := 5, seq := 1, phase := 1, from_ := 0, sess := none }
     let s : State := { verbS with net := { (verbS).net with holds := [(5, some g)] } }
     mget none s.net.holds 5 = some g ∧ g.phase ≤ 1 ∧ g.cmd = 5) ∧
    (verbS.canOn 1 = true ∧ verbS.fitted (4 + 3 / 12) = true ∧ verbS.topo? 0x0501 3 ≠ none ∧ verbS.topoN 0x0501 3 10 1 0 ≠ 2) ∧
    (let s := verbS.fset (Reg.CAN_STAT_ERR_STATE 1) 2
     s.driving = true ∧ s.fget (Reg.CAN_STAT_ERR_STATE 1) = 2 ∧ s.fbit (Reg.CAN_STAT_RECOVERING 1) = false ∧ s.mode ≠ mActive) ∧
    (let s : State := { verbS with net := { (verbS).net with resetDue := true } }; s.net.resetDue = true ∧ s.inReset = false ∧ s.mode ≠ mPark) ∧
    (let v := { sess with deferred := some (.clearCairn, 5) }; (verbS 3 v).sess 2 = some v ∧ v.closing = false ∧ v.deferred = some (.clearCairn, 5)) ∧
    (let v := { sess with deferred := some (.run true 5, 5) }; (standS (verbS 3 v) dLocked).sess 2 = some v ∧ v.deferred = some (.run true 5, 5)) := by
  and_intros <;> decide +kernel

theorem witness_ChangeVerbsComplete :
    (verbS.driving = true ∧ (verbS.nativeCheck false 7 0 []).1 ≠ 0 ∧ verbS.chg.verify = false ∧ verbS.chg.load = none ∧ 12 ≤ 1016) ∧
    (let s : State := { verbS with boot := { (verbS).boot with topo := (verbS).boot.topo ++
       [rc 0x208 0 ([1, 0, 0, 0, 9, 0, 3, 4, 0, 1, 0, 0] ++ [0, 0, 0, 0, 5, 0, 0, 0])] } }
     s.nativeCheck false 0 0 [(9, 5)] = (0, 0)) ∧
    (let s := (verbS.setSlot 1 slVerified).toDev 100000
     s.slotIn slVerified = some 1 ∧ s.chg.switchAt = none ∧ s.pointOk 20000000 4000 = true) ∧
    (let s := verbS.setSlot 1 slProbation; s.slotIn slProbation = some 1 ∧ s.chg.revertAt = none) := by and_intros <;> decide +kernel

/-! ### Duplex operation -/

def dupS (m : Nat) (d : Dup := {}) (b : Bool := false) : State :=
  { st m with dup := d, board := { (st m).board with seatB := b }, boot := { topo := [rc 0x101 0 [0, 1, 0, 0, 0, 0], rc 0x301 5 [1, 0, 4, 0]] } }

def ropeS (m : Nat) (d : Dup := {}) : State := (dupS m d).fon Reg.DUP_STAT_ROPE_UP

theorem witness_RopeOpen (d : Dup) (h : (ropeS 1 d).ropeLooped = false) : (ropeS 1 d).RopeOpen where
  up := by rw [show (ropeS 1 d).ropeUp = (ropeS 1).ropeUp from rfl]; decide
  clear := h
  alive := by rw [show (ropeS 1 d).inReset = (ropeS 1).inReset from rfl]; decide
  run := by rw [show (ropeS 1 d).mode = (ropeS 1).mode from rfl]; decide

theorem witness_ClaimsComplete :
    ((dupS 1).mayClaim false = true ∧ (dupS 1 { peerSeen := true }).mayClaim true = true ∧ (dupS 1 { peerSeen := true }).dup.peerSeen = true) ∧
    (let s := dupS 1 { claim := some (100, true), claimOut := true }
     s.dup.claim = some (100, true) ∧ s.mode = mStandby ∧ s.dup.prep = none ∧ s.dup.claimIn = false ∧ s.modeReq = none ∧ s.room cCLAIM_ABANDONED) ∧
    (let s := dupS 1 { claim := some (100, false), claimOut := true, claimIn := true } true
     s.board.seatB = true ∧ s.dup.claimIn = true ∧ s.inReset = false ∧ s.dup.claim = some (100, false)) ∧
    (let s := dupS 2 { claimOut := true }
     s.dup.claimIn = false ∧ s.dup.claim = none ∧ s.mode = mActive ∧ s.driving = true ∧ s.board.seatB = false ∧ s.room cCLAIM_CONFLICT_SEEN ∧ s.dup.claimOut = true) ∧
    (let s := dupS 2 { claimIn := true } true
     s.board.seatB = true ∧ s.dup.claimIn = true ∧ s.inReset = false ∧ s.power.crossAt = none ∧ s.modeReq = none ∧ s.driving = true) ∧
    ((dupS 2 { relAt := some 5 }).dup.relAt = some 5 ∧ ((dupS 2).fon Reg.DUP_STAT_CLAIM_GATED).fbit Reg.DUP_STAT_CLAIM_GATED = true) := by
  and_intros <;> decide +kernel

theorem witness_RopeCompletes :
    ((dupS 1).ropeUp = false ∧ (dupS 1).ropeLooped = false ∧ (dupS 1).inReset = false ∧ (dupS 1).mode ≠ mPark) ∧
    ((ropeS 1).ropeUp = true ∧ (ropeS 1).dup.badLanes = 0 ∧ (ropeS 1).room cROPE_DEGRADED ∧ (ropeS 1 { badLanes := 1 }).dup.badLanes ≠ 0 ∧
      bit (ropeS 1 { badLanes := 1 }).dup.badLanes 1 = false) ∧
    ((ropeS 1 { measuring := true, rtts := List.replicate 14 900 }).dup.rtts.length < 15 ∧
      15 ≤ (ropeS 1 { measuring := true, rtts := List.replicate 15 900 }).dup.rtts.length) ∧
    ((ropeS 1 { kept := [(4, 7, [1])] }).dup.kept.find? (fun k => k.2.1 == (7 : BitVec 16).toNat) = some (4, 7, [1]) ∧
      (ropeS 1 { resent := [7] }).dup.resent.contains 7 = true ∧ (ropeS 1).dup.resent.contains 7 = false) ∧
    ((beat 5000 0).mode.toNat < 8 ∧ (beat 5000 0).mode = 2 ∧ (ropeS 1).dup.firstHb = false ∧ Rx.badCrc ≠ .ok ∧
      (ropeS 1).dup.naked = false ∧ (ropeS 1 { naked := true }).dup.naked = true) ∧
    ((ropeS 1).fon Reg.DUP_STAT_PRESENT).fbit Reg.DUP_STAT_PRESENT = true := by and_intros <;> decide +kernel

theorem witness_BelayCompletes :
    ((ropeS 2).driving = true ∧ (ropeS 1).mode = mStandby ∧ (ropeS 1).dup.full = none) ∧
    (let s := (ropeS 1 { stale := false }).fset Reg.BELAY_GEN_GEN 7
     s.dup.stale = false ∧ leAt (leBytes 4 8 ++ leBytes 4 7) 4 4 = s.fget Reg.BELAY_GEN_GEN ∧
       leAt (leBytes 4 8 ++ leBytes 4 9) 4 4 ≠ s.fget Reg.BELAY_GEN_GEN) ∧
    (let s := ((((ropeS 1 { query := some (3, 4, 5) }).fon Reg.DUP_STAT_IMAGE_SAME).fon Reg.DUP_STAT_CHANGE_SYNC).fon Reg.DUP_STAT_TIME_SYNC).fon
       Reg.DUP_STAT_BELAY_OK
     s.dup.query = some (3, 4, 5) ∧ s.fbit Reg.DUP_STAT_BELAY_OK = true ∧ (s.healthy && s.fbit Reg.DUP_STAT_PEER_HEALTHY) = false ∧
       (s.fon Reg.DUP_STAT_PEER_HEALTHY).healthy = true ∧ (s.fon Reg.DUP_STAT_PEER_HEALTHY).fbit Reg.DUP_STAT_PEER_HEALTHY = true) ∧
    ((dupS 1).fon Reg.DUP_FLAGS_CMP_ALARM).fbit Reg.DUP_FLAGS_CMP_ALARM = true := by and_intros <;> decide +kernel

theorem witness_HealthAndChangesComplete :
    (let b := List.replicate 62 (0 : Byte) ++ beBytes 2 (crc16 (List.replicate 62 0)); b.length = 64 ∧ beAt b 62 2 = crc16 (b.take 62) ∧ (ropeS 1).driving = false) ∧
    ((ropeS 2).driving = true ∧ ∀ n ∈ satSlots, (ropeS 2).fbit (Reg.LINK_STAT_EXCLUDED n) = false) ∧
    (List.replicate 63 (0 : Byte)).length ≠ 64 ∧
    (let s := (ropeS 1).setSlot 1 slVerified
     s.mode = mStandby ∧ (4000 : BitVec 64) ≠ 0 ∧ s.slotIn slVerified = some 1 ∧ s.chg.load = none ∧ s.chg.switchAt = none ∧
       (s.toDev 100000).pointOk namedLead 4000 = true) ∧
    (let s : State := { ropeS 2 with chg := { (ropeS 2).chg with switchAt := some 4000 } }; s.driving = true ∧ s.chg.switchAt = some 4000 ∧
     s.time.dev + 10000000 ≤ samplePt 4000) ∧
    ((dupS 1).mode = mStandby ∧ bit (dupS 1).dup.stFail 0 = false ∧ (dupS 1).room cSELFTEST_FAIL ∧ (dupS 1).declared 2 = true ∧
      (dupS 1).dup.stBad &&& 0xFF = 0 ∧ true = !(([900, 910] : List Nat).isEmpty || latencyBad [900, 910]) ∧
      false = !(([] : List Nat).isEmpty || latencyBad [])) := by and_intros <;> decide +kernel

/-! ### Memory, the recorder and the Query Port -/

theorem witness_MemoryCompletes :
    (let s : State := { st 2 with mem := { wb := [0x20008], ceAt := [9, 8, 7] } }
     bankOf 0x20008 = 0 ∧ s.mem.wb.contains 0x20008 = true ∧ (s.fon Reg.MEM_FLAGS_CE_ALARM).fbit Reg.MEM_FLAGS_CE_ALARM = true) ∧
    ((st 2).mode ≠ mPark ∧ memMapped 0x2000B = true ∧ 0x200000 ≤ 0x7FFFFF ∧ 0x7FFFFF < 0x800000) ∧
    ((st 2).mode ≠ mBoot ∧ (st 2).power.crossAt = none ∧ (st 2).refreshed 0x10000123 = true ∧
      (st 2).opSec ≤ (st 2).mrN (stampAt 0x10000123) 4 + (st 2).fget Reg.MEM_CFG2_REFRESH_D * 86400) ∧
    (let r : CRec := { sev := 3, slot := 0, code := cSAFE_ENTRY, task := 31, opSec := 5, frac := 6, suppr := 0, cyc := 7, data := [] }
     let s := ({ st 2 with cairn := { queue := [r], spent := [(9, 2)] } } : State).fset Reg.CAIRN_STAT_FILL 16318
     s.mode ≠ mBoot ∧ s.cairn.queue = r :: [] ∧ s.fget Reg.CAIRN_STAT_FILL < 16319 ∧ mget 0 s.cairn.spent 9 ≠ 0) ∧
    (st 2).power.vlOk = true := by and_intros <;> decide +kernel

theorem witness_QueryPortCompletes :
    let k : QTick := { num := 3, write := false, addr := 8, len := 4, data := [1], res := some 0 }
    let s : State := { st 2 with qp := { ticks := [k], issued := 4 } }
    (s.qpOn = true ∧ s.qp.resetDue = false ∧ submitOk 0x20000 4 = true ∧ submitOk 0x20000 0 = false ∧
      crc16 ([0x10, 0] ++ beBytes 4 0x20000 ++ beBytes 2 4) = (BitVec.ofNat 16 (crc16 ([0x10, 0] ++ beBytes 4 0x20000 ++ beBytes 2 4))).toNat ∧
      crc16 ([0x11, 0] ++ beBytes 4 0x20000 ++ beBytes 2 4 ++ [1, 2, 3, 4]) =
        (BitVec.ofNat 16 (crc16 ([0x11, 0] ++ beBytes 4 0x20000 ++ beBytes 2 4 ++ [1, 2, 3, 4]))).toNat ∧ (7 : Byte).toNat ∉ [0x10, 0x11, 0x20, 0x21, 0x30, 0xF0]) ∧
    (s.qTick 3 = some k ∧ k.res ≠ none ∧ s.qTick 2 = none ∧ crc16 [0x21, 3] = (BitVec.ofNat 16 (crc16 [0x21, 3])).toNat ∧
      crc16 ((0xF0 : Byte) :: beBytes 3 0x515052) = (BitVec.ofNat 16 (crc16 ((0xF0 : Byte) :: beBytes 3 0x515052))).toNat) ∧
    (let u : State := { st 2 with qp := { resetDue := true } }; u.qp.resetDue = true) := by
  intro k s; and_intros <;> decide +kernel

/-! ### Clocks, loop-backs and the test access port -/

theorem witness_ClocksComplete :
    ((st 2).driving = true ∧ (st 2).power.crossAt = none ∧ (st 2).modeReq = none ∧ (st 2).fitted 5 = true ∧ (st 2).present 5 = true) ∧
    (let s : State := { st 0 with boot := { cold := true } }; s.mode = mBoot ∧ s.boot.cold = true) := by and_intros <;> decide +kernel

theorem witness_LoopbacksComplete :
    ((st 3).fbit Reg.LB_STAT_BUSY = false ∧ lbProvided 1 2 9 = false ∧ lbProvided 2 2 0 = true ∧ (st 2).mode ≠ mMaint ∧ (st 2).lbQuiet 2 2 0 = false ∧
      lbProvided 8 2 9 = true ∧ (st 3).lbState 8 2 9 0 = false ∧ lbProvided 1 2 3 = true ∧ (st 3).lbState 1 2 3 0 = true) ∧
    ((st 3).fon Reg.LB_STAT_BUSY).fbit Reg.LB_STAT_BUSY = true := by and_intros <;> decide +kernel

theorem witness_TestPortCompletes :
    ((st 2).tap.held = false ∧ (st 2).inReset = false ∧ (st 2).board.fuses.prodLock = false) ∧
    (let s := (st 5).fset Reg.SAFE_REASON_REASON 1
     s.mode = mSafe ∧ s.fget Reg.SAFE_REASON_REASON = 0x01 ∧ s.board.fuses.keyHash.getD 3 [] = [] ∧ s.board.fuses.secret.getD 1 [] = [] ∧
       s.board.fuses.keyHash.length = 4 ∧ s.board.fuses.secret.length = 2) := by and_intros <;> decide +kernel

theorem witness_DebugCompletes :
    (let s := (st 2).fset Reg.VOTE_STAT_LIVE 7
     s.tap.held = false ∧ s.board.fuses.sufL = false ∧ s.inReset = false ∧ s.fbit Reg.DEBUG_STAT_ATTACHED = false ∧ bit s.liveLanes 0 = true ∧
       bit (s.fget Reg.VOTE_STAT_EXCLUDED) 0 = false) ∧
    (let s := ((st 2).fon Reg.DEBUG_STAT_ATTACHED).fon Reg.DEBUG_STAT_HALTED
     let s : State := { s.setAct 3 (some a0) with tap := { s.tap with task := 3 } }
     let s : State := { s with eng := { s.eng with dbgOut := true, dbgBuf := [(9, 8)] } }
     s.fbit Reg.DEBUG_STAT_ATTACHED = true ∧ s.eng.dbgOut = true ∧ s.fbit Reg.DEBUG_STAT_HALTED = true ∧ s.dbgAct = some a0 ∧
       s.eng.dbgBuf[(0 : Nat)]? = some (9, 8)) ∧
    (let s := ((st 2).fon Reg.DEBUG_STAT_ATTACHED).fon Reg.PROT_STAT_PROT_LOCK
     s.fbit Reg.PROT_STAT_PROT_LOCK = true ∧ s.allowed 2 0x20000 4 false = false ∧
       (((s.fset (Reg.WIN_ATTR_ATTR 2 0) 5).fset (Reg.WIN_BASE_BASE 2 0) 0).fset (Reg.WIN_LIMIT_LIMIT 2 0) 0xFFFFFF).allowed 2 0x20000 4 false = true ∧
       memMapped 0x20000 = true ∧ s.mem.bad.contains (0x20000 - 0x20000 % 8) = false ∧ opaqueStore 0x20000 = false ∧ s.fget Reg.MEM_STAT_FILL_BUSY = 0) ∧
    ((st 2).fon Reg.DEBUG_STAT_ATTACHED).fbit Reg.PROT_STAT_PROT_LOCK = false := by
  and_intros <;> decide +kernel

/-! ### The whole block -/

theorem witness_RegisterBitsFollowTheirAccess :
    let fs : List FieldRow := [⟨31, 16, .rw, 0, false⟩, ⟨15, 15, .w1c, 0, false⟩, ⟨3, 0, .rc, 0, false⟩]
    (∀ f ∈ fs, f.lo ≤ f.hi) ∧ fs.Pairwise (fun f g => f.hi < g.lo ∨ g.hi < f.lo) ∧ (∀ f ∈ fs, 14 < f.lo ∨ f.hi < 14) := by decide

/-- An idle step and a step with a command both answer a next state from a state whose memories are canonical. -/
theorem witness_steps : (st 2).memOk = true ∧ (∃ t, step (st 2) = .next t) ∧
    ∃ t, step { st 2 with pending := [.vlLow 0] } = .next t := ⟨by decide, ⟨_, rfl⟩, ⟨_, rfl⟩⟩

end Sys2Proof.Tests
end

section
namespace Sys2Proof.Machine

/-! ### What leaves the board and the queue alone

One law for each operation and each meaning, `f_keeps`, in the order of the model's files; a later one follows from the earlier ones. The
board changes in POR, BOOT_STEP and FUSE_PROG alone, the queue in `step` alone. -/

/-- `t` has the board and the queue of `s`. -/
@[simp, reducible] def State.Keeps (s t : State) : Prop := t.board = s.board ∧ t.pending = s.pending

/-- The answer of a meaning from `s`, where it is a next state, has the board and the queue of `s`. -/
def Out.Keeps (s : State) (o : Out) : Prop := ∀ t, o = .next t → s.Keeps t

@[simp] theorem Out.keeps_next {s t : State} : Out.Keeps s (.next t) ↔ s.Keeps t :=
  ⟨fun h => h t rfl, fun h _ e => Host.Outcome.next.inj e ▸ h⟩

@[simp] theorem Out.keeps_refused {s : State} {r : Refusal} : Out.Keeps s (.refused r) := fun _ h => nomatch h

@[simp] theorem Out.keeps_ite {s : State} {c : Prop} [Decidable c] {a b : Out} :
    Out.Keeps s (if c then a else b) ↔ if c then Out.Keeps s a else Out.Keeps s b := by split <;> rfl

@[simp] theorem State.ite_board {c : Prop} [Decidable c] {a b : State} :
    (if c then a else b).board = if c then a.board else b.board := apply_ite ..

@[simp] theorem State.ite_pending {c : Prop} [Decidable c] {a b : State} :
    (if c then a else b).pending = if c then a.pending else b.pending := apply_ite ..

theorem State.Keeps.trans {s t u : State} (h : s.Keeps t) (h' : t.Keeps u) : s.Keeps u := ⟨h'.1.trans h.1, h'.2.trans h.2⟩

/-- A fold of an operation that keeps the board and the queue keeps them. -/
@[simp] theorem foldl_keeps {α : Type} {l : List α} {f : State → α → State} {s : State} (h : ∀ (s : State) x, s.Keeps (f s x)) :
    s.Keeps (l.foldl f s) := by
  induction l generalizing s with
  | nil => exact ⟨rfl, rfl⟩
  | cons x l ih => exact (h s x).trans ih

@[simp] theorem State.each_keeps {l : List Nat} {f : State → Nat → State} {s : State} (h : ∀ (s : State) x, s.Keeps (f s x)) :
    s.Keeps (s.each l f) := foldl_keeps h

theorem State.Keeps.foldl {α : Type} {l : List α} {f : State → α → State} {s t : State} (h : ∀ (s : State) x, s.Keeps (f s x))
    (ht : s.Keeps t) : s.Keeps (l.foldl f t) := ht.trans (foldl_keeps h)

theorem State.Keeps.each {l : List Nat} {f : State → Nat → State} {s t : State} (h : ∀ (s : State) x, s.Keeps (f s x))
    (ht : s.Keeps t) : s.Keeps (t.each l f) := ht.foldl h

/-! ### The named operations every meaning is written from (`Machine/Ops.lean`) -/

@[simp] theorem State.takeFree_keeps (s : State) (w : Nat) : s.Keeps (s.takeFree w).2 := by unfold State.takeFree; simp
@[simp] theorem State.parkCancel_keeps (s : State) : s.Keeps s.parkCancel := by unfold State.parkCancel; simp

/-! ### Sending on the die links (`Machine/LinkOps.lean`) -/

@[simp] theorem State.satSend_keeps (s : State) (n typ : Nat) (payload : List Byte) :
    s.Keeps (s.satSend n typ payload) := by
  unfold State.satSend; simp

@[simp] theorem State.ctlSend_keeps (s : State) (n typ : Nat) (payload : List Byte) :
    s.Keeps (s.ctlSend n typ payload) := by
  unfold State.ctlSend; simp

@[simp] theorem State.sendConfirm_keeps (s : State) (n : Nat) : s.Keeps (s.sendConfirm n) := by unfold State.sendConfirm; simp
@[simp] theorem State.ccountView_keeps (s : State) (n : Nat) : s.Keeps (s.ccountView n) := by unfold State.ccountView; simp
@[simp] theorem State.satApply_keeps (s : State) (n : Nat) : s.Keeps (s.satApply n) := by unfold State.satApply; simp

@[simp] theorem State.stageTo_keeps (s : State) (n : Nat) (out : Bytes) :
    s.Keeps (s.stageTo n out) := by
  unfold State.stageTo; simp

@[simp] theorem State.stageSafe_keeps (s : State) : s.Keeps s.stageSafe := by unfold State.stageSafe; simp

/-! ### Door channels (`Machine/DoorBase.lean`) -/

@[simp] theorem State.doorView_keeps (s : State) (k : Nat) : s.Keeps (s.doorView k) := by unfold State.doorView; simp
@[simp] theorem State.setDoor_keeps (s : State) (k : Nat) (d : Door) : s.Keeps (s.setDoor k d) := by unfold State.setDoor; simp

@[simp] theorem State.modDoor_keeps (s : State) (k : Nat) (f : Door → Door) :
    s.Keeps (s.modDoor k f) := by
  unfold State.modDoor; simp

@[simp] theorem State.sendDoorEvent_keeps (s : State) (k ev : Nat) :
    s.Keeps (s.sendDoorEvent k ev) := by
  unfold State.sendDoorEvent; simp

@[simp] theorem State.doorEvent_keeps (s : State) (k ev : Nat) : s.Keeps (s.doorEvent k ev) := by unfold State.doorEvent; simp

@[simp] theorem State.ledgerFrame_keeps (s : State) (k st : Nat) :
    s.Keeps (s.ledgerFrame k st) := by
  unfold State.ledgerFrame; simp

@[simp] theorem State.enter_keeps (s : State) (k st cause : Nat) : s.Keeps (s.enter k st cause) := by unfold State.enter; simp

@[simp] theorem State.sendProfile_keeps (s : State) (k dir : Nat) (adapted : Bool) :
    s.Keeps (s.sendProfile k dir adapted) := by
  unfold State.sendProfile; simp

@[simp] theorem State.drive_keeps (s : State) (k r : Nat) : s.Keeps (s.drive k r) := by unfold State.drive; simp
@[simp] theorem State.driveTo_keeps (s : State) (k : Nat) (x : Int) : s.Keeps (s.driveTo k x) := by unfold State.driveTo; simp

@[simp] theorem State.endRun_keeps (s : State) (k result bin : Nat) :
    s.Keeps (s.endRun k result bin) := by
  unfold State.endRun; simp

@[simp] theorem State.fault_keeps (s : State) (k cause : Nat) : s.Keeps (s.fault k cause) := by unfold State.fault; simp

/-! ### Measurement (`Machine/DoorMotion.lean`) -/

@[simp] theorem State.enable_keeps (s : State) (k : Nat) : s.Keeps (s.enable k) := by unfold State.enable; simp

@[simp] theorem State.bitVolts_keeps (s : State) (k : Nat) (bits : List Bool) :
    s.Keeps (s.bitVolts k bits).2 := by
  unfold State.bitVolts; dsimp only; split <;> simp

@[simp] theorem State.currentLoop_keeps (s : State) (k : Nat) (iu0 iv0 : Int) (vdc : Nat) :
    s.Keeps (s.currentLoop k iu0 iv0 vdc) := by
  unfold State.currentLoop; simp -implicitDefEqProofs

@[simp] theorem State.speedLoop_keeps (s : State) (k : Nat) : s.Keeps (s.speedLoop k) := by unfold State.speedLoop; simp
@[simp] theorem State.replan_keeps (s : State) (k : Nat) : s.Keeps (s.replan k) := by unfold State.replan; simp
@[simp] theorem State.estimate_keeps (s : State) (k : Nat) : s.Keeps (s.estimate k) := by unfold State.estimate; simp

@[simp] theorem State.learnCycle_keeps (s : State) (k : Nat) :
    s.Keeps (s.learnCycle k) := by
  unfold State.learnCycle; simp -implicitDefEqProofs

@[simp] theorem State.learnEnd_keeps (s : State) (k : Nat) :
    s.Keeps (s.learnEnd k) := by
  unfold State.learnEnd; dsimp only; split <;> simp

@[simp] theorem State.strokeEnd_keeps (s : State) (k st : Nat) : s.Keeps (s.strokeEnd k st) := by
  unfold State.strokeEnd; dsimp only; repeat' split
  all_goals simp -implicitDefEqProofs

/-! ### The door and step state machines (`Machine/DoorRows.lean`) -/

@[simp] theorem State.repause_keeps (s : State) (k : Nat) :
    s.Keeps (s.repause k) := by
  unfold State.repause; dsimp only; split <;> simp

@[simp] theorem State.gatesOff_keeps (s : State) (k : Nat) : s.Keeps (s.gatesOff k) := by unfold State.gatesOff; simp

@[simp] theorem State.setPassive_keeps (s : State) (k : Nat) (b : Bool) :
    s.Keeps (s.setPassive k b) := by
  unfold State.setPassive; simp

@[simp] theorem State.homePos_keeps (s : State) (k : Nat) : s.Keeps (s.homePos k) := by unfold State.homePos; simp
@[simp] theorem State.firstState_keeps (s : State) (k : Nat) : s.Keeps (s.firstState k) := by unfold State.firstState; simp
@[simp] theorem State.arrive_keeps (s : State) (k st : Nat) : s.Keeps (s.arrive k st) := by unfold State.arrive; simp
@[simp] theorem State.lockNow_keeps (s : State) (k : Nat) : s.Keeps (s.lockNow k) := by unfold State.lockNow; simp

@[simp] theorem State.strokeStart_keeps (s : State) (k st : Nat) :
    s.Keeps (s.strokeStart k st) := by
  unfold State.strokeStart; simp

@[simp] theorem State.actOn_keeps (s : State) (k : Nat) : s.Keeps (s.actOn k) := by unfold State.actOn; simp
@[simp] theorem State.refuseCmd_keeps (s : State) (k : Nat) : s.Keeps (s.refuseCmd k) := by unfold State.refuseCmd; simp
@[simp] theorem State.startRun_keeps (s : State) (k kind : Nat) : s.Keeps (s.startRun k kind) := by unfold State.startRun; simp

@[simp] theorem State.restCmd_keeps (s : State) (k : Nat) (c : Option Nat) (runOk : Bool) :
    s.Keeps (s.restCmd k c runOk) := by
  unfold State.restCmd; split <;> simp

@[simp] theorem State.detect_keeps (s : State) (k : Nat) : s.Keeps (s.detect k) := by unfold State.detect; simp
@[simp] theorem State.reactDoor_keeps (s : State) (k : Nat) : s.Keeps (s.reactDoor k) := by unfold State.reactDoor; simp

@[simp] theorem State.reactStep_keeps (s : State) (k : Nat) : s.Keeps (s.reactStep k) := by
  unfold State.reactStep
  dsimp only
  split <;>
    simp only [↓State.doorEvent_keeps, ↓State.modDoor_keeps, ↓State.enter_keeps, ↓State.drive_keeps, ↓State.driveTo_keeps,
      ↓State.detect_keeps, ↓State.ite_board, ↓State.ite_pending, ite_self, State.Keeps, and_self]

@[simp] theorem State.reverseGo_keeps (s : State) (k : Nat) : s.Keeps (s.reverseGo k) := by unfold State.reverseGo; simp
@[simp] theorem State.reverseEnd_keeps (s : State) (k : Nat) : s.Keeps (s.reverseEnd k) := by unfold State.reverseEnd; simp
@[simp] theorem State.abortEnd_keeps (s : State) (k : Nat) : s.Keeps (s.abortEnd k) := by unfold State.abortEnd; simp
@[simp] theorem State.abortRun_keeps (s : State) (k : Nat) : s.Keeps (s.abortRun k) := by unfold State.abortRun; simp

@[simp] theorem State.runGoal_keeps (s : State) (k : Nat) :
    s.Keeps (s.runGoal k) := by
  unfold State.runGoal; dsimp only; split <;> simp

@[simp] theorem State.haltCh_keeps (s : State) (k cause : Nat) : s.Keeps (s.haltCh k cause) := by unfold State.haltCh; simp

@[simp] theorem State.lastRows_keeps (s : State) (k : Nat) (c : Option Nat) (mine : Bool) :
    s.Keeps (s.lastRows k c mine) := by
  unfold State.lastRows; simp

@[simp] theorem State.doorRow_keeps (s : State) (k : Nat) (c : Option Nat) (mine : Bool) (r : Nat) :
    s.Keeps (s.doorRow k c mine r) := by
  unfold State.doorRow; dsimp only; split <;> simp

@[simp] theorem State.stepRow_keeps (s : State) (k : Nat) (c : Option Nat) (mine : Bool) :
    s.Keeps (s.stepRow k c mine) := by
  unfold State.stepRow; dsimp only; split <;> simp

@[simp] theorem State.plaus_keeps (s : State) (k : Nat) : s.Keeps (s.plaus k) := by unfold State.plaus; simp

@[simp] theorem State.proofCheck_keeps (s : State) (k : Nat) (was : Bool) :
    s.Keeps (s.proofCheck k was) := by
  unfold State.proofCheck; simp

@[simp] theorem State.anyRow_keeps (s : State) (k : Nat) (r : Nat) : s.Keeps (s.anyRow k r).1 := by
  unfold State.anyRow
  dsimp only
  split
  · simp
  · split
    · split <;> split <;> simp
    · split
      · split <;> simp
      · simp

@[simp] theorem State.evalCh_keeps (s : State) (k : Nat) : s.Keeps (s.evalCh k) := by unfold State.evalCh; simp

@[simp] theorem State.resumeDrive_keeps (s : State) (k : Nat) :
    s.Keeps (s.resumeDrive k) := by
  unfold State.resumeDrive; split <;> simp

@[simp] theorem State.firstCommit_keeps (s : State) (k : Nat) : s.Keeps (s.firstCommit k) := by unfold State.firstCommit; simp
@[simp] theorem State.doorApply_keeps (s : State) (n : Nat) : s.Keeps (s.doorApply n) := by unfold State.doorApply; simp

@[simp] theorem State.doorConfigured_keeps (s : State) (n : Nat) :
    s.Keeps (s.doorConfigured n) := by
  unfold State.doorConfigured; simp

/-! ### CAN message buffers and controller objects (`Machine/CanBuf.lean`) -/

@[simp] theorem State.setCtl_keeps (s : State) (c : Nat) (x : CCtl) : s.Keeps (s.setCtl c x) := by unfold State.setCtl; simp
@[simp] theorem State.setBuf_keeps (s : State) (k : Nat) (x : CBuf) : s.Keeps (s.setBuf k x) := by unfold State.setBuf; simp
@[simp] theorem State.canFreeze_keeps (s : State) (t p : Nat) : s.Keeps (s.canFreeze t p) := by unfold State.canFreeze; simp

@[simp] theorem State.canUnhold_keeps (s : State) (k : Nat) : s.Keeps (s.canUnhold k) := by
  unfold State.canUnhold
  dsimp only
  split
  · simp
  · split <;> simp

@[simp] theorem State.canUnholdAll_keeps (s : State) (t : Nat) : s.Keeps (s.canUnholdAll t) := by unfold State.canUnholdAll; simp
@[simp] theorem State.canFree_keeps (s : State) (k : Nat) : s.Keeps (s.canFree k) := by unfold State.canFree; simp

/-! ### The data area and its journal (`Machine/Data.lean`) -/

@[simp] theorem State.ckAbandon_keeps (s : State) (c : Ckpt) : s.Keeps (s.ckAbandon c) := by unfold State.ckAbandon; simp
@[simp] theorem State.preserve_keeps (s : State) (b : Nat) : s.Keeps (s.preserve b) := by unfold State.preserve; split <;> simp
@[simp] theorem State.setDirty_keeps (s : State) (b : Nat) : s.Keeps (s.setDirty b) := by unfold State.setDirty; simp
@[simp] theorem State.overflow_keeps (s : State) (t : Nat) : s.Keeps (s.overflow t) := by unfold State.overflow; split <;> simp
@[simp] theorem State.journalTake_keeps (s : State) (t b : Nat) : s.Keeps (s.journalTake t b) := by unfold State.journalTake; simp
@[simp] theorem State.engWr_keeps (s : State) (t : Nat) (w : MemWr) : s.Keeps (s.engWr t w) := by unfold State.engWr; simp
@[simp] theorem State.outWr_keeps (s : State) (a : Nat) (v : Byte) : s.Keeps (s.outWr a v) := by unfold State.outWr; simp

@[simp] theorem State.outWrs_keeps (s : State) (a : Nat) (k : List Byte) : s.Keeps (s.outWrs a k) := by
  induction k generalizing s a with
  | nil => exact ⟨rfl, rfl⟩
  | cons v vs ih => unfold State.outWrs; simp [ih]

@[simp] theorem State.journalEnd_keeps (s : State) (t : Nat) : s.Keeps (s.journalEnd t) := by unfold State.journalEnd; simp
@[simp] theorem State.putBlk_keeps (s : State) (b : Nat) (l : List Byte) : s.Keeps (s.putBlk b l) := by unfold State.putBlk; simp
@[simp] theorem State.rollback_keeps (s : State) (ts : Nat) : s.Keeps (s.rollback ts) := by unfold State.rollback; simp
@[simp] theorem State.qRestore_keeps (s : State) (ts : Nat) : s.Keeps (s.qRestore ts) := by unfold State.qRestore; simp
@[simp] theorem State.retireLane_keeps (s : State) (l : Nat) : s.Keeps (s.retireLane l) := by unfold State.retireLane; simp
@[simp] theorem State.taskBoundary_keeps (s : State) : s.Keeps s.taskBoundary := by unfold State.taskBoundary; simp
@[simp] theorem State.scSettle_keeps (s : State) : s.Keeps s.scSettle := by unfold State.scSettle; split <;> simp
@[simp] theorem State.schedule_keeps (s : State) : s.Keeps s.schedule := by unfold State.schedule; simp

@[simp] theorem State.releaseLocks_keeps (s : State) (t : Nat) :
    s.Keeps (s.releaseLocks t) := by
  unfold State.releaseLocks; split <;> simp

@[simp] theorem State.clearLatches_keeps (s : State) (t : Nat) :
    s.Keeps (s.clearLatches t) := by
  unfold State.clearLatches; split <;> simp

@[simp] theorem State.dropAct_keeps (s : State) (t : Nat) : s.Keeps (s.dropAct t) := by unfold State.dropAct; simp
@[simp] theorem State.abandon_keeps (s : State) (ts : Nat) : s.Keeps (s.abandon ts) := by unfold State.abandon; simp
@[simp] theorem State.trigger_keeps (s : State) (t : Nat) : s.Keeps (s.trigger t) := by unfold State.trigger; simp

@[simp] theorem State.triggerAll_keeps (s : State) (kind : Nat) (p : Nat → Bool) :
    s.Keeps (s.triggerAll kind p) := by
  unfold State.triggerAll; simp

@[simp] theorem State.enterSafe_keeps (s : State) (reason detail : Nat) (stop : Option (Nat × Nat)) :
    s.Keeps (s.enterSafe reason detail stop) := by
  unfold State.enterSafe; simp

/-! ### The message bus controllers (`Machine/Can.lean`) -/

@[simp] theorem State.ttLevel_keeps (s : State) (c lvl : Nat) : s.Keeps (s.ttLevel c lvl) := by unfold State.ttLevel; simp
@[simp] theorem State.ttS1_keeps (s : State) (c : Nat) : s.Keeps (s.ttS1 c) := by unfold State.ttS1; simp
@[simp] theorem State.ttS3_keeps (s : State) (c : Nat) : s.Keeps (s.ttS3 c) := by unfold State.ttS3; simp
@[simp] theorem State.canFail_keeps (s : State) (k r : Nat) : s.Keeps (s.canFail k r) := by unfold State.canFail; simp
@[simp] theorem State.canArm_keeps (s : State) (k : Nat) : s.Keeps (s.canArm k) := by unfold State.canArm; simp

@[simp] theorem State.canApplyWait_keeps (s : State) (k : Nat) :
    s.Keeps (s.canApplyWait k) := by
  unfold State.canApplyWait; split <;> simp

@[simp] theorem State.canWithdraw_keeps (s : State) (k : Nat) : s.Keeps (s.canWithdraw k) := by unfold State.canWithdraw; simp

@[simp] theorem State.canFailAll_keeps (s : State) (c r : Nat) (keepBus : Bool) :
    s.Keeps (s.canFailAll c r keepBus) := by
  unfold State.canFailAll; simp

@[simp] theorem State.canListen_keeps (s : State) (c : Nat) : s.Keeps (s.canListen c) := by unfold State.canListen; simp
@[simp] theorem State.canBusFree_keeps (s : State) (c : Nat) : s.Keeps (s.canBusFree c) := by unfold State.canBusFree; simp

@[simp] theorem State.canCounters_keeps (s : State) (c tec rec : Nat) :
    s.Keeps (s.canCounters c tec rec) := by
  unfold State.canCounters; simp

@[simp] theorem State.canErr_keeps (s : State) (c kind : Nat) (dataPhase : Bool) :
    s.Keeps (s.canErr c kind dataPhase) := by
  unfold State.canErr; simp

@[simp] theorem State.canReset_keeps (s : State) (c : Nat) :
    s.Keeps (s.canReset c) := by
  unfold State.canReset; simp -implicitDefEqProofs

@[simp] theorem State.canContent_keeps (s : State) (k : Nat) (m : CanMsg) (transmit : Bool) :
    s.Keeps (s.canContent k m transmit) := by
  unfold State.canContent; simp

@[simp] theorem State.canCancel_keeps (s : State) (k p : Nat) : s.Keeps (s.canCancel k p) := by
  unfold State.canCancel
  dsimp only
  split
  · split <;> simp
  · split <;> simp

@[simp] theorem State.canRecover_keeps (s : State) (c : Nat) : s.Keeps (s.canRecover c) := by unfold State.canRecover; simp

@[simp] theorem State.canRequest_keeps (s : State) (g obj code : Nat) (w : List Nat) :
    s.Keeps (s.canRequest g obj code w) := by
  unfold State.canRequest; simp

@[simp] theorem State.canStore_keeps (s : State) (k : Nat) (f : CanFrame) :
    s.Keeps (s.canStore k f) := by
  unfold State.canStore; simp

@[simp] theorem State.canRx_keeps (s : State) (c : Nat) (f : CanFrame) (own : Bool) : s.Keeps (s.canRx c f own) := by
  unfold State.canRx
  split
  · simp
  · split <;> simp

@[simp] theorem State.canStart_keeps (s : State) (k : Nat) (exclusive : Bool) :
    s.Keeps (s.canStart k exclusive) := by
  unfold State.canStart; simp

@[simp] theorem State.canMeasure_keeps (s : State) (k : Nat) : s.Keeps (s.canMeasure k) := by unfold State.canMeasure; simp
@[simp] theorem State.canSent_keeps (s : State) (k : Nat) : s.Keeps (s.canSent k) := by unfold State.canSent; simp

@[simp] theorem State.canUnsent_keeps (s : State) (k : Nat) (exclusive : Bool) :
    s.Keeps (s.canUnsent k exclusive) := by
  unfold State.canUnsent; simp

@[simp] theorem State.ttClose_keeps (s : State) (c : Nat) : s.Keeps (s.ttClose c) := by unfold State.ttClose; simp

@[simp] theorem State.canRefTaken_keeps (s : State) (c y sof : Nat) (own : Bool) :
    s.Keeps (s.canRefTaken c y sof own) := by
  unfold State.canRefTaken; simp

@[simp] theorem execCanJoin_keeps (c : Ctl) (s : State) : Out.Keeps s (execCanJoin c s) := by unfold execCanJoin; simp

@[simp] theorem execCanRxFrame_keeps (c : Ctl) (f : CanFrame) (own : Bool) (s : State) :
    Out.Keeps s (execCanRxFrame c f own s) := by
  unfold execCanRxFrame; simp

@[simp] theorem execCanRxTimeout_keeps (c : Ctl) (b : Buf) (s : State) :
    Out.Keeps s (execCanRxTimeout c b s) := by
  unfold execCanRxTimeout; dsimp only; split <;> simp

@[simp] theorem execCanTxStart_keeps (c : Ctl) (s : State) : Out.Keeps s (execCanTxStart c s) := by
  unfold execCanTxStart
  split
  · split <;> simp
  · simp

@[simp] theorem execCanTxDone_keeps (c : Ctl) (s : State) :
    Out.Keeps s (execCanTxDone c s) := by
  unfold execCanTxDone; split <;> simp

@[simp] theorem execCanTxError_keeps (c : Ctl) (err : Option (Fin 7 × Bool)) (tec rec : Nat) (s : State) :
    Out.Keeps s (execCanTxError c err tec rec s) := by
  unfold execCanTxError; dsimp only; repeat' split
  all_goals simp

@[simp] theorem execCanRxError_keeps (c : Ctl) (err : Fin 7) (dataPhase : Bool) (tec rec : Nat) (s : State) :
    Out.Keeps s (execCanRxError c err dataPhase tec rec s) := by
  unfold execCanRxError; simp

@[simp] theorem execCanRecovered_keeps (c : Ctl) (s : State) :
    Out.Keeps s (execCanRecovered c s) := by
  unfold execCanRecovered; simp

@[simp] theorem execProtocolException_keeps (c : Ctl) (s : State) :
    Out.Keeps s (execProtocolException c s) := by
  unfold execProtocolException; simp

@[simp] theorem execCanRefMessage_keeps (c : Ctl) (f : CanFrame) (s : State) :
    Out.Keeps s (execCanRefMessage c f s) := by
  unfold execCanRefMessage; simp

@[simp] theorem execCanRefSend_keeps (c : Ctl) (s : State) : Out.Keeps s (execCanRefSend c s) := by unfold execCanRefSend; simp

@[simp] theorem execCanTtWindow_keeps (c : Ctl) (w : Fin 32) (busy : Bool) (s : State) :
    Out.Keeps s (execCanTtWindow c w busy s) := by
  unfold execCanTtWindow; simp

@[simp] theorem execCanTtSyncLoss_keeps (c : Ctl) (s : State) :
    Out.Keeps s (execCanTtSyncLoss c s) := by
  unfold execCanTtSyncLoss; simp

/-! ### The train network (`Machine/Net.lean`) -/

@[simp] theorem State.netRx_keeps (s : State) (p : Nat) : s.Keeps (s.netRx p) := by unfold State.netRx; simp
@[simp] theorem State.netDrop_keeps (s : State) (p : Nat) : s.Keeps (s.netDrop p) := by unfold State.netDrop; simp
@[simp] theorem State.netSend_keeps (s : State) (p : Nat) (f : Sent) : s.Keeps (s.netSend p f) := by unfold State.netSend; simp

@[simp] theorem State.netTx_keeps (s : State) (p kind : Nat) (data : List Byte) :
    s.Keeps (s.netTx p kind data) := by
  unfold State.netTx; simp

@[simp] theorem State.mdioStart_keeps (s : State) : s.Keeps s.mdioStart := by unfold State.mdioStart; simp

@[simp] theorem execMdioPoll_keeps (p : Port) (v : BitVec 16) (gig : Bool) (s : State) :
    Out.Keeps s (execMdioPoll p v gig s) := by
  unfold execMdioPoll; simp -implicitDefEqProofs

@[simp] theorem execArpRequest_keeps (p : Port) (ip : Word) (s : State) :
    Out.Keeps s (execArpRequest p ip s) := by
  unfold execArpRequest; simp

@[simp] theorem execIcmpEcho_keeps (p : Port) (ip : Word) (s : State) :
    Out.Keeps s (execIcmpEcho p ip s) := by
  unfold execIcmpEcho; simp

@[simp] theorem execFrameDiscarded_keeps (p : Port) (s : State) :
    Out.Keeps s (execFrameDiscarded p s) := by
  unfold execFrameDiscarded; simp

@[simp] theorem execMdMalformed_keeps (p : Port) (s : State) :
    Out.Keeps s (execMdMalformed p s) := by
  unfold execMdMalformed; simp

@[simp] theorem State.setTel_keeps (s : State) (i : Nat) (x : Tel_) : s.Keeps (s.setTel i x) := by unfold State.setTel; simp

@[simp] theorem State.telTake_keeps (s : State) (i p counter : Nat) (payload : List Byte) :
    s.Keeps (s.telTake i p counter payload) := by
  unfold State.telTake; simp

@[simp] theorem execPdReceive_keeps (p : Port) (comId srcIp counter : Word) (payload : List Byte) (s : State) :
    Out.Keeps s (execPdReceive p comId srcIp counter payload s) := by
  unfold execPdReceive; simp

@[simp] theorem execTelTimeout_keeps (i : Tel) (s : State) :
    Out.Keeps s (execTelTimeout i s) := by
  unfold execTelTimeout; dsimp only; split <;> simp -implicitDefEqProofs

@[simp] theorem execPlaneLoss_keeps (i : Tel) (b : Bool) (s : State) :
    Out.Keeps s (execPlaneLoss i b s) := by
  unfold execPlaneLoss; dsimp only; split <;> simp -implicitDefEqProofs

@[simp] theorem State.setSc_keeps (s : State) (c : Nat) (x : Sc) : s.Keeps (s.setSc c x) := by unfold State.setSc; simp

@[simp] theorem State.scReject_keeps (s : State) (c reason : Nat) (x : Sc) :
    s.Keeps (s.scReject c reason x) := by
  unfold State.scReject; simp

@[simp] theorem State.scCheck_keeps (s : State) (c : Nat) (copy : TelCopy) :
    s.Keeps (s.scCheck c copy) := by
  unfold State.scCheck; simp

@[simp] theorem State.scAge_keeps (s : State) (c p : Nat) : s.Keeps (s.scAge c p) := by unfold State.scAge; simp

@[simp] theorem execScStale_keeps (c : Fin 256) (s : State) :
    Out.Keeps s (execScStale c s) := by
  unfold execScStale; simp -implicitDefEqProofs

@[simp] theorem State.netFreeze_keeps (s : State) (p : Nat) : s.Keeps (s.netFreeze p) := by unfold State.netFreeze; simp

@[simp] theorem State.wrBit_keeps (s : State) (base a : Nat) (b : Bool) :
    s.Keeps (s.wrBit base a b) := by
  unfold State.wrBit; simp

@[simp] theorem State.walk_keeps (s : State) (n : Nat) (e : List Byte) : s.Keeps (s.walk n e) := by unfold State.walk; simp

@[simp] theorem State.rebuild_keeps (s : State) : s.Keeps s.rebuild := by
  unfold State.rebuild
  simp only [foldl_keeps, State.walk_keeps, State.Keeps, and_self, implies_true]
  exact State.each_keeps fun s c => by split <;> simp

@[simp] theorem State.scFinish_keeps (s : State) : s.Keeps s.scFinish := by unfold State.scFinish; simp

@[simp] theorem execPdPublish_keeps (i : Tel) (s : State) :
    Out.Keeps s (execPdPublish i s) := by
  unfold execPdPublish; simp -implicitDefEqProofs

@[simp] theorem State.ptpTake_keeps (s : State) (t1 rx : Nat) :
    s.Keeps (s.ptpTake t1 rx) := by
  unfold State.ptpTake; simp -implicitDefEqProofs

@[simp] theorem execPtpSync_keeps (p : Port) (twoStep : Bool) (origin rxTime : Nat) (s : State) :
    Out.Keeps s (execPtpSync p twoStep origin rxTime s) := by
  unfold execPtpSync; simp

@[simp] theorem execPtpFollowUp_keeps (p : Port) (origin : Nat) (s : State) : Out.Keeps s (execPtpFollowUp p origin s) := by
  unfold execPtpFollowUp
  dsimp only
  split
  · simp
  · split <;> simp

@[simp] theorem execPtpDelayReq_keeps (s : State) : Out.Keeps s (execPtpDelayReq s) := by unfold execPtpDelayReq; simp

@[simp] theorem execPtpDelayResp_keeps (p : Port) (rxTime : Nat) (s : State) : Out.Keeps s (execPtpDelayResp p rxTime s) := by
  unfold execPtpDelayResp; dsimp only; repeat' split
  all_goals simp

@[simp] theorem execPtpAnnounce_keeps (p : Port) (msg : Nat × Fin 16) (s : State) :
    Out.Keeps s (execPtpAnnounce p msg s) := by
  unfold execPtpAnnounce; simp

@[simp] theorem execPtpAnnounceTimeout_keeps (s : State) :
    Out.Keeps s (execPtpAnnounceTimeout s) := by
  unfold execPtpAnnounceTimeout; simp

@[simp] theorem execPtpLost_keeps (s : State) : Out.Keeps s (execPtpLost s) := by unfold execPtpLost; simp -implicitDefEqProofs

/-! ### Replies to maintenance verbs (`Machine/VerbBase.lean`) -/

@[simp] theorem State.setSess_keeps (s : State) (x : Nat) (v : Option Sess) :
    s.Keeps (s.setSess x v) := by
  unfold State.setSess; simp

@[simp] theorem State.modSess_keeps (s : State) (x : Nat) (f : Sess → Sess) :
    s.Keeps (s.modSess x f) := by
  unfold State.modSess; split <;> simp

@[simp] theorem State.replyTo_keeps (s : State) (x verb ctr status sub : Nat) (body : List Byte) :
    s.Keeps (s.replyTo x verb ctr status sub body) := by
  unfold State.replyTo; split <;> simp

@[simp] theorem State.reply_keeps (s : State) (x verb status sub : Nat) (body : List Byte) :
    s.Keeps (s.reply x verb status sub body) := by
  unfold State.reply; simp

@[simp] theorem State.replyLater_keeps (s : State) (x verb : Nat) :
    s.Keeps (s.replyLater x verb) := by
  unfold State.replyLater; simp

@[simp] theorem State.closeSess_keeps (s : State) (x : Nat) : s.Keeps (s.closeSess x) := by unfold State.closeSess; simp

@[simp] theorem State.replyNow_keeps (s : State) (x verb status sub : Nat) (body : List Byte) :
    s.Keeps (s.replyNow x verb status sub body) := by
  unfold State.replyNow; split <;> simp

@[simp] theorem State.refuse_keeps (s : State) (x verb sub : Nat) : s.Keeps (s.refuse x verb sub) := by unfold State.refuse; simp

@[simp] theorem State.refuseLate_keeps (s : State) (x verb sub : Nat) :
    s.Keeps (s.refuseLate x verb sub) := by
  unfold State.refuseLate; simp

@[simp] theorem State.accepted_keeps (s : State) : s.Keeps s.accepted := by unfold State.accepted; simp

@[simp] theorem State.ropeSend_keeps (s : State) (typ : Nat) (payload : List Byte) :
    s.Keeps (s.ropeSend typ payload) := by
  unfold State.ropeSend; simp

@[simp] theorem State.ropeSendAll_keeps (s : State) (typ : Nat) (payload : List Byte) :
    s.Keeps (s.ropeSendAll typ payload) := by
  unfold State.ropeSendAll; simp

/-! ### One instruction on the lanes (`Machine/Lane.lean`) -/

@[simp] theorem State.syncVoting_keeps (s : State) : s.Keeps s.syncVoting := by unfold State.syncVoting; simp

@[simp] theorem State.minority_keeps (s : State) (l k pc t : Nat) :
    s.Keeps (s.minority l k pc t) := by
  unfold State.minority; simp

@[simp] theorem State.progErr_keeps (s : State) (t code pc : Nat) :
    s.Keeps (s.progErr t code pc) := by
  unfold State.progErr; split <;> simp

@[simp] theorem State.laneClocks_keeps (s : State) (l n : Nat) : s.Keeps (s.laneClocks l n) := by unfold State.laneClocks; simp
@[simp] theorem State.clocks_keeps (s : State) (t n : Nat) : s.Keeps (s.clocks t n) := by unfold State.clocks; simp
@[simp] theorem State.bankWait_keeps (s : State) (l : Nat) : s.Keeps (s.bankWait l) := by unfold State.bankWait; simp

@[simp] theorem State.commitOut_keeps (s : State) (t pc : Nat) (o : LaneOut) : s.Keeps (s.commitOut t pc o) := by
  unfold State.commitOut
  dsimp only
  split <;> split <;> simp

@[simp] theorem State.setCtx_keeps (s : State) (t l : Nat) (c : Ctx) :
    s.Keeps (s.setCtx t l c) := by
  unfold State.setCtx; split <;> simp

@[simp] theorem State.voteStop_keeps (s : State) (a : Act) (vs : List Nat) (k : Nat) :
    s.Keeps (s.voteStop a vs k) := by
  unfold State.voteStop; simp

@[simp] theorem State.stTest_keeps (s : State) (i : Nat) (fail : Bool) : s.Keeps (s.stTest i fail) := by unfold State.stTest; simp

@[simp] theorem State.stPart_keeps (s : State) (test part : Nat) (mask : Nat) (fail : Bool) :
    s.Keeps (s.stPart test part mask fail) := by
  unfold State.stPart; simp

@[simp] theorem State.selfTest_keeps (s : State) (vs : List (Nat × List (Nat × Nat))) : s.Keeps (s.selfTest vs) := by
  unfold State.selfTest
  split
  · simp
  · dsimp only
    split
    · simp
    · split <;> simp

@[simp] theorem State.voted_keeps (s : State) (t : Nat) (a : Act) (n : Nat) (f : LaneView → Ctx → LaneOut)
    (post : State → Nat → LaneOut → State) (h : ∀ (s : State) t o, s.Keeps (post s t o)) : s.Keeps (s.voted t a n f post) := by
  unfold State.voted
  dsimp only
  split
  · simp
  · split
    · simp
    · split <;> simp [h]

@[simp] theorem State.unbound_keeps (s : State) (l t : Nat) (a : Act) (n : Nat) (f : LaneView → Ctx → LaneOut)
    (post : State → Nat → LaneOut → State) (h : ∀ (s : State) t o, s.Keeps (post s t o)) :
    s.Keeps (s.unbound l t a n f post) := by
  unfold State.unbound
  simp [h]

@[simp] theorem State.saveCtx_keeps (s : State) (t : Nat) : s.Keeps (s.saveCtx t) := by
  unfold State.saveCtx; dsimp only; repeat' split
  all_goals simp

@[simp] theorem State.preempt_keeps (s : State) : s.Keeps s.preempt := by unfold State.preempt; split <;> simp

@[simp] theorem State.instr_keeps (s : State) (l n : Nat) (ok : State → Nat → Bool) (f : LaneView → Ctx → LaneOut)
    (post : State → Nat → LaneOut → State) (h : ∀ (s : State) t o, s.Keeps (post s t o)) :
    Out.Keeps s (s.instr l n ok f post) := by
  unfold State.instr
  split <;> simp [h]

@[simp] theorem noPost_keeps (s : State) (t : Nat) (o : LaneOut) : s.Keeps (noPost s t o) := ⟨rfl, rfl⟩

/-! ### Online change (`Machine/Change.lean`) -/

@[simp] theorem State.chgRecord_keeps (s : State) (code method gen task : Nat) :
    s.Keeps (s.chgRecord code method gen task) := by
  unfold State.chgRecord; simp

@[simp] theorem State.chgReply_keeps (s : State) (x : Option Nat) (verb code : Nat) :
    s.Keeps (s.chgReply x verb code) := by
  unfold State.chgReply; split <;> simp

@[simp] theorem State.ovlWrite_keeps (s : State) (id v gen : Nat) :
    s.Keeps (s.ovlWrite id v gen) := by
  unfold State.ovlWrite; simp

@[simp] theorem State.ringWrite_keeps (s : State) (i point : Nat) (es : List (Nat × Nat)) :
    s.Keeps (s.ringWrite i point es) := by
  unfold State.ringWrite; simp

@[simp] theorem State.ringState_keeps (s : State) (i st : Nat) : s.Keeps (s.ringState i st) := by unfold State.ringState; simp

@[simp] theorem State.nativeRes_keeps (s : State) (code entry detail : Nat) :
    s.Keeps (s.nativeRes code entry detail) := by
  unfold State.nativeRes; simp

@[simp] theorem State.sendChange_keeps (s : State) (kind point : Nat) (b : List Byte) :
    s.Keeps (s.sendChange kind point b) := by
  unfold State.sendChange; simp

@[simp] theorem State.writeParam_keeps (s : State) (x : Option Nat) (expGen point : Nat) (es : List (Nat × Nat)) :
    s.Keeps (s.writeParam x expGen point es) := by
  unfold State.writeParam; simp

@[simp] theorem State.putTunable_keeps (s : State) (e : List Byte) (v : Nat) :
    s.Keeps (s.putTunable e v) := by
  unfold State.putTunable; simp

@[simp] theorem State.nativeEnd_keeps (s : State) (t : Txn) (ringSt : Nat) :
    s.Keeps (s.nativeEnd t ringSt) := by
  unfold State.nativeEnd; simp

@[simp] theorem State.nativeAbort_keeps (s : State) (code detail : Nat) :
    s.Keeps (s.nativeAbort code detail) := by
  unfold State.nativeAbort; split <;> simp

@[simp] theorem State.paramApply_keeps (s : State) : s.Keeps s.paramApply := by
  unfold State.paramApply
  split
  · simp
  · split
    · simp
    · extract_lets _ gen s₁ s₂ s₃ s₄ e s₅
      have h₁ : s.Keeps s₁ := foldl_keeps fun s e => by split <;> simp
      exact h₁.trans (by simp [s₂, s₃, s₄, s₅])

@[simp] theorem execParamApply_keeps (s : State) : Out.Keeps s (execParamApply s) := by unfold execParamApply; split <;> simp
@[simp] theorem State.slotRegs_keeps (s : State) : s.Keeps s.slotRegs := by unfold State.slotRegs; simp
@[simp] theorem State.setSlot_keeps (s : State) (i st : Nat) : s.Keeps (s.setSlot i st) := by unfold State.setSlot; simp

@[simp] theorem State.storeWrite_keeps (s : State) (ps : List (Nat × Prog)) (es : List SetEntry) :
    s.Keeps (s.storeWrite ps es) := foldl_keeps fun s p => by split <;> simp

@[simp] theorem State.swapRes_keeps (s : State) (code task reason : Nat) :
    s.Keeps (s.swapRes code task reason) := by
  unfold State.swapRes; simp

@[simp] theorem State.swapRecord_keeps (s : State) (code task : Nat) :
    s.Keeps (s.swapRecord code task) := by
  unfold State.swapRecord; simp

@[simp] theorem State.loadChunk_keeps (s : State) (x : Option Nat) (off : Nat) (last : Bool) (chunk : List Byte) :
    s.Keeps (s.loadChunk x off last chunk) := by
  unfold State.loadChunk
  dsimp only
  repeat' split
  all_goals simp

@[simp] theorem State.loadEnd_keeps (s : State) (i code task reason : Nat) :
    s.Keeps (s.loadEnd i code task reason) := by
  unfold State.loadEnd; simp

@[simp] theorem State.loadWithdrawn_keeps (s : State) : s.Keeps s.loadWithdrawn := by unfold State.loadWithdrawn; split <;> simp
@[simp] theorem State.ackLoad_keeps (s : State) (code : Nat) : s.Keeps (s.ackLoad code) := by unfold State.ackLoad; simp

@[simp] theorem State.slotWrite_keeps (s : State) (i lineage gen : Nat) (es : List SetEntry) :
    s.Keeps (s.slotWrite i lineage gen es) := by
  unfold State.slotWrite; simp

@[simp] theorem execLoadVerifyDone_keeps (s : State) :
    Out.Keeps s (execLoadVerifyDone s) := by
  unfold execLoadVerifyDone; split <;> simp

@[simp] theorem State.switchAbort_keeps (s : State) (code detail : Nat) : s.Keeps (s.switchAbort code detail) := by
  unfold State.switchAbort; dsimp only; repeat' split
  all_goals simp

@[simp] theorem State.revertAbort_keeps (s : State) (code detail : Nat) :
    s.Keeps (s.revertAbort code detail) := by
  unfold State.revertAbort; split <;> simp

@[simp] theorem State.loadAbort_keeps (s : State) (code : Nat) :
    s.Keeps (s.loadAbort code) := by
  unfold State.loadAbort; split <;> simp

@[simp] theorem State.changeAbort_keeps (s : State) (detail : Nat) :
    s.Keeps (s.changeAbort detail) := by
  unfold State.changeAbort; simp

@[simp] theorem State.switchArm_keeps (s : State) (x : Option Nat) (point : Nat) :
    s.Keeps (s.switchArm x point) := by
  unfold State.switchArm; simp -implicitDefEqProofs

@[simp] theorem State.revertArm_keeps (s : State) (x : Option Nat) (point : Nat) :
    s.Keeps (s.revertArm x point) := by
  unfold State.revertArm; simp

@[simp] theorem State.probLeft_keeps (s : State) : s.Keeps s.probLeft := by unfold State.probLeft; split <;> simp
@[simp] theorem State.programSwitch_keeps (s : State) : s.Keeps s.programSwitch := by unfold State.programSwitch; split <;> simp
@[simp] theorem State.revertApply_keeps (s : State) : s.Keeps s.revertApply := by unfold State.revertApply; split <;> simp

@[simp] theorem State.probationEnd_keeps (s : State) : s.Keeps s.probationEnd := by
  unfold State.probationEnd; dsimp only; repeat' split
  all_goals simp

@[simp] theorem execProgramSwitch_keeps (s : State) :
    Out.Keeps s (execProgramSwitch s) := by
  unfold execProgramSwitch; split <;> simp

@[simp] theorem execRevertApply_keeps (s : State) : Out.Keeps s (execRevertApply s) := by unfold execRevertApply; split <;> simp

@[simp] theorem execProbationEnd_keeps (s : State) :
    Out.Keeps s (execProbationEnd s) := by
  unfold execProbationEnd; split <;> simp

@[simp] theorem State.changesAt_keeps (s : State) (g : Nat) : s.Keeps (s.changesAt g) := by unfold State.changesAt; simp
@[simp] theorem execPeerNoAck_keeps (s : State) : Out.Keeps s (execPeerNoAck s) := by unfold execPeerNoAck; split <;> simp

@[simp] theorem State.chgBit_keeps (s : State) (base i : Nat) (b : Bool) :
    s.Keeps (s.chgBit base i b) := by
  unfold State.chgBit; simp

@[simp] theorem State.chgBytes_keeps (s : State) (a : Nat) (k : List Byte) : s.Keeps (s.chgBytes a k) := by
  induction k generalizing s a with
  | nil => exact ⟨rfl, rfl⟩
  | cons v vs ih => unfold State.chgBytes; simp [ih]

@[simp] theorem State.carryOne_keeps (old : State) (from_ : List (Nat × Nat × Nat × Nat)) (s : State) (e : Nat × Nat × Nat × Nat) :
    s.Keeps (old.carryOne from_ s e) := by
  unfold State.carryOne; dsimp only; split <;> simp

@[simp] theorem State.takeProgram_keeps (s : State) (t : Nat) : s.Keeps (s.takeProgram t).1 := by
  unfold State.takeProgram; dsimp only; repeat' split
  all_goals simp

/-! ### The interlock unit (`Machine/Intlk.lean`) -/

@[simp] theorem State.handover_keeps (s : State) (cause : Nat) : s.Keeps (s.handover cause) := by unfold State.handover; simp
@[simp] theorem State.modIl_keeps (s : State) (f : Il → Il) : s.Keeps (s.modIl f) := by unfold State.modIl; simp
@[simp] theorem State.zsProve_keeps (s : State) : s.Keeps s.zsProve := by unfold State.zsProve; simp

@[simp] theorem State.ilRecord_keeps (s : State) (code : Nat) (data : List Byte) :
    s.Keeps (s.ilRecord code data) := by
  unfold State.ilRecord; simp

@[simp] theorem State.zsDisc_keeps (s : State) : s.Keeps s.zsDisc := by unfold State.zsDisc; simp
@[simp] theorem State.zsClear_keeps (s : State) : s.Keeps s.zsClear := by unfold State.zsClear; simp
@[simp] theorem State.relDisc_keeps (s : State) (side : Nat) : s.Keeps (s.relDisc side) := by unfold State.relDisc; simp
@[simp] theorem State.rbFault_keeps (s : State) (h : Nat) : s.Keeps (s.rbFault h) := by unfold State.rbFault; simp
@[simp] theorem execZsProven_keeps (s : State) : Out.Keeps s (execZsProven s) := by unfold execZsProven; simp
@[simp] theorem execZsDiscrepant_keeps (s : State) : Out.Keeps s (execZsDiscrepant s) := by unfold execZsDiscrepant; simp

@[simp] theorem execZsDiscrepantClear_keeps (s : State) :
    Out.Keeps s (execZsDiscrepantClear s) := by
  unfold execZsDiscrepantClear; simp

@[simp] theorem execRelDiscrepant_keeps (right : Bool) (s : State) :
    Out.Keeps s (execRelDiscrepant right s) := by
  unfold execRelDiscrepant; simp

@[simp] theorem execTeReadback_keeps (half : Fin 4) (s : State) :
    Out.Keeps s (execTeReadback half s) := by
  unfold execTeReadback; simp

@[simp] theorem State.ilZero_keeps (s : State) (a : Act) : s.Keeps (s.ilZero a) := by unfold State.ilZero; simp
@[simp] theorem State.ilSide_keeps (s : State) (a : Act) (side : Nat) : s.Keeps (s.ilSide a side) := by unfold State.ilSide; simp

@[simp] theorem State.rejectProfile_keeps (s : State) (n valid : Nat) :
    s.Keeps (s.rejectProfile n valid) := by
  unfold State.rejectProfile; simp

@[simp] theorem State.ilProfile_keeps (s : State) (a : Act) : s.Keeps (s.ilProfile a) := by unfold State.ilProfile; split <;> simp
@[simp] theorem State.ilBypass_keeps (s : State) (a : Act) : s.Keeps (s.ilBypass a) := by unfold State.ilBypass; simp
@[simp] theorem State.ilReadback_keeps (s : State) (a : Act) : s.Keeps (s.ilReadback a) := by unfold State.ilReadback; simp
@[simp] theorem State.ilGrant_keeps (s : State) (a : Act) : s.Keeps (s.ilGrant a) := by unfold State.ilGrant; simp
@[simp] theorem State.ilLeave_keeps (s : State) (a : Act) : s.Keeps (s.ilLeave a) := by unfold State.ilLeave; simp
@[simp] theorem State.ilEval_keeps (s : State) (a : Act) : s.Keeps (s.ilEval a) := by unfold State.ilEval; simp

/-! ### Output sets of the dies as the commit unit stages them (`Machine/Belay.lean`) -/

@[simp] theorem State.releaseEnded_keeps (s : State) : s.Keeps s.releaseEnded := by unfold State.releaseEnded; simp
@[simp] theorem State.stageAll_keeps (s : State) : s.Keeps s.stageAll := by unfold State.stageAll; simp
@[simp] theorem State.stageNow_keeps (s : State) : s.Keeps s.stageNow := by unfold State.stageNow; simp
@[simp] theorem State.captureRanges_keeps (s : State) : s.Keeps s.captureRanges := by unfold State.captureRanges; simp
@[simp] theorem State.belayDelta_keeps (s : State) : s.Keeps s.belayDelta := by unfold State.belayDelta; simp

/-! ### The writing of Cairn records into MRAM (`Machine/CairnStore.lean`) -/

@[simp] theorem State.cairnPut_keeps (s : State) (r : CRec) : s.Keeps (s.cairnPut r) := by unfold State.cairnPut; simp
@[simp] theorem State.lastWords_keeps (s : State) (r : CRec) : s.Keeps (s.lastWords r) := by unfold State.lastWords; simp
@[simp] theorem State.cairnNext_keeps (s : State) : s.Keeps s.cairnNext := by unfold State.cairnNext; split <;> simp

@[simp] theorem State.cairnAll_keeps (s : State) (k : Nat) : s.Keeps (s.cairnAll k) := by
  induction k generalizing s with
  | zero => exact ⟨rfl, rfl⟩
  | succ n ih => unfold State.cairnAll; simp [ih]

/-! ### The commands of the door dies (`Machine/DoorCmds.lean`) -/

@[simp] theorem State.watch_keeps (s : State) (k : Nat) (f : State → State) (h : ∀ s : State, s.Keeps (f s)) :
    s.Keeps (s.watch k f) := by
  unfold State.watch
  simp [h]

@[simp] theorem State.expire_keeps (s : State) (t : Option Nat) (n : Nat) (f : State → State)
    (h : ∀ s : State, s.Keeps (f s)) :
    s.Keeps (s.expire t n f) := by
  unfold State.expire
  split <;> simp [h]

@[simp] theorem execGateFault_keeps (k : DCh) (low : Bool) (s : State) :
    Out.Keeps s (execGateFault k low s) := by
  unfold execGateFault; simp

@[simp] theorem execCurrentLoopTick_keeps (k : DCh) (iu iv vdc : List Bool) (s : State) :
    Out.Keeps s (execCurrentLoopTick k iu iv vdc s) := by
  unfold execCurrentLoopTick; simp

@[simp] theorem execSpeedLoopTick_keeps (k : DCh) (s : State) :
    Out.Keeps s (execSpeedLoopTick k s) := by
  unfold execSpeedLoopTick; simp

@[simp] theorem execProfileTick_keeps (k : DCh) (s : State) : Out.Keeps s (execProfileTick k s) := by unfold execProfileTick; simp
@[simp] theorem execOffsetWait_keeps (k : DCh) (s : State) : Out.Keeps s (execOffsetWait k s) := by unfold execOffsetWait; simp

@[simp] theorem execOffsetMeasured_keeps (k : DCh) (iu iv : List Bool) (s : State) :
    Out.Keeps s (execOffsetMeasured k iu iv s) := by
  unfold execOffsetMeasured; simp -implicitDefEqProofs

@[simp] theorem execDsmLoss_keeps (k : DCh) (gone : Bool) (s : State) :
    Out.Keeps s (execDsmLoss k gone s) := by
  unfold execDsmLoss; simp

@[simp] theorem State.hallEdge_keeps (s : State) (k code : Nat) : s.Keeps (s.hallEdge k code) := by unfold State.hallEdge; simp

@[simp] theorem execHall_keeps (k : DCh) (code : BitVec 3) (s : State) :
    Out.Keeps s (execHall k code s) := by
  unfold execHall; simp

@[simp] theorem State.encStep_keeps (s : State) (k code : Nat) : s.Keeps (s.encStep k code) := by unfold State.encStep; simp

@[simp] theorem execEncoder_keeps (k : DCh) (code : BitVec 2) (s : State) :
    Out.Keeps s (execEncoder k code s) := by
  unfold execEncoder; simp

@[simp] theorem execDcHigh_keeps (k : DCh) (high : Bool) (s : State) :
    Out.Keeps s (execDcHigh k high s) := by
  unfold execDcHigh; simp

@[simp] theorem execDcLow_keeps (k : DCh) (s : State) : Out.Keeps s (execDcLow k s) := by unfold execDcLow; simp
@[simp] theorem execDcRecovery_keeps (k : DCh) (s : State) : Out.Keeps s (execDcRecovery k s) := by unfold execDcRecovery; simp

@[simp] theorem State.setLocal_keeps (s : State) (k i : Nat) (lvl : Bool) :
    s.Keeps (s.setLocal k i lvl) := by
  unfold State.setLocal; simp

@[simp] theorem State.setDeb_keeps (s : State) (k i : Nat) (t : Option Nat) :
    s.Keeps (s.setDeb k i t) := by
  unfold State.setDeb; simp

@[simp] theorem State.debounced_keeps (s : State) (k i : Nat) : s.Keeps (s.debounced k i) := by unfold State.debounced; simp

@[simp] theorem execLocalInputDebounce_keeps (k : DCh) (i : Fin 8) (raw : Bool) (s : State) :
    Out.Keeps s (execLocalInputDebounce k i raw s) := by
  unfold execLocalInputDebounce; simp

@[simp] theorem execForceEstimate_keeps (k : DCh) (s : State) :
    Out.Keeps s (execForceEstimate k s) := by
  unfold execForceEstimate; simp

@[simp] theorem State.tryDetect_keeps (s : State) (k : Nat) : s.Keeps (s.tryDetect k) := by unfold State.tryDetect; simp
@[simp] theorem execObstacle_keeps (k : DCh) (s : State) : Out.Keeps s (execObstacle k s) := by unfold execObstacle; simp

@[simp] theorem execSpeedDeficit_keeps (k : DCh) (s : State) :
    Out.Keeps s (execSpeedDeficit k s) := by
  unfold execSpeedDeficit; simp

@[simp] theorem State.evalTick_keeps (s : State) (k : Nat) : s.Keeps (s.evalTick k) := by unfold State.evalTick; simp
@[simp] theorem execDoorEval_keeps (k : DCh) (s : State) : Out.Keeps s (execDoorEval k s) := by unfold execDoorEval; simp
@[simp] theorem execStepEval_keeps (k : DCh) (s : State) : Out.Keeps s (execStepEval k s) := by unfold execStepEval; simp
@[simp] theorem execHomeConfirm_keeps (k : DCh) (s : State) : Out.Keeps s (execHomeConfirm k s) := by unfold execHomeConfirm; simp
@[simp] theorem execProofPlaus_keeps (k : DCh) (s : State) : Out.Keeps s (execProofPlaus k s) := by unfold execProofPlaus; simp

@[simp] theorem State.motionTimeout_keeps (s : State) (k : Nat) (sts : List Nat) :
    s.Keeps (s.motionTimeout k sts) := by
  unfold State.motionTimeout; simp -implicitDefEqProofs

@[simp] theorem execLockMoveTimeout_keeps (k : DCh) (s : State) :
    Out.Keeps s (execLockMoveTimeout k s) := by
  unfold execLockMoveTimeout; simp

@[simp] theorem execStrokeTimeout_keeps (k : DCh) (s : State) :
    Out.Keeps s (execStrokeTimeout k s) := by
  unfold execStrokeTimeout; simp

@[simp] theorem execStepContact_keeps (k : DCh) (s : State) : Out.Keeps s (execStepContact k s) := by unfold execStepContact; simp

@[simp] theorem execReverseWaitEnd_keeps (k : DCh) (s : State) :
    Out.Keeps s (execReverseWaitEnd k s) := by
  unfold execReverseWaitEnd; simp -implicitDefEqProofs

@[simp] theorem execTestHoldEnd_keeps (k : DCh) (s : State) :
    Out.Keeps s (execTestHoldEnd k s) := by
  unfold execTestHoldEnd; simp -implicitDefEqProofs

@[simp] theorem execDoorSilence_keeps (d : Drv) (s : State) :
    Out.Keeps s (execDoorSilence d s) := by
  unfold execDoorSilence; simp -implicitDefEqProofs

@[simp] theorem execDoorEventFlush_keeps (k : DCh) (s : State) :
    Out.Keeps s (execDoorEventFlush k s) := by
  unfold execDoorEventFlush; split <;> simp

@[simp] theorem execTraceSample_keeps (kr : DCh × Bool) (s : State) :
    Out.Keeps s (execTraceSample kr s) := by
  unfold execTraceSample; simp

@[simp] theorem State.shadowTake_keeps (s : State) (k : Nat) : s.Keeps (s.shadowTake k) := by unfold State.shadowTake; simp

@[simp] theorem State.setShadow_keeps (s : State) (n : Nat) (b : Bool) :
    s.Keeps (s.setShadow n b) := by
  unfold State.setShadow; simp

@[simp] theorem execDrvModeWrite_keeps (d : Drv) (shadow : Bool) (s : State) :
    Out.Keeps s (execDrvModeWrite d shadow s) := by
  unfold execDrvModeWrite; simp

@[simp] theorem execShadowResume_keeps (k : DCh) (s : State) :
    Out.Keeps s (execShadowResume k s) := by
  unfold execShadowResume; simp

@[simp] theorem execShadowDiverge_keeps (k : DCh) (s : State) :
    Out.Keeps s (execShadowDiverge k s) := by
  unfold execShadowDiverge; simp

@[simp] theorem State.baseLoad_keeps (s : State) (n : Nat) : s.Keeps (s.baseLoad n) := by unfold State.baseLoad; simp
@[simp] theorem execBaseLoaded_keeps (d : Drv) (s : State) : Out.Keeps s (execBaseLoaded d s) := by unfold execBaseLoaded; simp

/-! ### Field dies (`Machine/FieldOps.lean`) -/

@[simp] theorem State.fieldView_keeps (s : State) (f : Nat) : s.Keeps (s.fieldView f) := by unfold State.fieldView; simp

@[simp] theorem State.setField_keeps (s : State) (f : Nat) (x : Field) :
    s.Keeps (s.setField f x) := by
  unfold State.setField; simp

@[simp] theorem State.modField_keeps (s : State) (f : Nat) (g : Field → Field) :
    s.Keeps (s.modField f g) := by
  unfold State.modField; simp

@[simp] theorem State.sendFieldEvent_keeps (s : State) (f ev ix : Nat) (data : List Byte) :
    s.Keeps (s.sendFieldEvent f ev ix data) := by
  unfold State.sendFieldEvent; simp

@[simp] theorem State.fieldEvent_keeps (s : State) (f ev ix : Nat) :
    s.Keeps (s.fieldEvent f ev ix) := by
  unfold State.fieldEvent; simp

@[simp] theorem State.sendEdge_keeps (s : State) (f c : Nat) (level : Bool) (t : Nat) :
    s.Keeps (s.sendEdge f c level t) := by
  unfold State.sendEdge; simp

@[simp] theorem State.fieldEdge_keeps (s : State) (f c : Nat) (level : Bool) :
    s.Keeps (s.fieldEdge f c level) := by
  unfold State.fieldEdge; simp

@[simp] theorem State.fieldTake_keeps (s : State) (f out clr : Nat) :
    s.Keeps (s.fieldTake f out clr) := by
  unfold State.fieldTake; simp

@[simp] theorem State.fieldConfigured_keeps (s : State) (f : Nat) :
    s.Keeps (s.fieldConfigured f) := by
  unfold State.fieldConfigured; simp

@[simp] theorem State.enableEdges_keeps (s : State) : s.Keeps s.enableEdges := by unfold State.enableEdges; simp

/-! ### The commands of the field dies (`Machine/FieldCmds.lean`) -/

@[simp] theorem State.takeVi_keeps (s : State) (f vi : Nat) : s.Keeps (s.takeVi f vi) := by unfold State.takeVi; simp

@[simp] theorem State.viFalls_keeps (s : State) (f : Nat) :
    s.Keeps (s.viFalls f) := by
  unfold State.viFalls; simp -implicitDefEqProofs

@[simp] theorem State.toEnd_keeps (s : State) (t : Option Nat) (n : Nat) : s.Keeps (s.toEnd t n) := by unfold State.toEnd; simp

@[simp] theorem execViLow_keeps (f : Fio) (vi : BitVec 16) (s : State) :
    Out.Keeps s (execViLow f vi s) := by
  unfold execViLow; simp

@[simp] theorem execViRecover_keeps (f : Fio) (vi : BitVec 16) (s : State) :
    Out.Keeps s (execViRecover f vi s) := by
  unfold execViRecover; simp

@[simp] theorem execFieldSideStop_keeps (f : Fio) (vi : BitVec 16) (s : State) :
    Out.Keeps s (execFieldSideStop f vi s) := by
  unfold execFieldSideStop; simp

@[simp] theorem execFieldSideRestart_keeps (f : Fio) (vi : BitVec 16) (s : State) :
    Out.Keeps s (execFieldSideRestart f vi s) := by
  unfold execFieldSideRestart; simp

@[simp] theorem State.inputSettles_keeps (s : State) (f c : Nat) :
    s.Keeps (s.inputSettles f c) := by
  unfold State.inputSettles; simp

@[simp] theorem execFieldInputDebounce_keeps (f : Fio) (c : Fin 32) (raw : Bool) (s : State) :
    Out.Keeps s (execFieldInputDebounce f c raw s) := by
  unfold execFieldInputDebounce; simp

@[simp] theorem execFtmo_keeps (f : Fio) (j : Fin 8) (s : State) :
    Out.Keeps s (execFtmo f j s) := by
  unfold execFtmo; simp -implicitDefEqProofs

@[simp] theorem State.outOverload_keeps (s : State) (f c : Nat) (hot : Bool) :
    s.Keeps (s.outOverload f c hot) := by
  unfold State.outOverload; simp -implicitDefEqProofs

@[simp] theorem execOvl_keeps (f : Fio) (c : Fin 16) (s : State) : Out.Keeps s (execOvl f c s) := by unfold execOvl; simp

@[simp] theorem execOvlRetry_keeps (f : Fio) (c : Fin 16) (success : Bool) (s : State) :
    Out.Keeps s (execOvlRetry f c success s) := by
  unfold execOvlRetry; simp

@[simp] theorem execOutputOvertemp_keeps (f : Fio) (c : Fin 16) (s : State) :
    Out.Keeps s (execOutputOvertemp f c s) := by
  unfold execOutputOvertemp; simp

@[simp] theorem execOutputCooled_keeps (f : Fio) (c : Fin 16) (s : State) :
    Out.Keeps s (execOutputCooled f c s) := by
  unfold execOutputCooled; simp

@[simp] theorem State.badItem_keeps (s : State) (f : Nat) : s.Keeps (s.badItem f) := by unfold State.badItem; simp

@[simp] theorem State.seqItem_keeps (s : State) (f last seq : Nat) : s.Keeps (s.seqItem f last seq).1 := by
  unfold State.seqItem
  split
  · simp
  · split <;> simp

@[simp] theorem execOutItem_keeps (f : Fio) (rx : Rx) (s : State) :
    Out.Keeps s (execOutItem f rx s) := by
  unfold execOutItem; simp

@[simp] theorem execApplyItem_keeps (f : Fio) (rx : Rx) (s : State) : Out.Keeps s (execApplyItem f rx s) := by
  unfold execApplyItem; dsimp only; repeat' split
  all_goals simp

@[simp] theorem execTickItem_keeps (f : Fio) (rx : Rx) (s : State) :
    Out.Keeps s (execTickItem f rx s) := by
  unfold execTickItem; simp

@[simp] theorem execAckw_keeps (f : Fio) (rx : Rx) (s : State) :
    Out.Keeps s (execAckw f rx s) := by
  unfold execAckw; dsimp only; split <;> simp

@[simp] theorem State.fieldLatch_keeps (s : State) (f rb : Nat) :
    s.Keeps (s.fieldLatch f rb) := by
  unfold State.fieldLatch; simp -implicitDefEqProofs

@[simp] theorem State.noLatch_keeps (s : State) (f : Nat) : s.Keeps (s.noLatch f) := by unfold State.noLatch; simp

@[simp] theorem execInItem_keeps (f : Fio) (rx : Rx) (vi : BitVec 16) (rb : BitVec 16) (s : State) :
    Out.Keeps s (execInItem f rx vi rb s) := by
  unfold execInItem; simp

@[simp] theorem State.loseCrossing_keeps (s : State) (f : Nat) : s.Keeps (s.loseCrossing f) := by unfold State.loseCrossing; simp

@[simp] theorem State.regainCrossing_keeps (s : State) (f : Nat) :
    s.Keeps (s.regainCrossing f) := by
  unfold State.regainCrossing; simp

@[simp] theorem execXloss_keeps (f : Fio) (field : Bool) (s : State) :
    Out.Keeps s (execXloss f field s) := by
  unfold execXloss; simp -implicitDefEqProofs

@[simp] theorem execCrossingRestore_keeps (f : Fio) (s : State) :
    Out.Keeps s (execCrossingRestore f s) := by
  unfold execCrossingRestore; simp

@[simp] theorem execHeartbeatLoss_keeps (f : Fio) (field : Bool) (s : State) :
    Out.Keeps s (execHeartbeatLoss f field s) := by
  unfold execHeartbeatLoss; simp

@[simp] theorem execHeartbeatRestore_keeps (f : Fio) (s : State) :
    Out.Keeps s (execHeartbeatRestore f s) := by
  unfold execHeartbeatRestore; simp

@[simp] theorem execFioSilence_keeps (f : Fio) (s : State) :
    Out.Keeps s (execFioSilence f s) := by
  unfold execFioSilence; simp -implicitDefEqProofs

@[simp] theorem State.setFioStby_keeps (s : State) (f : Nat) (b : Bool) :
    s.Keeps (s.setFioStby f b) := by
  unfold State.setFioStby; simp

@[simp] theorem execFioModeWrite_keeps (f : Fio) (stby : Bool) (s : State) :
    Out.Keeps s (execFioModeWrite f stby s) := by
  unfold execFioModeWrite; simp

@[simp] theorem State.assertFioRel_keeps (s : State) (f : Nat) : s.Keeps (s.assertFioRel f) := by unfold State.assertFioRel; simp
@[simp] theorem State.negateFioRel_keeps (s : State) (f : Nat) : s.Keeps (s.negateFioRel f) := by unfold State.negateFioRel; simp

@[simp] theorem execFieldEventFlush_keeps (f : Fio) (c : Fin 32) (s : State) :
    Out.Keeps s (execFieldEventFlush f c s) := by
  unfold execFieldEventFlush; split <;> simp -implicitDefEqProofs

/-! ### Load channels (`Machine/LoadOps.lean`) -/

@[simp] theorem State.loadView_keeps (s : State) (x : Nat) : s.Keeps (s.loadView x) := by unfold State.loadView; simp
@[simp] theorem State.setLoad_keeps (s : State) (x : Nat) (l : Load) : s.Keeps (s.setLoad x l) := by unfold State.setLoad; simp

@[simp] theorem State.modLoad_keeps (s : State) (x : Nat) (f : Load → Load) :
    s.Keeps (s.modLoad x f) := by
  unfold State.modLoad; simp

@[simp] theorem State.sendLoadEvent_keeps (s : State) (n c ev : Nat) :
    s.Keeps (s.sendLoadEvent n c ev) := by
  unfold State.sendLoadEvent; simp

@[simp] theorem State.loadEvent_keeps (s : State) (x ev : Nat) : s.Keeps (s.loadEvent x ev) := by unfold State.loadEvent; simp
@[simp] theorem State.dieEvent_keeps (s : State) (n ev : Nat) : s.Keeps (s.dieEvent n ev) := by unfold State.dieEvent; simp

@[simp] theorem State.loadDiag_keeps (s : State) (x : Nat) (f : Load → Load) :
    s.Keeps (s.loadDiag x f) := by
  unfold State.loadDiag; simp

@[simp] theorem State.loadCause_keeps (s : State) (x cause : Nat) :
    s.Keeps (s.loadCause x cause) := by
  unfold State.loadCause; simp

@[simp] theorem State.loadTo_keeps (s : State) (x st cause : Nat) : s.Keeps (s.loadTo x st cause) := by unfold State.loadTo; simp

@[simp] theorem State.enterTripped_keeps (s : State) (x cause : Nat) :
    s.Keeps (s.enterTripped x cause) := by
  unfold State.enterTripped; simp

@[simp] theorem State.trip_keeps (s : State) (x cause : Nat) : s.Keeps (s.trip x cause) := by unfold State.trip; simp
@[simp] theorem State.turnOn_keeps (s : State) (x : Nat) : s.Keeps (s.turnOn x) := by unfold State.turnOn; simp

@[simp] theorem State.turnOnAgain_keeps (s : State) (x : Nat) :
    s.Keeps (s.turnOnAgain x) := by
  unfold State.turnOnAgain; dsimp only; split <;> simp

@[simp] theorem State.restarted_keeps (s : State) (x : Nat) (thermal : Bool) :
    s.Keeps (s.restarted x thermal) := by
  unfold State.restarted; simp

@[simp] theorem State.offRows_keeps (s : State) (x : Nat) : s.Keeps (s.offRows x) := by unfold State.offRows; simp
@[simp] theorem State.deferredRow_keeps (s : State) (x : Nat) : s.Keeps (s.deferredRow x) := by unfold State.deferredRow; simp
@[simp] theorem State.releaseCh_keeps (s : State) (x : Nat) : s.Keeps (s.releaseCh x) := by unfold State.releaseCh; simp
@[simp] theorem State.backFrom_keeps (s : State) (x : Nat) : s.Keeps (s.backFrom x) := by unfold State.backFrom; split <;> simp
@[simp] theorem State.standOff_keeps (s : State) (x : Nat) : s.Keeps (s.standOff x) := by unfold State.standOff; simp
@[simp] theorem State.unrelease_keeps (s : State) (x : Nat) : s.Keeps (s.unrelease x) := by unfold State.unrelease; simp

@[simp] theorem State.firstRow_keeps (s : State) (x : Nat) (held : List Nat) : s.Keeps (s.firstRow x held) := by
  unfold State.firstRow
  cases held <;> simp

@[simp] theorem State.loadRows_keeps (s : State) (x : Nat) : s.Keeps (s.loadRows x) := by unfold State.loadRows; simp
@[simp] theorem State.loadApply_keeps (s : State) (n : Nat) : s.Keeps (s.loadApply n) := by unfold State.loadApply; simp

@[simp] theorem State.loadConfigured_keeps (s : State) (n : Nat) (cold : Bool) (oldWire : Nat → Option Nat) :
    s.Keeps (s.loadConfigured n cold oldWire) := by
  unfold State.loadConfigured; simp

/-! ### The commands of the load dies (`Machine/LoadCmds.lean`) -/

@[simp] theorem State.setStby_keeps (s : State) (n : Nat) (b : Bool) : s.Keeps (s.setStby n b) := by unfold State.setStby; simp

@[simp] theorem execLswModeWrite_keeps (d : Lsw) (stby : Bool) (s : State) :
    Out.Keeps s (execLswModeWrite d stby s) := by
  unfold execLswModeWrite; simp

@[simp] theorem State.clampTrip_keeps (s : State) (y c : Nat) : s.Keeps (s.clampTrip y c) := by unfold State.clampTrip; simp

@[simp] theorem State.clampCheck_keeps (s : State) (x y : Nat) (ended : Option (Nat × Bool)) :
    s.Keeps (s.clampCheck x y ended) := by
  unfold State.clampCheck; split <;> simp

@[simp] theorem State.riseWatch_keeps (s : State) (n : Nat) : s.Keeps (s.riseWatch n) := by unfold State.riseWatch; simp
@[simp] theorem State.takeVf_keeps (s : State) (n vf : Nat) : s.Keeps (s.takeVf n vf) := by unfold State.takeVf; simp

@[simp] theorem execLoadEval_keeps (x : LCh) (vf : BitVec 16) (ua : Int) (temps : Byte × Byte) (out : Int) (limit bad : Bool)
    (ended : Option (Nat × Bool)) (s : State) :
    Out.Keeps s (execLoadEval x vf ua temps out limit bad ended s) := by
  unfold execLoadEval; simp

@[simp] theorem execLoadShort_keeps (x : LCh) (s : State) : Out.Keeps s (execLoadShort x s) := by unfold execLoadShort; simp
@[simp] theorem execWireModel_keeps (x : LCh) (s : State) : Out.Keeps s (execWireModel x s) := by unfold execWireModel; simp
@[simp] theorem execLoadReverse_keeps (x : LCh) (s : State) : Out.Keeps s (execLoadReverse x s) := by unfold execLoadReverse; simp

@[simp] theorem execInrushEnd_keeps (x : LCh) (regulating : Bool) (s : State) :
    Out.Keeps s (execInrushEnd x regulating s) := by
  unfold execInrushEnd; simp

@[simp] theorem execRearm_keeps (x : LCh) (s : State) : Out.Keeps s (execRearm x s) := by unfold execRearm; simp
@[simp] theorem execOpenOn_keeps (x : LCh) (s : State) : Out.Keeps s (execOpenOn x s) := by unfold execOpenOn; simp

@[simp] theorem execOffStateCheck_keeps (x : LCh) (out1 out2 : Int) (s : State) :
    Out.Keeps s (execOffStateCheck x out1 out2 s) := by
  unfold execOffStateCheck; simp

@[simp] theorem State.setBand_keeps (s : State) (n b : Nat) : s.Keeps (s.setBand n b) := by unfold State.setBand; simp

@[simp] theorem execBandDrop_keeps (d : Lsw) (vf : BitVec 16) (s : State) : Out.Keeps s (execBandDrop d vf s) := by
  unfold execBandDrop; dsimp only; repeat' split
  all_goals simp -implicitDefEqProofs

@[simp] theorem execBandRise_keeps (d : Lsw) (vf : BitVec 16) (s : State) :
    Out.Keeps s (execBandRise d vf s) := by
  unfold execBandRise; simp

@[simp] theorem execDipRestore_keeps (x : LCh) (s : State) : Out.Keeps s (execDipRestore x s) := by unfold execDipRestore; simp

@[simp] theorem execPairImbalance_keeps (x : LCh) (lo hi : Int) (s : State) :
    Out.Keeps s (execPairImbalance x lo hi s) := by
  unfold execPairImbalance; simp

@[simp] theorem execLoadEventFlush_keeps (x : LCh) (s : State) :
    Out.Keeps s (execLoadEventFlush x s) := by
  unfold execLoadEventFlush; split <;> simp

@[simp] theorem State.assertLswRel_keeps (s : State) (n : Nat) : s.Keeps (s.assertLswRel n) := by unfold State.assertLswRel; simp
@[simp] theorem State.negateLswRel_keeps (s : State) (n : Nat) : s.Keeps (s.negateLswRel n) := by unfold State.negateLswRel; simp

/-! ### The commit unit (`Machine/Commit.lean`) -/

@[simp] theorem State.exclude_keeps (s : State) (n cause : Nat) : s.Keeps (s.exclude n cause) := by unfold State.exclude; simp
@[simp] theorem State.missWindow_keeps (s : State) (n : Nat) : s.Keeps (s.missWindow n) := by unfold State.missWindow; simp

@[simp] theorem State.resyncTo_keeps (s : State) (n : Nat) (out : Bytes) :
    s.Keeps (s.resyncTo n out) := by
  unfold State.resyncTo; simp

@[simp] theorem State.sendResync_keeps (s : State) (n : Nat) : s.Keeps (s.sendResync n) := by unfold State.sendResync; simp

@[simp] theorem State.miss_keeps (s : State) (n cause : Nat) : s.Keeps (s.miss n cause) := by
  unfold State.miss; dsimp only; repeat' split
  all_goals simp

@[simp] theorem State.emitCommit_keeps (s : State) : s.Keeps s.emitCommit := by unfold State.emitCommit; simp
@[simp] theorem execCommitEmit_keeps (s : State) : Out.Keeps s (execCommitEmit s) := by unfold execCommitEmit; simp
@[simp] theorem State.peerEvent_keeps (s : State) (code : Nat) : s.Keeps (s.peerEvent code) := by unfold State.peerEvent; simp
@[simp] theorem State.standBy_keeps (s : State) (n : Nat) (b : Bool) : s.Keeps (s.standBy n b) := by unfold State.standBy; simp
@[simp] theorem State.endMaint_keeps (s : State) : s.Keeps s.endMaint := by unfold State.endMaint; dsimp only; split <;> simp
@[simp] theorem State.setPark_keeps (s : State) : s.Keeps s.setPark := by unfold State.setPark; simp -implicitDefEqProofs
@[simp] theorem State.changeMode_keeps (s : State) (r : ModeReq) : s.Keeps (s.changeMode r) := by unfold State.changeMode; simp

@[simp] theorem State.takeoverEnd_keeps (s : State) (done : List Ended) :
    s.Keeps (s.takeoverEnd done) := by
  unfold State.takeoverEnd; split <;> simp

@[simp] theorem State.takeModeReq_keeps (s : State) : s.Keeps s.takeModeReq := by
  unfold State.takeModeReq
  split
  · split
    · dsimp only
      split <;> simp
    · simp
  · simp

@[simp] theorem State.replyCommit_keeps (s : State) : s.Keeps s.replyCommit := by unfold State.replyCommit; simp

@[simp] theorem State.holdStep_keeps (s : State) (k : Nat) (h : Hold) : s.Keeps (s.holdStep k h) := by
  unfold State.holdStep; dsimp only; repeat' split
  all_goals simp

@[simp] theorem State.commitEnded_keeps (s : State) : s.Keeps s.commitEnded := by unfold State.commitEnded; simp
@[simp] theorem State.carriedDie_keeps (s : State) (n : Nat) : s.Keeps (s.carriedDie n) := by unfold State.carriedDie; simp
@[simp] theorem State.parkCommit_keeps (s : State) (num : Nat) : s.Keeps (s.parkCommit num) := by unfold State.parkCommit; simp

@[simp] theorem State.holdsStep_keeps (s : State) : s.Keeps s.holdsStep := by
  unfold State.holdsStep
  simp only [State.Keeps]
  exact State.each_keeps fun s k => by split <;> simp

@[simp] theorem State.resyncAgain_keeps (s : State) (n : Nat) : s.Keeps (s.resyncAgain n) := by unfold State.resyncAgain; simp

@[simp] theorem State.commitImage_keeps (s : State) (num : Nat) (carried : List Nat) :
    s.Keeps (s.commitImage num carried) := by
  unfold State.commitImage; simp

@[simp] theorem State.commitPoint_keeps (s : State) : s.Keeps s.commitPoint := by unfold State.commitPoint; simp
@[simp] theorem execCommitPoint_keeps (s : State) : Out.Keeps s (execCommitPoint s) := by unfold execCommitPoint; simp

/-! ### Access to registers and memory from outside (`Machine/Access.lean`) -/

@[simp] theorem State.arbRead_keeps (s : State) : s.Keeps s.arbRead.2 := by unfold State.arbRead; simp

@[simp] theorem State.ctlRead_keeps (s : State) (a : Nat) : s.Keeps (s.ctlRead a).2 := by
  unfold State.ctlRead
  split
  · simp
  · split
    · simp
    · split <;> simp

@[simp] theorem State.ctlWrite_keeps (s : State) (a w : Nat) : s.Keeps (s.ctlWrite a w).2 := by
  unfold State.ctlWrite
  split
  · simp
  · split <;> simp

@[simp] theorem State.satRead_keeps (s : State) (n off : Nat) : s.Keeps (s.satRead n off).2.2 := by
  obtain ⟨fields, hf⟩ : ∃ f, f = satFields := ⟨_, rfl⟩
  unfold State.satRead
  rw [← hf]
  dsimp only
  repeat' split
  all_goals exact ⟨rfl, rfl⟩

@[simp] theorem State.winPut_keeps (s : State) (n i v : Nat) : s.Keeps (s.winPut n i v) := by unfold State.winPut; simp

@[simp] theorem State.satWrite_keeps (s : State) (n off w : Nat) : s.Keeps (s.satWrite n off w).2 := by
  obtain ⟨fields, hf⟩ : ∃ f, f = satFields := ⟨_, rfl⟩
  unfold State.satWrite
  rw [← hf]
  dsimp only
  repeat' split
  all_goals simp -implicitDefEqProofs

@[simp] theorem State.regSend_keeps (s : State) (n : Nat) :
    s.Keeps (s.regSend n) := by
  unfold State.regSend; dsimp only; split <;> simp

@[simp] theorem State.regSubmit_keeps (s : State) (n : Nat) (r : RegAcc) :
    s.Keeps (s.regSubmit n r) := by
  unfold State.regSubmit; simp

@[simp] theorem State.sendProfiles_keeps (s : State) (n : Nat) : s.Keeps (s.sendProfiles n) := by unfold State.sendProfiles; simp
@[simp] theorem State.violation_keeps (s : State) (q a : Nat) : s.Keeps (s.violation q a) := by unfold State.violation; simp
@[simp] theorem State.eccUe_keeps (s : State) (a : Nat) : s.Keeps (s.eccUe a) := by unfold State.eccUe; simp
@[simp] theorem State.fillEnd_keeps (s : State) (b : Nat) : s.Keeps (s.fillEnd b) := by unfold State.fillEnd; simp
@[simp] theorem State.fillWait_keeps (s : State) (a : Nat) : s.Keeps (s.fillWait a) := by unfold State.fillWait; simp

@[simp] theorem State.objRead_keeps (s : State) (qp : Bool) (a : Nat) : s.Keeps (s.objRead qp a).2.2 := by
  unfold State.objRead
  split
  · dsimp only
    repeat' split
    all_goals simp
  · have h := s.ctlRead_keeps a
    split <;> simp_all

@[simp] theorem State.healed_keeps (s : State) (a : Nat) : s.Keeps (s.healed a) := by unfold State.healed; simp
@[simp] theorem State.memWrite_keeps (s : State) (a w : Nat) : s.Keeps (s.memWrite a w) := by unfold State.memWrite; simp

/-! ### Interfaces reset and tested on their own (`Machine/Loop.lean`) -/

@[simp] theorem State.sendProbe_keeps (s : State) (n : Nat) : s.Keeps (s.sendProbe n) := by unfold State.sendProbe; simp
@[simp] theorem State.measure_keeps (s : State) (n : Nat) : s.Keeps (s.measure n) := by unfold State.measure; simp
@[simp] theorem State.linkReset_keeps (s : State) (n : Nat) : s.Keeps (s.linkReset n) := by unfold State.linkReset; simp
@[simp] theorem execLreset_keeps (n : Slot) (s : State) : Out.Keeps s (execLreset n s) := by unfold execLreset; simp

@[simp] theorem execScopedResetLink_keeps (n : Slot) (s : State) :
    Out.Keeps s (execScopedResetLink n s) := by
  unfold execScopedResetLink; simp

@[simp] theorem State.belayStale_keeps (s : State) : s.Keeps s.belayStale := by unfold State.belayStale; simp

@[simp] theorem State.peerHealth_keeps (s : State) (healthy ready : Bool) :
    s.Keeps (s.peerHealth healthy ready) := by
  unfold State.peerHealth; simp

@[simp] theorem State.peerSet_keeps (s : State) (b : Bool) : s.Keeps (s.peerSet b) := by unfold State.peerSet; simp
@[simp] theorem State.ropeFall_keeps (s : State) : s.Keeps s.ropeFall := by unfold State.ropeFall; simp
@[simp] theorem State.ropeReset_keeps (s : State) : s.Keeps s.ropeReset := by unfold State.ropeReset; simp
@[simp] theorem execScopedResetRope_keeps (s : State) : Out.Keeps s (execScopedResetRope s) := by unfold execScopedResetRope; simp
@[simp] theorem State.qpReset_keeps (s : State) : s.Keeps s.qpReset := by unfold State.qpReset; simp
@[simp] theorem execScopedResetQp_keeps (s : State) : Out.Keeps s (execScopedResetQp s) := by unfold execScopedResetQp; simp

@[simp] theorem execScopedResetCan_keeps (c : Ctl) (s : State) :
    Out.Keeps s (execScopedResetCan c s) := by
  unfold execScopedResetCan; simp

@[simp] theorem State.qpView_keeps (s : State) : s.Keeps s.qpView := by unfold State.qpView; simp

@[simp] theorem State.finishWrites_keeps (s : State) (gone : List QTick) :
    s.Keeps (s.finishWrites gone) := foldl_keeps fun s k => foldl_keeps fun s i => by split <;> simp

@[simp] theorem execQpResetDone_keeps (s : State) : Out.Keeps s (execQpResetDone s) := by unfold execQpResetDone; simp
@[simp] theorem State.measured_keeps (s : State) : s.Keeps s.measured := by unfold State.measured; simp -implicitDefEqProofs
@[simp] theorem State.snapReq_keeps (s : State) : s.Keeps s.snapReq := by unfold State.snapReq; simp
@[simp] theorem execSnapReq_keeps (s : State) : Out.Keeps s (execSnapReq s) := by unfold execSnapReq; simp
@[simp] theorem execSnapDone_keeps (s : State) : Out.Keeps s (execSnapDone s) := by unfold execSnapDone; simp

@[simp] theorem State.lbStart_keeps (s : State) (iface depth num arg : Nat) :
    s.Keeps (s.lbStart iface depth num arg) := by
  unfold State.lbStart; simp

@[simp] theorem State.lbWrite_keeps (s : State) (iface depth num arg : Nat) :
    s.Keeps (s.lbWrite iface depth num arg) := by
  unfold State.lbWrite; simp

@[simp] theorem execLbDieLink_keeps (depth : BitVec 2) (num : Byte) (s : State) :
    Out.Keeps s (execLbDieLink depth num s) := by
  unfold execLbDieLink; simp

@[simp] theorem execLbRope_keeps (depth : BitVec 2) (s : State) : Out.Keeps s (execLbRope depth s) := by unfold execLbRope; simp

@[simp] theorem execLbEthernet_keeps (depth : BitVec 2) (num : Byte) (s : State) :
    Out.Keeps s (execLbEthernet depth num s) := by
  unfold execLbEthernet; simp

@[simp] theorem execLbXspi_keeps (depth : BitVec 2) (s : State) : Out.Keeps s (execLbXspi depth s) := by unfold execLbXspi; simp

@[simp] theorem execLbQueryPort_keeps (depth : BitVec 2) (s : State) :
    Out.Keeps s (execLbQueryPort depth s) := by
  unfold execLbQueryPort; simp

@[simp] theorem execLbDoorDrive_keeps (depth : BitVec 2) (num : Byte) (s : State) :
    Out.Keeps s (execLbDoorDrive depth num s) := by
  unfold execLbDoorDrive; simp

@[simp] theorem execLbDoorInputs_keeps (depth : BitVec 2) (num : Byte) (s : State) :
    Out.Keeps s (execLbDoorInputs depth num s) := by
  unfold execLbDoorInputs; simp

@[simp] theorem execLbLoadChannel_keeps (depth : BitVec 2) (num : Byte) (s : State) :
    Out.Keeps s (execLbLoadChannel depth num s) := by
  unfold execLbLoadChannel; simp

@[simp] theorem execLbFieldIo_keeps (depth : BitVec 2) (num arg : Byte) (s : State) :
    Out.Keeps s (execLbFieldIo depth num arg s) := by
  unfold execLbFieldIo; simp

@[simp] theorem execLoopbackDone_keeps (pass : Bool) (errors : BitVec 16) (s : State) :
    Out.Keeps s (execLoopbackDone pass errors s) := by
  unfold execLoopbackDone; simp

@[simp] theorem execRefclkLoss_keeps (s : State) : Out.Keeps s (execRefclkLoss s) := by unfold execRefclkLoss; simp
@[simp] theorem execPllUnlock_keeps (pll : Fin 8) (s : State) : Out.Keeps s (execPllUnlock pll s) := by unfold execPllUnlock; simp
@[simp] theorem execXtalFail_keeps (s : State) : Out.Keeps s (execXtalFail s) := by unfold execXtalFail; simp

@[simp] theorem execVhuMeasured_keeps (us : Nat) (s : State) :
    Out.Keeps s (execVhuMeasured us s) := by
  unfold execVhuMeasured; simp

@[simp] theorem execIoSupplyValid_keeps (eth valid : Bool) (s : State) :
    Out.Keeps s (execIoSupplyValid eth valid s) := by
  unfold execIoSupplyValid; simp -implicitDefEqProofs

/-! ### Requests of the external masters on the object map (`Machine/Objects.lean`) -/

@[simp] theorem State.scopedResets_keeps (s : State) (w : Nat) : s.Keeps (s.scopedResets w) := by unfold State.scopedResets; simp
@[simp] theorem State.regWrite_keeps (s : State) (a w : Nat) : s.Keeps (s.regWrite a w).2 := by unfold State.regWrite; simp

@[simp] theorem State.objWrite_keeps (s : State) (a w : Nat) : s.Keeps (s.objWrite a w).2 := by
  unfold State.objWrite
  split
  · simp
  · split <;> simp

@[simp] theorem execRegisterWrite_keeps (addr : Word) (v : Word) (s : State) : Out.Keeps s (execRegisterWrite addr v s) := by
  unfold execRegisterWrite
  split
  · simp
  · split <;> simp

@[simp] theorem execRcRead_keeps (addr : Word) (s : State) : Out.Keeps s (execRcRead addr s) := by
  unfold execRcRead
  split
  · simp
  · split <;> simp

@[simp] theorem State.readEnd_keeps (s : State) (x st : Nat) (data : List Byte) :
    s.Keeps (s.readEnd x st data) := by
  unfold State.readEnd; simp

@[simp] theorem State.readGo_keeps (s : State) (x : Nat) (k : Nat) : s.Keeps (s.readGo x k) := by
  induction k generalizing s with
  | zero => exact ⟨rfl, rfl⟩
  | succ fuel ih =>
    unfold State.readGo
    dsimp only
    repeat' split
    all_goals simp [ih]

@[simp] theorem State.readStart_keeps (s : State) (x addr len : Nat) :
    s.Keeps (s.readStart x addr len) := by
  unfold State.readStart; simp

@[simp] theorem State.setTick_keeps (s : State) (k : QTick) : s.Keeps (s.setTick k) := by unfold State.setTick; simp

@[simp] theorem State.tickEnd_keeps (s : State) (k : QTick) (res : Nat) (data : List Byte) :
    s.Keeps (s.tickEnd k res data) := by
  unfold State.tickEnd; simp

@[simp] theorem State.tickGo_keeps (s : State) (t : Nat) (k : Nat) : s.Keeps (s.tickGo t k) := by
  induction k generalizing s with
  | zero => exact ⟨rfl, rfl⟩
  | succ fuel ih =>
    unfold State.tickGo
    dsimp only
    repeat' split
    all_goals simp [ih]

@[simp] theorem State.tickStart_keeps (s : State) (k : QTick) : s.Keeps (s.tickStart k) := by unfold State.tickStart; simp

@[simp] theorem State.qServe_keeps (s : State) (k : Nat) (m : Nat) : s.Keeps (s.qServe k m) := by
  induction k generalizing s m with
  | zero => exact ⟨rfl, rfl⟩
  | succ fuel ih =>
    unfold State.qServe
    split <;> simp [ih]

@[simp] theorem State.qpService_keeps (s : State) : s.Keeps s.qpService := by unfold State.qpService; simp
@[simp] theorem State.qpMiso_keeps (s : State) (more : List Byte) : s.Keeps (s.qpMiso more) := by unfold State.qpMiso; simp
@[simp] theorem State.qpReject_keeps (s : State) : s.Keeps s.qpReject := by unfold State.qpReject; simp

@[simp] theorem State.submit_keeps (s : State) (write : Bool) (addr len : Nat) (data : List Byte) :
    s.Keeps (s.submit write addr len data) := by
  unfold State.submit; simp

@[simp] theorem execSubmitRead_keeps (whole : Bool) (crc : BitVec 16) (addr : Word) (len : BitVec 16) (s : State) :
    Out.Keeps s (execSubmitRead whole crc addr len s) := by
  unfold execSubmitRead; simp

@[simp] theorem execSubmitWrite_keeps (whole : Bool) (crc : BitVec 16) (addr : Word) (len : BitVec 16) (data : List Byte) (s : State) :
    Out.Keeps s (execSubmitWrite whole crc addr len data s) := by
  unfold execSubmitWrite; simp

@[simp] theorem execFetch_keeps (ticket : Byte) (whole : Bool) (s : State) : Out.Keeps s (execFetch ticket whole s) := by
  unfold execFetch
  dsimp only
  split
  · simp
  · split <;> simp

@[simp] theorem execQpAck_keeps (ticket : Byte) (crc : BitVec 16) (s : State) :
    Out.Keeps s (execQpAck ticket crc s) := by
  unfold execQpAck; simp

@[simp] theorem execStatus_keeps (s : State) : Out.Keeps s (execStatus s) := by unfold execStatus; simp

@[simp] theorem execQpReset_keeps (magic : BitVec 24) (crc : BitVec 16) (s : State) :
    Out.Keeps s (execQpReset magic crc s) := by
  unfold execQpReset; simp

@[simp] theorem execQpUnknownCommand_keeps (cmd : Byte) (s : State) :
    Out.Keeps s (execQpUnknownCommand cmd s) := by
  unfold execQpUnknownCommand; simp

@[simp] theorem State.regEnd_keeps (s : State) (n st v : Nat) : s.Keeps (s.regEnd n st v) := by
  unfold State.regEnd
  split
  · dsimp only
    split
    · split
      · simp
      · split <;> simp
    · split <;> simp
    · simp
    · split <;> simp
    · simp
  · simp

/-! ### The cycle ledger (`Machine/Ledger.lean`) -/

@[simp] theorem State.setRec_keeps (s : State) (k : Nat) (r : LRec) : s.Keeps (s.setRec k r) := by unfold State.setRec; simp
@[simp] theorem State.saveLedger_keeps (s : State) (k : Nat) : s.Keeps (s.saveLedger k) := by unfold State.saveLedger; simp
@[simp] theorem State.loadLedger_keeps (s : State) (k : Nat) : s.Keeps (s.loadLedger k) := by unfold State.loadLedger; simp
@[simp] theorem State.closeRec_keeps (s : State) (k : Nat) (r : LRec) : s.Keeps (s.closeRec k r) := by unfold State.closeRec; simp

@[simp] theorem State.openRec_keeps (s : State) (k st t flags : Nat) :
    s.Keeps (s.openRec k st t flags) := by
  unfold State.openRec; simp

@[simp] theorem State.ledgerChange_keeps (s : State) (k st t peak energy vdc : Nat) :
    s.Keeps (s.ledgerChange k st t peak energy vdc) := by
  unfold State.ledgerChange; simp

@[simp] theorem State.resumeRecs_keeps (s : State) (n : Nat) (p : List Byte) :
    s.Keeps (s.resumeRecs n p) := by
  unfold State.resumeRecs; simp

@[simp] theorem State.markRec_keeps (s : State) (k flags step : Nat) :
    s.Keeps (s.markRec k flags step) := by
  unfold State.markRec; simp

@[simp] theorem State.stepActs_keeps (s : State) (n : Nat) (old new : List Byte) :
    s.Keeps (s.stepActs n old new) := State.each_keeps fun s c => by
  dsimp only
  split
  · simp
  · split <;> simp

/-! ### Bit operands and the bit (`Machine/EngineBits.lean`) -/

@[simp] theorem execLd_keeps (l : Lane) (o : Opnd) (s : State) : Out.Keeps s (execLd l o s) := by unfold execLd; simp
@[simp] theorem execLdn_keeps (l : Lane) (o : Opnd) (s : State) : Out.Keeps s (execLdn l o s) := by unfold execLdn; simp
@[simp] theorem execAnd_keeps (l : Lane) (o : Opnd) (s : State) : Out.Keeps s (execAnd l o s) := by unfold execAnd; simp
@[simp] theorem execAndn_keeps (l : Lane) (o : Opnd) (s : State) : Out.Keeps s (execAndn l o s) := by unfold execAndn; simp
@[simp] theorem execOr_keeps (l : Lane) (o : Opnd) (s : State) : Out.Keeps s (execOr l o s) := by unfold execOr; simp
@[simp] theorem execOrn_keeps (l : Lane) (o : Opnd) (s : State) : Out.Keeps s (execOrn l o s) := by unfold execOrn; simp
@[simp] theorem execXor_keeps (l : Lane) (o : Opnd) (s : State) : Out.Keeps s (execXor l o s) := by unfold execXor; simp
@[simp] theorem execAb_keeps (l : Lane) (s : State) : Out.Keeps s (execAb l s) := by unfold execAb; simp
@[simp] theorem execOb_keeps (l : Lane) (s : State) : Out.Keeps s (execOb l s) := by unfold execOb; simp
@[simp] theorem execBe_keeps (l : Lane) (s : State) : Out.Keeps s (execBe l s) := by unfold execBe; simp
@[simp] theorem execSt_keeps (l : Lane) (o : Opnd) (s : State) : Out.Keeps s (execSt l o s) := by unfold execSt; simp
@[simp] theorem execStn_keeps (l : Lane) (o : Opnd) (s : State) : Out.Keeps s (execStn l o s) := by unfold execStn; simp
@[simp] theorem execSet_keeps (l : Lane) (o : Opnd) (s : State) : Out.Keeps s (execSet l o s) := by unfold execSet; simp
@[simp] theorem execRst_keeps (l : Lane) (o : Opnd) (s : State) : Out.Keeps s (execRst l o s) := by unfold execRst; simp
@[simp] theorem execPe_keeps (l : Lane) (o : Opnd) (s : State) : Out.Keeps s (execPe l o s) := by unfold execPe; simp
@[simp] theorem execNe_keeps (l : Lane) (o : Opnd) (s : State) : Out.Keeps s (execNe l o s) := by unfold execNe; simp
@[simp] theorem execTon_keeps (l : Lane) (o : Opnd) (s : State) : Out.Keeps s (execTon l o s) := by unfold execTon; simp
@[simp] theorem execTof_keeps (l : Lane) (o : Opnd) (s : State) : Out.Keeps s (execTof l o s) := by unfold execTof; simp
@[simp] theorem execTp_keeps (l : Lane) (o : Opnd) (s : State) : Out.Keeps s (execTp l o s) := by unfold execTp; simp

@[simp] theorem postLatch_keeps (i : Nat) (s : State) (m : Nat) (j : LaneOut) :
    s.Keeps (postLatch i s m j) := by
  unfold postLatch; split <;> simp

@[simp] theorem execCtu_keeps (l : Lane) (i : BitVec 11) (s : State) : Out.Keeps s (execCtu l i s) := by unfold execCtu; simp
@[simp] theorem execCtuR_keeps (l : Lane) (i : BitVec 11) (s : State) : Out.Keeps s (execCtuR l i s) := by unfold execCtuR; simp
@[simp] theorem execCtd_keeps (l : Lane) (i : BitVec 11) (s : State) : Out.Keeps s (execCtd l i s) := by unfold execCtd; simp
@[simp] theorem execCtdL_keeps (l : Lane) (i : BitVec 11) (s : State) : Out.Keeps s (execCtdL l i s) := by unfold execCtdL; simp
@[simp] theorem execCtud_keeps (l : Lane) (i : BitVec 11) (s : State) : Out.Keeps s (execCtud l i s) := by unfold execCtud; simp

@[simp] theorem execCtudR_keeps (l : Lane) (i : BitVec 11) (s : State) :
    Out.Keeps s (execCtudR l i s) := by
  unfold execCtudR; simp

@[simp] theorem execCtudL_keeps (l : Lane) (i : BitVec 11) (s : State) :
    Out.Keeps s (execCtudL l i s) := by
  unfold execCtudL; simp

@[simp] theorem execCtudD_keeps (l : Lane) (i : BitVec 11) (s : State) :
    Out.Keeps s (execCtudD l i s) := by
  unfold execCtudD; simp

/-! ### Word operands and flags (`Machine/EngineWords.lean`) -/

@[simp] theorem execLw_keeps (l : Lane) (o : Opnd) (s : State) : Out.Keeps s (execLw l o s) := by unfold execLw; simp
@[simp] theorem execLwk_keeps (l : Lane) (lit : Word) (s : State) : Out.Keeps s (execLwk l lit s) := by unfold execLwk; simp
@[simp] theorem execSw_keeps (l : Lane) (o : Opnd) (s : State) : Out.Keeps s (execSw l o s) := by unfold execSw; simp
@[simp] theorem execLwx_keeps (l : Lane) (o : Opnd) (s : State) : Out.Keeps s (execLwx l o s) := by unfold execLwx; simp
@[simp] theorem execSwx_keeps (l : Lane) (o : Opnd) (s : State) : Out.Keeps s (execSwx l o s) := by unfold execSwx; simp
@[simp] theorem execLix_keeps (l : Lane) (s : State) : Out.Keeps s (execLix l s) := by unfold execLix; simp
@[simp] theorem execAdd_keeps (l : Lane) (o : Opnd) (s : State) : Out.Keeps s (execAdd l o s) := by unfold execAdd; simp
@[simp] theorem execSub_keeps (l : Lane) (o : Opnd) (s : State) : Out.Keeps s (execSub l o s) := by unfold execSub; simp
@[simp] theorem execMul_keeps (l : Lane) (o : Opnd) (s : State) : Out.Keeps s (execMul l o s) := by unfold execMul; simp
@[simp] theorem execDiv_keeps (l : Lane) (o : Opnd) (s : State) : Out.Keeps s (execDiv l o s) := by unfold execDiv; simp
@[simp] theorem execMod_keeps (l : Lane) (o : Opnd) (s : State) : Out.Keeps s (execMod l o s) := by unfold execMod; simp
@[simp] theorem execCmpEq_keeps (l : Lane) (o : Opnd) (s : State) : Out.Keeps s (execCmpEq l o s) := by unfold execCmpEq; simp
@[simp] theorem execCmpNe_keeps (l : Lane) (o : Opnd) (s : State) : Out.Keeps s (execCmpNe l o s) := by unfold execCmpNe; simp
@[simp] theorem execCmpLt_keeps (l : Lane) (o : Opnd) (s : State) : Out.Keeps s (execCmpLt l o s) := by unfold execCmpLt; simp
@[simp] theorem execCmpLe_keeps (l : Lane) (o : Opnd) (s : State) : Out.Keeps s (execCmpLe l o s) := by unfold execCmpLe; simp
@[simp] theorem execCmpGt_keeps (l : Lane) (o : Opnd) (s : State) : Out.Keeps s (execCmpGt l o s) := by unfold execCmpGt; simp
@[simp] theorem execCmpGe_keeps (l : Lane) (o : Opnd) (s : State) : Out.Keeps s (execCmpGe l o s) := by unfold execCmpGe; simp
@[simp] theorem execLimit_keeps (l : Lane) (o : Opnd) (s : State) : Out.Keeps s (execLimit l o s) := by unfold execLimit; simp
@[simp] theorem execScl_keeps (l : Lane) (o : Opnd) (s : State) : Out.Keeps s (execScl l o s) := by unfold execScl; simp
@[simp] theorem execMovb_keeps (l : Lane) (o : Opnd) (s : State) : Out.Keeps s (execMovb l o s) := by unfold execMovb; simp
@[simp] theorem execAtadd_keeps (l : Lane) (o : Opnd) (s : State) : Out.Keeps s (execAtadd l o s) := by unfold execAtadd; simp
@[simp] theorem execAtswp_keeps (l : Lane) (o : Opnd) (s : State) : Out.Keeps s (execAtswp l o s) := by unfold execAtswp; simp

/-! ### Exchange windows and the requests of the CAN objects (`Machine/EngineFlow.lean`) -/

@[simp] theorem postXlock_keeps (obj : Nat) (s : State) (m : Nat) (i : LaneOut) :
    s.Keeps (postXlock obj s m i) := by
  unfold postXlock; split <;> simp

@[simp] theorem postXfree_keeps (obj : Nat) (s : State) (m : Nat) (i : LaneOut) :
    s.Keeps (postXfree obj s m i) := by
  unfold postXfree; split <;> simp

@[simp] theorem execXlock_keeps (l : Lane) (obj : BitVec 10) (s : State) :
    Out.Keeps s (execXlock l obj s) := by
  unfold execXlock; simp

@[simp] theorem execXfree_keeps (l : Lane) (obj : BitVec 10) (s : State) :
    Out.Keeps s (execXfree l obj s) := by
  unfold execXfree; simp

@[simp] theorem State.addReq_keeps (s : State) (t obj code : Nat) :
    s.Keeps (s.addReq t obj code) := by
  unfold State.addReq; split <;> simp

@[simp] theorem postXreq_keeps (obj code : Nat) (s : State) (m : Nat) (i : LaneOut) :
    s.Keeps (postXreq obj code s m i) := by
  unfold postXreq; simp

@[simp] theorem State.xreq_keeps (s : State) (l obj : Nat) (res : LaneView → Nat → Nat) :
    Out.Keeps s (s.xreq l obj res) := by
  unfold State.xreq; simp

@[simp] theorem execXreqTransmit_keeps (l : Lane) (c : Ctl) (b : Buf) (s : State) :
    Out.Keeps s (execXreqTransmit l c b s) := by
  unfold execXreqTransmit; simp

@[simp] theorem execXreqCancel_keeps (l : Lane) (c : Ctl) (b : Buf) (s : State) :
    Out.Keeps s (execXreqCancel l c b s) := by
  unfold execXreqCancel; simp

@[simp] theorem execXreqRecover_keeps (l : Lane) (c : Ctl) (s : State) :
    Out.Keeps s (execXreqRecover l c s) := by
  unfold execXreqRecover; simp

@[simp] theorem execXreqReset_keeps (l : Lane) (c : Ctl) (s : State) :
    Out.Keeps s (execXreqReset l c s) := by
  unfold execXreqReset; simp

@[simp] theorem State.userRecord_keeps (s : State) (t sev user : Nat) (stop : Bool) (c : Ctx) :
    s.Keeps (s.userRecord t sev user stop c) := by
  unfold State.userRecord; simp -implicitDefEqProofs

@[simp] theorem execWarn_keeps (l : Lane) (user : Byte) (s : State) : Out.Keeps s (execWarn l user s) := by unfold execWarn; simp

@[simp] theorem execFault_keeps (l : Lane) (user : Byte) (stop : Bool) (s : State) :
    Out.Keeps s (execFault l user stop s) := by
  unfold execFault; simp

@[simp] theorem execJmp_keeps (l : Lane) (target : BitVec 18) (s : State) :
    Out.Keeps s (execJmp l target s) := by
  unfold execJmp; simp

@[simp] theorem execJc_keeps (l : Lane) (target : BitVec 18) (s : State) :
    Out.Keeps s (execJc l target s) := by
  unfold execJc; simp

@[simp] theorem execJnc_keeps (l : Lane) (target : BitVec 18) (s : State) :
    Out.Keeps s (execJnc l target s) := by
  unfold execJnc; simp

@[simp] theorem execCall_keeps (l : Lane) (target : BitVec 18) (s : State) :
    Out.Keeps s (execCall l target s) := by
  unfold execCall; simp

@[simp] theorem execRet_keeps (l : Lane) (s : State) : Out.Keeps s (execRet l s) := by unfold execRet; simp

/-! ### Tasks (`Machine/Tasks.lean`) -/

@[simp] theorem State.emitSample_keeps (s : State) : s.Keeps s.emitSample := by unfold State.emitSample; simp
@[simp] theorem execSampleEmit_keeps (s : State) : Out.Keeps s (execSampleEmit s) := by unfold execSampleEmit; simp

@[simp] theorem execSampleLatch_keeps (n : Slot) (s : State) :
    Out.Keeps s (execSampleLatch n s) := by
  unfold execSampleLatch; simp -implicitDefEqProofs

@[simp] theorem State.answerQuery_keeps (s : State) (t : Nat) :
    s.Keeps (s.answerQuery t) := by
  unfold State.answerQuery; split <;> simp

@[simp] theorem State.bindOne_keeps (s : State) (t valid : Nat) (a : Act) (e : List Byte) :
    s.Keeps (s.bindOne t valid a e) := by
  unfold State.bindOne; simp

@[simp] theorem State.fillAct_keeps (s : State) (t : Nat) : s.Keeps (s.fillAct t) := by
  unfold State.fillAct; dsimp only; repeat' split
  all_goals simp

@[simp] theorem State.fillIfIn_keeps (s : State) (t : Nat) : s.Keeps (s.fillIfIn t) := by unfold State.fillIfIn; split <;> simp

@[simp] theorem State.skip_keeps (s : State) (t g : Nat) :
    s.Keeps (s.skip t g) := by
  unfold State.skip; split <;> simp -implicitDefEqProofs

@[simp] theorem State.startAct_keeps (s : State) (t g : Nat) : s.Keeps (s.startAct t g) := by unfold State.startAct; simp

@[simp] theorem State.applyRanges_keeps (s : State) : s.Keeps s.applyRanges := by
  unfold State.applyRanges
  generalize 1088 + (8 * (s.telsOf 1).length + 63) / 64 * 64 = n
  dsimp only
  induction s.belayRanges generalizing s n with
  | nil => exact ⟨rfl, rfl⟩
  | cons r rs ih => simpa using ih (s.outWrs (blkAddr r.1) (mslice 0 s.dup.set n (64 * r.2))) (n + 64 * r.2)

@[simp] theorem State.samplePoint_keeps (s : State) : s.Keeps s.samplePoint := by unfold State.samplePoint; simp

@[simp] theorem execInputDeadline_keeps (s : State) : Out.Keeps s (execInputDeadline s) := by
  unfold execInputDeadline
  split
  · simp
  · rw [Out.keeps_next]
    exact .foldl (fun s t => by split <;> simp) (by simp)

@[simp] theorem execRximgDone_keeps (wait : Nat) (s : State) : Out.Keeps s (execRximgDone wait s) := by
  unfold execRximgDone
  split
  · simp
  · rw [Out.keeps_next]
    exact .foldl (fun s t => by split <;> simp) (by simp)

@[simp] theorem State.pfDone_keeps (s : State) : s.Keeps s.pfDone := by unfold State.pfDone; simp
@[simp] theorem State.endTask_keeps (s : State) (t : Nat) : s.Keeps (s.endTask t) := by unfold State.endTask; split <;> simp
@[simp] theorem execEnd_keeps (l : Lane) (s : State) : Out.Keeps s (execEnd l s) := by unfold execEnd; simp
@[simp] theorem State.etAbandoned_keeps (s : State) (t : Nat) : s.Keeps (s.etAbandoned t) := by unfold State.etAbandoned; simp

@[simp] theorem execEtAbandon_keeps (t : Task) (s : State) :
    Out.Keeps s (execEtAbandon t s) := by
  unfold execEtAbandon; split <;> simp

@[simp] theorem execUserTimerTrigger_keeps (t : Task) (s : State) :
    Out.Keeps s (execUserTimerTrigger t s) := by
  unfold execUserTimerTrigger; simp

@[simp] theorem execXreqPark_keeps (l : Lane) (s : State) : Out.Keeps s (execXreqPark l s) := by unfold execXreqPark; simp

@[simp] theorem State.dropPairs_keeps (s : State) (stale : Bool) (data : List Byte) :
    s.Keeps (s.dropPairs stale data) := by
  unfold State.dropPairs; simp

@[simp] theorem execIlStale_keeps (s : State) : Out.Keeps s (execIlStale s) := by unfold execIlStale; split <;> simp

/-! ### Frames of the die links as they are received (`Machine/Links.lean`) -/

@[simp] theorem State.ctlNak_keeps (s : State) (n : Nat) : s.Keeps (s.ctlNak n) := by unfold State.ctlNak; simp
@[simp] theorem State.satNak_keeps (s : State) (n : Nat) : s.Keeps (s.satNak n) := by unfold State.satNak; simp

@[simp] theorem State.ctlDiscard_keeps (s : State) (n : Nat) (rest : List Frame) :
    s.Keeps (s.ctlDiscard n rest) := by
  unfold State.ctlDiscard; simp

@[simp] theorem State.satDiscard_keeps (s : State) (n : Nat) (rest : List Frame) :
    s.Keeps (s.satDiscard n rest) := by
  unfold State.satDiscard; simp

@[simp] theorem State.ctlTake_keeps (s : State) (n typ : Nat) (p : List Byte → Bool) (rx : Rx) (f : State → List Byte → Nat → State)
    (h : ∀ (s : State) p c, s.Keeps (f s p c)) :
    s.Keeps (s.ctlTake n typ p rx f) := by
  unfold State.ctlTake
  split <;> simp [h]

@[simp] theorem State.satTake_keeps (s : State) (n typ : Nat) (rx : Rx) (f : State → List Byte → State)
    (h : ∀ (s : State) p, s.Keeps (f s p)) :
    s.Keeps (s.satTake n typ rx f) := by
  unfold State.satTake
  split <;> simp [h]

@[simp] theorem execFrameAbort_keeps (n : Slot) (toSat : Bool) (s : State) : Out.Keeps s (execFrameAbort n toSat s) := by
  unfold execFrameAbort; dsimp only; repeat' split
  all_goals simp

@[simp] theorem State.linkDrop_keeps (s : State) (n typ : Nat) : s.Keeps (s.linkDrop n typ) := by unfold State.linkDrop; simp

@[simp] theorem State.nakTaken_keeps (s : State) (n e : Nat) (toSat : Bool) :
    s.Keeps (s.nakTaken n e toSat) := by
  unfold State.nakTaken; dsimp only; split <;> simp

@[simp] theorem execNak_keeps (n : Slot) (toSat : Bool) (rx : Rx) (s : State) :
    Out.Keeps s (execNak n toSat rx s) := by
  unfold execNak; simp

@[simp] theorem execStage_keeps (n : Slot) (rx : Rx) (s : State) : Out.Keeps s (execStage n rx s) := by unfold execStage; simp
@[simp] theorem execResync_keeps (n : Slot) (rx : Rx) (s : State) : Out.Keeps s (execResync n rx s) := by unfold execResync; simp
@[simp] theorem State.leaveStandby_keeps (s : State) (n : Nat) : s.Keeps (s.leaveStandby n) := by unfold State.leaveStandby; simp

@[simp] theorem execAck_keeps (n : Slot) (rx : Rx) (s : State) : Out.Keeps s (execAck n rx s) := by
  unfold execAck
  rw [Out.keeps_next]
  exact State.ctlTake_keeps (h := fun s p _ => by dsimp only; split <;> simp) ..

@[simp] theorem execStageResend_keeps (n : Slot) (s : State) : Out.Keeps s (execStageResend n s) := by
  unfold execStageResend; dsimp only; repeat' split
  all_goals simp

@[simp] theorem execAckDeadline_keeps (n : Slot) (s : State) :
    Out.Keeps s (execAckDeadline n s) := by
  unfold execAckDeadline; simp

@[simp] theorem execStageDiscard_keeps (n : Slot) (s : State) :
    Out.Keeps s (execStageDiscard n s) := by
  unfold execStageDiscard; dsimp only; split <;> simp -implicitDefEqProofs

@[simp] theorem State.doorGap_keeps (s : State) (n : Nat) : s.Keeps (s.doorGap n) := by unfold State.doorGap; simp

@[simp] theorem execCommitApply_keeps (n : Slot) (s : State) :
    Out.Keeps s (execCommitApply n s) := by
  unfold execCommitApply; simp -implicitDefEqProofs

@[simp] theorem execConfirm_keeps (n : Slot) (rx : Rx) (s : State) :
    Out.Keeps s (execConfirm n rx s) := by
  unfold execConfirm; simp

@[simp] theorem State.confirmEnd_keeps (s : State) : s.Keeps s.confirmEnd := by unfold State.confirmEnd; simp -implicitDefEqProofs
@[simp] theorem State.ackEnd_keeps (s : State) : s.Keeps s.ackEnd := by unfold State.ackEnd; simp
@[simp] theorem execConfirmDeadline_keeps (s : State) : Out.Keeps s (execConfirmDeadline s) := by unfold execConfirmDeadline; simp
@[simp] theorem State.relPulse_keeps (s : State) : s.Keeps s.relPulse := by unfold State.relPulse; simp
@[simp] theorem State.notePairs_keeps (s : State) : s.Keeps s.notePairs := by unfold State.notePairs; simp
@[simp] theorem execPublish_keeps (s : State) : Out.Keeps s (execPublish s) := by unfold execPublish; simp
@[simp] theorem execSyncSend_keeps (s : State) : Out.Keeps s (execSyncSend s) := by unfold execSyncSend; simp -implicitDefEqProofs
@[simp] theorem execSync_keeps (n : Slot) (rx : Rx) (s : State) : Out.Keeps s (execSync n rx s) := by unfold execSync; simp

@[simp] theorem State.flushHeld_keeps (s : State) (n : Nat) : s.Keeps (s.flushHeld n) := by
  unfold State.flushHeld
  split
  · simp
  · split
    · exact State.each_keeps fun s k => by dsimp only; split <;> simp
    · split
      · refine (State.each_keeps fun s c => by split <;> simp).imp (·.trans ?_) (·.trans ?_) <;> simp
      · simp

@[simp] theorem execLinkUp_keeps (n : Slot) (s : State) : Out.Keeps s (execLinkUp n s) := by unfold execLinkUp; simp
@[simp] theorem State.linkFall_keeps (s : State) (n : Nat) : s.Keeps (s.linkFall n) := by unfold State.linkFall; simp
@[simp] theorem execLinkDown_keeps (n : Slot) (s : State) : Out.Keeps s (execLinkDown n s) := by unfold execLinkDown; simp

@[simp] theorem execLinkRetrain_keeps (n : Slot) (s : State) :
    Out.Keeps s (execLinkRetrain n s) := by
  unfold execLinkRetrain; simp

@[simp] theorem execProbe_keeps (n : Slot) (rx : Rx) (s : State) : Out.Keeps s (execProbe n rx s) := by unfold execProbe; simp

@[simp] theorem State.measured16_keeps (s : State) (n : Nat) :
    s.Keeps (s.measured16 n) := by
  unfold State.measured16; simp -implicitDefEqProofs

@[simp] theorem execEcho_keeps (n : Slot) (rx : Rx) (rtt : Nat) (s : State) :
    Out.Keeps s (execEcho n rx rtt s) := by
  unfold execEcho; simp

@[simp] theorem execLatencyRemeasure_keeps (n : Slot) (s : State) :
    Out.Keeps s (execLatencyRemeasure n s) := by
  unfold execLatencyRemeasure; simp

@[simp] theorem execLatencyExclude_keeps (n : Slot) (s : State) :
    Out.Keeps s (execLatencyExclude n s) := by
  unfold execLatencyExclude; split <;> simp -implicitDefEqProofs

@[simp] theorem execRegWr_keeps (n : Slot) (rx : Rx) (s : State) : Out.Keeps s (execRegWr n rx s) := by unfold execRegWr; simp
@[simp] theorem execRegRd_keeps (n : Slot) (rx : Rx) (s : State) : Out.Keeps s (execRegRd n rx s) := by unfold execRegRd; simp

@[simp] theorem execRegRsp_keeps (n : Slot) (rx : Rx) (s : State) : Out.Keeps s (execRegRsp n rx s) := by
  unfold execRegRsp
  rw [Out.keeps_next]
  exact State.ctlTake_keeps (h := fun s p _ => by split <;> simp) ..

@[simp] theorem execRegAccessTimeout_keeps (n : Slot) (s : State) :
    Out.Keeps s (execRegAccessTimeout n s) := by
  unfold execRegAccessTimeout; split <;> simp -implicitDefEqProofs

@[simp] theorem State.doorEventIn_keeps (s : State) (k ev st cause safe : Nat) :
    s.Keeps (s.doorEventIn k ev st cause safe) := by
  unfold State.doorEventIn; simp

@[simp] theorem State.loadEventIn_keeps (s : State) (n c ev : Nat) (p : List Byte) :
    s.Keeps (s.loadEventIn n c ev p) := by
  unfold State.loadEventIn; simp

@[simp] theorem State.fieldEventIn_keeps (s : State) (f c ev : Nat) (level : Bool) :
    s.Keeps (s.fieldEventIn f c ev level) := by
  unfold State.fieldEventIn; simp

@[simp] theorem execEvent_keeps (n : Slot) (rx : Rx) (s : State) : Out.Keeps s (execEvent n rx s) := by unfold execEvent; simp

@[simp] theorem State.stReadBack_keeps (s : State) (n : Nat) (b : List Byte) :
    s.Keeps (s.stReadBack n b) := by
  unfold State.stReadBack; simp

@[simp] theorem State.stLoads_keeps (s : State) (n : Nat) (b : List Byte) :
    s.Keeps (s.stLoads n b) := by
  unfold State.stLoads; simp

@[simp] theorem execInput_keeps (n : Slot) (rx : Rx) (s : State) : Out.Keeps s (execInput n rx s) := by
  unfold execInput
  rw [Out.keeps_next]
  refine State.ctlTake_keeps (h := fun s p _ => ?_) ..
  dsimp only
  split
  · simp
  · simp only [State.stageNow_keeps, State.Keeps]
    exact State.Keeps.foldl (fun s t => by split <;> simp) (by simp)

@[simp] theorem execTrace_keeps (n : Slot) (rx : Rx) (s : State) : Out.Keeps s (execTrace n rx s) := by unfold execTrace; simp

@[simp] theorem State.profTake_keeps (s : State) (k dir : Nat) (adapted : Bool) (vals : List Byte) :
    s.Keeps (s.profTake k dir adapted vals) := by
  unfold State.profTake; simp

@[simp] theorem execProfileFrame_keeps (n : Slot) (rx : Rx) (s : State) :
    Out.Keeps s (execProfileFrame n rx s) := by
  unfold execProfileFrame; simp

@[simp] theorem execLedgerStateFrame_keeps (n : Slot) (rx : Rx) (s : State) :
    Out.Keeps s (execLedgerStateFrame n rx s) := by
  unfold execLedgerStateFrame; simp

/-! ### Memory errors (`Machine/Recorder.lean`) -/

@[simp] theorem State.eccCe_keeps (s : State) (a : Nat) : s.Keeps (s.eccCe a) := by unfold State.eccCe; simp

@[simp] theorem execEccWriteback_keeps (b : Fin 6) (addr : Word) (overwritten : Bool) (s : State) :
    Out.Keeps s (execEccWriteback b addr overwritten s) := by
  unfold execEccWriteback; simp

@[simp] theorem execCeAlarmClear_keeps (s : State) :
    Out.Keeps s (execCeAlarmClear s) := by
  unfold execCeAlarmClear; simp -implicitDefEqProofs

@[simp] theorem State.badWord_keeps (s : State) (a : Nat) : s.Keeps (s.badWord a) := by unfold State.badWord; simp
@[simp] theorem State.zeroBlock_keeps (s : State) (a : Nat) : s.Keeps (s.zeroBlock a) := by unfold State.zeroBlock; simp
@[simp] theorem State.slotBad_keeps (s : State) (i : Nat) : s.Keeps (s.slotBad i) := by unfold State.slotBad; simp
@[simp] theorem State.overlayBad_keeps (s : State) (a : Nat) : s.Keeps (s.overlayBad a) := by unfold State.overlayBad; simp
@[simp] theorem State.ueAct_keeps (s : State) (a : Nat) : s.Keeps (s.ueAct a) := by unfold State.ueAct; simp

@[simp] theorem execScrub_keeps (ce ue : List Word) (s : State) : Out.Keeps s (execScrub ce ue s) := by
  unfold execScrub
  split
  · simp
  · extract_lets ok s₁ s₂ s₃
    have h₁ : s.Keeps s₁ := foldl_keeps fun s w => s.eccCe_keeps w.toNat
    have h₂ : s.Keeps s₂ := h₁.trans <| foldl_keeps fun s w => (s.eccUe_keeps w.toNat).trans (State.ueAct_keeps _ _)
    have h₃ : s.Keeps s₃ := h₂.trans <| by simp [s₃]
    exact Out.keeps_next.2 h₃

@[simp] theorem execFillDone_keeps (b : Fin 5) (s : State) : Out.Keeps s (execFillDone b s) := by unfold execFillDone; simp

@[simp] theorem execRefresh_keeps (addr : Word) (corrected passEnd : Bool) (s : State) :
    Out.Keeps s (execRefresh addr corrected passEnd s) := by
  unfold execRefresh; simp

@[simp] theorem execCairnWrite_keeps (s : State) : Out.Keeps s (execCairnWrite s) := by unfold execCairnWrite; simp
@[simp] theorem State.cairnFind_keeps (s : State) : s.Keeps s.cairnFind := by unfold State.cairnFind; simp

@[simp] theorem execTokenRefill_keeps (code : BitVec 10) (s : State) :
    Out.Keeps s (execTokenRefill code s) := by
  unfold execTokenRefill; simp -implicitDefEqProofs

@[simp] theorem State.opSave_keeps (s : State) : s.Keeps s.opSave := by unfold State.opSave; simp

@[simp] theorem execOpCountSave_keeps (s : State) :
    Out.Keeps s (execOpCountSave s) := by
  unfold execOpCountSave; simp -implicitDefEqProofs

@[simp] theorem State.profStore_keeps (s : State) (k : Nat) :
    s.Keeps (s.profStore k) := by
  unfold State.profStore; simp -implicitDefEqProofs

@[simp] theorem execProfileStore_keeps (k : DCh) (s : State) :
    Out.Keeps s (execProfileStore k s) := by
  unfold execProfileStore; simp

/-! ### Reload of an excluded lane (`Machine/Voter.lean`) -/

@[simp] theorem State.haltLaneA_keeps (s : State) : s.Keeps s.haltLaneA := by unfold State.haltLaneA; simp
@[simp] theorem State.dbgAttach_keeps (s : State) : s.Keeps s.dbgAttach := by unfold State.dbgAttach; simp
@[simp] theorem execLaneRejoin_keeps (l : Lane) (s : State) : Out.Keeps s (execLaneRejoin l s) := by unfold execLaneRejoin; simp

@[simp] theorem execVoterSelftest_keeps (sound : Bool) (flags : Option (Lane × Fin 12)) (s : State) :
    Out.Keeps s (execVoterSelftest sound flags s) := by
  unfold execVoterSelftest; simp -implicitDefEqProofs

@[simp] theorem State.dbgRun1_keeps (s : State) : s.Keeps s.dbgRun1.2 := by unfold State.dbgRun1; split <;> simp

@[simp] theorem State.dbgFollow_keeps (s : State) (k : Nat) (m : Nat) : s.Keeps (s.dbgFollow k m) := by
  induction k generalizing s m with
  | zero => exact ⟨rfl, rfl⟩
  | succ f ih => unfold State.dbgFollow; simp [ih]

@[simp] theorem State.dbgNow_keeps (s : State) : s.Keeps s.dbgNow := by unfold State.dbgNow; simp
@[simp] theorem State.dbgHaltNow_keeps (s : State) : s.Keeps s.dbgHaltNow := by unfold State.dbgHaltNow; simp
@[simp] theorem State.dbgStepNow_keeps (s : State) : s.Keeps s.dbgStepNow := by unfold State.dbgStepNow; simp
@[simp] theorem State.dbgResumeNow_keeps (s : State) : s.Keeps s.dbgResumeNow := by unfold State.dbgResumeNow; simp

@[simp] theorem State.dbgReg_keeps (s : State) (r : DbgReg) (wr : Option Word) : s.Keeps (s.dbgReg r wr) := by
  unfold State.dbgReg; dsimp only; repeat' split
  all_goals simp

@[simp] theorem State.dbgMem_keeps (s : State) (addr : Nat) (wr : Option Word) : s.Keeps (s.dbgMem addr wr) := by
  unfold State.dbgMem; dsimp only; repeat' split
  all_goals simp -implicitDefEqProofs

@[simp] theorem State.dbgWaited_keeps (s : State) : s.Keeps s.dbgWaited := by unfold State.dbgWaited; simp

@[simp] theorem State.dbgEntry_keeps (s : State) (i : Nat) : s.Keeps (s.dbgEntry i) := by
  unfold State.dbgEntry; dsimp only; repeat' split
  all_goals simp

/-! ### Checkpoints (`Machine/Power.lean`) -/

@[simp] theorem State.ckWrite_keeps (s : State) (c : Ckpt) : s.Keeps (s.ckWrite c) := by unfold State.ckWrite; simp
@[simp] theorem State.ckCut_keeps (s : State) (flags : Nat) : s.Keeps (s.ckCut flags) := by unfold State.ckCut; simp
@[simp] theorem execCheckpointCut_keeps (s : State) : Out.Keeps s (execCheckpointCut s) := by unfold execCheckpointCut; simp
@[simp] theorem State.ckDone_keeps (s : State) (c : Ckpt) : s.Keeps (s.ckDone c) := by unfold State.ckDone; simp

@[simp] theorem execCheckpointComplete_keeps (ns : Nat) (s : State) :
    Out.Keeps s (execCheckpointComplete ns s) := by
  unfold execCheckpointComplete; split <;> simp

@[simp] theorem State.aonTime_keeps (s : State) : s.Keeps s.aonTime := by unfold State.aonTime; simp

@[simp] theorem State.landViews_keeps (s old : State) :
    s.Keeps (s.landViews old) := by
  unfold State.landViews; simp -implicitDefEqProofs

@[simp] theorem State.resetLost_keeps (s old : State) : s.Keeps (s.resetLost old) := by unfold State.resetLost; simp

@[simp] theorem State.restart_keeps (s : State) (prev trig : Nat) (cold por : Bool) :
    s.Keeps (s.restart prev trig cold por) := by
  unfold State.restart; simp

@[simp] theorem State.deviceReset_keeps (s : State) (cause : Nat) (prev : Nat) :
    s.Keeps (s.deviceReset cause prev) := by
  unfold State.deviceReset; simp -implicitDefEqProofs

@[simp] theorem execPfail_keeps (s : State) : Out.Keeps s (execPfail s) := by unfold execPfail; simp
@[simp] theorem execPin_keeps (s : State) : Out.Keeps s (execPin s) := by unfold execPin; simp
@[simp] theorem execResetNRelease_keeps (s : State) : Out.Keeps s (execResetNRelease s) := by unfold execResetNRelease; simp
@[simp] theorem execWdt_keeps (s : State) : Out.Keeps s (execWdt s) := by unfold execWdt; simp

@[simp] theorem execSchedulerTick_keeps (s : State) :
    Out.Keeps s (execSchedulerTick s) := by
  unfold execSchedulerTick; simp -implicitDefEqProofs

@[simp] theorem execParkEntry_keeps (s : State) : Out.Keeps s (execParkEntry s) := by unfold execParkEntry; simp

@[simp] theorem State.wakeBy_keeps (s : State) (src : Nat) :
    s.Keeps (s.wakeBy src) := by
  unfold State.wakeBy; simp -implicitDefEqProofs

@[simp] theorem execWake_keeps (s : State) : Out.Keeps s (execWake s) := by unfold execWake; simp
@[simp] theorem execCanWake_keeps (c : Ctl) (s : State) : Out.Keeps s (execCanWake c s) := by unfold execCanWake; simp
@[simp] theorem execAonWake_keeps (s : State) : Out.Keeps s (execAonWake s) := by unfold execAonWake; simp -implicitDefEqProofs

@[simp] theorem State.keepReady_keeps (s : State) :
    s.Keeps s.keepReady := by
  unfold State.keepReady; split <;> simp -implicitDefEqProofs

@[simp] theorem execKeepBanksReady_keeps (s : State) : Out.Keeps s (execKeepBanksReady s) := by unfold execKeepBanksReady; simp
@[simp] theorem execVlLow_keeps (vl : BitVec 16) (s : State) : Out.Keeps s (execVlLow vl s) := by unfold execVlLow; simp

@[simp] theorem execPfWarn_keeps (s : State) : Out.Keeps s (execPfWarn s) := by
  unfold execPfWarn; dsimp only; repeat' split
  all_goals simp

@[simp] theorem execPfTaskDeadline_keeps (s : State) : Out.Keeps s (execPfTaskDeadline s) := by
  unfold execPfTaskDeadline
  rw [Out.keeps_next]
  split
  · split <;> simp -implicitDefEqProofs
  · simp

@[simp] theorem execPfCommit_keeps (s : State) : Out.Keeps s (execPfCommit s) := by unfold execPfCommit; simp
@[simp] theorem execPfClaimWithdraw_keeps (s : State) : Out.Keeps s (execPfClaimWithdraw s) := by unfold execPfClaimWithdraw; simp
@[simp] theorem State.cairnLoad_keeps (s : State) : s.Keeps s.cairnLoad := by unfold State.cairnLoad; simp -implicitDefEqProofs
@[simp] theorem State.pfFlush_keeps (s : State) : s.Keeps s.pfFlush := by unfold State.pfFlush; simp
@[simp] theorem State.pfRecords_keeps (s : State) (us : Nat) : s.Keeps (s.pfRecords us) := by unfold State.pfRecords; simp

@[simp] theorem State.pfHold_keeps (s : State) (us : Nat) (saved : Bool) :
    s.Keeps (s.pfHold us saved) := by
  unfold State.pfHold; simp

@[simp] theorem execSaved_keeps (s : State) : Out.Keeps s (execSaved s) := by unfold execSaved; split <;> simp

@[simp] theorem execSaveAborted_keeps (s : State) :
    Out.Keeps s (execSaveAborted s) := by
  unfold execSaveAborted; split <;> simp -implicitDefEqProofs

@[simp] theorem execDiePowerUp_keeps (n : Slot) (s : State) : Out.Keeps s (execDiePowerUp n s) := by unfold execDiePowerUp; simp

/-! ### The boot ROM (`Machine/Boot.lean`) -/

@[simp] theorem State.flashOpen_keeps (s : State) : s.Keeps s.flashOpen := by unfold State.flashOpen; simp
@[simp] theorem State.flashClose_keeps (s : State) : s.Keeps s.flashClose := by unfold State.flashClose; simp

@[simp] theorem State.takeImage_keeps (s : State) (rd : Nat → Nat → List Byte) :
    s.Keeps (s.takeImage rd) := by
  unfold State.takeImage; simp

@[simp] theorem State.selectImage_keeps (s : State) : s.Keeps s.selectImage.1 := by
  unfold State.selectImage
  dsimp only
  split
  · split <;> simp
  · repeat' split
    all_goals simp

@[simp] theorem State.configRegs_keeps (s : State) : s.Keeps s.configRegs := by unfold State.configRegs; simp -implicitDefEqProofs

@[simp] theorem State.readImage_keeps (s : State) : s.Keeps s.readImage.1 := by
  unfold State.readImage
  dsimp only
  split
  · simp
  · split <;> simp

@[simp] theorem State.progRecord_keeps (s : State) (e : BootFail) : s.Keeps (s.progRecord e) := by
  unfold State.progRecord
  split
  · split <;> simp
  · simp

@[simp] theorem State.reconfigure_keeps (s : State) (n : Nat) : s.Keeps (s.reconfigure n) := by unfold State.reconfigure; simp
@[simp] theorem State.takeIn_keeps (s : State) (n : Nat) : s.Keeps (s.takeIn n) := by unfold State.takeIn; simp

@[simp] theorem State.configDies_keeps (s : State) (bad : Nat) (k : List Nat) : s.Keeps (s.configDies bad k).1 := by
  induction k generalizing s with
  | nil => exact ⟨rfl, rfl⟩
  | cons n t ih => unfold State.configDies; repeat' split
                   all_goals simp [ih]

@[simp] theorem State.dropSlots_keeps (s : State) : s.Keeps s.dropSlots := by unfold State.dropSlots; simp
@[simp] theorem State.settleSlots_keeps (s : State) : s.Keeps s.settleSlots := by unfold State.settleSlots; simp
@[simp] theorem State.placePrograms_keeps (s : State) : s.Keeps s.placePrograms := by unfold State.placePrograms; simp

@[simp] theorem State.placeVerified_keeps (s : State) : s.Keeps s.placeVerified := by
  unfold State.placeVerified; dsimp only; repeat' split
  all_goals simp

@[simp] theorem State.fillArea_keeps (s : State) (area base n : Nat) :
    s.Keeps (s.fillArea area base n) := by
  unfold State.fillArea; simp

@[simp] theorem State.setKinds_keeps (s : State) : s.Keeps s.setKinds := by unfold State.setKinds; simp
@[simp] theorem State.dataInit_keeps (s : State) : s.Keeps s.dataInit := by unfold State.dataInit; simp

@[simp] theorem State.carryBack_keeps (s : State) (prob : List SetEntry) (carried : Nat) :
    s.Keeps (s.carryBack prob carried) := State.each_keeps fun s t => by split <;> simp

@[simp] theorem State.unseed_keeps (s : State) : s.Keeps s.unseed := by unfold State.unseed; simp

@[simp] theorem State.applyOverlay_keeps (s : State) (gen : Option Nat) (skipM : Bool) : s.Keeps (s.applyOverlay gen skipM) := by
  unfold State.applyOverlay
  simp -implicitDefEqProofs only [State.Keeps, State.fput_board, State.fput_pending, State.fset_board, State.fset_pending]
  exact State.Keeps.each (fun s i => by split <;> simp) (by simp)

@[simp] theorem State.restorePubs_keeps (s : State) (slot : Option Nat) :
    s.Keeps (s.restorePubs slot) := by
  unfold State.restorePubs; simp

@[simp] theorem State.loadProfile_keeps (s : State) (k : Nat) : s.Keeps (s.loadProfile k) := by unfold State.loadProfile; simp
@[simp] theorem State.loadProfiles_keeps (s : State) : s.Keeps s.loadProfiles := by unfold State.loadProfiles; simp
@[simp] theorem State.countCycle_keeps (s : State) : s.Keeps s.countCycle := by unfold State.countCycle; simp

@[simp] theorem State.settleMram_keeps (s : State) (img : Image) : s.Keeps (s.settleMram img) := by
  unfold State.settleMram; dsimp only; repeat' split
  all_goals simp -implicitDefEqProofs

@[simp] theorem State.setWin_keeps (s : State) (q w : Nat) (e : Nat × Nat × Nat) :
    s.Keeps (s.setWin q w e) := by
  unfold State.setWin; simp

@[simp] theorem State.lockWindows_keeps (s : State) : s.Keeps s.lockWindows := by unfold State.lockWindows; split <;> simp

@[simp] theorem State.bootFail_keeps (s : State) (step : Nat) (e : BootFail) :
    s.Keeps (s.bootFail step e) := by
  unfold State.bootFail; simp

@[simp] theorem State.scrubKept_keeps (s : State) : s.Keeps s.scrubKept := by unfold State.scrubKept; simp
@[simp] theorem State.fillBanks_keeps (s : State) (fail : Nat) : s.Keeps (s.fillBanks fail).1 := by unfold State.fillBanks; simp
@[simp] theorem State.setLanes_keeps (s : State) : s.Keeps s.setLanes := by unfold State.setLanes; simp
@[simp] theorem State.bootDone_keeps (s : State) : s.Keeps s.bootDone := by unfold State.bootDone; simp

@[simp] theorem execEnumLinkTimeout_keeps (n : Slot) (s : State) :
    Out.Keeps s (execEnumLinkTimeout n s) := by
  unfold execEnumLinkTimeout; simp -implicitDefEqProofs

@[simp] theorem State.adopt_keeps (s : State) : s.Keeps s.adopt := by unfold State.adopt; simp

@[simp] theorem State.shiftTimers_keeps (s : State) (d : Int) :
    s.Keeps (s.shiftTimers d) := by
  unfold State.shiftTimers; simp -implicitDefEqProofs

@[simp] theorem State.bootEnd_keeps (s : State) : s.Keeps s.bootEnd := by unfold State.bootEnd; simp
@[simp] theorem execSamplePoint_keeps (s : State) : Out.Keeps s (execSamplePoint s) := by unfold execSamplePoint; simp

@[simp] theorem execShadowCopy_keeps (complete : Bool) (s : State) :
    Out.Keeps s (execShadowCopy complete s) := by
  unfold execShadowCopy; split <;> simp -implicitDefEqProofs

/-! ### The test access port (`Machine/Test.lean`) -/

@[simp] theorem State.jtagReset_keeps (s : State) : s.Keeps s.jtagReset := by unfold State.jtagReset; simp

@[simp] theorem State.select_keeps (s : State) (ir : Nat) (tdo : List Byte) :
    s.Keeps (s.select ir tdo) := by
  unfold State.select; simp

@[simp] theorem State.bypassed_keeps (s : State) : s.Keeps s.bypassed := by unfold State.bypassed; simp

@[simp] theorem execExtest_keeps (cells capture : List Byte) (s : State) :
    Out.Keeps s (execExtest cells capture s) := by
  unfold execExtest; simp

@[simp] theorem execSamplePreload_keeps (cells capture : List Byte) (s : State) :
    Out.Keeps s (execSamplePreload cells capture s) := by
  unfold execSamplePreload; simp

@[simp] theorem execIdcode_keeps (s : State) : Out.Keeps s (execIdcode s) := by unfold execIdcode; simp
@[simp] theorem execClamp_keeps (s : State) : Out.Keeps s (execClamp s) := by unfold execClamp; simp
@[simp] theorem execHighz_keeps (s : State) : Out.Keeps s (execHighz s) := by unfold execHighz; simp
@[simp] theorem execSysreset_keeps (s : State) : Out.Keeps s (execSysreset s) := by unfold execSysreset; simp

@[simp] theorem State.debug_keeps (s : State) (attach : Bool) (f : State → State) (h : ∀ s : State, s.Keeps (f s)) :
    Out.Keeps s (s.debug attach f) := by
  unfold State.debug
  simp [h]

@[simp] theorem execDbgAttach_keeps (s : State) : Out.Keeps s (execDbgAttach s) := by unfold execDbgAttach; simp
@[simp] theorem execDbgHalt_keeps (s : State) : Out.Keeps s (execDbgHalt s) := by unfold execDbgHalt; simp
@[simp] theorem execDbgStep_keeps (s : State) : Out.Keeps s (execDbgStep s) := by unfold execDbgStep; simp
@[simp] theorem execDbgResume_keeps (s : State) : Out.Keeps s (execDbgResume s) := by unfold execDbgResume; simp

@[simp] theorem execDbgRegAccess_keeps (r : DbgReg) (wr : Option Word) (s : State) :
    Out.Keeps s (execDbgRegAccess r wr s) := by
  unfold execDbgRegAccess; simp

@[simp] theorem execDbgMemAccess_keeps (addr : Word) (wr : Option Word) (s : State) :
    Out.Keeps s (execDbgMemAccess addr wr s) := by
  unfold execDbgMemAccess; simp

@[simp] theorem execDbgBufferRead_keeps (i : Fin 64) (s : State) :
    Out.Keeps s (execDbgBufferRead i s) := by
  unfold execDbgBufferRead; simp

@[simp] theorem execFuseRead_keeps (s : State) : Out.Keeps s (execFuseRead s) := by unfold execFuseRead; simp

@[simp] theorem execMbistRun_keeps (fail : BitVec 5) (s : State) :
    Out.Keeps s (execMbistRun fail s) := by
  unfold execMbistRun; simp

@[simp] theorem execLbistRun_keeps (fail : BitVec 3) (s : State) :
    Out.Keeps s (execLbistRun fail s) := by
  unfold execLbistRun; simp

@[simp] theorem execScanTest_keeps (s : State) : Out.Keeps s (execScanTest s) := by unfold execScanTest; simp
@[simp] theorem execBypass_keeps (s : State) : Out.Keeps s (execBypass s) := by unfold execBypass; simp
@[simp] theorem execTestLogicReset_keeps (s : State) : Out.Keeps s (execTestLogicReset s) := by unfold execTestLogicReset; simp

/-! ### Seats (`Machine/Claim.lean`) -/

@[simp] theorem execPeerReleaseIn_keeps (s : State) : Out.Keeps s (execPeerReleaseIn s) := by unfold execPeerReleaseIn; simp

@[simp] theorem execPeerReleaseInNegate_keeps (s : State) :
    Out.Keeps s (execPeerReleaseInNegate s) := by
  unfold execPeerReleaseInNegate; simp

@[simp] theorem State.setClaimIn_keeps (s : State) (b : Bool) :
    s.Keeps (s.setClaimIn b) := by
  unfold State.setClaimIn; simp -implicitDefEqProofs

@[simp] theorem State.claimInFall_keeps (s : State) : s.Keeps s.claimInFall := by unfold State.claimInFall; simp
@[simp] theorem State.claimStart_keeps (s : State) (t : Bool) : s.Keeps (s.claimStart t) := by unfold State.claimStart; simp

@[simp] theorem execBootClaim_keeps (s : State) :
    Out.Keeps s (execBootClaim s) := by
  unfold execBootClaim; simp -implicitDefEqProofs

@[simp] theorem execTakeover_keeps (s : State) : Out.Keeps s (execTakeover s) := by unfold execTakeover; simp -implicitDefEqProofs

@[simp] theorem execClaimInAssert_keeps (s : State) : Out.Keeps s (execClaimInAssert s) := by
  unfold execClaimInAssert; dsimp only; repeat' split
  all_goals simp

@[simp] theorem execClaimConflict_keeps (stuck : Bool) (s : State) :
    Out.Keeps s (execClaimConflict stuck s) := by
  unfold execClaimConflict; simp -implicitDefEqProofs

@[simp] theorem execClaimAbandoned_keeps (s : State) :
    Out.Keeps s (execClaimAbandoned s) := by
  unfold execClaimAbandoned; split <;> simp -implicitDefEqProofs

@[simp] theorem execClaimLapse_keeps (s : State) :
    Out.Keeps s (execClaimLapse s) := by
  unfold execClaimLapse; simp -implicitDefEqProofs

@[simp] theorem execPeerReleaseEnd_keeps (s : State) :
    Out.Keeps s (execPeerReleaseEnd s) := by
  unfold execPeerReleaseEnd; split <;> simp -implicitDefEqProofs

@[simp] theorem execClaimGateClear_keeps (s : State) :
    Out.Keeps s (execClaimGateClear s) := by
  unfold execClaimGateClear; simp -implicitDefEqProofs

@[simp] theorem State.takeOuts_keeps (s : State) : s.Keeps s.takeOuts := by unfold State.takeOuts; simp
@[simp] theorem State.dropShadow_keeps (s : State) (n o : Nat) : s.Keeps (s.dropShadow n o) := by unfold State.dropShadow; simp
@[simp] theorem State.sendShadow_keeps (s : State) (k : Nat) : s.Keeps (s.sendShadow k) := by unfold State.sendShadow; simp

@[simp] theorem State.pubsTaken_keeps (s : State) (mirrored : Bool) :
    s.Keeps (s.pubsTaken mirrored) := by
  unfold State.pubsTaken; simp

@[simp] theorem State.takeLedger_keeps (s : State) : s.Keeps s.takeLedger := State.each_keeps fun s k => by split <;> simp

@[simp] theorem execClaimSettle_keeps (s : State) :
    Out.Keeps s (execClaimSettle s) := by
  unfold execClaimSettle; split <;> simp -implicitDefEqProofs

/-! ### The Rope link (`Machine/Duplex.lean`) -/

@[simp] theorem State.ropeTake_keeps (s : State) (rx : Rx) (f : State → State) (lost : State → State)
    (h : ∀ s : State, s.Keeps (f s)) (hl : ∀ s : State, s.Keeps (lost s)) :
    s.Keeps (s.ropeTake rx f lost) := by
  unfold State.ropeTake
  simp [h, hl]

@[simp] theorem State.ropeProbe_keeps (s : State) : s.Keeps s.ropeProbe := by unfold State.ropeProbe; simp
@[simp] theorem State.askFull_keeps (s : State) : s.Keeps s.askFull := by unfold State.askFull; simp
@[simp] theorem State.belayLost_keeps (s : State) : s.Keeps s.belayLost := by unfold State.belayLost; simp
@[simp] theorem execRopeUp_keeps (lat : BitVec 12) (s : State) : Out.Keeps s (execRopeUp lat s) := by unfold execRopeUp; simp
@[simp] theorem execRopeDown_keeps (s : State) : Out.Keeps s (execRopeDown s) := by unfold execRopeDown; simp

@[simp] theorem execRopeDegraded_keeps (lane : Fin 2) (s : State) :
    Out.Keeps s (execRopeDegraded lane s) := by
  unfold execRopeDegraded; simp

@[simp] theorem execRopeRestore_keeps (s : State) : Out.Keeps s (execRopeRestore s) := by unfold execRopeRestore; simp

@[simp] theorem execRopeNak_keeps (rx : Rx) (seq : BitVec 16) (s : State) : Out.Keeps s (execRopeNak rx seq s) := by
  unfold execRopeNak
  rw [Out.keeps_next]
  exact State.ropeTake_keeps (h := fun s => by split <;> simp) (hl := by simp) ..

@[simp] theorem execRopeProbe_keeps (rx : Rx) (tag : Word) (s : State) :
    Out.Keeps s (execRopeProbe rx tag s) := by
  unfold execRopeProbe; simp

@[simp] theorem execRopeEcho_keeps (rx : Rx) (rtt : Nat) (s : State) :
    Out.Keeps s (execRopeEcho rx rtt s) := by
  unfold execRopeEcho; simp

@[simp] theorem State.healthAge_keeps (s : State) :
    s.Keeps s.healthAge := by
  unfold State.healthAge; dsimp only; split <;> simp -implicitDefEqProofs

@[simp] theorem execHbSend_keeps (s : State) : Out.Keeps s (execHbSend s) := by
  obtain ⟨dev, hd⟩ : ∃ f, f = State.toDev := ⟨_, rfl⟩
  have h (s : State) (t : Nat) : s.Keeps (dev s t) := by simp [hd]
  unfold execHbSend
  rw [← hd]
  simp -implicitDefEqProofs [h]

@[simp] theorem State.stepTime_keeps (s : State) (t : Nat) : s.Keeps (s.stepTime t) := by unfold State.stepTime; simp
@[simp] theorem State.followTime_keeps (s : State) (f : HbFrame) : s.Keeps (s.followTime f) := by unfold State.followTime; simp

@[simp] theorem State.compareImages_keeps (s : State) (f : HbFrame) :
    s.Keeps (s.compareImages f) := by
  unfold State.compareImages; simp -implicitDefEqProofs

@[simp] theorem State.syncChanges_keeps (s : State) (f : HbFrame) : s.Keeps (s.syncChanges f) := by unfold State.syncChanges; simp
@[simp] theorem State.peerModeSeen_keeps (s : State) (m : Nat) : s.Keeps (s.peerModeSeen m) := by unfold State.peerModeSeen; simp
@[simp] theorem execHb_keeps (rx : Rx) (f : HbFrame) (s : State) : Out.Keeps s (execHb rx f s) := by unfold execHb; simp
@[simp] theorem execPeerLost_keeps (s : State) : Out.Keeps s (execPeerLost s) := by unfold execPeerLost; simp -implicitDefEqProofs
@[simp] theorem State.belayLog_keeps (s : State) (p : List Byte) : s.Keeps (s.belayLog p) := by unfold State.belayLog; simp
@[simp] theorem State.belayTaken_keeps (s : State) (new : Bytes) : s.Keeps (s.belayTaken new) := by unfold State.belayTaken; simp

@[simp] theorem State.compareTask_keeps (s : State) (t cyc : Nat) :
    s.Keeps (s.compareTask t cyc) := by
  unfold State.compareTask; split <;> simp

@[simp] theorem execBelayDelta_keeps (rx : Rx) (payload : List Byte) (s : State) :
    Out.Keeps s (execBelayDelta rx payload s) := by
  unfold execBelayDelta; simp

@[simp] theorem execBelayReq_keeps (rx : Rx) (s : State) : Out.Keeps s (execBelayReq rx s) := by unfold execBelayReq; simp
@[simp] theorem State.resynced_keeps (s : State) : s.Keeps s.resynced := by unfold State.resynced; simp

@[simp] theorem execBelayFull_keeps (rx : Rx) (gen : Word) (off : Nat) (bytes : List Byte) (last : Bool) (s : State) :
    Out.Keeps s (execBelayFull rx gen off bytes last s) := by
  unfold execBelayFull
  rw [Out.keeps_next]
  refine State.ropeTake_keeps (h := fun s => ?_) (hl := by simp) ..
  split
  · simp
  · dsimp only
    split <;> simp

@[simp] theorem execProfile_keeps (rx : Rx) (k : DCh) (dir adapted : Bool) (bytes : List Byte) (s : State) :
    Out.Keeps s (execProfile rx k dir adapted bytes s) := by
  unfold execProfile; simp

@[simp] theorem execCmpQuery_keeps (rx : Rx) (t : Task) (cycle : Word) (mask : BitVec 256) (s : State) :
    Out.Keeps s (execCmpQuery rx t cycle mask s) := by
  unfold execCmpQuery; simp

@[simp] theorem State.resolveAgree_keeps (s : State) : s.Keeps s.resolveAgree := by unfold State.resolveAgree; simp

@[simp] theorem execCmpVerdict_keeps (rx : Rx) (t : Task) (disagrees : Bool) (_cycle : Word) (s : State) :
    Out.Keeps s (execCmpVerdict rx t disagrees _cycle s) := by
  unfold execCmpVerdict
  rw [Out.keeps_next]
  exact State.ropeTake_keeps (h := fun s => by split <;> simp) (hl := by simp) ..

@[simp] theorem execCmpVerdictTimeout_keeps (s : State) :
    Out.Keeps s (execCmpVerdictTimeout s) := by
  unfold execCmpVerdictTimeout; split <;> simp -implicitDefEqProofs

@[simp] theorem execResyncAlarmClear_keeps (s : State) :
    Out.Keeps s (execResyncAlarmClear s) := by
  unfold execResyncAlarmClear; simp -implicitDefEqProofs

@[simp] theorem State.showBytes_keeps (s : State) (a : Nat) (b : List Byte) :
    s.Keeps (s.showBytes a b) := by
  unfold State.showBytes; simp

@[simp] theorem State.takeMarch_keeps (s : State) : s.Keeps s.takeMarch.2 := by unfold State.takeMarch; split <;> simp

@[simp] theorem execHealthSend_keeps (s : State) : Out.Keeps s (execHealthSend s) := by
  obtain ⟨dev, hd⟩ : ∃ f, f = State.toDev := ⟨_, rfl⟩
  have h (s : State) (t : Nat) : s.Keeps (dev s t) := by simp [hd]
  unfold execHealthSend
  rw [← hd]
  simp -implicitDefEqProofs [h]

@[simp] theorem execHealthReport_keeps (rx : Rx) (bytes : List Byte) (s : State) :
    Out.Keeps s (execHealthReport rx bytes s) := by
  unfold execHealthReport; simp

@[simp] theorem State.ackPoint_keeps (s : State) (point res : Nat) :
    s.Keeps (s.ackPoint point res) := by
  unfold State.ackPoint; simp

@[simp] theorem State.takeOverlay_keeps (s : State) (gen : Nat) (b : List Byte) : s.Keeps (s.takeOverlay gen b) := by
  unfold State.takeOverlay
  simp only [State.Keeps]
  exact foldl_keeps fun s e => by split <;> simp

@[simp] theorem State.takeSet_keeps (s : State) (b : List Byte) :
    s.Keeps (s.takeSet b) := by
  unfold State.takeSet; dsimp only; split <;> simp

@[simp] theorem execChange_keeps (rx : Rx) (kind : Byte) (point : BitVec 64) (bytes : List Byte) (s : State) :
    Out.Keeps s (execChange rx kind point bytes s) := by
  unfold execChange
  rw [Out.keeps_next]
  refine State.ropeTake_keeps (h := fun s => ?_) (hl := by simp) ..
  dsimp only
  split
  · simp
  · split <;> simp

@[simp] theorem execChangeAck_keeps (rx : Rx) (point : BitVec 64) (result : Byte) (s : State) :
    Out.Keeps s (execChangeAck rx point result s) := by
  unfold execChangeAck
  rw [Out.keeps_next]
  refine State.ropeTake_keeps (h := fun s => ?_) (hl := by simp) ..
  dsimp only
  split
  · simp
  · split
    · split <;> simp
    · simp

@[simp] theorem execPark_keeps (rx : Rx) (ccount : BitVec 16) (s : State) : Out.Keeps s (execPark rx ccount s) := by
  unfold execPark
  rw [Out.keeps_next]
  exact State.ropeTake_keeps (h := fun s => by split <;> exact ⟨rfl, rfl⟩) (hl := by simp) ..

@[simp] theorem execSelftestMarch_keeps (pass : Bool) (s : State) :
    Out.Keeps s (execSelftestMarch pass s) := by
  unfold execSelftestMarch; simp

@[simp] theorem execSelftestEthernet_keeps (pass : Bool) (s : State) :
    Out.Keeps s (execSelftestEthernet pass s) := by
  unfold execSelftestEthernet; simp

@[simp] theorem execSelftestLinkProbe_keeps (n : Slot) (rtts : List Nat) (s : State) :
    Out.Keeps s (execSelftestLinkProbe n rtts s) := by
  unfold execSelftestLinkProbe; simp

@[simp] theorem execCanLbTest_keeps (c : Ctl) (back collide : Bool) (s : State) :
    Out.Keeps s (execCanLbTest c back collide s) := by
  unfold execCanLbTest; simp

/-! ### Maintenance verbs (`Machine/Verbs.lean`) -/

@[simp] theorem State.authCount_keeps (s : State) : s.Keeps s.authCount := by unfold State.authCount; simp
@[simp] theorem State.authFail_keeps (s : State) (p sess : Nat) : s.Keeps (s.authFail p sess) := by unfold State.authFail; simp

@[simp] theorem State.closeAfter_keeps (s : State) (x : Nat) :
    s.Keeps (s.closeAfter x) := by
  unfold State.closeAfter; split <;> simp

@[simp] theorem State.verbTake_keeps (s : State) (hd : VerbHdr) (verb maskBit : Nat) (body : List Byte) (fmt : Bool) (go : State → Nat → State)
    (h : ∀ (s : State) x, s.Keeps (go s x)) :
    s.Keeps (s.verbTake hd verb maskBit body fmt go) := by
  unfold State.verbTake
  extract_lets p s₁ b x s₂ net s₃
  have h₁ : s.Keeps s₁ := s.netRx_keeps p
  have h₃ : s.Keeps s₃ := h₁.trans (by simp [s₂, s₃])
  split
  · simp
  · split
    · exact h₁.trans (s₁.netDrop_keeps p)
    · split
      · exact h₁.trans (s₁.authFail_keeps p x)
      · extract_lets mask s₄
        have h₄ : s.Keeps s₄ := h₃.trans (by simp [s₄, h])
        split
        · exact h₁.trans (s₁.authFail_keeps p x)
        · split
          · exact h₁.trans s₁.authCount_keeps
          · split
            · exact h₁.trans (by simp)
            · exact h₄.trans (by simp)

@[simp] theorem State.noise_keeps (s : State) (k : Nat) : s.Keeps (s.noise k).2 := by
  induction k generalizing s with
  | zero => exact ⟨rfl, rfl⟩
  | succ n ih => unfold State.noise; simp [ih]

@[simp] theorem State.openFail_keeps (s : State) (p : Nat) : s.Keeps (s.openFail p) := by unfold State.openFail; simp

@[simp] theorem execOpenSession_keeps (h : VerbHdr) (role : Byte) (nc : List Byte) (s : State) :
    Out.Keeps s (execOpenSession h role nc s) := by
  unfold execOpenSession; dsimp only; repeat' split
  all_goals simp -implicitDefEqProofs

@[simp] theorem execCloseSession_keeps (h : VerbHdr) (s : State) :
    Out.Keeps s (execCloseSession h s) := by
  unfold execCloseSession; simp

@[simp] theorem execSessionIdle_keeps (x : Fin 4) (s : State) :
    Out.Keeps s (execSessionIdle x s) := by
  unfold execSessionIdle; split <;> simp -implicitDefEqProofs

@[simp] theorem execOpenLockoutEnd_keeps (s : State) :
    Out.Keeps s (execOpenLockoutEnd s) := by
  unfold execOpenLockoutEnd; simp -implicitDefEqProofs

@[simp] theorem State.agreed_keeps (s : State) (x verb : Nat) (a : Machine.Agree) (act : State → State)
    (h : ∀ s : State, s.Keeps (act s)) :
    s.Keeps (s.agreed x verb a act) := by
  unfold State.agreed
  split <;> simp [h]

@[simp] theorem State.setDeferred_keeps (s : State) (x : Nat) (d : Option (Waiting × Nat)) :
    s.Keeps (s.setDeferred x d) := by
  unfold State.setDeferred; simp

@[simp] theorem State.mayDefer_keeps (s : State) (x verb : Nat) (i : Waiting) (a : Machine.Agree) (act : State → State)
    (h : ∀ s : State, s.Keeps (act s)) :
    s.Keeps (s.mayDefer x verb i a act) := by
  unfold State.mayDefer
  dsimp only
  split <;> simp [h]

@[simp] theorem execReadObj_keeps (h : VerbHdr) (addr : Word) (len : BitVec 16) (s : State) :
    Out.Keeps s (execReadObj h addr len s) := by
  unfold execReadObj; simp

@[simp] theorem execHealth_keeps (h : VerbHdr) (s : State) : Out.Keeps s (execHealth h s) := by unfold execHealth; simp

@[simp] theorem execReadCairn_keeps (h : VerbHdr) (area : Byte) (first count : BitVec 16) (s : State) :
    Out.Keeps s (execReadCairn h area first count s) := by
  unfold execReadCairn; simp

@[simp] theorem execReadLedger_keeps (h : VerbHdr) (door : Byte) (first count : BitVec 16) (s : State) :
    Out.Keeps s (execReadLedger h door first count s) := by
  unfold execReadLedger; simp

@[simp] theorem execWriteParam_keeps (h : VerbHdr) (expGen : Word) (point : BitVec 64) (entries : List (BitVec 16 × Word)) (s : State) :
    Out.Keeps s (execWriteParam h expGen point entries s) := by
  unfold execWriteParam; simp

@[simp] theorem State.loadDrop_keeps (s : State) : s.Keeps s.loadDrop := by unfold State.loadDrop; split <;> simp

@[simp] theorem execLoadProgram_keeps (h : VerbHdr) (offset : Word) (last : Bool) (chunk : List Byte) (s : State) :
    Out.Keeps s (execLoadProgram h offset last chunk s) := by
  unfold execLoadProgram; simp

@[simp] theorem execSwitchProgram_keeps (h : VerbHdr) (point : BitVec 64) (s : State) :
    Out.Keeps s (execSwitchProgram h point s) := by
  unfold execSwitchProgram; simp

@[simp] theorem execRevert_keeps (h : VerbHdr) (point : BitVec 64) (s : State) :
    Out.Keeps s (execRevert h point s) := by
  unfold execRevert; simp

@[simp] theorem State.cairnClear_keeps (s : State) (x : Nat) : s.Keeps (s.cairnClear x) := by unfold State.cairnClear; simp

@[simp] theorem State.clearDecide_keeps (s : State) (x : Nat) (i : Waiting) :
    s.Keeps (s.clearDecide x i) := by
  unfold State.clearDecide; simp

@[simp] theorem execClearCairn_keeps (h : VerbHdr) (s : State) :
    Out.Keeps s (execClearCairn h s) := by
  unfold execClearCairn; simp

@[simp] theorem State.doneAtCommit_keeps (s : State) (x verb : Nat) :
    s.Keeps (s.doneAtCommit x verb) := by
  unfold State.doneAtCommit; simp

@[simp] theorem execSetModeEnter_keeps (h : VerbHdr) (s : State) :
    Out.Keeps s (execSetModeEnter h s) := by
  unfold execSetModeEnter; simp

@[simp] theorem execSetModeLeave_keeps (h : VerbHdr) (s : State) :
    Out.Keeps s (execSetModeLeave h s) := by
  unfold execSetModeLeave; simp

@[simp] theorem execMaintIdleTimeout_keeps (s : State) :
    Out.Keeps s (execMaintIdleTimeout s) := by
  unfold execMaintIdleTimeout; simp -implicitDefEqProofs

@[simp] theorem State.runStart_keeps (s : State) (x verb k cmd : Nat) :
    s.Keeps (s.runStart x verb k cmd) := by
  unfold State.runStart; simp

@[simp] theorem State.runDecide_keeps (s : State) (x verb k : Nat) (i : Waiting) :
    s.Keeps (s.runDecide x verb k i) := by
  unfold State.runDecide; simp

@[simp] theorem State.runAbort_keeps (s : State) (x verb k : Nat) :
    s.Keeps (s.runAbort x verb k) := by
  unfold State.runAbort; simp

@[simp] theorem execDoorTestStart_keeps (h : VerbHdr) (ch : Byte) (s : State) :
    Out.Keeps s (execDoorTestStart h ch s) := by
  unfold execDoorTestStart; simp

@[simp] theorem execDoorTestAbort_keeps (h : VerbHdr) (ch : Byte) (s : State) :
    Out.Keeps s (execDoorTestAbort h ch s) := by
  unfold execDoorTestAbort; simp

@[simp] theorem execLearnProfileStart_keeps (h : VerbHdr) (ch : Byte) (s : State) :
    Out.Keeps s (execLearnProfileStart h ch s) := by
  unfold execLearnProfileStart; simp

@[simp] theorem execLearnProfileAbort_keeps (h : VerbHdr) (ch : Byte) (s : State) :
    Out.Keeps s (execLearnProfileAbort h ch s) := by
  unfold execLearnProfileAbort; simp

@[simp] theorem execForceOutput_keeps (h : VerbHdr) (kind num value : Byte) (s : State) :
    Out.Keeps s (execForceOutput h kind num value s) := by
  unfold execForceOutput; simp

@[simp] theorem execBusoffRecover_keeps (h : VerbHdr) (c : Byte) (s : State) :
    Out.Keeps s (execBusoffRecover h c s) := by
  unfold execBusoffRecover; simp

@[simp] theorem execReset_keeps (h : VerbHdr) (s : State) : Out.Keeps s (execReset h s) := by unfold execReset; simp
@[simp] theorem execVerbReset_keeps (s : State) : Out.Keeps s (execVerbReset s) := by unfold execVerbReset; simp

@[simp] theorem execDeferResolve_keeps (x : Fin 4) (s : State) : Out.Keeps s (execDeferResolve x s) := by
  unfold execDeferResolve
  rw [Out.keeps_next]
  split
  · split <;> simp
  · simp

@[simp] theorem execDeferTimeout_keeps (x : Fin 4) (s : State) : Out.Keeps s (execDeferTimeout x s) := by
  unfold execDeferTimeout
  rw [Out.keeps_next]
  split
  · split <;> simp -implicitDefEqProofs
  · simp

/-! ### What the fuses keep (R91, R92, R493) -/

/-- A programmed value of `l` stands in `m`: programming fills blank places only. -/
def Programmed (l m : List (List Byte)) : Prop := ∀ k, l.getD k [] ≠ [] → m.getD k [] = l.getD k []

theorem Programmed.refl (l : List (List Byte)) : Programmed l l := fun _ _ => rfl

theorem Programmed.trans {l m n : List (List Byte)} (h : Programmed l m) (h' : Programmed m n) : Programmed l n := fun k hk =>
  (h' k (h k hk ▸ hk)).trans (h k hk)

theorem Programmed.set {l : List (List Byte)} {i : Nat} (v : List Byte) (h : l.getD i [] = []) : Programmed l (l.set i v) := fun k hk => by
  have hne : i ≠ k := fun e => hk (e ▸ h)
  simp [List.getD_eq_getElem?_getD, List.getElem?_set_ne hne]

/-- Every fuse blown in `f` is blown in `g`, and only revoke fuses, key hashes and secrets are blown on the way. -/
structure Fuses.Burns (f g : Fuses) : Prop where
  revoked : ∀ k, bit f.revoked k = true → bit g.revoked k = true
  keyHash : Programmed f.keyHash g.keyHash
  secret : Programmed f.secret g.secret
  rest : g = { f with keyHash := g.keyHash, revoked := g.revoked, secret := g.secret }

theorem Fuses.Burns.refl (f : Fuses) : f.Burns f := ⟨fun _ => id, .refl _, .refl _, rfl⟩

theorem Fuses.Burns.trans {f g e : Fuses} (h : f.Burns g) (h' : g.Burns e) : f.Burns e where
  revoked k := h'.revoked k ∘ h.revoked k
  keyHash := h.keyHash.trans h'.keyHash
  secret := h.secret.trans h'.secret
  rest := by rw [h'.rest, h.rest]

/-- Blowing the revoke fuse of one slot leaves the fuses of the others. -/
theorem bit_putBit_true {v k : Nat} (i : Nat) (h : bit v k = true) : bit (putBit v i true) k = true := by
  have hput : putBit v i true = putField v i 1 1 := by simp [putBit, putField, fieldOf, b2n]
  rw [hput, bit, testBit_putField]
  split
  · simp [show k - i = 0 by omega]
  · exact h

theorem Fuses.burns_revoke (f : Fuses) (k : Nat) : f.Burns { f with revoked := putBit f.revoked k true } :=
  { Fuses.Burns.refl f with revoked := fun _ => bit_putBit_true k, rest := rfl }

/-- A key hash is programmed into a blank slot; where its read-back differs, the slot is revoked (R493). -/
theorem Fuses.burns_keyHash (f : Fuses) {i : Nat} (v : List Byte) (readBack : Bool) (h : f.keyHash.getD i [] = []) :
    f.Burns { f with keyHash := f.keyHash.set i v, revoked := if readBack then f.revoked else putBit f.revoked i true } where
  revoked k hk := by
    cases readBack
    · exact bit_putBit_true i hk
    · exact hk
  keyHash := .set v h
  secret := .refl _
  rest := rfl

/-- A secret is programmed into a blank place (R493). -/
theorem Fuses.burns_secret (f : Fuses) {i : Nat} (v : List Byte) (h : f.secret.getD i [] = []) : f.Burns { f with secret := f.secret.set i v } :=
  { Fuses.Burns.refl f with secret := .set v h, rest := rfl }

/-- `t` has the queue and the board of `s`, but for fuses blown since and the seat strap. -/
structure State.Burns (s t : State) : Prop where
  fuses : s.board.fuses.Burns t.board.fuses
  board : t.board = { s.board with seatB := t.board.seatB, fuses := t.board.fuses }
  pending : t.pending = s.pending

theorem State.Keeps.burns {s t : State} (h : s.Keeps t) : s.Burns t := ⟨h.1 ▸ .refl _, h.1 ▸ rfl, h.2⟩

theorem State.Burns.refl (s : State) : s.Burns s := State.Keeps.burns ⟨rfl, rfl⟩

theorem State.Burns.trans {s t u : State} (h : s.Burns t) (h' : t.Burns u) : s.Burns u where
  fuses := h.fuses.trans h'.fuses
  board := by rw [h'.board, h.board]
  pending := h'.pending.trans h.pending

/-- The answer of a meaning from `s`, where it is a next state, only burns fuses of `s`. -/
def Out.Burns (s : State) (o : Out) : Prop := ∀ t, o = .next t → s.Burns t

theorem Out.burns_next {s t : State} : Out.Burns s (.next t) ↔ s.Burns t := ⟨fun h => h t rfl, fun h _ e => Host.Outcome.next.inj e ▸ h⟩

theorem Out.Keeps.burns {s : State} {o : Out} (h : Out.Keeps s o) : Out.Burns s o := fun t e => (h t e).burns

/-! ### The commands that blow fuses or read the strap -/

theorem State.revokeKeys_burns (s : State) (img : Image) (lost : Nat) : s.Burns (s.revokeKeys img lost) := by
  unfold State.revokeKeys State.each
  split
  · exact .refl s
  · generalize List.filter _ _ = l
    induction l generalizing s with
    | nil => exact .refl s
    | cons k l ih =>
      refine State.Burns.trans ⟨?_, ?_, ?_⟩ (ih _)
      · simpa using s.board.fuses.burns_revoke k
      · simp
      · simp

theorem State.bootWork_burns (s : State) (o : BootObs) : s.Burns (s.bootWork o).1 := by
  unfold State.bootWork
  split
  case h_11 =>
    dsimp only
    split
    · exact (s.lockWindows_keeps.burns).trans (State.revokeKeys_burns ..)
    · exact .refl s
  case h_10 => dsimp only; split <;> exact State.Keeps.burns (by simp)
  all_goals exact State.Keeps.burns (by simp)

theorem execBootStep_burns (o : BootObs) (s : State) : Out.Burns s (execBootStep o s) := by
  unfold execBootStep
  rw [Out.burns_next]
  split
  · exact .refl s
  · extract_lets s₁ b s₂ n
    have h₂ : s.Burns s₂ := State.Keeps.burns (by simp [s₂, s₁])
    have hw : s.Burns (s₂.bootWork o).1 := h₂.trans (s₂.bootWork_burns o)
    split <;> rename_i hb <;> rw [hb] at hw
    · exact hw.trans (State.bootFail_keeps ..).burns
    · refine hw.trans (State.Keeps.burns ?_)
      split <;> simp

theorem execPor_burns (seatB : Bool) (s : State) : Out.Burns s (execPor seatB s) := by
  unfold execPor
  rw [Out.burns_next]
  have h : s.Burns { s with board := { s.board with seatB }, power := {} } := ⟨.refl _, rfl, rfl⟩
  exact h.trans (State.deviceReset_keeps ..).burns

theorem execFuseProg_burns (field : Fin 6) (value : List Byte) (readBack vlOk : Bool) (s : State) :
    Out.Burns s (execFuseProg field value readBack vlOk s) := by
  unfold execFuseProg
  extract_lets s₁ f i blank g b s₂
  have h₁ : s.Burns s₁ := (State.select_keeps ..).burns
  have hset (t : State) (h : s.Burns t) (a : Fld) (v : Nat) : s.Burns (t.fset a v) := h.trans (State.Keeps.burns (by simp))
  split
  · exact Out.burns_next.2 h₁
  · split
    · exact Out.burns_next.2 (hset _ h₁ ..)
    · have hblank : blank = true := by simp_all
      have hg : f.Burns g := by
        by_cases hi : i < 4
        · have hk : f.keyHash.getD i [] = [] := by simpa [blank, hi] using hblank
          simpa only [g, hi, if_true] using f.burns_keyHash _ readBack hk
        · have hk : f.secret.getD (i - 4) [] = [] := by simpa [blank, hi] using hblank
          simpa only [g, hi, if_false] using f.burns_secret _ hk
      have h₂ : s₁.Burns s₂ := ⟨hg, rfl, rfl⟩
      have h₃ : s.Burns { s₂ with regs := boardRegs s₂.board s₂.regs } := h₁.trans (h₂.trans ⟨.refl _, rfl, rfl⟩)
      exact Out.burns_next.2 (hset _ h₃ ..)

/-! ### The obligation -/

theorem exec_burns (i : Instr) (s : State) : Out.Burns s (exec i s) := by
  cases i
  case bootStep o => exact execBootStep_burns o s
  case por seatB => exact execPor_burns seatB s
  case fuseProg field value readBack vlOk => exact execFuseProg_burns field value readBack vlOk s
  all_goals exact Out.Keeps.burns (by simp [exec])

/-- A step burns fuses at most: the empty queue lets device time pass, and a command is carried out with the rest of the queue. -/
theorem step_burns {s t : State} (h : step s = .next t) : s.board.fuses.Burns t.board.fuses ∧
    t.board = { s.board with seatB := t.board.seatB, fuses := t.board.fuses } := by
  unfold step at h
  split at h
  · obtain rfl := Host.Outcome.next.inj h
    simpa using Fuses.Burns.refl s.board.fuses
  · obtain ⟨hfuses, hboard, -⟩ := exec_burns _ _ t h
    exact ⟨hfuses, hboard⟩

/-- Settles O59: only the steps of BOOT_STEP, POR and FUSE_PROG touch the board, and the fuse fields that they write were blank. -/
theorem fusesStayBlown : Obligations.FusesStayBlown := by
  intro s t h
  obtain ⟨⟨hrev, hkey, hsec, hrest⟩, hboard⟩ := step_burns h
  refine ⟨hrev, hkey, hsec, ?_, ?_, ?_, ?_, ?_, ?_, hboard⟩ <;> rw [hrest]

end Sys2Proof.Machine
end

section
namespace Sys2Proof.Machine

/-! ### Registers of the control die (R12) -/

theorem State.ctlWrite_of_fields {s : State} {a : Nat} {fs : List FieldRow} (w : Nat) (ha : a ≠ 0x40000000) (hf : ctlFields a = some fs) :
    s.ctlWrite a w = (true, { s with regs := mset 0 s.regs a (afterWrite fs (mget 0 s.regs a) w) }) := by
  simp only [State.ctlWrite, ha, if_false, hf]

/-- A register other than the identity, the reset requests, the snapshot request and the loop-back start takes a write by its access types
alone. -/
theorem State.regWrite_of_fields {s : State} {a : Nat} {fs : List FieldRow} (w : Nat)
    (ha : a ∉ [0x40000000, 0x40000010, Reg.SNAP_CTRL_SNAP_REQ.addr, Reg.LB_CTRL_START.addr]) (hf : ctlFields a = some fs) :
    s.regWrite a w = (true, { s with regs := mset 0 s.regs a (afterWrite fs (mget 0 s.regs a) w) }) := by
  simp only [List.mem_cons, List.not_mem_nil, or_false, not_or] at ha
  obtain ⟨hid, hreset, hsnap, hloop⟩ := ha
  simp [State.regWrite, State.ctlWrite_of_fields w hid hf, hreset, hsnap, hloop]

theorem State.ctlRead_of_fields {s : State} {a : Nat} {fs : List FieldRow} (ha : a ≠ 0x40000000)
    (harb : ¬ (0x40090050 ≤ a ∧ a < 0x40090064 ∧ a % 4 = 0)) (hf : ctlFields a = some fs) :
    (s.ctlRead a).2 = { s with
      regs := mset 0 s.regs a (afterRead fs (mget 0 s.regs a))
      live := mset 0 s.live a (liveTaken fs (mget 0 s.regs a) (mget 0 s.live a))
      capt := mset 0 s.capt a (liveTaken fs (mget 0 s.regs a) (mget 0 s.capt a)) } := by
  simp only [State.ctlRead, ha, harb, if_false, hf]

/-- R426. A read of an `ARB_MAX` register takes one free value. -/
theorem State.ctlRead_arbMax {s : State} {a : Nat} (harb : 0x40090050 ≤ a ∧ a < 0x40090064 ∧ a % 4 = 0) :
    (s.ctlRead a).2 = { s with free := s.free + 1 } := by
  have ha : a ≠ 0x40000000 := by omega
  simp only [State.ctlRead, ha, harb, if_false, and_self, if_true, State.arbRead, State.takeFree]

theorem slotOfAddr_of_arbMax {a : Nat} (h : a < 0x40090064) : slotOfAddr a = none := if_neg (by omega)

theorem execRegisterWrite_of_ctl {s : State} {addr : Word} (v : Word) (hm : s.mode ≠ mPark) (hs : slotOfAddr addr.toNat = none) :
    execRegisterWrite addr v s = .next (s.regWrite addr.toNat v.toNat).2 := by
  simp only [execRegisterWrite, hm, if_false, hs]

theorem execRcRead_of_ctl {s : State} {addr : Word} (hm : s.mode ≠ mPark) (hs : slotOfAddr addr.toNat = none) :
    execRcRead addr s = .next (s.ctlRead addr.toNat).2 := by
  simp only [execRcRead, hm, if_false, hs]

/-! ### Registers of a satellite, over its link (R22) -/

/-- `t` differs from `s` in the link of slot `n` alone, whose waiting accesses are `q`. -/
structure State.QueuesAt (s t : State) (n : Nat) (q : List RegAcc) : Prop where
  regQ : (t.link n).regQ = q
  others : ∀ m ≠ n, t.link m = s.link m
  frame : t = { s with links := t.links }

theorem State.queuesAt_setLink (s : State) (n : Nat) {l : Link} {q : List RegAcc} (hq : l.regQ = q) : s.QueuesAt (s.setLink n l) n q :=
  ⟨by simp [hq], fun _ hm => State.link_setLink_other s hm, rfl⟩

theorem State.QueuesAt.trans {s t u : State} {n : Nat} {q r : List RegAcc} (h : s.QueuesAt t n q) (h' : t.QueuesAt u n r) :
    s.QueuesAt u n r := ⟨h'.regQ, fun m hm => (h'.others m hm).trans (h.others m hm), by rw [h'.frame, h.frame]⟩

/-- A frame sent on a link leaves the accesses that wait there. -/
theorem State.queuesAt_ctlSend (s : State) (n typ : Nat) (payload : List Byte) : s.QueuesAt (s.ctlSend n typ payload) n (s.link n).regQ := by
  unfold State.ctlSend
  split
  · exact s.queuesAt_setLink n rfl
  · exact ⟨rfl, fun _ _ => rfl, rfl⟩

/-- An access that goes out stays in the queue until it ends. -/
theorem State.queuesAt_regSend (s : State) (n : Nat) : s.QueuesAt (s.regSend n) n (s.link n).regQ := by
  unfold State.regSend
  dsimp only
  split
  · split
    · exact (s.queuesAt_ctlSend n ..).trans (State.queuesAt_setLink _ n (s.queuesAt_ctlSend n ..).regQ)
    · exact (s.queuesAt_ctlSend n ..).trans (State.queuesAt_setLink _ n (s.queuesAt_ctlSend n ..).regQ)
  · exact ⟨rfl, fun _ _ => rfl, rfl⟩

theorem State.queuesAt_regSubmit (s : State) (n : Nat) (r : RegAcc) : s.QueuesAt (s.regSubmit n r) n ((s.link n).regQ ++ [r]) := by
  have h := s.queuesAt_setLink n (l := { s.link n with regQ := (s.link n).regQ ++ [r] }) rfl
  have hsend := State.queuesAt_regSend (s.setLink n { s.link n with regQ := (s.link n).regQ ++ [r] }) n
  rw [h.regQ] at hsend
  exact h.trans hsend

theorem execRegisterWrite_of_sat {s : State} {addr : Word} {n : Nat} (v : Word) (hm : s.mode ≠ mPark) (hs : slotOfAddr addr.toNat = some n)
    (hf : s.fitted n = true) : execRegisterWrite addr v s =
      .next (s.regSubmit n { req := 0, write := true, off := addr.toNat - satBase n, data := v.toNat }) := by
  simp only [execRegisterWrite, hm, if_false, hs, hf, if_true]

theorem execRcRead_of_sat {s : State} {addr : Word} {n : Nat} (hm : s.mode ≠ mPark) (hs : slotOfAddr addr.toNat = some n)
    (hf : s.fitted n = true) :
    execRcRead addr s = .next (s.regSubmit n { req := 0, write := false, off := addr.toNat - satBase n, data := 0 }) := by
  simp only [execRcRead, hm, if_false, hs, hf, if_true]

/-! ### The snapshot (R46) -/

/-- `t` differs from `s` in the free values taken and in the register fields `fs`. -/
structure State.Writes (s t : State) (fs : List Fld) : Prop where
  frame : t = { s with free := t.free, regs := t.regs }
  fget : ∀ g : Fld, g.lo ≤ g.hi → (∀ f ∈ fs, g.apart f = true) → t.fget g = s.fget g

theorem State.Writes.refl (s : State) (fs : List Fld) : s.Writes s fs := ⟨rfl, fun _ _ _ => rfl⟩

theorem State.Writes.trans {s t u : State} {fs : List Fld} (h : s.Writes t fs) (h' : t.Writes u fs) : s.Writes u fs :=
  ⟨by rw [h'.frame, h.frame], fun g hg ha => (h'.fget g hg ha).trans (h.fget g hg ha)⟩

theorem State.writes_fset {s : State} {fs : List Fld} {f : Fld} (v : Nat) (hf : f ∈ fs) (hw : f.lo ≤ f.hi) : s.Writes (s.fset f v) fs :=
  ⟨rfl, fun _ hg ha => State.fget_fset_apart s (ha f hf) hg hw⟩

theorem State.writes_foldl {α : Type} {l : List α} {fs : List Fld} {F : State → α → State} {s : State}
    (h : ∀ (s : State), ∀ x ∈ l, s.Writes (F s x) fs) : s.Writes (l.foldl F s) fs := by
  induction l generalizing s with
  | nil => exact .refl s fs
  | cons x l ih => exact (h s x (.head _)).trans (ih fun s y hy => h s y (.tail _ hy))

/-- What a field takes from the capture under way. -/
def State.capturedField (s : State) (f : Fld) : Nat := fieldOf (mget 0 s.capt f.addr) f.lo (f.hi + 1 - f.lo)

/-- R46. The fields `l` take what was captured of them. -/
def State.deliver (s : State) (l : List Fld) : State := l.foldl (fun s f => s.fset f (s.capturedField f)) s

theorem State.writes_deliver {s : State} {l : List Fld} (hw : ∀ f ∈ l, f.lo ≤ f.hi) : s.Writes (s.deliver l) l :=
  State.writes_foldl fun _ f hf => State.writes_fset _ hf (hw f hf)

/-- Every field delivered reads what was captured of it, where no two of them share a bit. -/
theorem State.fget_deliver {s : State} {l : List Fld} {f : Fld} (hw : ∀ f ∈ l, f.lo ≤ f.hi) (hp : l.Pairwise fun f g => f.apart g = true)
    (hf : f ∈ l) : (s.deliver l).fget f = s.capturedField f := by
  induction l generalizing s with
  | nil => exact absurd hf List.not_mem_nil
  | cons g l ih =>
    have hw' : ∀ f ∈ l, f.lo ≤ f.hi := fun f hf => hw f (.tail _ hf)
    obtain ⟨hg, hl⟩ := List.pairwise_cons.1 hp
    rcases List.mem_cons.1 hf with rfl | hf
    · calc (s.deliver (f :: l)).fget f
        _ = (s.fset f (s.capturedField f)).fget f := (State.writes_deliver hw').fget f (hw f hf) hg
        _ = s.capturedField f := by rw [State.fget_fset_same]; exact Nat.mod_mod _ _
    · exact ih hw' hl hf

/-- R495. The fields a capture takes free values for. -/
def measuredFields : List Fld :=
  [Reg.SUPPLY_VL_10MV, Reg.SUPPLY_VHU_10MV, Reg.SUPPLY2_VIO_10MV, Reg.SUPPLY2_VIOE_10MV, Reg.THERM_T_CTL, Reg.THERM_T_CTL_MAX, Reg.THERM_T_LID]

theorem State.writes_measured (s : State) : s.Writes s.measured measuredFields := by
  refine State.writes_foldl fun s p hp => ?_
  have hmem : p.1 ∈ measuredFields ∧ p.1.lo ≤ p.1.hi := by revert p; decide
  have hfree : s.Writes (s.takeFree p.2).2 measuredFields := ⟨rfl, fun _ _ _ => rfl⟩
  exact hfree.trans (State.writes_fset _ hmem.1 hmem.2)

theorem snapFields_wellFormed : ∀ f ∈ snapFields, f.lo ≤ f.hi := by decide

theorem snapFields_pairwise_apart : snapFields.Pairwise fun f g => f.apart g = true := by decide +kernel

theorem snapFields_apart_measured : ∀ f ∈ snapFields, ∀ g ∈ measuredFields, f.apart g = true := by decide +kernel

theorem snapFields_apart_snapCtrl : ∀ f ∈ snapFields, f.apart Reg.SNAP_CTRL_SNAP_BUSY = true ∧ f.apart Reg.SNAP_CTRL_SNAP_SEQ = true := by
  decide +kernel

theorem exec_snapDone_of_busy {s : State} (h : s.fbit Reg.SNAP_CTRL_SNAP_BUSY = true) :
    exec .snapDone s =
      .next (({ (s.deliver snapFields).measured with capt := [] }.fset Reg.SNAP_CTRL_SNAP_BUSY 0).fmod Reg.SNAP_CTRL_SNAP_SEQ) := by
  simp only [exec, execSnapDone, h, Bool.not_true, Bool.false_eq_true, if_false]; rfl

/-- The free values that a capture takes leave the fields delivered. -/
theorem State.fget_measured_deliver {s : State} {f : Fld} (hf : f ∈ snapFields) :
    (s.deliver snapFields).measured.fget f = s.capturedField f :=
  ((s.deliver snapFields).writes_measured.fget f (snapFields_wellFormed f hf) (snapFields_apart_measured f hf)).trans
    (State.fget_deliver snapFields_wellFormed snapFields_pairwise_apart hf)

theorem State.measured_deliver_frame (s : State) : (s.deliver snapFields).measured =
    { s with free := (s.deliver snapFields).measured.free, regs := (s.deliver snapFields).measured.regs } := by
  have hm := (s.deliver snapFields).writes_measured.frame
  generalize (s.deliver snapFields).measured = t at hm ⊢
  rw [hm, (State.writes_deliver snapFields_wellFormed).frame]

theorem snapDone_completes {s : State} (h : s.fbit Reg.SNAP_CTRL_SNAP_BUSY = true) :
    s.Does .snapDone fun t => (∀ f ∈ snapFields, t.fget f = s.capturedField f) ∧ t.fbit Reg.SNAP_CTRL_SNAP_BUSY = false ∧
      t = { s with free := t.free, regs := t.regs, capt := [] } := by
  have he := exec_snapDone_of_busy h
  have hget (f : Fld) := s.fget_measured_deliver (f := f)
  have hframe := s.measured_deliver_frame
  generalize (s.deliver snapFields).measured = t at he hget hframe
  refine ⟨_, he, fun f hf => ?_, ?_, ?_⟩
  · obtain ⟨hbusy, hseq⟩ := snapFields_apart_snapCtrl f hf
    have hw := snapFields_wellFormed f hf
    rw [State.fmod, State.fget_fset_apart _ hseq hw (by decide), State.fget_fset_apart _ hbusy hw (by decide)]
    exact hget f hf
  · rw [State.fmod, State.fbit_fset_apart _ (by decide) (by decide) (by decide), State.fbit, State.fget_fset_same]
    rfl
  · rw [hframe]; rfl

theorem snapReq_completes {s : State} (hm : s.mode ≠ mPark) (h : s.fbit Reg.SNAP_CTRL_SNAP_BUSY = false) :
    s.Does .snapReq fun t => t.capt = s.captured ∧ t.fbit Reg.SNAP_CTRL_SNAP_BUSY = true ∧ s.regsBut t [Reg.SNAP_CTRL_SNAP_BUSY] ∧
      t = { s with regs := t.regs, capt := t.capt } := by
  have he : exec .snapReq s = .next ({ s with capt := s.captured }.fon Reg.SNAP_CTRL_SNAP_BUSY) := by
    simp [exec, execSnapReq, hm, State.snapReq, h]
  refine ⟨_, he, rfl, State.fbit_fon_same _ (by decide), fun g hg ha => ?_, rfl⟩
  have hap : g.apart Reg.SNAP_CTRL_SNAP_BUSY = true := by simpa [Fld.apart, or_assoc] using ha _ (.head _)
  exact State.fget_fset_apart { s with capt := s.captured } hap hg (by decide)

/-! ### The obligation -/

/-- Settles O19, clause by clause: what the register file, the link of the slot, or the capture becomes. -/
theorem registerAccessCompletes : Obligations.RegisterAccessCompletes := by
  intro s addr v
  refine ⟨fun fs hm hs hf ha => ?_, fun hm hlo hhi h4 => ?_, fun fs hm hs hf ha harb => ?_, fun n hm hs hfit => ⟨?_, ?_⟩,
    snapReq_completes, snapDone_completes⟩
  · refine ⟨_, execRegisterWrite_of_ctl v hm hs, ?_⟩
    rw [State.regWrite_of_fields _ ha hf]
    exact ⟨mget_mset_same, fun _ hb => mget_mset_other hb, rfl⟩
  · refine ⟨_, execRcRead_of_ctl hm (slotOfAddr_of_arbMax hhi), ?_⟩
    exact State.ctlRead_arbMax ⟨hlo, hhi, h4⟩
  · refine ⟨_, execRcRead_of_ctl hm hs, ?_⟩
    rw [State.ctlRead_of_fields ha harb hf]
    exact ⟨mget_mset_same, fun _ hb => mget_mset_other hb, rfl⟩
  · obtain ⟨hq, hothers, hframe⟩ := s.queuesAt_regSubmit n { req := 0, write := true, off := addr.toNat - satBase n, data := v.toNat }
    exact ⟨_, execRegisterWrite_of_sat v hm hs hfit, hq, hothers, hframe⟩
  · obtain ⟨hq, hothers, hframe⟩ := s.queuesAt_regSubmit n { req := 0, write := false, off := addr.toNat - satBase n, data := 0 }
    exact ⟨_, execRcRead_of_sat hm hs hfit, hq, hothers, hframe⟩

end Sys2Proof.Machine
end

section
namespace Sys2Proof.Machine

/-! ### The debug instructions (R206, R491) -/

theorem State.select_of_free {s : State} {ir : Nat} (tdo : List Byte) (hir : testIr ir = false) (h : s.tap.held = false) :
    s.select ir tdo = { s with tap := { s.tap with ir, tdo } } := by
  simp [State.select, hir, h]

/-- R6. On a part with suffix L a debug instruction acts as BYPASS. -/
theorem State.debug_of_sufL {s : State} (attach : Bool) (f : State → State) (hl : s.board.fuses.sufL = true) (h : s.tap.held = false) :
    s.debug attach f = .next { s with tap := { s.tap with ir := 0xFF, tdo := [0] } } := by
  simp only [State.debug, hl, if_true, State.bypassed, State.select_of_free [0] (by decide : testIr 0xFF = false) h]

/-- Instruction `ir` is selected, and nothing is shifted out yet. -/
def State.atIr (s : State) (ir : Nat) : State := { s with tap := { s.tap with ir, tdo := [] } }

/-- A part whose debug port is open and whose control die is out of reset. -/
structure State.DebugOpen (s : State) : Prop where
  held : s.tap.held = false
  sufL : s.board.fuses.sufL = false
  inReset : s.inReset = false

theorem State.DebugOpen.attach {s : State} (h : s.DebugOpen) (f : State → State) : s.debug true f = .next (f (s.atIr 0x20)) := by
  have hsel : s.select 0x20 [] = s.atIr 0x20 := State.select_of_free [] (by decide) h.held
  have hr : (s.atIr 0x20).inReset = false := h.inReset
  simp [State.debug, h.sufL, hsel, hr]

theorem State.DebugOpen.command {s : State} (h : s.DebugOpen) (ha : s.fbit Reg.DEBUG_STAT_ATTACHED = true) (f : State → State) :
    s.debug false f = .next (f (s.atIr 0x21)) := by
  have hsel : s.select 0x21 [] = s.atIr 0x21 := State.select_of_free [] (by decide) h.held
  have hr : (s.atIr 0x21).inReset = false := h.inReset
  have hatt : (s.atIr 0x21).fbit Reg.DEBUG_STAT_ATTACHED = true := ha
  simp [State.debug, h.sufL, hsel, hr, hatt]

/-- A command of the debug port gives what its action gives on the state so selected. -/
theorem State.DebugOpen.does {s : State} (h : s.DebugOpen) (ha : s.fbit Reg.DEBUG_STAT_ATTACHED = true) {c : Instr} {f : State → State}
    {u : State} {p : State → Prop} (hc : exec c s = s.debug false f) (hu : f (s.atIr 0x21) = u) (hp : p u) : s.Does c p :=
  ⟨u, hc.trans ((h.command ha f).trans (congrArg _ hu)), hp⟩

/-! ### Attach (R206, R207) -/

/-- `t` differs from `s` in what the engine has released and in the links alone. -/
def State.Stages (s t : State) : Prop := t = { s with eng := t.eng, links := t.links }

theorem State.Stages.trans {s t u : State} (h : s.Stages t) (h' : t.Stages u) : s.Stages u := by
  unfold State.Stages at *
  rw [h', h]

theorem foldl_stages {α : Type} {l : List α} {f : State → α → State} {s : State} (h : ∀ (s : State) x, s.Stages (f s x)) :
    s.Stages (l.foldl f s) := by
  induction l generalizing s with
  | nil => exact rfl
  | cons x l ih => exact (h s x).trans ih

theorem State.stages_setLink (s : State) (n : Nat) (l : Link) : s.Stages (s.setLink n l) := rfl

theorem State.stages_stageTo (s : State) (n : Nat) (out : Bytes) : s.Stages (s.stageTo n out) := by
  unfold State.stageTo
  dsimp only
  split
  · exact rfl
  · have h : s.Stages (s.ctlSend n 0x02 (s.stageLoad n out)) := by
      rw [State.Stages, (s.queuesAt_ctlSend n ..).frame]
    exact h.trans (State.stages_setLink ..)

theorem State.stages_releaseEnded (s : State) : s.Stages s.releaseEnded := by
  refine foldl_stages fun s e => ?_
  split
  · exact rfl
  · dsimp only
    split <;> exact rfl

theorem State.stages_stageAll (s : State) : s.Stages s.stageAll := by
  unfold State.stageAll
  split
  · exact foldl_stages fun s n => s.stages_stageTo n _
  · exact rfl

theorem State.stages_stageNow (s : State) : s.Stages s.stageNow := s.stages_releaseEnded.trans (State.stages_stageAll _)

theorem State.Stages.regs {s t : State} (h : s.Stages t) : t.regs = s.regs := by rw [h]
theorem State.Stages.sram {s t : State} (h : s.Stages t) : t.sram = s.sram := by rw [h]
theorem State.Stages.mram {s t : State} (h : s.Stages t) : t.mram = s.mram := by rw [h]
theorem State.Stages.tap {s t : State} (h : s.Stages t) : t.tap = s.tap := by rw [h]

/-- The fields that change when lane A halts. -/
def haltFields : List Fld := [Reg.DEBUG_STAT_HALTED, Reg.VOTE_STAT_VOTING, Reg.DEBUG_STAT_SOLE_LANE]

/-- Lane A as it leaves the vote, in the task and context in which it stands. -/
def State.laneAOut (s : State) : State :=
  let t := (s.eng.run.getD 0 none).getD 31
  let c := match s.act t with | some a => a.ctx.getD 0 {} | none => {}
  { s with eng := { s.eng with dbgOut := true, dbgWait := false }, tap := { s.tap with task := t, ctx := c, act := s.act t } }

theorem State.haltLaneA_eq (s : State) : s.haltLaneA =
    let u := (s.laneAOut.fon Reg.DEBUG_STAT_HALTED).syncVoting
    if u.soleLane && u.laneState != laneUnbound then u.fon Reg.DEBUG_STAT_SOLE_LANE else u := rfl

theorem State.haltLaneA_writes (s : State) : s.laneAOut.Writes s.haltLaneA haltFields ∧ s.haltLaneA.fbit Reg.DEBUG_STAT_HALTED = true := by
  have hsync : s.laneAOut.Writes (s.laneAOut.fon Reg.DEBUG_STAT_HALTED).syncVoting haltFields :=
    (State.writes_fset 1 (by decide) (by decide)).trans (State.writes_fset _ (by decide) (by decide))
  have hhalted : (s.laneAOut.fon Reg.DEBUG_STAT_HALTED).syncVoting.fbit Reg.DEBUG_STAT_HALTED = true :=
    (State.fbit_fset_apart _ (by decide) (by decide) (by decide)).trans (State.fbit_fon_same _ (by decide))
  rw [State.haltLaneA_eq]
  dsimp only
  split
  · exact ⟨hsync.trans (State.writes_fset 1 (by decide) (by decide)),
      (State.fbit_fset_apart _ (by decide) (by decide) (by decide)).trans hhalted⟩
  · exact ⟨hsync, hhalted⟩

theorem State.dbgAttach_eq {s : State} (ha : s.fbit Reg.DEBUG_STAT_ATTACHED = false) (hlive : bit s.liveLanes 0 = true)
    (hex : bit (s.fget Reg.VOTE_STAT_EXCLUDED) 0 = false) :
    s.dbgAttach = ((s.fon Reg.MODE_STAT_DEBUG_UNBOUND).fon Reg.DEBUG_STAT_ATTACHED).stageNow.haltLaneA := by
  have hstage := ((s.fon Reg.MODE_STAT_DEBUG_UNBOUND).fon Reg.DEBUG_STAT_ATTACHED).stages_stageNow.regs
  have hkeep {g : Fld} (hg : g.lo ≤ g.hi) (h₁ : g.apart Reg.DEBUG_STAT_ATTACHED = true) (h₂ : g.apart Reg.MODE_STAT_DEBUG_UNBOUND = true) :
      ((s.fon Reg.MODE_STAT_DEBUG_UNBOUND).fon Reg.DEBUG_STAT_ATTACHED).stageNow.fget g = s.fget g :=
    (State.fget_congr hstage g).trans
      ((State.fget_fset_apart _ h₁ hg (by decide)).trans (State.fget_fset_apart _ h₂ hg (by decide)))
  have hlive' : bit ((s.fon Reg.MODE_STAT_DEBUG_UNBOUND).fon Reg.DEBUG_STAT_ATTACHED).stageNow.liveLanes 0 = true :=
    (congrArg (bit · 0) (hkeep (g := Reg.VOTE_STAT_LIVE) (by decide) (by decide) (by decide))).trans hlive
  have hex' := (congrArg (bit · 0) (hkeep (g := Reg.VOTE_STAT_EXCLUDED) (by decide) (by decide) (by decide))).trans hex
  simp only [State.dbgAttach, ha, Bool.false_eq_true, if_false, hlive', Bool.not_true]
  exact if_neg (by simpa using hex')

/-- An attach halts lane A, with the binding removed; memory stands. -/
theorem State.dbgAttach_halts {s : State} (ha : s.fbit Reg.DEBUG_STAT_ATTACHED = false) (hlive : bit s.liveLanes 0 = true)
    (hex : bit (s.fget Reg.VOTE_STAT_EXCLUDED) 0 = false) :
    s.dbgAttach.tap.ir = s.tap.ir ∧ s.dbgAttach.fbit Reg.DEBUG_STAT_ATTACHED = true ∧
      s.dbgAttach.fbit Reg.MODE_STAT_DEBUG_UNBOUND = true ∧ s.dbgAttach.fbit Reg.DEBUG_STAT_HALTED = true ∧ s.dbgAttach.eng.dbgOut = true ∧
      s.dbgAttach.sram = s.sram ∧ s.dbgAttach.mram = s.mram := by
  rw [State.dbgAttach_eq ha hlive hex]
  have hstage := ((s.fon Reg.MODE_STAT_DEBUG_UNBOUND).fon Reg.DEBUG_STAT_ATTACHED).stages_stageNow
  generalize ((s.fon Reg.MODE_STAT_DEBUG_UNBOUND).fon Reg.DEBUG_STAT_ATTACHED).stageNow = u at hstage ⊢
  obtain ⟨⟨hframe, hfget⟩, hhalted⟩ := u.haltLaneA_writes
  have hatt : u.fbit Reg.DEBUG_STAT_ATTACHED = true :=
    (congrArg (decide <| · ≠ 0) (State.fget_congr hstage.regs _)).trans (State.fbit_fon_same _ (by decide))
  have hunb : u.fbit Reg.MODE_STAT_DEBUG_UNBOUND = true := by
    have h : ((s.fon Reg.MODE_STAT_DEBUG_UNBOUND).fon Reg.DEBUG_STAT_ATTACHED).fbit Reg.MODE_STAT_DEBUG_UNBOUND = true :=
      (State.fbit_fset_apart _ (by decide) (by decide) (by decide)).trans (State.fbit_fon_same _ (by decide))
    exact (congrArg (decide <| · ≠ 0) (State.fget_congr hstage.regs _)).trans h
  have hfbit {g : Fld} (hg : g.lo ≤ g.hi) (h : ∀ f ∈ haltFields, g.apart f = true) : u.haltLaneA.fbit g = u.fbit g :=
    congrArg (decide <| · ≠ 0) (hfget g hg h)
  refine ⟨?_, (hfbit (by decide) (by decide)).trans hatt, (hfbit (by decide) (by decide)).trans hunb, hhalted, ?_, ?_, ?_⟩
  · rw [hframe]; change u.tap.ir = s.tap.ir; rw [hstage.tap]; rfl
  · rw [hframe]; rfl
  · rw [hframe]; exact hstage.sram
  · rw [hframe]; exact hstage.mram

/-! ### A violation of the debug windows (R106) -/

/-- The registers in which the recorder counts what it suppresses and drops. -/
def recorderRegs : List Nat := [Reg.CAIRN_LOST_QUEUE_DROP.addr, Reg.CAIRN_FLAGS_QUEUE_OVF.addr, Reg.CAIRN_CNT_SUPPRESSED.addr]

/-- `t` differs from `s` in registers and in what the recorder holds alone. -/
def State.Logs (s t : State) : Prop := t = { s with regs := t.regs, cairn := t.cairn }

theorem State.Logs.trans {s t u : State} (h : s.Logs t) (h' : t.Logs u) : s.Logs u := by
  unfold State.Logs at *
  rw [h', h]

theorem State.Logs.sram {s t : State} (h : s.Logs t) : t.sram = s.sram := by rw [h]
theorem State.Logs.mram {s t : State} (h : s.Logs t) : t.mram = s.mram := by rw [h]

/-- `t` differs from `s` in what the recorder holds and counts alone. -/
structure State.Records (s t : State) : Prop where
  frame : s.Logs t
  fget : ∀ g : Fld, g.addr ∉ recorderRegs → t.fget g = s.fget g

theorem State.Records.trans {s t u : State} (h : s.Records t) (h' : t.Records u) : s.Records u :=
  ⟨h.frame.trans h'.frame, fun g hg => (h'.fget g hg).trans (h.fget g hg)⟩

theorem State.records_cairn (s : State) (c : Cairn) : s.Records { s with cairn := c } := ⟨rfl, fun _ _ => rfl⟩

theorem State.records_fset {s : State} {f : Fld} (v : Nat) (hf : f.addr ∈ recorderRegs) : s.Records (s.fset f v) :=
  ⟨rfl, fun _ hg => State.fget_fset_addr s fun h => hg (h ▸ hf)⟩

theorem State.records_enqueueRec (s : State) (r : CRec) : s.Records (s.enqueueRec r) := by
  have hlost : s.Records ((s.fsat Reg.CAIRN_LOST_QUEUE_DROP).fon Reg.CAIRN_FLAGS_QUEUE_OVF) :=
    (State.records_fset _ (by decide)).trans (State.records_fset _ (by decide))
  unfold State.enqueueRec
  dsimp only
  split
  · exact s.records_cairn _
  · split
    · split
      · exact hlost.trans (State.records_cairn ..)
      · exact hlost
    · exact hlost

theorem State.records_record (s : State) (code : Nat) (data : List Byte) : s.Records (s.record code data) := by
  unfold State.record State.recordFrom State.recordAs
  dsimp only
  split
  · exact s.records_enqueueRec _
  · split
    · exact (s.records_cairn _).trans (State.records_enqueueRec ..)
    · exact (s.records_cairn _).trans ((State.records_fset _ (by decide)).trans (State.records_fset _ (by decide)))

theorem State.logs_violation (s : State) (q a : Nat) : s.Logs (s.violation q a) :=
  State.Logs.trans (t := s.fsat Reg.PROT_STAT_VIOL_COUNT) rfl (State.records_record ..).frame

theorem State.fget_violation (s : State) (q a : Nat) :
    (s.violation q a).fget Reg.PROT_STAT_VIOL_COUNT = min (s.fget Reg.PROT_STAT_VIOL_COUNT + 1) 65535 := by
  refine ((State.records_record (s.fsat Reg.PROT_STAT_VIOL_COUNT) ..).fget _ (by decide)).trans ?_
  rw [State.fsat, State.fget_fset_same]
  exact Nat.mod_eq_of_lt (by change min _ 65535 < 65536; omega)

/-- The reads `l` of lane A are refused. -/
def State.violations (s : State) (l : List (Nat × Nat)) : State := l.foldl (fun s g => s.violation 2 g.1) s

theorem State.logs_violations (s : State) (l : List (Nat × Nat)) : s.Logs (s.violations l) := by
  induction l generalizing s with
  | nil => exact rfl
  | cons g l ih => exact (s.logs_violation 2 g.1).trans (ih _)

theorem State.fget_violations (s : State) (l : List (Nat × Nat)) :
    (s.violations l).fget Reg.PROT_STAT_VIOL_COUNT = min (s.fget Reg.PROT_STAT_VIOL_COUNT + l.length) 65535 := by
  have hlt : s.fget Reg.PROT_STAT_VIOL_COUNT < 65536 := Nat.mod_lt _ (by decide)
  induction l generalizing s with
  | nil => simp only [State.violations, List.foldl_nil, List.length_nil]; omega
  | cons g l ih =>
    have hv := s.fget_violation 2 g.1
    refine (ih (s.violation 2 g.1) (by omega)).trans ?_
    rw [hv, List.length_cons]
    omega

/-! ### One instruction on lane A alone (R206) -/

/-- The word at the `PC` of lane A. -/
def State.dbgFetch (s : State) : Nat × Nat :=
  let at_ := progBase + 4 * ((mget ({} : Prog) s.eng.prog s.tap.task).base + s.tap.ctx.pc)
  (s.rdN at_ 4, s.rdN (at_ + 4) 4)

/-- The operand of the instruction at the `PC` of lane A. -/
def State.dbgOpnd (s : State) : Opnd :=
  { area := BitVec.ofNat 4 (s.dbgFetch.1 / 2 ^ 20), off := BitVec.ofNat 20 s.dbgFetch.1, lit := BitVec.ofNat 32 s.dbgFetch.2 }

/-- What the instruction at the `PC` does on a view of lane A. -/
def State.dbgRun (s : State) (v : LaneView) : LaneOut := laneFn (s.dbgFetch.1 / 2 ^ 24) s.dbgOpnd v s.tap.ctx

/-- The view that lane A has of activation `a`. -/
def State.dbgView (s : State) (a : Act) : LaneView := ⟨s, s.tap.task, a, []⟩

/-- The reads of the instruction at the `PC` that no debug window allows. -/
def State.dbgRefused (s : State) (a : Act) : List (Nat × Nat) :=
  (laneReads (s.dbgFetch.1 / 2 ^ 24) s.dbgOpnd (s.dbgView a) s.tap.ctx (s.dbgRun (s.dbgView a))).filter fun g => !s.allowed 2 g.1 g.2 false

/-- What the instruction at the `PC` does, with a refused read reading 0. -/
def State.dbgResult (s : State) (a : Act) : LaneOut := s.dbgRun ((s.dbgRefused a).foldl LaneView.blank (s.dbgView a))

/-- The debug write buffer after the instruction at the `PC`. -/
def State.dbgBufAfter (s : State) (a : Act) : List (Nat × Word) := (s.eng.dbgBuf ++ dbgWords (s.dbgResult a)).take 64

/-- `s` with the context of lane A and the debug write buffer after the instruction at the `PC`. -/
def State.dbgTakes (s t : State) (a : Act) : State :=
  { t with eng := { t.eng with dbgBuf := s.dbgBufAfter a }, tap := { t.tap with ctx := (s.dbgResult a).ctx } }

theorem State.dbgRun1_eq {s : State} {a : Act} (h : s.dbgAct = some a) : s.dbgRun1.2 =
    (s.dbgTakes (s.violations (s.dbgRefused a)) a).fset Reg.DEBUG_STAT_DBG_WR_FILL (s.dbgBufAfter a).length := by
  have heng : (s.violations (s.dbgRefused a)).eng = s.eng := by rw [s.logs_violations]
  have hbuf : ((s.violations (s.dbgRefused a)).eng.dbgBuf ++ dbgWords (s.dbgResult a)).take 64 = s.dbgBufAfter a := by rw [heng]; rfl
  unfold State.dbgTakes
  rw [← hbuf]
  unfold State.dbgRun1
  rw [h]
  rfl

/-- `t` differs from `s` in what a debugged lane A may change alone: its context, the debug write buffer, and what a violation leaves. -/
def State.Debugs (s t : State) : Prop :=
  t = { s with regs := t.regs, live := t.live, cairn := t.cairn, tap := { s.tap with ctx := t.tap.ctx },
               eng := { s.eng with dbgBuf := t.eng.dbgBuf } }

theorem State.Debugs.trans {s t u : State} (h : s.Debugs t) (h' : t.Debugs u) : s.Debugs u := by
  unfold State.Debugs at *
  rw [h', h]

theorem State.Logs.debugs {s t : State} (h : s.Logs t) : s.Debugs t := by
  unfold State.Debugs State.Logs at *
  rw [h]

theorem State.debugs_dbgRun1 (s : State) : s.Debugs s.dbgRun1.2 := by
  cases h : s.dbgAct with
  | none => unfold State.dbgRun1; rw [h]; exact rfl
  | some a =>
    rw [State.dbgRun1_eq h]
    exact (s.logs_violations _).debugs.trans rfl

theorem State.debugs_dbgFollow (s : State) (f n : Nat) : s.Debugs (s.dbgFollow f n) := by
  induction f generalizing s n with
  | zero => exact rfl
  | succ f ih =>
    unfold State.dbgFollow
    dsimp only
    split
    · exact rfl
    · exact s.debugs_dbgRun1.trans (ih ..)

/-- R206. Once halted, a step is one instruction of lane A; nothing of it reaches memory. -/
theorem State.dbgRun1_spec {s : State} {a : Act} (h : s.dbgAct = some a) :
    s.dbgRun1.2.tap.ctx = (s.dbgResult a).ctx ∧ s.dbgRun1.2.eng.dbgBuf = s.dbgBufAfter a ∧
      (s.dbgRefused a = [] → s.dbgRun1.2.cairn = s.cairn) ∧
      (s.dbgRefused a ≠ [] → s.fget Reg.PROT_STAT_VIOL_COUNT < s.dbgRun1.2.fget Reg.PROT_STAT_VIOL_COUNT ∨
        s.fget Reg.PROT_STAT_VIOL_COUNT = 65535) := by
  rw [State.dbgRun1_eq h]
  refine ⟨rfl, rfl, fun hnone => ?_, fun hsome => ?_⟩
  · rw [hnone]; rfl
  · have hcount : ((s.dbgTakes (s.violations (s.dbgRefused a)) a).fset Reg.DEBUG_STAT_DBG_WR_FILL (s.dbgBufAfter a).length).fget
        Reg.PROT_STAT_VIOL_COUNT = min (s.fget Reg.PROT_STAT_VIOL_COUNT + (s.dbgRefused a).length) 65535 :=
      (State.fget_fset_apart _ (by decide) (by decide) (by decide)).trans (s.fget_violations _)
    have hlt : s.fget Reg.PROT_STAT_VIOL_COUNT < 65536 := Nat.mod_lt _ (by decide)
    have hlen : 0 < (s.dbgRefused a).length := List.length_pos_iff.2 hsome
    omega

/-! ### The commands -/

/-- Lane A is under debug control. -/
theorem State.dbgHas_of {s : State} (ha : s.fbit Reg.DEBUG_STAT_ATTACHED = true) (ho : s.eng.dbgOut = true) : s.dbgHas = true := by
  simp [State.dbgHas, ha, ho]

theorem State.dbgNow_of_halted {s : State} (h : s.fbit Reg.DEBUG_STAT_HALTED = true) : s.dbgNow = s := by simp [State.dbgNow, h]

theorem State.dbgNow_keeps_memory (s : State) : (s.dbgNow).sram = s.sram ∧ (s.dbgNow).mram = s.mram ∧ (s.dbgNow).tap.ir = s.tap.ir := by
  unfold State.dbgNow
  split
  · exact ⟨rfl, rfl, rfl⟩
  · have h := s.debugs_dbgFollow ((s.time.mono - s.tap.ranFrom) / 5) ((s.time.mono - s.tap.ranFrom) / 5)
    refine ⟨?_, ?_, ?_⟩ <;> dsimp only <;> rw [h]

theorem dbgHalt_completes {s : State} (h : s.DebugOpen) (ha : s.fbit Reg.DEBUG_STAT_ATTACHED = true) (ho : s.eng.dbgOut = true) :
    s.Does .dbgHalt fun t => t.tap.ir = 0x21 ∧ t.fbit Reg.DEBUG_STAT_HALTED = true ∧ t.sram = s.sram ∧ t.mram = s.mram := by
  have he : (s.atIr 0x21).dbgHaltNow = (s.atIr 0x21).dbgNow.fon Reg.DEBUG_STAT_HALTED := if_pos (State.dbgHas_of ha ho)
  obtain ⟨hsram, hmram, hir⟩ := (s.atIr 0x21).dbgNow_keeps_memory
  exact h.does ha (f := State.dbgHaltNow) rfl he ⟨hir, State.fbit_fon_same _ (by decide), hsram, hmram⟩

theorem dbgStep_completes {s : State} (h : s.DebugOpen) (ha : s.fbit Reg.DEBUG_STAT_ATTACHED = true) (ho : s.eng.dbgOut = true)
    (hh : s.fbit Reg.DEBUG_STAT_HALTED = true) {a : Act} (hact : s.dbgAct = some a) :
    s.Does .dbgStep fun t => t.tap.ctx = ((s.atIr 0x21).dbgResult a).ctx ∧ t.eng.dbgBuf = (s.atIr 0x21).dbgBufAfter a ∧
      ((s.atIr 0x21).dbgRefused a = [] → t.cairn = s.cairn) ∧
      ((s.atIr 0x21).dbgRefused a ≠ [] → s.fget Reg.PROT_STAT_VIOL_COUNT < t.fget Reg.PROT_STAT_VIOL_COUNT ∨
        s.fget Reg.PROT_STAT_VIOL_COUNT = 65535) ∧
      t = { s with regs := t.regs, live := t.live, cairn := t.cairn, tap := t.tap, eng := { s.eng with dbgBuf := t.eng.dbgBuf } } := by
  obtain ⟨hctx, hbuf, hnone, hsome⟩ := State.dbgRun1_spec (s := s.atIr 0x21) (a := a) hact
  have hcond : ((s.atIr 0x21).dbgHas && (s.atIr 0x21).fbit Reg.DEBUG_STAT_HALTED) = true := Bool.and_eq_true_iff.2 ⟨State.dbgHas_of ha ho, hh⟩
  refine h.does ha (f := State.dbgStepNow) rfl (if_pos hcond) ⟨hctx, hbuf, hnone, hsome, ?_⟩
  have hframe := (s.atIr 0x21).debugs_dbgRun1
  unfold State.Debugs at hframe
  rw [hframe]; rfl

theorem dbgResume_completes {s : State} (h : s.DebugOpen) (ha : s.fbit Reg.DEBUG_STAT_ATTACHED = true) (ho : s.eng.dbgOut = true)
    (hh : s.fbit Reg.DEBUG_STAT_HALTED = true) :
    s.Does .dbgResume fun t => t.fbit Reg.DEBUG_STAT_HALTED = false ∧ t.tap.ranFrom = s.time.mono ∧ t.tap.ctx = s.tap.ctx ∧
      s.regsBut t [Reg.DEBUG_STAT_HALTED] ∧ t = { s with regs := t.regs, tap := t.tap } := by
  have hcond : ((s.atIr 0x21).dbgHas && (s.atIr 0x21).fbit Reg.DEBUG_STAT_HALTED) = true := Bool.and_eq_true_iff.2 ⟨State.dbgHas_of ha ho, hh⟩
  refine h.does ha (f := State.dbgResumeNow) rfl (if_pos hcond) ⟨?_, rfl, rfl, fun g hg hap => ?_, rfl⟩
  · have hz : ((s.atIr 0x21).fset Reg.DEBUG_STAT_HALTED 0).fget Reg.DEBUG_STAT_HALTED = 0 := State.fget_fset_same ..
    exact congrArg (decide <| · ≠ 0) hz
  · have hapart : g.apart Reg.DEBUG_STAT_HALTED = true := by simpa [Fld.apart, or_assoc] using hap _ (.head _)
    exact State.fget_fset_apart (s.atIr 0x21) hapart hg (by decide)

/-- R206. While lane A is halted, its registers and the debug write buffer are as they stand. -/
theorem dbgReg_of_halted {s : State} (r : DbgReg) (wr : Option Word) (ha : s.fbit Reg.DEBUG_STAT_ATTACHED = true)
    (ho : s.eng.dbgOut = true) (hh : s.fbit Reg.DEBUG_STAT_HALTED = true) :
    s.dbgReg r wr = match wr with
      | some w => { s with tap := { s.tap with ctx := dbgSet s.tap.ctx w r } }
      | none => { s with tap := { s.tap with tdo := leBytes 4 (dbgGet s.tap.ctx r).toNat } } := by
  cases wr <;> simp [State.dbgReg, State.dbgHas_of ha ho, State.dbgNow_of_halted hh]

theorem dbgEntry_of_halted {s : State} (i : Nat) (ha : s.fbit Reg.DEBUG_STAT_ATTACHED = true) (hh : s.fbit Reg.DEBUG_STAT_HALTED = true) :
    s.dbgEntry i = { s with tap := { s.tap with tdo := (s.dbgEntry i).tap.tdo } } ∧
      ∀ a w, s.eng.dbgBuf[i]? = some (a, w) → (s.dbgEntry i).tap.tdo = leBytes 4 a ++ leBytes 4 w.toNat := by
  simp only [State.dbgEntry, ha, Bool.not_true, Bool.false_eq_true, if_false, State.dbgNow_of_halted hh]
  split
  · rename_i e
    exact ⟨rfl, fun a w h => by rw [e] at h; obtain ⟨rfl, rfl⟩ := Prod.mk.inj (Option.some.inj h); rfl⟩
  · rename_i e
    exact ⟨rfl, fun a w h => by rw [e] at h; exact nomatch h⟩

/-- R104. Before the lock a debug access to memory waits. -/
theorem dbgMem_of_unlocked {s : State} (addr : Nat) (wr : Option Word) (ha : s.fbit Reg.DEBUG_STAT_ATTACHED = true)
    (hl : s.fbit Reg.PROT_STAT_PROT_LOCK = false) : s.dbgMem addr wr = { s with tap := { s.tap with wait := s.tap.wait ++ [(addr, wr)] } } := by
  simp [State.dbgMem, ha, hl]

/-- R106. An access outside the debug windows is a violation, and answers 0 with its status. -/
theorem dbgMem_of_refused {s : State} {addr : Nat} (ha : s.fbit Reg.DEBUG_STAT_ATTACHED = true)
    (hl : s.fbit Reg.PROT_STAT_PROT_LOCK = true) (hp : s.allowed 2 (addr - addr % 4) 4 false = false) :
    (s.dbgMem addr none).tap.tdo = leBytes 4 0 ++ leBytes 1 aProtected ∧ (s.dbgMem addr none).sram = s.sram ∧
      (s.dbgMem addr none).mram = s.mram := by
  have hv := s.logs_violation 2 (addr - addr % 4)
  have he : s.dbgMem addr none = { s.violation 2 (addr - addr % 4) with
      tap := { (s.violation 2 (addr - addr % 4)).tap with tdo := leBytes 4 0 ++ leBytes 1 aProtected } } := by
    simp [State.dbgMem, ha, hl, hp]
  rw [he]
  exact ⟨rfl, hv.sram, hv.mram⟩

/-- Memory lies below the register spaces of the satellites. -/
theorem slotOfAddr_of_memMapped {a : Nat} (h : memMapped a = true) : slotOfAddr a = none := by
  refine if_neg fun hsat => ?_
  simp only [memMapped, Bool.or_eq_true, Bool.and_eq_true, decide_eq_true_eq] at h
  omega

/-- R432. Outside the fill no access waits. -/
theorem State.fillWait_of_filled {s : State} (a : Nat) (h : s.fget Reg.MEM_STAT_FILL_BUSY = 0) : s.fillWait a = s := by
  simp [State.fillWait, State.fillEnd, h]

/-- A sound word of memory whose layout the spec gives is read as an external requester reads it. -/
theorem State.objRead_of_memMapped {s : State} (qp : Bool) {a : Nat} (hm : memMapped a = true) (hb : s.mem.bad.contains (a - a % 8) = false)
    (ho : opaqueStore a = false) (hf : s.fget Reg.MEM_STAT_FILL_BUSY = 0) :
    s.objRead qp a = (aOk, leNat ((List.range 4).map fun i => s.extByte qp (a + i)), s) := by
  simp only [State.objRead, hm, if_true, State.fillWait_of_filled a hf, hb, ho, Bool.false_eq_true, if_false]

theorem dbgMem_of_allowed {s : State} {addr : Nat} (ha : s.fbit Reg.DEBUG_STAT_ATTACHED = true)
    (hl : s.fbit Reg.PROT_STAT_PROT_LOCK = true) (hp : s.allowed 2 (addr - addr % 4) 4 false = true) (hm : memMapped (addr - addr % 4) = true)
    (hb : s.mem.bad.contains (addr - addr % 4 - (addr - addr % 4) % 8) = false) (ho : opaqueStore (addr - addr % 4) = false)
    (hf : s.fget Reg.MEM_STAT_FILL_BUSY = 0) :
    s.dbgMem addr none = { s with tap := { s.tap with
      tdo := leBytes 4 (leNat ((List.range 4).map fun i => s.extByte false (addr - addr % 4 + i))) ++ leBytes 1 aOk } } := by
  simp only [State.dbgMem, ha, hl, Bool.not_true, Bool.false_eq_true, if_false, Option.isSome_none, hp, slotOfAddr_of_memMapped hm,
    State.objRead_of_memMapped false hm hb ho hf]

/-- What an external requester reads does not depend on the test port. -/
theorem State.extByte_atIr (s : State) (ir : Nat) (qp : Bool) (a : Nat) : (s.atIr ir).extByte qp a = s.extByte qp a := rfl

/-! ### The obligation -/

/-- Settles O51: each instruction selects itself and is carried out on the state so selected; what it leaves unchanged is what
`State.Stages`, `State.Debugs` and `State.Logs` say of its parts. -/
theorem debugCompletes : Obligations.DebugCompletes := by
  intro s hheld
  refine ⟨fun hl => ?_, fun hl hr => ?_⟩
  · have hshut {c : Instr} (attach : Bool) (f : State → State) (hc : exec c s = s.debug attach f) :
        s.Does c fun t => t.tap.ir = 0xFF ∧ t.tap.tdo = [0] ∧ t = { s with tap := t.tap } :=
      ⟨_, hc.trans (State.debug_of_sufL attach f hl hheld), rfl, rfl, rfl⟩
    exact ⟨hshut true State.dbgAttach rfl, hshut false State.dbgHaltNow rfl, hshut false State.dbgStepNow rfl,
      hshut false State.dbgResumeNow rfl, fun r w => hshut false (·.dbgReg r w) rfl, fun a w => hshut false (·.dbgMem a.toNat w) rfl,
      fun i => hshut false (·.dbgEntry i) rfl⟩
  · have hopen : s.DebugOpen := ⟨hheld, hl, hr⟩
    refine ⟨fun ha hlive hex => ⟨_, hopen.attach _, State.dbgAttach_halts (s := s.atIr 0x20) ha hlive hex⟩,
      fun ha ho => ⟨dbgHalt_completes hopen ha ho, fun hh => ⟨fun a hact => dbgStep_completes hopen ha ho hh hact,
        dbgResume_completes hopen ha ho hh, fun r => ?_, fun r w => ?_, fun i => ?_⟩⟩,
      fun ha hlock addr => ⟨fun hp => ?_, fun hp hm hb hop hf => ?_⟩, fun ha hlock addr w => ?_⟩
    · exact hopen.does ha (f := (·.dbgReg r none)) rfl (dbgReg_of_halted r none ha ho hh) ⟨rfl, rfl, rfl⟩
    · exact hopen.does ha (f := (·.dbgReg r (some w))) rfl (dbgReg_of_halted r (some w) ha ho hh) ⟨rfl, rfl⟩
    · obtain ⟨hframe, htdo⟩ := dbgEntry_of_halted (s := s.atIr 0x21) i.val ha hh
      exact hopen.does ha (f := (·.dbgEntry i)) rfl rfl ⟨by rw [hframe]; rfl, htdo⟩
    · exact hopen.does ha (f := (·.dbgMem addr.toNat none)) rfl rfl (dbgMem_of_refused (s := s.atIr 0x21) ha hlock hp)
    · exact hopen.does ha (f := (·.dbgMem addr.toNat none)) rfl (dbgMem_of_allowed ha hlock hp hm hb hop hf) ⟨rfl, rfl⟩
    · exact hopen.does ha (f := (·.dbgMem addr.toNat w)) rfl (dbgMem_of_unlocked addr.toNat w ha hlock) ⟨rfl, rfl⟩

end Sys2Proof.Machine
end

section
namespace Sys2Proof.Machine

/-! ### The step (R39) -/

/-- Settles O55: `step` runs the command at the front, and on an empty queue `advance` moves the clocks and the operating count alone. -/
theorem stepRunsTheFront : Obligations.StepRunsTheFront := by
  intro s
  refine ⟨fun c rest h => ?_, fun h => ⟨s.advance 4, ?_, ?_⟩⟩
  · simp only [step, h]
  · simp only [step, h]
  · exact ⟨h, rfl, rfl, rfl, rfl, rfl⟩

/-! ### One link at a time (R20, R21) -/

/-- `t` differs from `s` in the link of slot `n` alone. -/
structure State.OnlyLink (s t : State) (n : Nat) : Prop where
  others : ∀ m ≠ n, t.link m = s.link m
  frame : t = { s with links := t.links }

theorem State.OnlyLink.refl (s : State) (n : Nat) : s.OnlyLink s n := ⟨fun _ _ => rfl, rfl⟩

theorem State.OnlyLink.trans {s t u : State} {n : Nat} (h : s.OnlyLink t n) (h' : t.OnlyLink u n) : s.OnlyLink u n :=
  ⟨fun m hm => (h'.others m hm).trans (h.others m hm), by rw [h'.frame, h.frame]⟩

theorem State.onlyLink_setLink (s : State) (n : Nat) (l : Link) : s.OnlyLink (s.setLink n l) n :=
  ⟨fun _ hm => State.link_setLink_other s hm, rfl⟩

theorem State.onlyLink_ctlSend (s : State) (n typ : Nat) (p : List Byte) : s.OnlyLink (s.ctlSend n typ p) n := by
  unfold State.ctlSend
  split
  · exact s.onlyLink_setLink n _
  · exact .refl s n

theorem State.onlyLink_satSend (s : State) (n typ : Nat) (p : List Byte) : s.OnlyLink (s.satSend n typ p) n := by
  unfold State.satSend
  split
  · exact s.onlyLink_setLink n _
  · exact .refl s n

theorem State.OnlyLink.regs {s t : State} {n : Nat} (h : s.OnlyLink t n) : t.regs = s.regs := by rw [h.frame]
theorem State.OnlyLink.sats {s t : State} {n : Nat} (h : s.OnlyLink t n) : t.sats = s.sats := by rw [h.frame]

/-- What the link of slot `n` holds once the control die has sent a frame on it. -/
def Link.ctlSent (l : Link) (f : Frame) : Link :=
  { l with down := l.down ++ [f], ctlTx := (l.ctlTx + 1) % 65536, ctlKept := ((f, false) :: l.ctlKept).take 4 }

/-- What the link of slot `n` holds once its satellite has sent a frame on it. -/
def Link.satSent (l : Link) (f : Frame) : Link :=
  { l with up := l.up ++ [f], satTx := (l.satTx + 1) % 65536, satKept := ((f, false) :: l.satKept).take 4 }

/-- R20. On a link that is `UP` a frame of the control die goes out. -/
theorem State.ctlSend_of_up {s : State} {n : Nat} (h : s.linkIsUp n = true) (typ : Nat) (p : List Byte) :
    s.ctlSend n typ p = s.setLink n ((s.link n).ctlSent (s.ctlFrame n typ p)) := if_pos h

/-- R20. On a link that is `UP` a frame of a powered satellite goes out. -/
theorem State.satSend_of_up {s : State} {n : Nat} (h : s.linkIsUp n = true) (hp : s.present n = true) (typ : Nat) (p : List Byte) :
    s.satSend n typ p = s.setLink n ((s.link n).satSent (s.satFrame n typ p)) := if_pos (by rw [h, hp]; rfl)

/-! ### Frames next in order (R21) -/

/-- The frame at the head of the link of slot `n` has reached the satellite; `rest` stands behind it. -/
def State.satGot (s : State) (n : Nat) (rest : List Frame) : State :=
  s.setLink n { s.link n with down := rest, satRx := ((s.link n).satRx + 1) % 65536, satNaked := false }

/-- The frame at the head of the link of slot `n` has reached the control die; `rest` stands behind it. -/
def State.ctlGot (s : State) (n : Nat) (rest : List Frame) : State :=
  s.setLink n { s.link n with up := rest, ctlRx := ((s.link n).ctlRx + 1) % 65536, ctlNaked := false }

theorem State.onlyLink_satGot (s : State) (n : Nat) (rest : List Frame) : s.OnlyLink (s.satGot n rest) n := s.onlyLink_setLink n _

theorem State.onlyLink_ctlGot (s : State) (n : Nat) (rest : List Frame) : s.OnlyLink (s.ctlGot n rest) n := s.onlyLink_setLink n _

/-- R21. A frame next in order is acted on. -/
theorem State.DownNext.satTake {s : State} {n : Nat} {f : Frame} {rest : List Frame} (h : s.DownNext n f rest) {typ : Nat}
    (ht : f.typ = typ) (act : State → List Byte → State) : s.satTake n typ .ok act = act (s.satGot n rest) f.payload := by
  simp [State.satTake, h.head, ht, h.clear, h.powered, h.whole, h.order, State.satGot]

/-- R21. A frame next in order whose payload is of the kind asked for is acted on. -/
theorem State.UpNext.ctlTake {s : State} {n : Nat} {f : Frame} {rest : List Frame} (h : s.UpNext n f rest) {typ : Nat}
    (ht : f.typ = typ) {p : List Byte → Bool} (hp : p f.payload = true) (act : State → List Byte → Nat → State) :
    s.ctlTake n typ p .ok act = act (s.ctlGot n rest) f.payload f.ccount := by
  simp [State.ctlTake, h.head, ht, hp, h.clear, h.whole, h.order, State.ctlGot]

/-- R21. The frame of `SEQ` `e` that the satellite keeps goes out again, once. -/
theorem State.nakTaken_sat_resends {s : State} {n e : Nat} {g : Frame} (h : ((s.link n).satKept.find? fun k => k.1.seq == e) = some (g, false)) :
    s.nakTaken n e true = s.setLink n { s.link n with up := (s.link n).up ++ [g.again], satKept := markNaked e (s.link n).satKept } := by
  simp [State.nakTaken, h]

theorem State.nakTaken_ctl_resends {s : State} {n e : Nat} {g : Frame} (h : ((s.link n).ctlKept.find? fun k => k.1.seq == e) = some (g, false)) :
    s.nakTaken n e false = s.setLink n { s.link n with down := (s.link n).down ++ [g.again], ctlKept := markNaked e (s.link n).ctlKept } := by
  simp [State.nakTaken, h]

/-- R21. A second NAK of a frame drops it, at either end. -/
theorem State.nakTaken_drops {s : State} {n e : Nat} {g : Frame} {toSat : Bool}
    (h : ((if toSat then (s.link n).satKept else (s.link n).ctlKept).find? fun k => k.1.seq == e) = some (g, true)) :
    s.nakTaken n e toSat = s.linkDrop n g.typ := by
  simp [State.nakTaken, h]

theorem State.records_recordFrom (s : State) (code slot task : Nat) (data : List Byte) : s.Records (s.recordFrom code slot task data) := by
  unfold State.recordFrom State.recordAs
  dsimp only
  split
  · exact s.records_enqueueRec _
  · split
    · exact (s.records_cairn _).trans (State.records_enqueueRec ..)
    · exact (s.records_cairn _).trans ((State.records_fset _ (by decide)).trans (State.records_fset _ (by decide)))

theorem State.Records.fbit {s t : State} (h : s.Records t) {g : Fld} (hg : g.addr ∉ recorderRegs) : t.fbit g = s.fbit g :=
  congrArg (decide <| · ≠ 0) (h.fget g hg)

/-- R21, R22. The drop of a frame that is no register access: counted, flagged and recorded, with the links as they are. -/
theorem State.linkDrop_flags {s : State} {n typ : Nat} (h : typ ∉ [6, 7, 8]) :
    (s.linkDrop n typ).fbit Reg.COMMIT_FLAGS_LINK_DROP = true ∧
      s.linkDrop n typ = { s with regs := (s.linkDrop n typ).regs, live := (s.linkDrop n typ).live, cairn := (s.linkDrop n typ).cairn } := by
  simp only [List.mem_cons, List.not_mem_nil, or_false] at h
  have hrec := State.records_recordFrom ((s.lsat (Reg.LINK_ERR_DROPS n)).fon Reg.COMMIT_FLAGS_LINK_DROP) cLINK_DROP n 31 (leBytes 1 n ++ leBytes 1 typ)
  have he : s.linkDrop n typ = ((s.lsat (Reg.LINK_ERR_DROPS n)).fon Reg.COMMIT_FLAGS_LINK_DROP).recordFrom cLINK_DROP n 31
      (leBytes 1 n ++ leBytes 1 typ) := if_neg h
  rw [he]
  refine ⟨?_, ?_⟩
  · exact (hrec.fbit (by decide)).trans (State.fbit_fon_same _ (by decide))
  · have := hrec.frame
    unfold State.Logs at this
    rw [this]; rfl

/-! ### What a satellite does (R22, R24, R28, R35, R40) -/

@[simp] theorem State.satGot_link (s : State) (n : Nat) (rest : List Frame) : (s.satGot n rest).link n =
    { s.link n with down := rest, satRx := ((s.link n).satRx + 1) % 65536, satNaked := false } := s.link_setLink n _

@[simp] theorem State.ctlGot_link (s : State) (n : Nat) (rest : List Frame) : (s.ctlGot n rest).link n =
    { s.link n with up := rest, ctlRx := ((s.link n).ctlRx + 1) % 65536, ctlNaked := false } := s.link_setLink n _

/-- A state in which satellite `n` answers as it would in `s`: its link is as after a frame received, its counter and supply as in `s`. -/
structure State.Answers (s u : State) (n : Nat) (rest : List Frame) : Prop where
  link : u.link n = (s.satGot n rest).link n
  up : u.linkIsUp n = true
  powered : u.present n = true
  ccount : (u.sat n).ccount = (s.sat n).ccount

/-- The answer stands behind what the satellite has sent before, on a link that is otherwise as after the receipt. -/
theorem State.Answers.send {s u : State} {n : Nat} {rest : List Frame} (h : s.Answers u n rest) (typ : Nat) (p : List Byte) :
    u.satSend n typ p = u.setLink n (((s.satGot n rest).link n).satSent (s.satFrame n typ p)) := by
  rw [State.satSend_of_up h.up h.powered, h.link, State.satFrame, h.link, h.ccount, State.satGot_link]
  rfl

theorem State.DownNext.answers {s : State} {n : Nat} {f : Frame} {rest : List Frame} (h : s.DownNext n f rest) :
    s.Answers (s.satGot n rest) n rest := ⟨rfl, h.up, h.powered, rfl⟩

/-- What follows from an answer, read off the state after it. -/
theorem State.Answers.sent {s u : State} {n : Nat} {rest : List Frame} (h : s.Answers u n rest) (typ : Nat) (p : List Byte) :
    ((u.satSend n typ p).link n).up = (s.link n).up ++ [s.satFrame n typ p] ∧ ((u.satSend n typ p).link n).down = rest := by
  rw [h.send]
  simp [Link.satSent]

/-- R28. Satellite `n` has staged the output set `b` that its link brought for commit `num`, next in order before `rest`. -/
def State.setStaged (s : State) (n : Nat) (rest : List Frame) (num : Nat) (b : Bytes) : State :=
  (s.satGot n rest).setSat n { s.sat n with staged := some (num, false, b, s.time.mono) }

/-- R28, R35. Satellite `n` has staged the complete set `b` that its link brought, and taken up the commit number `num` with it. -/
def State.setResynced (s : State) (n : Nat) (rest : List Frame) (num : Nat) (b : Bytes) : State :=
  (s.satGot n rest).setSat n { s.sat n with ccount := (num + 65535) % 65536, staged := some (num, true, b, s.time.mono) }

theorem State.link_congr {s t : State} (h : t.links = s.links) (n : Nat) : t.link n = s.link n := by unfold State.link; rw [h]

theorem State.sat_congr {s t : State} (h : t.sats = s.sats) (n : Nat) : t.sat n = s.sat n := by unfold State.sat; rw [h]

theorem State.present_of_same {s t : State} {n : Nat} (h : s.present n = true) (hb : t.board = s.board)
    (hp : (t.sat n).powered = (s.sat n).powered) : t.present n = true := by
  rw [← h]
  simp only [State.present, State.fitted, hb, hp]

/-- R28. A set with the next commit number is staged and acknowledged. -/
theorem stage_completes {s : State} {n : Slot} {f : Frame} {rest : List Frame} (h : s.DownNext n f rest) (ht : f.typ = 0x02)
    (hnum : ((s.sat n).ccount + 1) % 65536 = leAt f.payload 0 2) :
    s.Does (.stage n .ok) fun t =>
      (t.sat n).staged = some (leAt f.payload 0 2, false, stageBytes f.payload.length (f.payload.drop 2) (s.sat n).applied, s.time.mono) ∧
      (t.link n).up = (s.link n).up ++ [s.satFrame n 0x03 (leBytes 2 (leAt f.payload 0 2))] ∧ (t.link n).down = rest ∧
      (∀ m ≠ n.val, t.link m = s.link m ∧ t.sat m = s.sat m) ∧ t = { s with links := t.links, sats := t.sats } := by
  have he : exec (.stage n .ok) s = .next ((s.setStaged n rest (leAt f.payload 0 2)
      (stageBytes f.payload.length (f.payload.drop 2) (s.sat n).applied)).satSend n 0x03 (leBytes 2 (leAt f.payload 0 2))) :=
    congrArg _ ((h.satTake ht _).trans (if_pos hnum))
  generalize stageBytes f.payload.length (f.payload.drop 2) (s.sat n).applied = b at he ⊢
  generalize leAt f.payload 0 2 = num at he ⊢
  have hsat : (s.setStaged n rest num b).sat n = _ := State.sat_setSat _ n _
  have hu : s.Answers (s.setStaged n rest num b) n rest :=
    ⟨rfl, h.up, State.present_of_same h.powered rfl (by rw [hsat]), by rw [hsat]⟩
  have hsend := (s.setStaged n rest num b).onlyLink_satSend n 0x03 (leBytes 2 num)
  obtain ⟨hup, hdown⟩ := hu.sent 0x03 (leBytes 2 num)
  refine ⟨_, he, ?_, hup, hdown, fun m hm => ⟨?_, ?_⟩, ?_⟩
  · rw [State.sat_congr hsend.sats n, hsat]
  · exact (hsend.others m hm).trans ((s.onlyLink_satGot n rest).others m hm)
  · exact (State.sat_congr hsend.sats m).trans (State.sat_setSat_other _ hm)
  · rw [hsend.frame]; rfl

/-- The view of a die's commit counter is a register of that die, and no field of its link. -/
theorem State.linkIsUp_ccountView (s : State) (n : Slot) (m : Nat) (hm : m < 8) : (s.ccountView n).linkIsUp m = s.linkIsUp m := by
  have hfar {f : Fld} (v : Nat) (hf : 0x41000000 ≤ f.addr) : (s.fset f v).linkIsUp m = s.linkIsUp m := by
    unfold State.linkIsUp State.fbit
    rw [State.fget_fset_addr]
    simp only [Reg.LINK_STAT_UP]
    omega
  unfold State.ccountView
  dsimp only
  split
  · exact hfar _ (Nat.le_trans (by decide) (Nat.le_add_right ..))
  · split
    · exact hfar _ (Nat.le_trans (by decide) (Nat.le_add_right ..))
    · exact hfar _ (Nat.le_trans (by decide) (Nat.le_add_right ..))

theorem State.ccountView_frame (s : State) (n : Nat) : s.ccountView n = { s with regs := (s.ccountView n).regs } := by
  unfold State.ccountView
  dsimp only
  split
  · rfl
  · split <;> rfl

theorem State.ccountView_links (s : State) (n : Nat) : (s.ccountView n).links = s.links := by rw [s.ccountView_frame n]
theorem State.ccountView_sats (s : State) (n : Nat) : (s.ccountView n).sats = s.sats := by rw [s.ccountView_frame n]

/-- R28, R35. A complete set is staged with the commit number it names, which the die's counter takes up. -/
theorem resync_completes {s : State} {n : Slot} {f : Frame} {rest : List Frame} (h : s.DownNext n f rest) (ht : f.typ = 0x0A) :
    s.Does (.resync n .ok) fun t =>
      (t.sat n).staged = some (leAt f.payload (outLen n) 2, true, mput 0 [] 0 (f.payload.take (outLen n)), s.time.mono) ∧
      (t.sat n).ccount = (leAt f.payload (outLen n) 2 + 65535) % 65536 ∧
      (∃ g, (t.link n).up = (s.link n).up ++ [g] ∧ g.typ = 0x03 ∧ g.payload = leBytes 2 (leAt f.payload (outLen n) 2)) ∧
      (∀ m ≠ n.val, t.link m = s.link m ∧ t.sat m = s.sat m) ∧ t = { s with regs := t.regs, links := t.links, sats := t.sats } := by
  have he : exec (.resync n .ok) s = .next (((s.setResynced n rest (leAt f.payload (outLen n) 2)
      (mput 0 [] 0 (f.payload.take (outLen n)))).ccountView n).satSend n 0x03 (leBytes 2 (leAt f.payload (outLen n) 2))) :=
    congrArg _ (h.satTake ht _)
  generalize mput 0 [] 0 (f.payload.take (outLen n)) = b at he ⊢
  generalize leAt f.payload (outLen n) 2 = num at he ⊢
  have hsat : (s.setResynced n rest num b).sat n = _ := State.sat_setSat _ n _
  have hview := (s.setResynced n rest num b).ccountView_frame n
  have hsats : ((s.setResynced n rest num b).ccountView n).sats = (s.setResynced n rest num b).sats := State.ccountView_sats ..
  have hup : ((s.setResynced n rest num b).ccountView n).linkIsUp n = true :=
    (State.linkIsUp_ccountView _ n n n.isLt).trans h.up
  have hpow : ((s.setResynced n rest num b).ccountView n).present n = true :=
    State.present_of_same h.powered (by rw [hview]; rfl) (by rw [State.sat_congr hsats n, hsat])
  have hlink : ((s.setResynced n rest num b).ccountView n).link n = (s.satGot n rest).link n :=
    State.link_congr (State.ccountView_links ..) n
  have hsend := ((s.setResynced n rest num b).ccountView n).onlyLink_satSend n 0x03 (leBytes 2 num)
  refine ⟨_, he, ?_, ?_, ⟨((s.setResynced n rest num b).ccountView n).satFrame n 0x03 (leBytes 2 num), ?_, rfl, rfl⟩, fun m hm => ⟨?_, ?_⟩, ?_⟩
  · rw [State.sat_congr (hsend.sats.trans hsats) n, hsat]
  · rw [State.sat_congr (hsend.sats.trans hsats) n, hsat]
  · rw [State.satSend_of_up hup hpow, State.link_setLink, hlink, State.satGot_link]
    simp only [Link.satSent]
  · refine (hsend.others m hm).trans ?_
    exact (State.link_congr (State.ccountView_links ..) m).trans ((s.onlyLink_satGot n rest).others m hm)
  · exact (State.sat_congr (hsend.sats.trans hsats) m).trans (State.sat_setSat_other _ hm)
  · rw [hsend.frame, hview]; rfl

/-- R21. The frame that a NAK names goes out again. -/
theorem nak_sat_resends {s : State} {n : Slot} {f g : Frame} {rest : List Frame} (h : s.DownNext n f rest) (ht : f.typ = 0x04)
    (hg : ((s.link n).satKept.find? fun k => k.1.seq == leAt f.payload 0 2) = some (g, false)) :
    s.Does (.nak n true .ok) fun t => (t.link n).up = (s.link n).up ++ [g.again] ∧ (t.link n).down = rest ∧
      (t.link n).satKept = markNaked (leAt f.payload 0 2) (s.link n).satKept ∧ (∀ m ≠ n.val, t.link m = s.link m) ∧
      t = { s with links := t.links } := by
  have he : exec (.nak n true .ok) s = .next ((s.satGot n rest).nakTaken n (leAt f.payload 0 2) true) := congrArg Host.Outcome.next (h.satTake ht fun s p => s.nakTaken n (leAt p 0 2) true)
  rw [State.nakTaken_sat_resends (g := g) (by simpa using hg)] at he
  exact ⟨_, he, by simp, by simp, by simp,
    ((s.onlyLink_satGot n rest).trans (State.onlyLink_setLink ..)).others, rfl⟩

/-- R21. The frame that a second NAK names is dropped. -/
theorem nak_sat_drops {s : State} {n : Slot} {f g : Frame} {rest : List Frame} (h : s.DownNext n f rest) (ht : f.typ = 0x04)
    (hg : ((s.link n).satKept.find? fun k => k.1.seq == leAt f.payload 0 2) = some (g, true)) (htyp : g.typ ∉ [6, 7, 8]) :
    s.Does (.nak n true .ok) fun t => (t.link n).up = (s.link n).up ∧ (t.link n).down = rest ∧
      t.fbit Reg.COMMIT_FLAGS_LINK_DROP = true ∧ (∀ m ≠ n.val, t.link m = s.link m) ∧
      t = { s with regs := t.regs, live := t.live, cairn := t.cairn, links := t.links } := by
  have he : exec (.nak n true .ok) s = .next ((s.satGot n rest).nakTaken n (leAt f.payload 0 2) true) := congrArg Host.Outcome.next (h.satTake ht fun s p => s.nakTaken n (leAt p 0 2) true)
  rw [State.nakTaken_drops (g := g) (by simpa using hg)] at he
  obtain ⟨hflag, hframe⟩ := State.linkDrop_flags (s := s.satGot n rest) (n := n) htyp
  have hlinks : ((s.satGot n rest).linkDrop n g.typ).links = (s.satGot n rest).links := by rw [hframe]
  have hlink (m : Nat) : ((s.satGot n rest).linkDrop n g.typ).link m = (s.satGot n rest).link m := State.link_congr hlinks m
  exact ⟨_, he, by rw [hlink, State.satGot_link], by rw [hlink, State.satGot_link], hflag,
    fun m hm => (hlink m).trans ((s.onlyLink_satGot n rest).others m hm), by rw [hframe]; rfl⟩

/-- R40. Local time takes up the time of the SYNC, delayed by the latency of the link. -/
theorem sync_completes {s : State} {n : Slot} {f : Frame} {rest : List Frame} (h : s.DownNext n f rest) (ht : f.typ = 0x05) :
    s.Does (.sync n .ok) fun t => t.localTime n = leAt f.payload 0 8 + s.fget (Reg.LINK_LAT_LAT_NS n) ∧ (t.link n).down = rest ∧
      (∀ m ≠ n.val, t.sat m = s.sat m) ∧ t = { s with links := t.links, sats := t.sats } := by
  have he : exec (.sync n .ok) s = .next ((s.satGot n rest).setSat n { s.sat n with
      localBase := leAt f.payload 0 8 + s.fget (Reg.LINK_LAT_LAT_NS n), localAt := s.time.mono }) := congrArg _ (h.satTake ht _)
  refine ⟨_, he, ?_, ?_, fun m hm => State.sat_setSat_other _ hm, rfl⟩
  · simp only [State.localTime, State.sat_setSat, State.setSat_time]
    exact Nat.add_eq_left.2 (Nat.sub_self _)
  · exact congrArg Link.down (s.satGot_link n rest)

/-- R24. A PROBE is answered with its tag. -/
theorem probe_completes {s : State} {n : Slot} {f : Frame} {rest : List Frame} (h : s.DownNext n f rest) (ht : f.typ = 0x0C) :
    s.Does (.probe n .ok) fun t => (t.link n).up = (s.link n).up ++ [s.satFrame n 0x0D f.payload] ∧ (t.link n).down = rest ∧
      (∀ m ≠ n.val, t.link m = s.link m) ∧ t = { s with links := t.links } := by
  have he : exec (.probe n .ok) s = .next ((s.satGot n rest).satSend n 0x0D f.payload) := congrArg _ (h.satTake ht _)
  obtain ⟨hup, hdown⟩ := h.answers.sent 0x0D f.payload
  obtain ⟨hothers, hframe⟩ := (s.onlyLink_satGot n rest).trans (State.onlyLink_satSend _ n 0x0D f.payload)
  exact ⟨_, he, hup, hdown, hothers, hframe⟩

/-- Where a satellite's registers differ alone, its link stands as it did. -/
theorem State.linkIsUp_of_sat_regs {s t : State} {a n : Nat} (hn : n < 8) (ha : 0x41000000 ≤ a) (h : ∀ b ≠ a, mget 0 t.regs b = mget 0 s.regs b) :
    t.linkIsUp n = s.linkIsUp n := by
  have hb : mget 0 t.regs (Reg.LINK_STAT_UP n).addr = mget 0 s.regs (Reg.LINK_STAT_UP n).addr := h _ (by simp only [Reg.LINK_STAT_UP]; omega)
  unfold State.linkIsUp State.fbit State.fget
  rw [hb]

/-- A satellite's answer to an access at which its register `a` alone takes the content `v`. -/
theorem State.DownNext.access {s : State} {n : Slot} {f : Frame} {rest : List Frame} (h : s.DownNext n f rest) {a v : Nat}
    (ha : 0x41000000 ≤ a) (p : List Byte) {c : Instr}
    (he : exec c s = .next ({ s.satGot n rest with regs := mset 0 s.regs a v }.satSend n 0x08 p)) :
    s.Does c fun t => mget 0 t.regs a = v ∧ (∀ b ≠ a, mget 0 t.regs b = mget 0 s.regs b) ∧
      (t.link n).up = (s.link n).up ++ [s.satFrame n 0x08 p] ∧ t = { s with regs := t.regs, links := t.links } := by
  have hup : { s.satGot n rest with regs := mset 0 s.regs a v }.linkIsUp n = true :=
    (State.linkIsUp_of_sat_regs n.isLt ha fun b hb => mget_mset_other hb).trans h.up
  have hu : s.Answers { s.satGot n rest with regs := mset 0 s.regs a v } n rest := ⟨rfl, hup, h.powered, rfl⟩
  have hsend := { s.satGot n rest with regs := mset 0 s.regs a v }.onlyLink_satSend n 0x08 p
  refine ⟨_, he, ?_, fun b hb => ?_, (hu.sent 0x08 p).1, ?_⟩
  · rw [hsend.regs]; exact mget_mset_same
  · rw [hsend.regs]; exact mget_mset_other hb
  · rw [hsend.frame]; rfl

theorem le_satBase (n off : Nat) : 0x41000000 ≤ satBase n + off := by unfold satBase; omega

/-- R12, R241, R298, R332. A write to a register that is no mode, profile or shadow register follows its access types alone. -/
theorem State.satWrite_of_fields {s : State} {n off : Nat} {fs : List FieldRow} (w : Nat) (hf : satFields (satBase n + off) = some fs)
    (h0 : 0 < off) (h1 : off < 0x1000) (h14 : off ≠ 0x14)
    (hplain : if n ≤ 3 then off < 0x100 ∨ (off % 0x40 ≠ 0x18 ∧ off % 0x40 ≠ 0x1C) else off ≠ 0x1C) :
    s.satWrite n off w =
      (0, { s with regs := mset 0 s.regs (satBase n + off) (afterWrite fs (mget 0 s.regs (satBase n + off)) w) }) := by
  have hshadow : (decide (n ≤ 3) && decide (0x100 ≤ off) && (off % 0x40 == 0x18 || off % 0x40 == 0x1C)) = false := by
    by_cases hn : n ≤ 3
    · rw [if_pos hn] at hplain
      rcases hplain with h | ⟨h18, h1C⟩
      · simp [Nat.not_le.2 h]
      · simp [h18, h1C]
    · simp [hn]
  have hstby : ¬ ((n = 4 ∨ n = 5) ∧ off = 0x1C) := by
    rintro ⟨hn, rfl⟩
    rw [if_neg (by omega)] at hplain
    exact hplain rfl
  have hwindow : ¬ (n ≤ 3 ∧ 0x1000 ≤ off ∧ off < 0x2000 ∧ off % 4 = 0) := by omega
  have hloaded : ¬ (n ≤ 3 ∧ off = 0x2000) := by omega
  simp only [State.satWrite, Nat.ne_of_gt h0, if_false, hwindow, hloaded, hf, hshadow, h14, and_false, hstby, Bool.false_and,
    Bool.false_eq_true]

/-- R12. An offset without a register ignores a write. -/
theorem State.satWrite_of_none {s : State} {n off : Nat} (w : Nat) (hf : satFields (satBase n + off) = none) (h0 : 0 < off)
    (h1 : off < 0x1000) : s.satWrite n off w = (0, s) := by
  have hwindow : ¬ (n ≤ 3 ∧ 0x1000 ≤ off ∧ off < 0x2000 ∧ off % 4 = 0) := by omega
  have hloaded : ¬ (n ≤ 3 ∧ off = 0x2000) := by omega
  simp only [State.satWrite, Nat.ne_of_gt h0, if_false, hwindow, hloaded, hf]

theorem State.satRead_of_fields {s : State} {n off : Nat} {fs : List FieldRow} (hf : satFields (satBase n + off) = some fs)
    (h0 : 0 < off) (h1 : off < 0x1000) : s.satRead n off =
      (readValue fs (mget 0 s.regs (satBase n + off)), 0,
        { s with regs := mset 0 s.regs (satBase n + off) (afterRead fs (mget 0 s.regs (satBase n + off))) }) := by
  have hwindow : ¬ (n ≤ 3 ∧ 0x1000 ≤ off ∧ off ≤ 0x2000 ∧ off % 4 = 0) := by omega
  simp only [State.satRead, Nat.ne_of_gt h0, if_false, hwindow, hf]

/-- R12. An offset without a register reads 0. -/
theorem State.satRead_of_none {s : State} {n off : Nat} (hf : satFields (satBase n + off) = none) (h0 : 0 < off) (h1 : off < 0x1000) :
    s.satRead n off = (0, 0, s) := by
  have hwindow : ¬ (n ≤ 3 ∧ 0x1000 ≤ off ∧ off ≤ 0x2000 ∧ off % 4 = 0) := by omega
  simp only [State.satRead, Nat.ne_of_gt h0, if_false, hwindow, hf]

/-- R22. A write that reaches the satellite, and its answer. -/
theorem State.DownNext.exec_regWr {s : State} {n : Slot} {f : Frame} {rest : List Frame} (h : s.DownNext n f rest) (ht : f.typ = 0x06) :
    exec (.regWr n .ok) s = .next (((s.satGot n rest).satWrite n (leAt f.payload 0 4) (leAt f.payload 4 4)).2.satSend n 0x08
      (leBytes 4 (leAt f.payload 0 4) ++ leBytes 4 (leAt f.payload 4 4) ++
        leBytes 1 ((s.satGot n rest).satWrite n (leAt f.payload 0 4) (leAt f.payload 4 4)).1)) :=
  congrArg Host.Outcome.next (h.satTake ht _)

/-- R22. A read that reaches the satellite, and its answer. -/
theorem State.DownNext.exec_regRd {s : State} {n : Slot} {f : Frame} {rest : List Frame} (h : s.DownNext n f rest) (ht : f.typ = 0x07) :
    exec (.regRd n .ok) s = .next (((s.satGot n rest).satRead n (leAt f.payload 0 4)).2.2.satSend n 0x08
      (leBytes 4 (leAt f.payload 0 4) ++ leBytes 4 ((s.satGot n rest).satRead n (leAt f.payload 0 4)).1 ++
        leBytes 1 ((s.satGot n rest).satRead n (leAt f.payload 0 4)).2.1)) :=
  congrArg Host.Outcome.next (h.satTake ht _)

/-- A satellite's answer to an access that changes nothing. -/
theorem State.DownNext.bareAccess {s : State} {n : Slot} {f : Frame} {rest : List Frame} (h : s.DownNext n f rest) (p : List Byte) {c : Instr}
    (he : exec c s = .next ((s.satGot n rest).satSend n 0x08 p)) :
    s.Does c fun t => (t.link n).up = (s.link n).up ++ [s.satFrame n 0x08 p] ∧ t = { s with links := t.links } :=
  ⟨_, he, (h.answers.sent 0x08 p).1, ((s.onlyLink_satGot n rest).trans (State.onlyLink_satSend _ n 0x08 p)).frame⟩

/-- R21. The satellite discards an aborted frame and answers with NAK. -/
theorem frameAbort_sat {s : State} {n : Slot} {f : Frame} {rest : List Frame} (h : s.DownNext n f rest) :
    s.Does (.frameAbort n true) fun t => (t.link n).down = rest ∧
      (t.link n).up = (s.link n).up ++ [s.satFrame n 0x04 (leBytes 2 (s.link n).satRx)] ∧ (∀ m ≠ n.val, t.link m = s.link m) ∧
      t = { s with links := t.links } := by
  have he : exec (.frameAbort n true) s = .next (s.satDiscard n rest) := by
    simp [exec, execFrameAbort, h.head, h.powered]
  have hnak : s.satNak n = s.setLink n ((s.link n).satSent (s.satFrame n 0x04 (leBytes 2 (s.link n).satRx))) :=
    State.satSend_of_up h.up h.powered _ _
  obtain ⟨hothers, hframe⟩ := (s.onlyLink_satSend n 0x04 (leBytes 2 (s.link n).satRx)).trans (State.onlyLink_setLink _ n _)
  refine ⟨_, he, ?_, ?_, hothers, hframe⟩
  · simp [State.satDiscard]
  · simp [State.satDiscard, hnak, Link.satSent]

/-- Settles O13: each frame is taken in order by `State.DownNext.satTake`, and its answer stands behind those before (`State.Answers.sent`). -/
theorem satelliteFramesComplete : Obligations.SatelliteFramesComplete := by
  intro s n f rest _ h
  refine ⟨stage_completes h, resync_completes h, fun g ht hg => nak_sat_resends h ht hg, fun g ht hg htyp => nak_sat_drops h ht hg htyp,
    sync_completes h, probe_completes h, fun fs ht hf h0 h1 h14 hplain => ?_, fun ht hf h0 h1 => ?_, fun fs ht hf h0 h1 => ?_,
    fun ht hf h0 h1 => ?_, frameAbort_sat h⟩
  · have he := h.exec_regWr ht
    rw [State.satWrite_of_fields _ hf h0 h1 h14 hplain] at he
    exact h.access (le_satBase ..) _ he
  · have he := h.exec_regWr ht
    rw [State.satWrite_of_none _ hf h0 h1] at he
    exact h.bareAccess _ he
  · have he := h.exec_regRd ht
    rw [State.satRead_of_fields hf h0 h1] at he
    exact h.access (le_satBase ..) _ he
  · have he := h.exec_regRd ht
    rw [State.satRead_of_none hf h0 h1] at he
    exact h.bareAccess _ he

end Sys2Proof.Machine
end
section
namespace Sys2Proof.Machine

/-! ### Fields and bits -/

/-- A mask with bit `i` written reads back that bit, and every other bit as before. -/
theorem bit_putBit (v i k : Nat) (b : Bool) : bit (putBit v i b) k = if k = i then b else bit v k := by
  have hput : putBit v i b = putField v i 1 (b2n b) := by cases b <;> simp [putBit, putField, fieldOf, b2n]
  rw [hput, bit, testBit_putField]
  by_cases h : k = i
  · subst h; cases b <;> simp [b2n]
  · rw [if_neg (by omega), if_neg h]

theorem State.fget_lt (s : State) (f : Fld) : s.fget f < 2 ^ (f.hi + 1 - f.lo) := Nat.mod_lt _ (Nat.two_pow_pos _)

/-- A field written alone leaves every field apart from it as it was. -/
theorem State.regsBut_fset (s : State) (f : Fld) (v : Nat) (hf : f.lo ≤ f.hi) : s.regsBut (s.fset f v) [f] := by
  intro g hg h
  rcases h f (List.mem_singleton_self f) with h | h | h
  · exact State.fget_fset_addr s h
  · exact State.fget_fset_bits s (.inl (by omega)) hg hf
  · exact State.fget_fset_bits s (.inr (by omega)) hg hf

/-! ### What the control die does with an answer (R21, R22, R24, R28, R31) -/

theorem State.fget_ctlGot (s : State) (n : Nat) (rest : List Frame) (g : Fld) : (s.ctlGot n rest).fget g = s.fget g := rfl

/-- R28. The ACK that names the set in flight settles it. -/
theorem ack_settles {s : State} {n : Slot} {f : Frame} {rest : List Frame} {k : Nat} (h : s.UpNext n f rest) (ht : f.typ = 0x03)
    (hk : (s.link n).stageNum = some k) (hp : leAt f.payload 0 2 = k) (hc : k ≠ s.fget Reg.COMMIT_NUM_CCOUNT)
    (hr : (s.link n).resync = false) :
    s.Does (.ack n .ok) fun t => (t.link n).acked = some k ∧ (t.link n).up = rest ∧ (∀ m ≠ n.val, t.link m = s.link m) ∧
      t = { s with links := t.links } := by
  have he : exec (.ack n .ok) s = .next ((s.ctlGot n rest).setLink n { (s.ctlGot n rest).link n with acked := some k }) := by
    refine congrArg Host.Outcome.next ((h.ctlTake ht rfl _).trans ?_)
    simp [hk, hp, hc, hr, State.fget_ctlGot]
  obtain ⟨hothers, hframe⟩ := (s.onlyLink_ctlGot n rest).trans (State.onlyLink_setLink _ n _)
  exact ⟨_, he, by simp, by simp, hothers, hframe⟩

/-- R31. An ACK that names another set is remembered as wrong. -/
theorem ack_wrong {s : State} {n : Slot} {f : Frame} {rest : List Frame} {k : Nat} (h : s.UpNext n f rest) (ht : f.typ = 0x03)
    (hk : (s.link n).stageNum = some k) (hp : leAt f.payload 0 2 ≠ k) :
    s.Does (.ack n .ok) fun t => (t.link n).ackWrong = true ∧ (t.link n).acked = (s.link n).acked ∧
      (∀ m ≠ n.val, t.link m = s.link m) ∧ t = { s with links := t.links } := by
  have he : exec (.ack n .ok) s = .next ((s.ctlGot n rest).setLink n { (s.ctlGot n rest).link n with ackWrong := true }) := by
    refine congrArg Host.Outcome.next ((h.ctlTake ht rfl _).trans ?_)
    simp [hk, hp]
  obtain ⟨hothers, hframe⟩ := (s.onlyLink_ctlGot n rest).trans (State.onlyLink_setLink _ n _)
  exact ⟨_, he, by simp, by simp, hothers, hframe⟩

theorem commitNum_apart (n : Slot) : Reg.COMMIT_NUM_CCOUNT.addr ≠ (Reg.LINK_STAT_DIE_CCOUNT n).addr := by
  simp only [Reg.COMMIT_NUM_CCOUNT, Reg.LINK_STAT_DIE_CCOUNT]
  omega

/-- R31. A CONFIRM of the present commit number counts its die as confirmed. -/
theorem confirm_completes {s : State} {n : Slot} {f : Frame} {rest : List Frame} (h : s.UpNext n f rest) (ht : f.typ = 0x0E)
    (hdue : s.time.confirmDue = true) (hsent : bit s.time.sentTo n = true) (hc : f.ccount = s.fget Reg.COMMIT_NUM_CCOUNT) :
    s.Does (.confirm n .ok) fun t => bit t.time.confirmed n = true ∧ (∀ m ≠ n.val, bit t.time.confirmed m = bit s.time.confirmed m) ∧
      t.fget (Reg.LINK_STAT_DIE_CCOUNT n) = f.ccount ∧ s.regsBut t [Reg.LINK_STAT_DIE_CCOUNT n] ∧
      t = { s with time := t.time, regs := t.regs, links := t.links } := by
  have hnum : ((s.ctlGot n rest).fset (Reg.LINK_STAT_DIE_CCOUNT n) f.ccount).fget Reg.COMMIT_NUM_CCOUNT = f.ccount := by
    rw [State.fget_fset_addr _ (commitNum_apart n), State.fget_ctlGot, hc]
  have he : exec (.confirm n .ok) s = .next { (s.ctlGot n rest).fset (Reg.LINK_STAT_DIE_CCOUNT n) f.ccount with
      time := { s.time with confirmed := putBit s.time.confirmed n true } } := by
    refine congrArg Host.Outcome.next ((h.ctlTake ht rfl _).trans ?_)
    have hdue' : ((s.ctlGot n rest).fset (Reg.LINK_STAT_DIE_CCOUNT n) f.ccount).time = s.time := rfl
    simp only [hnum, hdue', hdue, hsent, Bool.not_true, Bool.or_self, Bool.false_eq_true, if_false, ne_eq, not_true_eq_false]
  have hlt : f.ccount < 2 ^ 16 := hc ▸ s.fget_lt Reg.COMMIT_NUM_CCOUNT
  refine ⟨_, he, by simp [bit_putBit], fun m hm => by simp [bit_putBit, hm], ?_, (s.ctlGot n rest).regsBut_fset _ _ (by simp only [Reg.LINK_STAT_DIE_CCOUNT]; decide), rfl⟩
  exact (State.fget_fset_same _ _ _).trans (Nat.mod_eq_of_lt hlt)

/-- R21. The frame that a satellite's NAK names goes out again. -/
theorem nak_ctl_resends {s : State} {n : Slot} {f g : Frame} {rest : List Frame} (h : s.UpNext n f rest) (ht : f.typ = 0x04)
    (hg : ((s.link n).ctlKept.find? fun k => k.1.seq == leAt f.payload 0 2) = some (g, false)) :
    s.Does (.nak n false .ok) fun t => (t.link n).down = (s.link n).down ++ [g.again] ∧ (t.link n).up = rest ∧
      (t.link n).ctlKept = markNaked (leAt f.payload 0 2) (s.link n).ctlKept ∧ (∀ m ≠ n.val, t.link m = s.link m) ∧
      t = { s with links := t.links } := by
  have he : exec (.nak n false .ok) s = .next ((s.ctlGot n rest).nakTaken n (leAt f.payload 0 2) false) :=
    congrArg Host.Outcome.next (h.ctlTake ht (p := fun _ => true) rfl fun s p _ => s.nakTaken n (leAt p 0 2) false)
  rw [State.nakTaken_ctl_resends (g := g) (by simpa using hg)] at he
  exact ⟨_, he, by simp, by simp, by simp, ((s.onlyLink_ctlGot n rest).trans (State.onlyLink_setLink ..)).others, rfl⟩

/-- R21. The frame that a satellite's second NAK names is dropped. -/
theorem nak_ctl_drops {s : State} {n : Slot} {f g : Frame} {rest : List Frame} (h : s.UpNext n f rest) (ht : f.typ = 0x04)
    (hg : ((s.link n).ctlKept.find? fun k => k.1.seq == leAt f.payload 0 2) = some (g, true)) (htyp : g.typ ∉ [6, 7, 8]) :
    s.Does (.nak n false .ok) fun t => (t.link n).down = (s.link n).down ∧ (t.link n).up = rest ∧
      t.fbit Reg.COMMIT_FLAGS_LINK_DROP = true ∧ (∀ m ≠ n.val, t.link m = s.link m) ∧
      t = { s with regs := t.regs, live := t.live, cairn := t.cairn, links := t.links } := by
  have he : exec (.nak n false .ok) s = .next ((s.ctlGot n rest).nakTaken n (leAt f.payload 0 2) false) :=
    congrArg Host.Outcome.next (h.ctlTake ht (p := fun _ => true) rfl fun s p _ => s.nakTaken n (leAt p 0 2) false)
  rw [State.nakTaken_drops (g := g) (by simpa using hg)] at he
  obtain ⟨hflag, hframe⟩ := State.linkDrop_flags (s := s.ctlGot n rest) (n := n) htyp
  have hlinks : ((s.ctlGot n rest).linkDrop n g.typ).links = (s.ctlGot n rest).links := by rw [hframe]
  have hlink (m : Nat) : ((s.ctlGot n rest).linkDrop n g.typ).link m = (s.ctlGot n rest).link m := State.link_congr hlinks m
  exact ⟨_, he, by rw [hlink, State.ctlGot_link], by rw [hlink, State.ctlGot_link], hflag,
    fun m hm => (hlink m).trans ((s.onlyLink_ctlGot n rest).others m hm), by rw [hframe]; rfl⟩

/-! ### Register accesses in hand (R22) -/

/-- R22. The next access goes out once none is outstanding. -/
theorem State.regSend_spec (s : State) (n : Nat) (hat : (s.link n).regAt = none) :
    s.OnlyLink (s.regSend n) n ∧ ((s.regSend n).link n).regQ = (s.link n).regQ ∧
      ((s.regSend n).link n).regAt = (if (s.link n).regQ = [] then none else some s.time.mono) := by
  cases hq : (s.link n).regQ with
  | nil => simp [State.regSend, hq, hat, State.OnlyLink.refl]
  | cons r q =>
    have hsend (typ : Nat) (p : List Byte) : s.OnlyLink (s.ctlSend n typ p) n ∧ ((s.ctlSend n typ p).link n).regQ = r :: q ∧
        (s.ctlSend n typ p).time = s.time := by
      refine ⟨s.onlyLink_ctlSend n typ p, ?_, by rw [(s.onlyLink_ctlSend n typ p).frame]⟩
      unfold State.ctlSend
      split <;> simp [hq]
    have hu : ∃ u : State, s.OnlyLink u n ∧ (u.link n).regQ = r :: q ∧ u.time = s.time ∧
        s.regSend n = u.setLink n { u.link n with regAt := some u.time.mono } := by
      simp only [State.regSend, hq, hat]
      split
      · exact ⟨_, (hsend ..).1, (hsend ..).2.1, (hsend ..).2.2, rfl⟩
      · exact ⟨_, (hsend ..).1, (hsend ..).2.1, (hsend ..).2.2, rfl⟩
    obtain ⟨u, hlink, hreg, htime, heq⟩ := hu
    rw [heq]
    exact ⟨hlink.trans (State.onlyLink_setLink ..), by simp [hreg], by simp [htime]⟩

/-- R22. The end of an access of the debug interface: its result stands there, and the next access goes out. -/
theorem State.regEnd_debug {s : State} {n st v : Nat} {r : RegAcc} {q : List RegAcc} (hq : (s.link n).regQ = r :: q) (hr : r.req = 2) :
    ((s.regEnd n st v).link n).regQ = q ∧ (s.regEnd n st v).tap.tdo = leBytes 4 v ++ leBytes 1 st ∧
      ((s.regEnd n st v).link n).regAt = (if q = [] then none else some s.time.mono) ∧
      (∀ m ≠ n, (s.regEnd n st v).link m = s.link m) ∧
      s.regEnd n st v = { s with links := (s.regEnd n st v).links, tap := (s.regEnd n st v).tap } := by
  have he : s.regEnd n st v = { s.setLink n { s.link n with regQ := q, regAt := none } with
      tap := { s.tap with tdo := leBytes 4 v ++ leBytes 1 st } }.regSend n := by
    simp only [State.regEnd, hq, hr, State.setLink_tap]
  generalize hu : { s.setLink n { s.link n with regQ := q, regAt := none } with
      tap := { s.tap with tdo := leBytes 4 v ++ leBytes 1 st } } = u at he
  have hlink : u.link n = { s.link n with regQ := q, regAt := none } := by rw [← hu]; exact s.link_setLink n _
  obtain ⟨⟨hothers, hframe⟩, hreg, hat⟩ := u.regSend_spec n (by rw [hlink])
  rw [he]
  rw [hlink] at hreg hat
  refine ⟨hreg, ?_, ?_, fun m hm => ?_, ?_⟩
  · rw [hframe, ← hu]
  · rw [hat, ← hu]; rfl
  · rw [hothers m hm, ← hu]; exact State.link_setLink_other s hm
  · rw [hframe, ← hu]; rfl

/-- R22. The answer of the debug interface's access ends it. -/
theorem regRsp_completes {s : State} {n : Slot} {f : Frame} {rest : List Frame} {at_ : Nat} {r : RegAcc} {q : List RegAcc}
    (h : s.UpNext n f rest) (ht : f.typ = 0x08) (hat : (s.link n).regAt = some at_) (hq : (s.link n).regQ = r :: q) (hr : r.req = 2)
    (hoff : leAt f.payload 0 4 = r.off % 2 ^ 32) :
    s.Does (.regRsp n .ok) fun t => (t.link n).regQ = q ∧
      t.tap.tdo = leBytes 4 (leAt f.payload 4 4) ++ leBytes 1 (if leAt f.payload 8 1 = 0 then aOk else aUnmapped) ∧
      (t.link n).regAt = (if q = [] then none else some s.time.mono) ∧ t = { s with links := t.links, tap := t.tap } := by
  have he : exec (.regRsp n .ok) s = .next ((s.ctlGot n rest).regEnd n (if leAt f.payload 8 1 = 0 then aOk else aUnmapped) (leAt f.payload 4 4)) := by
    refine congrArg Host.Outcome.next ((h.ctlTake ht rfl _).trans ?_)
    simp only [State.ctlGot_link, hat, hq, hoff, if_true]
  have hq' : ((s.ctlGot n rest).link n).regQ = r :: q := by rw [State.ctlGot_link]; exact hq
  obtain ⟨hreg, htdo, hregAt, -, hframe⟩ := State.regEnd_debug (st := if leAt f.payload 8 1 = 0 then aOk else aUnmapped)
    (v := leAt f.payload 4 4) hq' hr
  exact ⟨_, he, hreg, htdo, hregAt, hframe⟩

/-! ### Measurement of a link (R24, R35) -/

/-- A frame sent leaves what has been measured. -/
theorem State.ctlSend_measured (s : State) (n typ : Nat) (p : List Byte) : ((s.ctlSend n typ p).link n).rtts = (s.link n).rtts ∧
    ((s.ctlSend n typ p).link n).measuring = (s.link n).measuring ∧ ((s.ctlSend n typ p).link n).failSince = (s.link n).failSince := by
  unfold State.ctlSend
  split <;> simp

/-- R24. The next PROBE goes out, and the round trips measured stay. -/
theorem State.sendProbe_spec (s : State) (n : Nat) : s.OnlyLink (s.sendProbe n) n ∧ ((s.sendProbe n).link n).rtts = (s.link n).rtts ∧
    ((s.sendProbe n).link n).measuring = (s.link n).measuring := by
  obtain ⟨hrtts, hmeas, -⟩ := (s.setLink n { s.link n with probeTag := ((s.link n).probeTag + 1) % 2 ^ 32 }).ctlSend_measured n 0x0C
    (leBytes 4 (((s.link n).probeTag + 1) % 2 ^ 32))
  exact ⟨(s.onlyLink_setLink n _).trans (State.onlyLink_ctlSend ..), hrtts.trans (by simp), hmeas.trans (by simp)⟩

/-- R35. A complete set sent leaves the measurement of its link. -/
theorem State.sendResync_spec (s : State) (n : Nat) : s.OnlyLink (s.sendResync n) n ∧
    ((s.sendResync n).link n).measuring = (s.link n).measuring ∧ ((s.sendResync n).link n).failSince = (s.link n).failSince := by
  unfold State.sendResync
  dsimp only
  split
  · unfold State.resyncTo
    dsimp only
    obtain ⟨-, hmeas, hfail⟩ := s.ctlSend_measured n 0x0A
      (mslice 0 (if s.mode = mStandby then (s.link n).sentOut else s.dieOut n) 0 (outLen n) ++
        leBytes 2 ((s.fget Reg.COMMIT_NUM_CCOUNT + 1) % 65536))
    exact ⟨(s.onlyLink_ctlSend ..).trans (State.onlyLink_setLink ..), by rw [State.link_setLink]; exact hmeas,
      by rw [State.link_setLink]; exact hfail⟩
  · exact ⟨.refl s n, rfl, rfl⟩

/-- R24. The sixteenth round trip gives the latency, and ends the measurement. -/
theorem State.measured16_spec (s : State) (n : Nat) :
    (s.measured16 n).fget (Reg.LINK_LAT_LAT_NS n) = clip 12 (latencyOf (s.link n).rtts) ∧ ((s.measured16 n).link n).measuring = false ∧
      ((s.measured16 n).link n).failSince.isSome = latencyBad (s.link n).rtts ∧
      s.measured16 n = { s with regs := (s.measured16 n).regs, links := (s.measured16 n).links } := by
  have hu : ∃ u : State, s.measured16 n = (if u.mode = mBoot then u else u.sendResync n) ∧
      u.fget (Reg.LINK_LAT_LAT_NS n) = clip 12 (latencyOf (s.link n).rtts) ∧ (u.link n).measuring = false ∧
      (u.link n).failSince.isSome = latencyBad (s.link n).rtts ∧ u = { s with regs := u.regs, links := u.links } := by
    refine ⟨_, rfl, ?_, ?_, ?_, rfl⟩
    · have hlat := State.fget_fset_same s (Reg.LINK_LAT_LAT_NS n) (clip 12 (latencyOf (s.link n).rtts))
      refine (State.fget_fset_bits _ (.inl (by simp [Reg.LINK_LAT_LAT_NS, Reg.LINK_LAT_HOLD_NS])) (by simp [Reg.LINK_LAT_LAT_NS])
        (by simp [Reg.LINK_LAT_HOLD_NS])).trans (hlat.trans (Nat.mod_eq_of_lt ?_))
      simp only [Reg.LINK_LAT_LAT_NS, clip]
      omega
    · rw [State.link_setLink]
    · rw [State.link_setLink]
      cases latencyBad (s.link n).rtts <;> simp
  obtain ⟨u, heq, hlat, hmeas, hfail, hframe⟩ := hu
  rw [heq]
  split
  · exact ⟨hlat, hmeas, hfail, hframe⟩
  · obtain ⟨hlink, hmeas', hfail'⟩ := u.sendResync_spec n
    refine ⟨?_, hmeas'.trans hmeas, by rw [hfail', hfail], by rw [hlink.frame, hframe]⟩
    rw [← hlat, State.fget, State.fget, hlink.regs]

/-- R24. A round trip before the sixteenth joins those measured. -/
theorem echo_counts {s : State} {n : Slot} {f : Frame} {rest : List Frame} (h : s.UpNext n f rest) (ht : f.typ = 0x0D)
    (hm : (s.link n).measuring = true) (hp : leAt f.payload 0 4 = (s.link n).probeTag) (rtt : Nat) (hl : (s.link n).rtts.length < 15) :
    s.Does (.echo n .ok rtt) fun t => (t.link n).rtts = rtt :: (s.link n).rtts ∧ (t.link n).measuring = true ∧
      t = { s with links := t.links } := by
  have he : exec (.echo n .ok rtt) s =
      .next (((s.ctlGot n rest).setLink n { (s.ctlGot n rest).link n with rtts := rtt :: (s.link n).rtts }).sendProbe n) := by
    refine congrArg Host.Outcome.next ((h.ctlTake ht rfl _).trans ?_)
    simp [hm, hp, hl]
  generalize hu : (s.ctlGot n rest).setLink n { (s.ctlGot n rest).link n with rtts := rtt :: (s.link n).rtts } = u at he
  have hlink : u.link n = { (s.ctlGot n rest).link n with rtts := rtt :: (s.link n).rtts } := by rw [← hu]; exact State.link_setLink ..
  obtain ⟨hprobe, hrtts, hmeas⟩ := u.sendProbe_spec n
  refine ⟨_, he, by rw [hrtts, hlink], by rw [hmeas, hlink]; simp [hm], ?_⟩
  rw [hprobe.frame, ← hu]; rfl

theorem latencyOf_sixteen {r : List Nat} (h : r.length = 16) : latencyOf r = (r.foldl (· + ·) 0 - 6400) / 32 := by
  simp [latencyOf, h]

theorem latencyBad_eq_true (r : List Nat) :
    latencyBad r = true ↔ 2000 < latencyOf r ∨ 40 < r.foldl max 0 - r.foldl min (r.foldl max 0) := by
  simp [latencyBad]

/-- R24. The sixteenth round trip gives the latency of the link. -/
theorem echo_measures {s : State} {n : Slot} {f : Frame} {rest : List Frame} (h : s.UpNext n f rest) (ht : f.typ = 0x0D)
    (hm : (s.link n).measuring = true) (hp : leAt f.payload 0 4 = (s.link n).probeTag) (rtt : Nat) (hl : (s.link n).rtts.length = 15) :
    let r := rtt :: (s.link n).rtts
    let lat := (r.foldl (· + ·) 0 - 6400) / 32
    s.Does (.echo n .ok rtt) fun t => t.fget (Reg.LINK_LAT_LAT_NS n) = clip 12 lat ∧ (t.link n).measuring = false ∧
      ((t.link n).failSince.isSome ↔ 2000 < lat ∨ 40 < r.foldl max 0 - r.foldl min (r.foldl max 0)) ∧
      t = { s with regs := t.regs, links := t.links } := by
  intro r lat
  have he : exec (.echo n .ok rtt) s = .next (((s.ctlGot n rest).setLink n { (s.ctlGot n rest).link n with rtts := r }).measured16 n) := by
    refine congrArg Host.Outcome.next ((h.ctlTake ht rfl _).trans ?_)
    simp [hm, hp, hl, r]
  generalize hu : (s.ctlGot n rest).setLink n { (s.ctlGot n rest).link n with rtts := r } = u at he
  have hr : (u.link n).rtts = r := by rw [← hu, State.link_setLink]
  have hlat : latencyOf r = lat := latencyOf_sixteen (by simp [r, hl])
  obtain ⟨hget, hmeas, hfail, hframe⟩ := u.measured16_spec n
  rw [hr] at hfail hget
  refine ⟨_, he, by rw [hget, hlat], hmeas, ?_, ?_⟩
  · rw [hfail, latencyBad_eq_true, hlat]
  · rw [hframe, ← hu]; rfl

/-- R21. The control die discards an aborted frame and answers with NAK. -/
theorem frameAbort_ctl {s : State} {n : Slot} {f : Frame} {rest : List Frame} (h : s.UpNext n f rest) :
    s.Does (.frameAbort n false) fun t => (t.link n).up = rest ∧
      (t.link n).down = (s.link n).down ++ [s.ctlFrame n 0x04 (leBytes 2 (s.link n).ctlRx)] ∧ (∀ m ≠ n.val, t.link m = s.link m) ∧
      t = { s with links := t.links } := by
  have he : exec (.frameAbort n false) s = .next (s.ctlDiscard n rest) := by
    simp [exec, execFrameAbort, h.head]
  have hnak : s.ctlNak n = s.setLink n ((s.link n).ctlSent (s.ctlFrame n 0x04 (leBytes 2 (s.link n).ctlRx))) :=
    State.ctlSend_of_up h.up _ _
  obtain ⟨hothers, hframe⟩ := (s.onlyLink_ctlSend n 0x04 (leBytes 2 (s.link n).ctlRx)).trans (State.onlyLink_setLink _ n _)
  refine ⟨_, he, ?_, ?_, hothers, hframe⟩
  · simp [State.ctlDiscard]
  · simp [State.ctlDiscard, hnak, Link.ctlSent]

/-- Settles O14: each answer is taken in order by `State.UpNext.ctlTake` and acted on as its kind asks. -/
theorem controlAnswersComplete : Obligations.ControlAnswersComplete := by
  intro s n f rest _ h
  exact ⟨fun k ht hk hp hc hr => ack_settles h ht hk hp hc hr, fun k ht hk hp => ack_wrong h ht hk hp,
    fun ht hdue hsent hc => confirm_completes h ht hdue hsent hc, fun g ht hg => nak_ctl_resends h ht hg,
    fun g ht hg htyp => nak_ctl_drops h ht hg htyp, fun at_ r q ht hat hq hr hoff => regRsp_completes h ht hat hq hr hoff,
    fun rtt ht hm hp hl => echo_counts h ht hm hp rtt hl, fun rtt ht hm hp hl => echo_measures h ht hm hp rtt hl, frameAbort_ctl h⟩

end Sys2Proof.Machine
end
section
namespace Sys2Proof.Machine

/-! ### What stays as it is

One law for each operation, in the order of the model's files, as for `State.Keeps`; a later one follows from the earlier ones. -/

/-- The registers watched: the boot's result, the status of each link, the commit number and its flags. -/
def coreAddr (a : Nat) : Bool :=
  decide (0x40000100 ≤ a ∧ a < 0x40000108) || decide (0x40020800 ≤ a ∧ a < 0x40020880 ∧ a % 16 = 0) ||
    decide (0x40020880 ≤ a ∧ a < 0x40020888)

theorem coreAddr_eq_false {a : Nat} (h : ¬ (0x40000100 ≤ a ∧ a < 0x40000108) ∧ ¬ (0x40020800 ≤ a ∧ a < 0x40020880 ∧ a % 16 = 0) ∧
    ¬ (0x40020880 ≤ a ∧ a < 0x40020888)) : coreAddr a = false := by
  simp only [coreAddr, decide_eq_false h.1, decide_eq_false h.2.1, decide_eq_false h.2.2, Bool.or_self]

/-- What registers `r` hold at the addresses watched; of the protection's status, its lock. -/
def coreOf (r : Nums) (a : Nat) : Nat :=
  if coreAddr a then mget 0 r a else if a = Reg.PROT_STAT_PROT_LOCK.addr then fieldOf (mget 0 r a) 0 1 else 0

/-- The operating mode that registers `r` hold. -/
def modeOf (r : Nums) : Nat := fieldOf (mget 0 r Reg.MODE_STAT_MODE.addr) 0 3

/-- What the links `l` hold of the INPUT block of slot `n`: whether it is due, whether it is in, and its bytes. -/
def inputsOf (l : List (Nat × Link)) (n : Nat) : Bool × Bool × List Byte := ((mget {} l n).inputDue, (mget {} l n).inputIn, (mget {} l n).input)

/-- A field that shares no bit with what `coreOf` and `modeOf` watch. -/
def Fld.aside (f : Fld) : Bool :=
  decide (f.lo ≤ f.hi) &&
    (decide (0x40020888 ≤ f.addr) || !coreAddr f.addr && (Reg.PROT_STAT_PROT_LOCK.apart f && Reg.MODE_STAT_MODE.apart f))

theorem Fld.aside_high {f : Fld} (h : 0x40020888 ≤ f.addr) (hl : f.lo ≤ f.hi) : f.aside = true := by simp [Fld.aside, h, hl]

@[simp] theorem Fld.aside_add {a x hi lo : Nat} (h : 0x40020888 ≤ a) (hl : lo ≤ hi) : (Fld.mk (a + x) hi lo).aside = true :=
  Fld.aside_high (Nat.le_trans h (Nat.le_add_right ..)) hl

@[simp] theorem Fld.aside_add_add {a x y hi lo : Nat} (h : 0x40020888 ≤ a) (hl : lo ≤ hi) : (Fld.mk (a + x + y) hi lo).aside = true :=
  Fld.aside_high (Nat.le_trans h (by dsimp only; omega)) hl

/-- A register of a task, of which there are 24. -/
theorem Fld.aside_task {f : Fld} {t : Nat} (ht : t < 24) (h : f.addr = 0x40020100 + t * 0x20 ∨ f.addr = 0x40020108 + t * 0x20) (hl : f.lo ≤ f.hi) :
    f.aside = true := by
  have hm : 0x40000004 ≠ f.addr ∧ 0x40000180 ≠ f.addr := by omega
  simp [Fld.aside, coreAddr_eq_false (a := f.addr) (by omega), Fld.apart, Reg.MODE_STAT_MODE, Reg.PROT_STAT_PROT_LOCK, hl, hm]

/-- `t` has the clocks, the satellites' own state and the INPUT blocks of `s`. -/
@[simp, reducible] def State.Calm (s t : State) : Prop :=
  t.time = s.time ∧ t.sats = s.sats ∧ inputsOf t.links = inputsOf s.links

/-- `t` is calm from `s`, and has the registers watched, the mode, the mode asked for and the tasks pending of `s`. -/
@[simp, reducible] def State.Steady (s t : State) : Prop :=
  s.Calm t ∧ coreOf t.regs = coreOf s.regs ∧ modeOf t.regs = modeOf s.regs ∧ t.modeReq = s.modeReq ∧ t.eng.pend = s.eng.pend

/-- `t` is calm from `s`, and has the registers watched of `s`. -/
@[simp, reducible] def State.Level (s t : State) : Prop := s.Calm t ∧ coreOf t.regs = coreOf s.regs

/-- `t` is steady from `s`, and has the supply's state of `s`. -/
@[simp, reducible] def State.Still (s t : State) : Prop := s.Steady t ∧ t.power = s.power

theorem State.Calm.trans {s t u : State} (h : s.Calm t) (h' : t.Calm u) : s.Calm u := by
  obtain ⟨htime, hsats, hinputs⟩ := h
  obtain ⟨htime', hsats', hinputs'⟩ := h'
  exact ⟨htime'.trans htime, hsats'.trans hsats, hinputs'.trans hinputs⟩

theorem State.Steady.trans {s t u : State} (h : s.Steady t) (h' : t.Steady u) : s.Steady u := by
  obtain ⟨hcalm, hcore, hmode, hreq, hpend⟩ := h
  obtain ⟨hcalm', hcore', hmode', hreq', hpend'⟩ := h'
  exact ⟨hcalm.trans hcalm', hcore'.trans hcore, hmode'.trans hmode, hreq'.trans hreq, hpend'.trans hpend⟩

theorem State.Still.trans {s t u : State} (h : s.Still t) (h' : t.Still u) : s.Still u := ⟨h.1.trans h'.1, h'.2.trans h.2⟩

theorem State.Level.trans {s t u : State} (h : s.Level t) (h' : t.Level u) : s.Level u := ⟨h.1.trans h'.1, h'.2.trans h.2⟩

theorem State.Still.steady {s t : State} (h : s.Still t) : s.Steady t := h.1
theorem State.Steady.level {s t : State} (h : s.Steady t) : s.Level t := ⟨h.1, h.2.1⟩
theorem State.Still.level {s t : State} (h : s.Still t) : s.Level t := h.1.level

theorem State.Steady.mode {s t : State} (h : s.Steady t) : t.mode = s.mode := h.2.2.1
theorem State.Steady.modeReq {s t : State} (h : s.Steady t) : t.modeReq = s.modeReq := h.2.2.2.1
theorem State.Steady.pend {s t : State} (h : s.Steady t) : t.eng.pend = s.eng.pend := h.2.2.2.2
theorem State.Level.time {s t : State} (h : s.Level t) : t.time = s.time := h.1.1
theorem State.Level.sats {s t : State} (h : s.Level t) : t.sats = s.sats := h.1.2.1

theorem State.Level.refl (s : State) : s.Level s := by simp
theorem State.Still.refl (s : State) : s.Still s := by simp

@[simp] theorem State.ite_time {c : Prop} [Decidable c] {a b : State} : (if c then a else b).time = if c then a.time else b.time := apply_ite ..
@[simp] theorem State.ite_sats {c : Prop} [Decidable c] {a b : State} : (if c then a else b).sats = if c then a.sats else b.sats := apply_ite ..
@[simp] theorem State.ite_links {c : Prop} [Decidable c] {a b : State} :
    (if c then a else b).links = if c then a.links else b.links := apply_ite ..
@[simp] theorem State.ite_regs {c : Prop} [Decidable c] {a b : State} : (if c then a else b).regs = if c then a.regs else b.regs := apply_ite ..
@[simp] theorem State.ite_modeReq {c : Prop} [Decidable c] {a b : State} :
    (if c then a else b).modeReq = if c then a.modeReq else b.modeReq := apply_ite ..
@[simp] theorem State.ite_eng {c : Prop} [Decidable c] {a b : State} : (if c then a else b).eng = if c then a.eng else b.eng := apply_ite ..
@[simp] theorem State.ite_power {c : Prop} [Decidable c] {a b : State} :
    (if c then a else b).power = if c then a.power else b.power := apply_ite ..
@[simp] theorem Engine.ite_pend {c : Prop} [Decidable c] {a b : Engine} : (if c then a else b).pend = if c then a.pend else b.pend := apply_ite ..
@[simp] theorem ite_coreOf {c : Prop} [Decidable c] {a b : Nums} : coreOf (if c then a else b) = if c then coreOf a else coreOf b := apply_ite ..
@[simp] theorem ite_modeOf {c : Prop} [Decidable c] {a b : Nums} : modeOf (if c then a else b) = if c then modeOf a else modeOf b := apply_ite ..
@[simp] theorem ite_inputsOf {c : Prop} [Decidable c] {a b : List (Nat × Link)} :
    inputsOf (if c then a else b) = if c then inputsOf a else inputsOf b := apply_ite ..

theorem foldl_still_mem {α : Type} {l : List α} {f : State → α → State} {s : State} (h : ∀ x ∈ l, ∀ s : State, s.Still (f s x)) :
    s.Still (l.foldl f s) := by
  induction l generalizing s with
  | nil => exact .refl s
  | cons x l ih => exact (h x (by simp) s).trans (ih fun y hy => h y (by simp [hy]))

/-- A fold of an operation that keeps a state still keeps it still. -/
@[simp] theorem foldl_still {α : Type} {l : List α} {f : State → α → State} {s : State} (h : ∀ (s : State) x, s.Still (f s x)) :
    s.Still (l.foldl f s) := foldl_still_mem fun x _ s => h s x

@[simp] theorem State.each_still {l : List Nat} {f : State → Nat → State} {s : State} (h : ∀ (s : State) x, s.Still (f s x)) :
    s.Still (s.each l f) := foldl_still h

theorem foldl_level_mem {α : Type} {l : List α} {f : State → α → State} {s : State} (h : ∀ x ∈ l, ∀ s : State, s.Level (f s x)) :
    s.Level (l.foldl f s) := by
  induction l generalizing s with
  | nil => exact .refl s
  | cons x l ih => exact (h x (by simp) s).trans (ih fun y hy => h y (by simp [hy]))

theorem State.Still.foldl {α : Type} {l : List α} {f : State → α → State} {s t : State} (h : ∀ (s : State) x, s.Still (f s x))
    (ht : s.Still t) : s.Still (l.foldl f t) := ht.trans (foldl_still h)

theorem State.Still.each {l : List Nat} {f : State → Nat → State} {s t : State} (h : ∀ (s : State) x, s.Still (f s x))
    (ht : s.Still t) : s.Still (t.each l f) := ht.foldl h

theorem coreOf_mset {r : Nums} {a v : Nat} (hc : coreAddr a = false) (h : a = 0x40000180 → fieldOf v 0 1 = fieldOf (mget 0 r a) 0 1) :
    coreOf (mset 0 r a v) = coreOf r := by
  funext b
  by_cases hb : b = a
  · subst hb
    by_cases hp : b = Reg.PROT_STAT_PROT_LOCK.addr
    · unfold coreOf
      rw [if_neg (by simp [hc]), if_pos hp, if_neg (by simp [hc]), if_pos hp, mget_mset_same, h hp]
    · simp [coreOf, hc, hp]
  · simp only [coreOf, mget_mset_other hb]

@[simp] theorem coreOf_mset_add {r : Nums} {a x v : Nat} (h : 0x40020888 ≤ a) : coreOf (mset 0 r (a + x) v) = coreOf r :=
  coreOf_mset (coreAddr_eq_false (by omega)) (by omega)
@[simp] theorem modeOf_mset_add {r : Nums} {a x v : Nat} (h : 0x40020888 ≤ a) : modeOf (mset 0 r (a + x) v) = modeOf r := by
  simp only [modeOf, mget_mset_other (show Reg.MODE_STAT_MODE.addr ≠ a + x by simp only [Reg.MODE_STAT_MODE]; omega)]

/-- A field set aside from what is watched. -/
@[simp] theorem State.fset_still {s : State} {f : Fld} {v : Nat} (h : f.aside = true) : s.Still (s.fset f v) := by
  simp only [Fld.aside, Bool.and_eq_true, Bool.or_eq_true, Bool.not_eq_true', decide_eq_true_eq] at h
  obtain ⟨hl, h⟩ := h
  have hm : Reg.MODE_STAT_MODE.apart f = true := h.elim (fun h => by simp [Fld.apart, Reg.MODE_STAT_MODE, show 0x40000004 ≠ f.addr by omega]) (·.2.2)
  have hp : Reg.PROT_STAT_PROT_LOCK.apart f = true :=
    h.elim (fun h => by simp [Fld.apart, Reg.PROT_STAT_PROT_LOCK, show 0x40000180 ≠ f.addr by omega]) (·.2.1)
  have hc : coreAddr f.addr = false := h.elim (fun h => coreAddr_eq_false (by omega)) (·.1)
  have hlock := State.fget_fset_apart s (v := v) hp (by decide) hl
  refine ⟨⟨⟨rfl, rfl, rfl⟩, coreOf_mset hc fun ha => ?_, State.fget_fset_apart s hm (by decide) hl, rfl, rfl⟩, rfl⟩
  simpa only [State.fget, State.fset, Reg.PROT_STAT_PROT_LOCK, ← ha, mget_mset_same] using hlock

@[simp] theorem State.fput_still {s : State} {f : Fld} {v : Bool} (h : f.aside = true) : s.Still (s.fput f v) := State.fset_still h
@[simp] theorem State.fon_still {s : State} {f : Fld} (h : f.aside = true) : s.Still (s.fon f) := State.fset_still h
@[simp] theorem State.fsat_still {s : State} {f : Fld} {n : Nat} (h : f.aside = true) : s.Still (s.fsat f n) := State.fset_still h
@[simp] theorem State.fmod_still {s : State} {f : Fld} {n : Nat} (h : f.aside = true) : s.Still (s.fmod f n) := State.fset_still h
@[simp] theorem State.fmax_still {s : State} {f : Fld} {n : Nat} (h : f.aside = true) : s.Still (s.fmax f n) := State.fset_still h

/-- A link set with the INPUT block it held. -/
@[simp] theorem State.setLink_still {s : State} {n : Nat} {l : Link}
    (h : (l.inputDue, l.inputIn, l.input) = ((s.link n).inputDue, (s.link n).inputIn, (s.link n).input)) : s.Still (s.setLink n l) := by
  refine ⟨⟨⟨rfl, rfl, ?_⟩, rfl, rfl, rfl, rfl⟩, rfl⟩
  funext m
  by_cases hm : m = n
  · subst hm; simpa [inputsOf, State.setLink, State.link] using h
  · simp only [inputsOf, State.setLink, mget_mset_other hm]

theorem satSlots_lt {n : Nat} (h : n ∈ satSlots) : n < 8 := by
  simp [satSlots] at h
  omega

@[simp] theorem State.setAct_pend (s : State) (t : Nat) (a : Option Act) : (s.setAct t a).eng.pend = s.eng.pend := rfl

theorem State.setMode_field_core (s : State) (m : Nat) : coreOf (s.fset Reg.MODE_STAT_MODE m).regs = coreOf s.regs :=
  coreOf_mset rfl fun h => absurd h (by decide)

@[simp] theorem State.setLaneState_still (s : State) (v : Nat) : s.Still (s.setLaneState v) := by unfold State.setLaneState; simp +decide
@[simp] theorem State.enqueueRec_still (s : State) (r : CRec) : s.Still (s.enqueueRec r) := by
  unfold State.enqueueRec
  dsimp only
  split
  · simp
  · split
    · split <;> simp +decide
    · simp +decide
@[simp] theorem State.recordAs_still (s : State) (sev code slot task cyc : Nat) (data : List Byte) :
    s.Still (s.recordAs sev code slot task cyc data) := by
  unfold State.recordAs; simp +decide
@[simp] theorem State.recordFrom_still (s : State) (code slot task : Nat) (data : List Byte) : s.Still (s.recordFrom code slot task data) := by
  unfold State.recordFrom; simp
@[simp] theorem State.record_still (s : State) (code : Nat) (data : List Byte) : s.Still (s.record code data) := by
  unfold State.record; simp
@[simp] theorem State.recordSafe_still (s : State) (reason detail : Nat) (stop : Option (Nat × Nat)) :
    s.Still (s.recordSafe reason detail stop) := by
  unfold State.recordSafe; simp
@[simp] theorem State.setClaim_still (s : State) (b : Bool) : s.Still (s.setClaim b) := by
  unfold State.setClaim; simp -implicitDefEqProofs +decide

@[simp] theorem State.parkCancel_steady (s : State) : s.Steady s.parkCancel := by unfold State.parkCancel; simp
@[simp] theorem State.satSend_still (s : State) (n typ : Nat) (payload : List Byte) :
    s.Still (s.satSend n typ payload) := by
  unfold State.satSend; simp -implicitDefEqProofs +decide
@[simp] theorem State.ctlSend_still (s : State) (n typ : Nat) (payload : List Byte) :
    s.Still (s.ctlSend n typ payload) := by
  unfold State.ctlSend; simp -implicitDefEqProofs +decide
@[simp] theorem State.stageTo_still (s : State) (n : Nat) (out : Bytes) :
    s.Still (s.stageTo n out) := by
  unfold State.stageTo; simp -implicitDefEqProofs +decide
@[simp] theorem State.stageSafe_still (s : State) : s.Still s.stageSafe := by unfold State.stageSafe; simp -implicitDefEqProofs +decide
@[simp] theorem State.doorView_still (s : State) (k : Nat) : s.Still (s.doorView k) := by
  unfold State.doorView
  simp -implicitDefEqProofs +decide [Reg.DRV_CH_CUR_ID, Reg.DRV_CH_CUR_IQ, Reg.DRV_CH_FB_ENC_CNT, Reg.DRV_CH_FB_ENC_RAW, Reg.DRV_CH_FB_HALL_RAW,
    Reg.DRV_CH_POS_POS, Reg.DRV_CH_POS_SPEED, Reg.DRV_CH_STAT_CAUSE, Reg.DRV_CH_STAT_LOCAL, Reg.DRV_CH_STAT_PROOF, Reg.DRV_CH_STAT_STATE,
    Reg.DRV_CH_VDC_VDC]
@[simp] theorem State.setDoor_still (s : State) (k : Nat) (d : Door) : s.Still (s.setDoor k d) := by
  unfold State.setDoor
  simp -implicitDefEqProofs +decide
@[simp] theorem State.modDoor_still (s : State) (k : Nat) (f : Door → Door) :
    s.Still (s.modDoor k f) := by
  unfold State.modDoor; simp -implicitDefEqProofs +decide
@[simp] theorem State.sendDoorEvent_still (s : State) (k ev : Nat) :
    s.Still (s.sendDoorEvent k ev) := by
  unfold State.sendDoorEvent; simp -implicitDefEqProofs +decide
@[simp] theorem State.repause_still (s : State) (k : Nat) :
    s.Still (s.repause k) := by
  unfold State.repause; dsimp only; split <;> simp -implicitDefEqProofs +decide
@[simp] theorem State.doorConfigured_still (s : State) (n : Nat) :
    s.Still (s.doorConfigured n) := by
  unfold State.doorConfigured; simp -implicitDefEqProofs +decide
@[simp] theorem State.setCtl_still (s : State) (c : Nat) (x : CCtl) : s.Still (s.setCtl c x) := by
  unfold State.setCtl
  simp -implicitDefEqProofs +decide
@[simp] theorem State.setBuf_still (s : State) (k : Nat) (x : CBuf) : s.Still (s.setBuf k x) := by
  unfold State.setBuf
  simp -implicitDefEqProofs +decide [Reg.BUF_ID_ID, Reg.BUF_STAT_CANCEL_DEF, Reg.BUF_STAT_HELD, Reg.BUF_STAT_MAIN_FULL, Reg.BUF_STAT_SHADOW_FULL,
    Reg.BUF_STAT_TX, Reg.BUF_STAT_TX_PEND]
@[simp] theorem State.canUnhold_still (s : State) (k : Nat) : s.Still (s.canUnhold k) := by
  unfold State.canUnhold
  dsimp only
  split
  · simp -implicitDefEqProofs +decide
  · split <;> simp -implicitDefEqProofs +decide
@[simp] theorem State.canUnholdAll_still (s : State) (t : Nat) : s.Still (s.canUnholdAll t) := by
  unfold State.canUnholdAll
  simp -implicitDefEqProofs +decide
@[simp] theorem State.ckAbandon_still (s : State) (c : Ckpt) : s.Still (s.ckAbandon c) := by unfold State.ckAbandon; simp -implicitDefEqProofs +decide
@[simp] theorem State.preserve_still (s : State) (b : Nat) : s.Still (s.preserve b) := by
  unfold State.preserve
  split <;> simp -implicitDefEqProofs +decide
@[simp] theorem State.setDirty_still (s : State) (b : Nat) : s.Still (s.setDirty b) := by unfold State.setDirty; simp -implicitDefEqProofs +decide
@[simp] theorem State.outWr_still (s : State) (a : Nat) (v : Byte) : s.Still (s.outWr a v) := by unfold State.outWr; simp -implicitDefEqProofs +decide
@[simp] theorem State.outWrs_still (s : State) (a : Nat) (k : List Byte) : s.Still (s.outWrs a k) := by
  induction k generalizing s a with
  | nil => exact .refl _
  | cons v vs ih => unfold State.outWrs; simp -implicitDefEqProofs +decide [ih]
@[simp] theorem State.putBlk_still (s : State) (b : Nat) (l : List Byte) : s.Still (s.putBlk b l) := by
  unfold State.putBlk
  simp -implicitDefEqProofs +decide
@[simp] theorem State.rollback_still (s : State) (ts : Nat) : s.Still (s.rollback ts) := by unfold State.rollback; simp -implicitDefEqProofs +decide
@[simp] theorem State.qRestore_still (s : State) (ts : Nat) : s.Still (s.qRestore ts) := by unfold State.qRestore; simp -implicitDefEqProofs +decide
@[simp] theorem State.retireLane_still (s : State) (l : Nat) : s.Still (s.retireLane l) := by
  unfold State.retireLane
  simp -implicitDefEqProofs +decide
@[simp] theorem State.taskBoundary_still (s : State) : s.Still s.taskBoundary := by unfold State.taskBoundary; simp -implicitDefEqProofs +decide
@[simp] theorem State.scSettle_still (s : State) : s.Still s.scSettle := by unfold State.scSettle; split <;> simp -implicitDefEqProofs +decide
@[simp] theorem State.schedule_still (s : State) : s.Still s.schedule := by unfold State.schedule; simp -implicitDefEqProofs +decide
@[simp] theorem State.releaseLocks_still (s : State) (t : Nat) :
    s.Still (s.releaseLocks t) := by
  unfold State.releaseLocks; split <;> simp -implicitDefEqProofs +decide
theorem State.dropAct_still (s : State) {t : Nat} (ht : t < 24) : s.Still (s.dropAct t) := by
  have ha : (Reg.TASK_STAT_ACTIVE_RUN t).aside = true := Fld.aside_task ht (.inl rfl) (by simp [Reg.TASK_STAT_ACTIVE_RUN])
  unfold State.dropAct
  simp -implicitDefEqProofs +decide [ha]
@[simp] theorem State.dropActs_still (s : State) (ts : Nat) : s.Still (s.each (taskNums.filter fun t => bit ts t) fun s t => s.dropAct t) :=
  foldl_still_mem fun _ ht s => s.dropAct_still (List.mem_range.1 (List.mem_filter.1 ht).1)
@[simp] theorem State.abandon_steady (s : State) (ts : Nat) : s.Steady (s.abandon ts) := by
  unfold State.abandon
  dsimp only
  generalize ts &&& s.actMask = m
  split_ifs <;> simp
theorem State.trigger_level (s : State) {t : Nat} (ht : t < 24) : s.Level (s.trigger t) := by
  have hm : (Reg.TASK_SKIP_MERGED t).aside = true := Fld.aside_task ht (.inr rfl) (by simp [Reg.TASK_SKIP_MERGED])
  have hp : (Reg.TASK_STAT_PENDING t).aside = true := Fld.aside_task ht (.inl rfl) (by simp [Reg.TASK_STAT_PENDING])
  unfold State.trigger
  simp -implicitDefEqProofs +decide [hm, hp]
@[simp] theorem State.triggerAll_level (s : State) (kind : Nat) (p : Nat → Bool) : s.Level (s.triggerAll kind p) :=
  foldl_level_mem fun _ ht s => s.trigger_level (List.mem_range'_1.1 (List.mem_filter.1 ht).1).2
@[simp] theorem State.setMode_level (s : State) (m trig : Nat) : s.Level (s.setMode m trig) := by
  unfold State.setMode
  simp +decide [State.setMode_field_core]
@[simp] theorem State.nowSafe_level (s : State) (reason detail trig : Nat) : s.Level (s.nowSafe reason detail trig) := by
  unfold State.nowSafe; simp +decide
@[simp] theorem State.enterSafe_level (s : State) (reason detail : Nat) (stop : Option (Nat × Nat)) :
    s.Level (s.enterSafe reason detail stop) := by
  unfold State.enterSafe; simp -implicitDefEqProofs
@[simp] theorem State.canFail_still (s : State) (k r : Nat) : s.Still (s.canFail k r) := by unfold State.canFail; simp -implicitDefEqProofs +decide
@[simp] theorem State.canFailAll_still (s : State) (c r : Nat) (keepBus : Bool) :
    s.Still (s.canFailAll c r keepBus) := by
  unfold State.canFailAll; simp -implicitDefEqProofs +decide
/-- Registers cleared above those watched. -/
theorem clear_high {a : Nat} (ha : 0x40020888 ≤ a) (l : List Nat) (r : Nums) :
    coreOf (l.foldl (fun m o => mset 0 m (a + o) 0) r) = coreOf r ∧ modeOf (l.foldl (fun m o => mset 0 m (a + o) 0) r) = modeOf r := by
  induction l generalizing r with
  | nil => exact ⟨rfl, rfl⟩
  | cons o l ih => exact ⟨(ih _).1.trans (coreOf_mset_add ha), (ih _).2.trans (modeOf_mset_add ha)⟩

theorem State.clearCan_still (s : State) (c : Nat) :
    s.Still { s with regs := [0, 4, 0x10, 0x14, 0x18, 0x1C].foldl (fun m o => mset 0 m (0x40030000 + c * 0x1000 + o) 0) s.regs } := by
  have hclear := clear_high (a := 0x40030000 + c * 0x1000) (Nat.le_trans (by decide : 0x40020888 ≤ 0x40030000) (Nat.le_add_right ..))
    [0, 4, 0x10, 0x14, 0x18, 0x1C] s.regs
  exact ⟨⟨⟨rfl, rfl, rfl⟩, hclear.1, hclear.2, rfl, rfl⟩, rfl⟩

theorem State.clearLost_still (s : State) (c : Nat) :
    s.Still (s.each (List.range 64) fun s b => s.fset (Reg.BUF_STAT_LOST_CNT c b) 0) :=
  State.each_still fun s b => by simp [Reg.BUF_STAT_LOST_CNT]

@[simp] theorem State.canReset_still (s : State) (c : Nat) : s.Still (s.canReset c) := by
  have hbufs (u : State) : u.Still (u.each ((List.range 64).map (c * 64 + ·)) fun s k =>
      if s.bufOn k then
        s.setBuf k { s.buf k with main := none, shadow := none, newest := none, aged := false, isNew := false, lost := false, wait := none }
      else s) := State.each_still fun s k => by split <;> simp
  have hlisten (u : State) (v : Nat) : u.Still (u.fset (Reg.CAN_STAT_LISTEN c) v) := by simp [Reg.CAN_STAT_LISTEN]
  exact (s.canFailAll_still c 6 false).trans <| (hbufs _).trans <| (State.setCtl_still _ c _).trans <| (State.clearCan_still _ c).trans <|
    (State.clearLost_still _ c).trans (hlisten _ _)
@[simp] theorem State.netSend_still (s : State) (p : Nat) (f : Sent) : s.Still (s.netSend p f) := by
  unfold State.netSend
  simp -implicitDefEqProofs +decide [Reg.PORT_TX_TX_FRAMES]
@[simp] theorem State.netTx_still (s : State) (p kind : Nat) (data : List Byte) :
    s.Still (s.netTx p kind data) := by
  unfold State.netTx; simp -implicitDefEqProofs +decide
@[simp] theorem State.wrBit_still (s : State) (base a : Nat) (b : Bool) :
    s.Still (s.wrBit base a b) := by
  unfold State.wrBit; simp -implicitDefEqProofs +decide
@[simp] theorem State.setSess_still (s : State) (x : Nat) (v : Option Sess) :
    s.Still (s.setSess x v) := by
  unfold State.setSess; simp -implicitDefEqProofs +decide
@[simp] theorem State.modSess_still (s : State) (x : Nat) (f : Sess → Sess) :
    s.Still (s.modSess x f) := by
  unfold State.modSess; split <;> simp -implicitDefEqProofs +decide
@[simp] theorem State.replyTo_still (s : State) (x verb ctr status sub : Nat) (body : List Byte) :
    s.Still (s.replyTo x verb ctr status sub body) := by
  unfold State.replyTo; split <;> simp -implicitDefEqProofs +decide
@[simp] theorem State.closeSess_still (s : State) (x : Nat) : s.Still (s.closeSess x) := by unfold State.closeSess; simp -implicitDefEqProofs +decide
@[simp] theorem State.replyNow_still (s : State) (x verb status sub : Nat) (body : List Byte) :
    s.Still (s.replyNow x verb status sub body) := by
  unfold State.replyNow; split <;> simp -implicitDefEqProofs +decide
@[simp] theorem State.ropeSend_still (s : State) (typ : Nat) (payload : List Byte) :
    s.Still (s.ropeSend typ payload) := by
  unfold State.ropeSend; simp -implicitDefEqProofs +decide
@[simp] theorem State.ropeSendAll_still (s : State) (typ : Nat) (payload : List Byte) :
    s.Still (s.ropeSendAll typ payload) := by
  unfold State.ropeSendAll; simp -implicitDefEqProofs +decide
@[simp] theorem State.syncVoting_still (s : State) : s.Still s.syncVoting := by unfold State.syncVoting; simp -implicitDefEqProofs +decide
theorem State.minority_still (s : State) {l : Nat} (hl : l < 3) (k pc t : Nat) : s.Still (s.minority l k pc t) := by
  have ha {f : Fld} (h : f.addr = 0x4001001C + l * 0x10) (hlo : f.lo ≤ f.hi) : f.aside = true := by
    have hlane := hl
    have hm : 0x40000004 ≠ f.addr ∧ 0x40000180 ≠ f.addr := by omega
    simp [Fld.aside, coreAddr_eq_false (a := f.addr) (by omega), Fld.apart, Reg.MODE_STAT_MODE, Reg.PROT_STAT_PROT_LOCK, hlo, hm]
  have hpc : (Reg.LANE_WHERE_EVT_PC l).aside = true := ha rfl (by simp [Reg.LANE_WHERE_EVT_PC])
  have hclass : (Reg.LANE_WHERE_EVT_CLASS l).aside = true := ha rfl (by simp [Reg.LANE_WHERE_EVT_CLASS])
  have htask : (Reg.LANE_WHERE_EVT_TASK l).aside = true := ha rfl (by simp [Reg.LANE_WHERE_EVT_TASK])
  unfold State.minority
  simp +decide [hpc, hclass, htask]
@[simp] theorem State.voteStop_level (s : State) (a : Act) (vs : List Nat) (k : Nat) : s.Level (s.voteStop a vs k) := by
  unfold State.voteStop; simp +decide
@[simp] theorem State.stTest_still (s : State) (i : Nat) (fail : Bool) : s.Still (s.stTest i fail) := by
  unfold State.stTest
  simp -implicitDefEqProofs +decide
@[simp] theorem State.stPart_still (s : State) (test part : Nat) (mask : Nat) (fail : Bool) :
    s.Still (s.stPart test part mask fail) := by
  unfold State.stPart; simp -implicitDefEqProofs +decide
/-- The lane in the minority is one of those that voted. -/
theorem vote_minority_mem {vs : List (Nat × List (Nat × Nat))} {w l k : Nat} (h : vote vs = .pass w (some (l, k))) : l ∈ vs.map (·.1) := by
  unfold vote at h
  split at h
  · simp at h
  · simp at h
  · split at h <;> simp at h
  · split at h <;> simp at h <;> simp [← h.2.1]

@[simp] theorem State.saveCtx_level (s : State) (t : Nat) : s.Level (s.saveCtx t) := by
  unfold State.saveCtx
  split
  · simp
  · next a _ =>
    dsimp only
    split
    · simp
    · next w mino hv =>
      cases mino with
      | none => simp
      | some p =>
        have hl := vote_minority_mem hv
        rw [List.map_map] at hl
        have hlt : p.1 < 3 := by
          obtain ⟨l, hmem, rfl⟩ := List.mem_map.1 hl
          exact lanesOf_lt hmem
        have hmin := s.minority_still hlt p.2 (a.ctx.getD w {}).pc t
        exact (hmin.level).trans (by simp)
@[simp] theorem State.preempt_level (s : State) : s.Level s.preempt := by
  unfold State.preempt
  split
  · split <;> simp
  · simp
@[simp] theorem State.chgRecord_still (s : State) (code method gen task : Nat) :
    s.Still (s.chgRecord code method gen task) := by
  unfold State.chgRecord; simp -implicitDefEqProofs +decide
@[simp] theorem State.chgReply_still (s : State) (x : Option Nat) (verb code : Nat) :
    s.Still (s.chgReply x verb code) := by
  unfold State.chgReply; split <;> simp -implicitDefEqProofs +decide
@[simp] theorem State.sendChange_still (s : State) (kind point : Nat) (b : List Byte) :
    s.Still (s.sendChange kind point b) := by
  unfold State.sendChange; simp -implicitDefEqProofs +decide
@[simp] theorem State.slotRegs_still (s : State) : s.Still s.slotRegs := by unfold State.slotRegs; simp -implicitDefEqProofs +decide
@[simp] theorem State.setSlot_still (s : State) (i st : Nat) : s.Still (s.setSlot i st) := by unfold State.setSlot; simp -implicitDefEqProofs +decide
@[simp] theorem State.swapRes_still (s : State) (code task reason : Nat) :
    s.Still (s.swapRes code task reason) := by
  unfold State.swapRes; simp -implicitDefEqProofs +decide
@[simp] theorem State.swapRecord_still (s : State) (code task : Nat) :
    s.Still (s.swapRecord code task) := by
  unfold State.swapRecord; simp -implicitDefEqProofs +decide
@[simp] theorem State.loadEnd_still (s : State) (i code task reason : Nat) :
    s.Still (s.loadEnd i code task reason) := by
  unfold State.loadEnd; simp -implicitDefEqProofs +decide
@[simp] theorem State.loadAbort_still (s : State) (code : Nat) :
    s.Still (s.loadAbort code) := by
  unfold State.loadAbort; split <;> simp -implicitDefEqProofs +decide
@[simp] theorem State.handover_level (s : State) (cause : Nat) : s.Level (s.handover cause) := by
  unfold State.handover; simp -implicitDefEqProofs +decide
@[simp] theorem State.modIl_still (s : State) (f : Il → Il) : s.Still (s.modIl f) := by unfold State.modIl; simp -implicitDefEqProofs +decide
@[simp] theorem State.releaseEnded_still (s : State) : s.Still s.releaseEnded := by unfold State.releaseEnded; simp -implicitDefEqProofs +decide
@[simp] theorem State.stageAll_still (s : State) : s.Still s.stageAll := by unfold State.stageAll; simp -implicitDefEqProofs +decide
@[simp] theorem State.stageNow_still (s : State) : s.Still s.stageNow := by unfold State.stageNow; simp -implicitDefEqProofs +decide
@[simp] theorem State.cairnPut_still (s : State) (r : CRec) : s.Still (s.cairnPut r) := by unfold State.cairnPut; simp -implicitDefEqProofs +decide
@[simp] theorem State.lastWords_still (s : State) (r : CRec) : s.Still (s.lastWords r) := by unfold State.lastWords; simp -implicitDefEqProofs +decide
@[simp] theorem State.cairnNext_still (s : State) : s.Still s.cairnNext := by unfold State.cairnNext; split <;> simp -implicitDefEqProofs +decide
@[simp] theorem State.cairnAll_still (s : State) (k : Nat) : s.Still (s.cairnAll k) := by
  induction k generalizing s with
  | zero => exact .refl _
  | succ n ih => unfold State.cairnAll; simp -implicitDefEqProofs +decide [ih]
@[simp] theorem State.fieldView_still (s : State) (f : Nat) : s.Still (s.fieldView f) := by
  unfold State.fieldView
  dsimp only
  refine State.Still.each (fun s j => ?_) ?_
  · simp [Reg.FIO_FAST_CNT_COUNT, Reg.FIO_FAST_FREQ_FREQ, Reg.FIO_FAST_PER_T_AVG_NS, Reg.FIO_FAST_STAT_GAP, Reg.FIO_FAST_STAT_FTMO,
      Reg.FIO_FAST_STAT_PERIODS]
  · simp [Reg.FIO_STAT_VI_LOW, Reg.FIO_STAT_SAFE_ACT, Reg.FIO_VI_VI, Reg.FIO_DI_NOW_DI, Reg.FIO_DO_NOW_DO, Reg.FIO_DO_NOW_RB,
      Reg.FIO_DO_OVL_OVL]
@[simp] theorem State.setField_still (s : State) (f : Nat) (x : Field) :
    s.Still (s.setField f x) := by
  unfold State.setField; simp -implicitDefEqProofs +decide
@[simp] theorem State.modField_still (s : State) (f : Nat) (g : Field → Field) :
    s.Still (s.modField f g) := by
  unfold State.modField; simp -implicitDefEqProofs +decide
@[simp] theorem State.sendFieldEvent_still (s : State) (f ev ix : Nat) (data : List Byte) :
    s.Still (s.sendFieldEvent f ev ix data) := by
  unfold State.sendFieldEvent; simp -implicitDefEqProofs +decide
@[simp] theorem State.sendEdge_still (s : State) (f c : Nat) (level : Bool) (t : Nat) :
    s.Still (s.sendEdge f c level t) := by
  unfold State.sendEdge; simp -implicitDefEqProofs +decide
@[simp] theorem State.loadView_still (s : State) (x : Nat) : s.Still (s.loadView x) := by
  unfold State.loadView
  simp -implicitDefEqProofs +decide [Reg.LSW_CH_MODEL_Q_FRAC, Reg.LSW_CH_MODEL_TJ, Reg.LSW_CH_PEAK_PEAK, Reg.LSW_CH_SENSE_CODE,
    Reg.LSW_CH_SENSE_LOW, Reg.LSW_CH_STAT_CAUSE, Reg.LSW_CH_STAT_DIAG, Reg.LSW_CH_STAT_DT_K, Reg.LSW_CH_STAT_STATE, Reg.LSW_CH_WIN_WIN_LEFT_MS]
@[simp] theorem State.setLoad_still (s : State) (x : Nat) (l : Load) : s.Still (s.setLoad x l) := by
  unfold State.setLoad
  simp -implicitDefEqProofs +decide
@[simp] theorem State.modLoad_still (s : State) (x : Nat) (f : Load → Load) :
    s.Still (s.modLoad x f) := by
  unfold State.modLoad; simp -implicitDefEqProofs +decide
@[simp] theorem State.sendLoadEvent_still (s : State) (n c ev : Nat) :
    s.Still (s.sendLoadEvent n c ev) := by
  unfold State.sendLoadEvent; simp -implicitDefEqProofs +decide [Reg.LSW_STAT_BAND, Reg.LSW_VF_VF]
@[simp] theorem State.peerEvent_level (s : State) (code : Nat) : s.Level (s.peerEvent code) := by unfold State.peerEvent; simp
@[simp] theorem State.regSend_still (s : State) (n : Nat) :
    s.Still (s.regSend n) := by
  unfold State.regSend; dsimp only; split <;> simp -implicitDefEqProofs +decide
@[simp] theorem State.regSubmit_still (s : State) (n : Nat) (r : RegAcc) :
    s.Still (s.regSubmit n r) := by
  unfold State.regSubmit; simp -implicitDefEqProofs +decide
@[simp] theorem State.violation_still (s : State) (q a : Nat) : s.Still (s.violation q a) := by
  unfold State.violation
  simp -implicitDefEqProofs +decide
@[simp] theorem State.eccUe_still (s : State) (a : Nat) : s.Still (s.eccUe a) := by
  unfold State.eccUe
  simp -implicitDefEqProofs +decide [Reg.ECC_ADDR_ADDR, Reg.ECC_CNT_UE]
@[simp] theorem State.healed_still (s : State) (a : Nat) : s.Still (s.healed a) := by unfold State.healed; simp -implicitDefEqProofs +decide
@[simp] theorem State.sendProbe_still (s : State) (n : Nat) : s.Still (s.sendProbe n) := by unfold State.sendProbe; simp -implicitDefEqProofs +decide
@[simp] theorem State.measure_still (s : State) (n : Nat) : s.Still (s.measure n) := by unfold State.measure; simp -implicitDefEqProofs +decide
theorem State.linkReset_still (s : State) {n : Nat} (hn : n < 8) : s.Still (s.linkReset n) := by
  have hc (r : Nums) (k : Nat) (hk : k = 4 ∨ k = 12) : coreOf (mset 0 r (0x40020800 + k + n * 0x10) 0) = coreOf r :=
    coreOf_mset (coreAddr_eq_false (a := 0x40020800 + k + n * 0x10) (by omega)) (by omega)
  have hm (r : Nums) (k : Nat) : modeOf (mset 0 r (0x40020800 + k + n * 0x10) 0) = modeOf r := by
    simp only [modeOf, mget_mset_other (show Reg.MODE_STAT_MODE.addr ≠ 0x40020800 + k + n * 0x10 by simp only [Reg.MODE_STAT_MODE]; omega)]
  have hc4 := fun r => hc r 4 (.inl rfl)
  have hc12 := fun r => hc r 12 (.inr rfl)
  have hm4 := fun r => hm r 4
  have hm12 := fun r => hm r 12
  unfold State.linkReset
  simp at hc4 hc12 hm4 hm12 ⊢
  simp [hc4, hc12, hm4, hm12]
@[simp] theorem State.belayStale_still (s : State) : s.Still s.belayStale := by unfold State.belayStale; simp -implicitDefEqProofs +decide
@[simp] theorem State.peerSet_level (s : State) (b : Bool) : s.Level (s.peerSet b) := by
  unfold State.peerSet; simp -implicitDefEqProofs +decide
@[simp] theorem State.ropeFall_level (s : State) : s.Level s.ropeFall := by unfold State.ropeFall; simp -implicitDefEqProofs +decide
@[simp] theorem State.ropeReset_level (s : State) : s.Level s.ropeReset := by unfold State.ropeReset; simp -implicitDefEqProofs +decide
@[simp] theorem State.qpReset_still (s : State) : s.Still s.qpReset := by unfold State.qpReset; simp -implicitDefEqProofs +decide
@[simp] theorem State.snapReq_still (s : State) : s.Still s.snapReq := by unfold State.snapReq; simp -implicitDefEqProofs +decide
@[simp] theorem State.lbStart_still (s : State) (iface depth num arg : Nat) :
    s.Still (s.lbStart iface depth num arg) := by
  unfold State.lbStart; simp -implicitDefEqProofs +decide
@[simp] theorem State.scopedResets_level (s : State) (w : Nat) : s.Level (s.scopedResets w) := by
  unfold State.scopedResets
  extract_lets s₁ s₂ s₃
  have h₁ : s.Still s₁ := State.each_still fun s c => by simp
  have h₂ : s₁.Level s₂ := by unfold s₂; split <;> simp
  have h₃ : s₂.Level s₃ := by unfold s₃; split <;> simp
  exact .trans (.trans h₁.level (.trans h₂ h₃)) (foldl_still_mem fun n hn s => s.linkReset_still (satSlots_lt (List.mem_filter.1 hn).1)).level
@[simp] theorem State.setRec_still (s : State) (k : Nat) (r : LRec) : s.Still (s.setRec k r) := by
  unfold State.setRec
  simp -implicitDefEqProofs +decide [Reg.LDG_STAT_OPEN]
@[simp] theorem State.openRec_still (s : State) (k st t flags : Nat) :
    s.Still (s.openRec k st t flags) := by
  unfold State.openRec; simp -implicitDefEqProofs +decide
@[simp] theorem State.resumeRecs_still (s : State) (n : Nat) (p : List Byte) :
    s.Still (s.resumeRecs n p) := by
  unfold State.resumeRecs; simp -implicitDefEqProofs +decide
@[simp] theorem State.markRec_still (s : State) (k flags step : Nat) :
    s.Still (s.markRec k flags step) := by
  unfold State.markRec; simp -implicitDefEqProofs +decide
@[simp] theorem State.stepActs_still (s : State) (n : Nat) (old new : List Byte) :
    s.Still (s.stepActs n old new) := State.each_still fun s c => by
  dsimp only
  split
  · simp -implicitDefEqProofs +decide
  · split <;> simp -implicitDefEqProofs +decide
@[simp] theorem State.bindOne_still (s : State) (t valid : Nat) (a : Act) (e : List Byte) :
    s.Still (s.bindOne t valid a e) := by
  unfold State.bindOne; simp -implicitDefEqProofs +decide
@[simp] theorem State.dropPairs_still (s : State) (stale : Bool) (data : List Byte) :
    s.Still (s.dropPairs stale data) := by
  unfold State.dropPairs; simp -implicitDefEqProofs +decide
@[simp] theorem State.flushHeld_still (s : State) (n : Nat) : s.Still (s.flushHeld n) := by
  unfold State.flushHeld
  split
  · simp
  · split
    · refine State.each_still fun s k => ?_
      dsimp only
      split
      · split <;> simp
      · simp
    · split
      · refine State.Still.each (fun s c => ?_) ?_
        · split
          · dsimp only; split <;> simp
          · simp
        · simp
      · simp -implicitDefEqProofs
@[simp] theorem State.stReadBack_still (s : State) (n : Nat) (b : List Byte) :
    s.Still (s.stReadBack n b) := by
  unfold State.stReadBack; simp -implicitDefEqProofs +decide
@[simp] theorem State.stLoads_still (s : State) (n : Nat) (b : List Byte) :
    s.Still (s.stLoads n b) := by
  unfold State.stLoads; simp -implicitDefEqProofs +decide
@[simp] theorem State.cairnFind_still (s : State) : s.Still s.cairnFind := by unfold State.cairnFind; simp -implicitDefEqProofs +decide
@[simp] theorem State.landViews_still (s old : State) :
    s.Still (s.landViews old) := by
  unfold State.landViews; simp -implicitDefEqProofs +decide
@[simp] theorem State.cairnLoad_still (s : State) : s.Still s.cairnLoad := by unfold State.cairnLoad; simp -implicitDefEqProofs +decide
@[simp] theorem State.progRecord_still (s : State) (e : BootFail) : s.Still (s.progRecord e) := by
  unfold State.progRecord
  split
  · split <;> simp -implicitDefEqProofs +decide
  · simp -implicitDefEqProofs +decide
end Sys2Proof.Machine
end
section
namespace Sys2Proof.Machine

/-! ### What giving up the activations leaves alone (R61, R153) -/

/-- The addresses of the clocks' status and flags, of the status of each load-switch die, and of the status of the pair. -/
def quietAddrs : List Nat := [0x40080000, 0x40080004, 0x44000008, 0x45000008, 0x40050000]

/-- What registers `r` hold of the clocks, the load-switch dies and the pair. -/
def clocksOf (r : Nums) (a : Nat) : Nat := if a ∈ quietAddrs then mget 0 r a else 0

/-- `t` has the links of `s`, and its registers at those addresses. -/
@[simp, reducible] def State.Quiet (s t : State) : Prop := t.links = s.links ∧ clocksOf t.regs = clocksOf s.regs

theorem State.Quiet.trans {s t u : State} (h : s.Quiet t) (h' : t.Quiet u) : s.Quiet u := ⟨h'.1.trans h.1, h'.2.trans h.2⟩

@[simp] theorem ite_clocksOf {c : Prop} [Decidable c] {a b : Nums} :
    clocksOf (if c then a else b) = if c then clocksOf a else clocksOf b := apply_ite ..

theorem foldl_quiet_mem {α : Type} {l : List α} {f : State → α → State} {s : State} (h : ∀ x ∈ l, ∀ s : State, s.Quiet (f s x)) :
    s.Quiet (l.foldl f s) := by
  induction l generalizing s with
  | nil => exact ⟨rfl, rfl⟩
  | cons x l ih => exact (h x (by simp) s).trans (ih fun y hy => h y (by simp [hy]))

@[simp] theorem foldl_quiet {α : Type} {l : List α} {f : State → α → State} {s : State} (h : ∀ (s : State) x, s.Quiet (f s x)) :
    s.Quiet (l.foldl f s) := foldl_quiet_mem fun x _ s => h s x

@[simp] theorem State.each_quiet {l : List Nat} {f : State → Nat → State} {s : State} (h : ∀ (s : State) x, s.Quiet (f s x)) :
    s.Quiet (s.each l f) := foldl_quiet h

@[simp] theorem State.fset_quiet {s : State} {f : Fld} {v : Nat} (h : f.addr ∉ quietAddrs) :
    s.Quiet (s.fset f v) := by
  refine ⟨rfl, ?_⟩
  funext a
  unfold clocksOf
  split
  · next ha => exact mget_mset_other (by rintro rfl; exact h ha)
  · rfl

@[simp] theorem State.fput_quiet {s : State} {f : Fld} {v : Bool} (h : f.addr ∉ quietAddrs) :
    s.Quiet (s.fput f v) := State.fset_quiet h
@[simp] theorem State.fon_quiet {s : State} {f : Fld} (h : f.addr ∉ quietAddrs) :
    s.Quiet (s.fon f) := State.fset_quiet h
@[simp] theorem State.fsat_quiet {s : State} {f : Fld} {n : Nat} (h : f.addr ∉ quietAddrs) :
    s.Quiet (s.fsat f n) := State.fset_quiet h

@[simp] theorem State.setLaneState_quiet (s : State) (v : Nat) : s.Quiet (s.setLaneState v) := by unfold State.setLaneState; simp +decide

@[simp] theorem State.enqueueRec_quiet (s : State) (r : CRec) : s.Quiet (s.enqueueRec r) := by
  unfold State.enqueueRec
  dsimp only
  split
  · simp
  · split
    · split <;> simp +decide
    · simp +decide
@[simp] theorem State.recordAs_quiet (s : State) (sev code slot task cyc : Nat) (data : List Byte) :
    s.Quiet (s.recordAs sev code slot task cyc data) := by
  unfold State.recordAs; simp +decide
@[simp] theorem State.record_quiet (s : State) (code : Nat) (data : List Byte) : s.Quiet (s.record code data) := by
  unfold State.record State.recordFrom; simp
@[simp] theorem State.recordSafe_quiet (s : State) (reason detail : Nat) (stop : Option (Nat × Nat)) :
    s.Quiet (s.recordSafe reason detail stop) := by
  unfold State.recordSafe; simp
@[simp] theorem State.parkCancel_quiet (s : State) : s.Quiet s.parkCancel := by unfold State.parkCancel; simp -implicitDefEqProofs +decide
@[simp] theorem State.setBuf_quiet (s : State) (k : Nat) (x : CBuf) : s.Quiet (s.setBuf k x) := by
  have h {a : Nat} (ha : 0x100 ≤ a % 0x1000 ∧ a % 0x1000 < 0x300) : a ∉ quietAddrs := by
    simp only [quietAddrs, List.mem_cons, List.not_mem_nil, or_false]
    omega
  have hstat (lo hi : Nat) : (Fld.mk (0x40030100 + k / 64 * 0x1000 + k % 64 * 0x8) hi lo).addr ∉ quietAddrs :=
    h (by dsimp only; omega)
  have hid : (Reg.BUF_ID_ID (k / 64) (k % 64)).addr ∉ quietAddrs :=
    h (by dsimp only [Reg.BUF_ID_ID]; omega)
  have htx : (Reg.BUF_STAT_TX (k / 64) (k % 64)).addr ∉ quietAddrs := hstat 0 0
  have hmain : (Reg.BUF_STAT_MAIN_FULL (k / 64) (k % 64)).addr ∉ quietAddrs := hstat 1 1
  have hheld : (Reg.BUF_STAT_HELD (k / 64) (k % 64)).addr ∉ quietAddrs := hstat 2 2
  have hshadow : (Reg.BUF_STAT_SHADOW_FULL (k / 64) (k % 64)).addr ∉ quietAddrs := hstat 3 3
  have hpend : (Reg.BUF_STAT_TX_PEND (k / 64) (k % 64)).addr ∉ quietAddrs := hstat 4 4
  have hdef : (Reg.BUF_STAT_CANCEL_DEF (k / 64) (k % 64)).addr ∉ quietAddrs := hstat 5 5
  unfold State.setBuf
  dsimp only
  exact .trans (t := { s with bufs := mset {} s.bufs k x }) ⟨rfl, rfl⟩ <| .trans (State.fput_quiet htx) <| .trans (State.fput_quiet hmain) <|
    .trans (State.fput_quiet hheld) <| .trans (State.fput_quiet hshadow) <| .trans (State.fput_quiet hpend) <|
    .trans (State.fput_quiet hdef) (State.fset_quiet hid)
@[simp] theorem State.canUnhold_quiet (s : State) (k : Nat) : s.Quiet (s.canUnhold k) := by
  unfold State.canUnhold
  dsimp only
  split
  · simp -implicitDefEqProofs +decide
  · split <;> simp -implicitDefEqProofs +decide
@[simp] theorem State.canUnholdAll_quiet (s : State) (t : Nat) : s.Quiet (s.canUnholdAll t) := by
  unfold State.canUnholdAll
  simp -implicitDefEqProofs +decide
@[simp] theorem State.ckAbandon_quiet (s : State) (c : Ckpt) : s.Quiet (s.ckAbandon c) := by unfold State.ckAbandon; simp -implicitDefEqProofs +decide
@[simp] theorem State.preserve_quiet (s : State) (b : Nat) : s.Quiet (s.preserve b) := by
  unfold State.preserve
  split <;> simp -implicitDefEqProofs +decide
@[simp] theorem State.setDirty_quiet (s : State) (b : Nat) : s.Quiet (s.setDirty b) := by unfold State.setDirty; simp -implicitDefEqProofs +decide
@[simp] theorem State.putBlk_quiet (s : State) (b : Nat) (l : List Byte) : s.Quiet (s.putBlk b l) := by
  unfold State.putBlk
  simp -implicitDefEqProofs +decide
@[simp] theorem State.rollback_quiet (s : State) (ts : Nat) : s.Quiet (s.rollback ts) := by unfold State.rollback; simp -implicitDefEqProofs +decide
@[simp] theorem State.qRestore_quiet (s : State) (ts : Nat) : s.Quiet (s.qRestore ts) := by unfold State.qRestore; simp -implicitDefEqProofs +decide
@[simp] theorem State.retireLane_quiet (s : State) (l : Nat) : s.Quiet (s.retireLane l) := by
  unfold State.retireLane
  simp -implicitDefEqProofs +decide
@[simp] theorem State.taskBoundary_quiet (s : State) : s.Quiet s.taskBoundary := by unfold State.taskBoundary; simp -implicitDefEqProofs +decide
@[simp] theorem State.scSettle_quiet (s : State) : s.Quiet s.scSettle := by unfold State.scSettle; split <;> simp -implicitDefEqProofs +decide
@[simp] theorem State.schedule_quiet (s : State) : s.Quiet s.schedule := by unfold State.schedule; simp -implicitDefEqProofs +decide
@[simp] theorem State.releaseLocks_quiet (s : State) (t : Nat) :
    s.Quiet (s.releaseLocks t) := by
  unfold State.releaseLocks; split <;> simp -implicitDefEqProofs +decide
theorem State.dropAct_quiet (s : State) {t : Nat} (ht : t < 24) : s.Quiet (s.dropAct t) := by
  have ha : (Reg.TASK_STAT_ACTIVE_RUN t).addr ∉ quietAddrs := by
    simp only [Reg.TASK_STAT_ACTIVE_RUN, quietAddrs, List.mem_cons, List.not_mem_nil, or_false]
    omega
  unfold State.dropAct
  simp -implicitDefEqProofs +decide [ha]
@[simp] theorem State.dropActs_quiet (s : State) (ts : Nat) : s.Quiet (s.each (taskNums.filter fun t => bit ts t) fun s t => s.dropAct t) :=
  foldl_quiet_mem fun _ ht s => s.dropAct_quiet (List.mem_range.1 (List.mem_filter.1 ht).1)
@[simp] theorem State.abandon_quiet (s : State) (ts : Nat) : s.Quiet (s.abandon ts) := by
  unfold State.abandon
  dsimp only
  generalize ts &&& s.actMask = m
  split_ifs <;> simp

end Sys2Proof.Machine
end
section
namespace Sys2Proof.Machine

/-! ### A die that misses (R31, R35, R36) -/

/-- A field of a register watched reads as before. -/
theorem State.fbit_of_core {s t : State} {g : Fld} (h : coreOf t.regs = coreOf s.regs) (hg : coreAddr g.addr = true) : t.fbit g = s.fbit g := by
  have := congrFun h g.addr
  simp only [coreOf, hg, if_true] at this
  unfold State.fbit State.fget
  rw [this]

theorem State.fbit_fset_addr (s : State) {f g : Fld} (v : Nat) (h : g.addr ≠ f.addr) : (s.fset f v).fbit g = s.fbit g :=
  congrArg (decide <| · ≠ 0) (State.fget_fset_addr s h)

theorem coreAddr_linkStat {n : Nat} (hn : n < 8) : coreAddr (0x40020800 + n * 0x10) = true := by
  simp only [coreAddr, Bool.or_eq_true, decide_eq_true_eq]
  omega

/-- A field of a link's status reads as before. -/
theorem State.Level.linkStat {s t : State} (h : s.Level t) {g : Fld} {n : Nat} (hn : n < 8) (hg : g.addr = 0x40020800 + n * 0x10) :
    t.fbit g = s.fbit g := State.fbit_of_core h.2 (by rw [hg]; exact coreAddr_linkStat hn)

/-- A fold over slots in which an operation changes the link of its own slot alone leaves the link of every other slot. -/
theorem foldl_link_of_notMem {f : State → Nat → State} (hf : ∀ (s : State) m, s.OnlyLink (f s m) m) {l : List Nat} {n : Nat} (hn : n ∉ l) (s : State) :
    (l.foldl f s).link n = s.link n := by
  induction l generalizing s with
  | nil => rfl
  | cons m l ih =>
    rw [List.mem_cons, not_or] at hn
    exact (ih hn.2 _).trans ((hf s m).others n hn.1)

theorem State.onlyLink_stageTo (s : State) (n : Nat) (out : Bytes) : s.OnlyLink (s.stageTo n out) n := by
  unfold State.stageTo
  dsimp only
  split
  · exact .refl s n
  · exact (s.onlyLink_ctlSend n _ _).trans (State.onlyLink_setLink ..)

/-- R61. The outputs of SAFE go to the admitted dies alone. -/
theorem State.stageSafe_link {s : State} {n : Nat} (h : s.admitted n = false) : s.stageSafe.link n = s.link n :=
  foldl_link_of_notMem (fun s m => s.onlyLink_stageTo m _) (by simp [h]) s

theorem State.Level.admitted {s t : State} (h : s.Level t) {n : Nat} (hn : n < 8) : t.admitted n = s.admitted n := h.linkStat hn rfl

/-- R61. SAFE holds or is asked for already. -/
def State.safeHeld (s : State) : Bool :=
  s.mode == mSafe || s.mode == mPark || (match s.modeReq with | some r => r.mode == mSafe | none => false)

/-- R61, R449. On the way to SAFE: every activation is given up and the entry recorded. -/
def State.givenUp (s : State) (reason detail : Nat) (stop : Option (Nat × Nat)) : State :=
  let s := { s with boot := { s.boot with step := if s.mode = mBoot then 0 else s.boot.step } }
  let s := s.parkCancel.abandon s.actMask
  ({ s with eng := { s.eng with pend := 0, ended := [] } }).recordSafe reason detail stop

/-- R61. SAFE is entered at once, or at the next commit point with its outputs staged. -/
theorem State.enterSafe_eq (s : State) (reason detail : Nat) (stop : Option (Nat × Nat)) : s.enterSafe reason detail stop =
    if s.safeHeld then s
    else if (s.givenUp reason detail stop).power.crossAt.isSome || (s.givenUp reason detail stop).mode == mBoot then
      (s.givenUp reason detail stop).nowSafe reason detail (0x80 + reason)
    else
      { s.givenUp reason detail stop with modeReq := some { mode := mSafe, trig := 0x80 + reason, reason, detail } }.stageSafe := rfl

theorem State.givenUp_quiet (s : State) (reason detail : Nat) (stop : Option (Nat × Nat)) : s.Quiet (s.givenUp reason detail stop) := by
  unfold State.givenUp
  simp

/-- The clocks, the registers watched and the mode outlast the activations. -/
theorem State.givenUp_level (s : State) (reason detail : Nat) (stop : Option (Nat × Nat)) :
    s.Level (s.givenUp reason detail stop) ∧ modeOf (s.givenUp reason detail stop).regs = modeOf s.regs ∧
      (s.givenUp reason detail stop).modeReq = s.modeReq := by
  unfold State.givenUp
  simp

/-- R61. SAFE leaves the link of a die that is not admitted. -/
theorem State.enterSafe_link {s : State} {n : Nat} (hn : n < 8) (h : s.admitted n = false) (reason detail : Nat) (stop : Option (Nat × Nat)) :
    (s.enterSafe reason detail stop).link n = s.link n := by
  have hlinks := (s.givenUp_quiet reason detail stop).1
  have hadm := ((s.givenUp_level reason detail stop).1.admitted hn).trans h
  rw [State.enterSafe_eq]
  generalize s.givenUp reason detail stop = u at hlinks hadm ⊢
  split
  · rfl
  · split
    · exact State.link_congr ((State.nowSafe_links ..).trans hlinks) n
    · refine (State.stageSafe_link ?_).trans (State.link_congr hlinks n)
      exact hadm

theorem State.handover_link {s : State} {n : Nat} (hn : n < 8) (h : s.admitted n = false) (cause : Nat) : (s.handover cause).link n = s.link n := by
  unfold State.handover
  split
  · rfl
  · split
    · exact State.link_congr (by simp) n
    · exact State.enterSafe_link hn (h ▸ (State.fset_still (by decide)).level.admitted hn) ..

/-- Slot `n` holds a die that has missed: an orphan, not admitted. -/
def State.Orphaned (s : State) (n : Nat) : Prop := s.fbit (Reg.LINK_STAT_ORPHAN n) = true ∧ s.admitted n = false

theorem State.Level.orphaned {s t : State} (h : s.Level t) {n : Nat} (hn : n < 8) (ho : s.Orphaned n) : t.Orphaned n :=
  ⟨(h.linkStat hn rfl).trans ho.1, (h.admitted hn).trans ho.2⟩

/-- The flags of the commit cycle are no link's status. -/
theorem commitFlags_ne_linkStat {f g : Fld} {n : Nat} (hf : f.addr = 0x40020884) (hg : g.addr = 0x40020800 + n * 0x10) : g.addr ≠ f.addr := by
  omega

/-- R35. The registers of a die excluded. -/
def State.excludeMarked (s : State) (n : Nat) : State :=
  ((s.fon (Reg.LINK_STAT_EXCLUDED n)).fset (Reg.LINK_STAT_ADMITTED n) 0).fon Reg.COMMIT_FLAGS_DIE_EXCLUDED

theorem State.excludeMarked_spec (s : State) (n : Nat) : (s.excludeMarked n).fbit (Reg.LINK_STAT_EXCLUDED n) = true ∧
    (s.excludeMarked n).admitted n = false ∧ (s.excludeMarked n).fbit Reg.COMMIT_FLAGS_DIE_EXCLUDED = true ∧
    (s.excludeMarked n).fbit (Reg.LINK_STAT_ORPHAN n) = s.fbit (Reg.LINK_STAT_ORPHAN n) := by
  have hflags {g : Fld} (hg : g.addr = 0x40020800 + n * 0x10) : g.addr ≠ Reg.COMMIT_FLAGS_DIE_EXCLUDED.addr := commitFlags_ne_linkStat rfl hg
  refine ⟨?_, ?_, State.fbit_fon_same _ (by decide), ?_⟩
  · exact (State.fbit_fset_addr _ 1 (hflags rfl)).trans <| (State.fbit_fset_apart _ (by simp [Fld.apart, Reg.LINK_STAT_ADMITTED, Reg.LINK_STAT_EXCLUDED])
      (Nat.le_refl 3) (Nat.le_refl 1)).trans (State.fbit_fon_same _ (Nat.le_refl 3))
  · exact (State.fbit_fset_addr _ 1 (hflags rfl)).trans (State.fbit_fput_same (b := false) _ (Nat.le_refl 1))
  · exact (State.fbit_fset_addr _ 1 (hflags rfl)).trans <| (State.fbit_fset_apart _ (by simp [Fld.apart, Reg.LINK_STAT_ADMITTED, Reg.LINK_STAT_ORPHAN])
      (Nat.le_refl 2) (Nat.le_refl 1)).trans <|
      State.fbit_fset_apart _ (by simp [Fld.apart, Reg.LINK_STAT_ORPHAN, Reg.LINK_STAT_EXCLUDED]) (Nat.le_refl 2) (Nat.le_refl 3)

/-- R35. A die not excluded yet is marked and recorded, and where the image ranks it so the role is handed over. -/
theorem State.exclude_eq (s : State) (n cause : Nat) : s.exclude n cause =
    if s.fbit (Reg.LINK_STAT_EXCLUDED n) then s
    else if fieldOf (mget 0 ((s.excludeMarked n).recordFrom cDIE_EXCLUDED n 31 (leBytes 1 n ++ leBytes 1 cause)).regs 0x40050068) (8 + n) 1 = 1 then
      ((s.excludeMarked n).recordFrom cDIE_EXCLUDED n 31 (leBytes 1 n ++ leBytes 1 cause)).handover 4
    else (s.excludeMarked n).recordFrom cDIE_EXCLUDED n 31 (leBytes 1 n ++ leBytes 1 cause) := rfl

theorem State.exclude_level {s : State} {n : Nat} (h : s.fbit (Reg.LINK_STAT_EXCLUDED n) = false) (cause : Nat) :
    (s.excludeMarked n).Level (s.exclude n cause) := by
  have hrec := ((s.excludeMarked n).recordFrom_still cDIE_EXCLUDED n 31 (leBytes 1 n ++ leBytes 1 cause)).level
  rw [State.exclude_eq, h, if_neg Bool.false_ne_true]
  split
  · exact hrec.trans (State.handover_level ..)
  · exact hrec

/-- R35. The exclusion of an orphan leaves it one, and its link alone. -/
theorem State.exclude_orphaned {s : State} {n : Nat} (hn : n < 8) (h : s.Orphaned n) (cause : Nat) :
    (s.exclude n cause).Orphaned n ∧ (s.exclude n cause).link n = s.link n := by
  by_cases hx : s.fbit (Reg.LINK_STAT_EXCLUDED n) = true
  · rw [State.exclude_eq, if_pos hx]
    exact ⟨h, rfl⟩
  · have hx := Bool.eq_false_of_not_eq_true hx
    obtain ⟨-, hadm, -, horphan⟩ := s.excludeMarked_spec n
    refine ⟨(State.exclude_level hx cause).orphaned hn ⟨horphan.trans h.1, hadm⟩, ?_⟩
    have hlink : ((s.excludeMarked n).recordFrom cDIE_EXCLUDED n 31 (leBytes 1 n ++ leBytes 1 cause)).link n = s.link n :=
      State.link_congr (State.recordFrom_links ..) n
    have hrec := ((s.excludeMarked n).recordFrom_still cDIE_EXCLUDED n 31 (leBytes 1 n ++ leBytes 1 cause)).level
    rw [State.exclude_eq, hx, if_neg Bool.false_ne_true]
    split
    · exact (State.handover_link hn ((hrec.admitted hn).trans hadm) 4).trans hlink
    · exact hlink

theorem State.exclude_mono (s : State) (n cause : Nat) : (s.exclude n cause).time.mono = s.time.mono := by
  by_cases hx : s.fbit (Reg.LINK_STAT_EXCLUDED n) = true
  · rw [State.exclude_eq, if_pos hx]
  · exact congrArg Time.mono (State.exclude_level (Bool.eq_false_of_not_eq_true hx) cause).time

/-- R31. The registers of a die that has missed. -/
def State.missMarked (s : State) (n : Nat) : State :=
  (((s.fset (Reg.LINK_STAT_ADMITTED n) 0).fset (Reg.LINK_STAT_APPLIED n) 0).fon (Reg.LINK_STAT_ORPHAN n)).fon Reg.COMMIT_FLAGS_DIE_MISS

/-- R31. What was under way with a die that has missed is given up; it is out of the commit in hand. -/
def State.missClosed (s : State) (n : Nat) : State :=
  let s := s.setLink n { s.link n with
    stageNum := none, resync := false, acked := none, ackWrong := false, lresetMiss := false, inputsBad := true
    missPend := (s.readers n).foldl (fun m t => putBit m t true) 0, orphanAt := s.time.mono :: (s.link n).orphanAt }
  let s := { s with time := { s.time with sentTo := putBit s.time.sentTo n false, confirmed := putBit s.time.confirmed n false } }
  match s.dup.prep with
  | some m => { s with dup := { s.dup with prep := some (putBit m n false) } }
  | none => s

/-- R31. The die of slot `n` has missed, before its window of misses is looked at. -/
def State.missed (s : State) (n cause : Nat) : State :=
  (((s.missMarked n).lsat (Reg.LINK_MISS_MISSED_COMMITS n)).recordFrom cDIE_MISS n 31 (leBytes 1 n ++ leBytes 1 cause)).missClosed n

/-- R31, R36. A miss, its window, and the exclusion behind the eighth of a window. -/
theorem State.miss_eq (s : State) (n cause : Nat) : s.miss n cause =
    if 8 ≤ (((s.missed n cause).missWindow n).link n).orphanAt.length then ((s.missed n cause).missWindow n).exclude n 1
    else (s.missed n cause).missWindow n := rfl

/-- What is given up leaves the registers and the clock. -/
theorem State.missClosed_spec (s : State) (n : Nat) : (s.missClosed n).time.mono = s.time.mono ∧ (s.missClosed n).regs = s.regs ∧
    ((s.missClosed n).link n).stageNum = none := by
  unfold State.missClosed
  dsimp only
  split
  · exact ⟨rfl, rfl, congrArg Link.stageNum (s.link_setLink n _)⟩
  · exact ⟨rfl, rfl, congrArg Link.stageNum (s.link_setLink n _)⟩

/-- R31. A miss leaves what its marks leave of the watched registers. -/
theorem State.missed_spec (s : State) (n cause : Nat) : (s.missed n cause).time.mono = s.time.mono ∧
    coreOf (s.missed n cause).regs = coreOf (s.missMarked n).regs ∧ ((s.missed n cause).link n).stageNum = none := by
  have hrec : (s.missMarked n).Level
      (((s.missMarked n).lsat (Reg.LINK_MISS_MISSED_COMMITS n)).recordFrom cDIE_MISS n 31 (leBytes 1 n ++ leBytes 1 cause)) := by simp
  obtain ⟨⟨htime, -⟩, hcore⟩ := hrec
  unfold State.missed
  generalize ((s.missMarked n).lsat (Reg.LINK_MISS_MISSED_COMMITS n)).recordFrom cDIE_MISS n 31 (leBytes 1 n ++ leBytes 1 cause) = u at *
  obtain ⟨hmono, hregs, hnum⟩ := u.missClosed_spec n
  exact ⟨hmono.trans (congrArg Time.mono htime), by rw [hregs, hcore], hnum⟩

theorem State.missMarked_orphaned (s : State) (n : Nat) : (s.missMarked n).Orphaned n := by
  have happlied : (Reg.LINK_STAT_APPLIED n).lo ≤ (Reg.LINK_STAT_APPLIED n).hi := by simp [Reg.LINK_STAT_APPLIED]
  constructor
  · exact (State.fbit_fset_addr _ 1 (commitFlags_ne_linkStat rfl rfl)).trans (State.fbit_fon_same _ (Nat.le_refl 2))
  · exact (State.fbit_fset_addr _ 1 (commitFlags_ne_linkStat rfl rfl)).trans <|
      (State.fbit_fset_apart _ (by simp [Fld.apart, Reg.LINK_STAT_ADMITTED, Reg.LINK_STAT_ORPHAN]) (Nat.le_refl 1) (Nat.le_refl 2)).trans <|
      (State.fbit_fset_apart _ (by simp [Fld.apart, Reg.LINK_STAT_ADMITTED, Reg.LINK_STAT_APPLIED]) (Nat.le_refl 1) happlied).trans <|
      State.fbit_fput_same (b := false) _ (Nat.le_refl 1)

theorem State.missWindow_stageNum (s : State) (n : Nat) : ((s.missWindow n).link n).stageNum = (s.link n).stageNum :=
  (congrArg Link.stageNum (State.link_setLink ..) :)

/-- R36. The window of misses is no mark of the die. -/
theorem State.Orphaned.missWindow {s : State} {n : Nat} (h : s.Orphaned n) : (s.missWindow n).Orphaned n := by
  have hw : (Reg.LINK_STAT_MISS_60S n).lo ≤ (Reg.LINK_STAT_MISS_60S n).hi := by simp [Reg.LINK_STAT_MISS_60S]
  exact ⟨(State.fbit_fset_apart _ (by simp [Fld.apart, Reg.LINK_STAT_ORPHAN, Reg.LINK_STAT_MISS_60S]) (Nat.le_refl 2) hw).trans h.1,
    (State.fbit_fset_apart _ (by simp [Fld.apart, Reg.LINK_STAT_ADMITTED, Reg.LINK_STAT_MISS_60S]) (Nat.le_refl 1) hw).trans h.2⟩

/-- R31. A die that misses is an orphan with nothing under way, at the instant of the miss. -/
theorem State.miss_spec (s : State) {n : Nat} (hn : n < 8) (cause : Nat) : (s.miss n cause).Orphaned n ∧
    ((s.miss n cause).link n).stageNum = none ∧ (s.miss n cause).time.mono = s.time.mono := by
  obtain ⟨hmono, hcore, hnum⟩ := s.missed_spec n cause
  obtain ⟨ho, ha⟩ := s.missMarked_orphaned n
  have hmissed : (s.missed n cause).Orphaned n :=
    ⟨(State.fbit_of_core hcore (coreAddr_linkStat hn)).trans ho, (State.fbit_of_core hcore (coreAddr_linkStat hn)).trans ha⟩
  have hwindow := ((s.missed n cause).missWindow_stageNum n).trans hnum
  rw [State.miss_eq]
  split
  · obtain ⟨horphan, hlink⟩ := State.exclude_orphaned hn hmissed.missWindow 1
    exact ⟨horphan, (congrArg Link.stageNum hlink).trans hwindow, (State.exclude_mono ..).trans hmono⟩
  · exact ⟨hmissed.missWindow, hwindow, hmono⟩

end Sys2Proof.Machine
end
section
namespace Sys2Proof.Machine

/-! ### The deadlines of a STAGE, and SYNC (R27 to R31, R40) -/

theorem State.le_toMono (s : State) (t : Nat) : t ≤ (s.toMono t).time.mono := by
  unfold State.toMono
  rw [State.advance_mono]
  omega

/-- A fold over slots in which an operation changes the link of its own slot alone changes the links alone. -/
theorem foldl_links {f : State → Nat → State} (hf : ∀ (s : State) m, s.OnlyLink (f s m) m) (l : List Nat) (s : State) :
    l.foldl f s = { s with links := (l.foldl f s).links } := by
  induction l generalizing s with
  | nil => rfl
  | cons m l ih =>
    rw [List.foldl_cons, ih (f s m), (hf s m).frame]

/-- In such a fold the link of a slot is as the operation leaves it that meets the slot. -/
theorem foldl_link_of_mem {f : State → Nat → State} (hf : ∀ (s : State) m, s.OnlyLink (f s m) m) {l : List Nat} (hl : l.Nodup) {n : Nat} (hn : n ∈ l)
    (s : State) : ∃ t, (l.foldl f s).link n = (f t n).link n ∧ t.link n = s.link n ∧ t = { s with links := t.links } := by
  induction l generalizing s with
  | nil => simp at hn
  | cons m l ih =>
    obtain ⟨hm, hl⟩ := List.nodup_cons.mp hl
    rcases List.mem_cons.mp hn with rfl | hn
    · exact ⟨s, foldl_link_of_notMem hf hm _, rfl, rfl⟩
    · obtain ⟨t, hlink, hsame, hframe⟩ := ih hl hn (f s m)
      refine ⟨t, hlink, hsame.trans ((hf s m).others n fun h => hm (h ▸ hn)), ?_⟩
      rw [hframe, (hf s m).frame]

/-- R31. A STAGE not acknowledged within 5 µs is sent once more. -/
theorem stageResend_completes {s : State} {n : Slot} {k : Nat} {f : Frame} {b : Bool} (hk : (s.link n).stageNum = some k)
    (ha : (s.link n).acked = none) (hr : (s.link n).stageResent = false)
    (hf : ((s.link n).ctlKept.find? fun g => g.1.typ == 2 || g.1.typ == 0x0A) = some (f, b)) :
    s.Does (.stageResend n) fun t => (t.link n).stageResent = true ∧ (t.link n).down = (s.link n).down ++ [f.again] ∧
      (s.link n).stageAt + 5000 ≤ t.time.mono ∧ (∀ m ≠ n.val, t.link m = s.link m) ∧
      t = { s with time := t.time, power := t.power, links := t.links } := by
  have he : exec (.stageResend n) s = .next ((s.toMono ((s.link n).stageAt + 5000)).setLink n { s.link n with
      stageResent := true, down := (s.link n).down ++ [f.again]
      ctlKept := (s.link n).ctlKept.map fun x => if x.1.seq == f.seq then (f.again, x.2) else x }) := by
    have hlink : (s.toMono ((s.link n).stageAt + 5000)).link n = s.link n := rfl
    simp [exec, execStageResend, hk, ha, hr, hlink, hf]
  exact ⟨_, he, by rw [State.link_setLink], by rw [State.link_setLink], s.le_toMono _, fun _ hm => State.link_setLink_other _ hm, rfl⟩

/-- R31. A die whose STAGE is not acknowledged within 10 µs misses. -/
theorem ackDeadline_completes {s : State} {n : Slot} {k : Nat} (hk : (s.link n).stageNum = some k) (ha : (s.link n).acked = none)
    (hr : (s.link n).resync = false) :
    s.Does (.ackDeadline n) fun t => t.fbit (Reg.LINK_STAT_ORPHAN n) = true ∧ t.fbit (Reg.LINK_STAT_ADMITTED n) = false ∧
      (t.link n).stageNum = none ∧ (s.link n).stageAt + 10000 ≤ t.time.mono := by
  have he : exec (.ackDeadline n) s = .next ((s.toMono ((s.link n).stageAt + 10000)).miss n (if (s.link n).ackWrong then 2 else 1)) := by
    simp [exec, execAckDeadline, hk, ha, hr]
  obtain ⟨⟨horphan, hadmitted⟩, hnum, hmono⟩ := (s.toMono ((s.link n).stageAt + 10000)).miss_spec n.isLt (if (s.link n).ackWrong then 2 else 1)
  exact ⟨_, he, horphan, hadmitted, hnum, (s.le_toMono _).trans_eq hmono.symm⟩

/-- R29. A set accepted and not applied for 50 µs is discarded. -/
theorem stageDiscard_completes {s : State} {n : Slot} {k : Nat} {full : Bool} {b : Bytes} {at_ : Nat}
    (hx : (s.sat n).staged = some (k, full, b, at_)) (hp : s.present n = true) :
    s.Does (.stageDiscard n) fun t => (t.sat n).staged = none ∧ (t.sat n).applied = (s.sat n).applied ∧ at_ + 50000 ≤ t.time.mono ∧
      (∀ m ≠ n.val, t.sat m = s.sat m) ∧ t = { s with time := t.time, power := t.power, sats := t.sats } := by
  have he : exec (.stageDiscard n) s = .next ((s.toMono (at_ + 50000)).setSat n { s.sat n with staged := none }) := by
    simp [exec, execStageDiscard, hx, hp]
  exact ⟨_, he, by rw [State.sat_setSat], by rw [State.sat_setSat], s.le_toMono _, fun _ hm => State.sat_setSat_other _ hm, rfl⟩

/-- R40. SYNC goes out to every admitted die. -/
theorem syncSend_completes {s : State} (hmode : s.mode ≠ mPark) (hany : satSlots.any (fun n => s.admitted n) = true) :
    s.Does .syncSend fun t => t.time.lastSync = t.time.mono ∧ s.time.lastSync + 100000 ≤ t.time.mono ∧
      (∀ n ∈ satSlots, s.admitted n = true → s.linkIsUp n = true →
        (t.link n).down = (s.link n).down ++ [s.ctlFrame n 0x05 (leBytes 8 t.time.dev)]) ∧
      t = { s with time := t.time, power := t.power, links := t.links } := by
  let u := s.toMono (s.time.lastSync + 100000)
  let v : State := { u with time := { u.time with lastSync := u.time.mono } }
  let sync : State → Nat → State := fun s n => s.ctlSend n 0x05 (leBytes 8 s.time.dev)
  have hsync : ∀ (s : State) m, s.OnlyLink (sync s m) m := fun s m => s.onlyLink_ctlSend m _ _
  have he : exec .syncSend s = .next (v.each (satSlots.filter fun n => s.admitted n) sync) := by
    simp only [exec, execSyncSend]
    rw [if_neg (by simp [hmode, hany])]
    rfl
  have hframe : v.each (satSlots.filter fun n => s.admitted n) sync = { v with links := (v.each (satSlots.filter fun n => s.admitted n) sync).links } :=
    foldl_links hsync _ v
  have hdev : (v.each (satSlots.filter fun n => s.admitted n) sync).time = v.time := by rw [hframe]
  refine ⟨_, he, ?_, ?_, fun n hn ha hup => ?_, ?_⟩
  · rw [hdev]
  · rw [hdev]
    exact s.le_toMono _
  · obtain ⟨t, hlink, hsame, ht⟩ := foldl_link_of_mem hsync (List.Nodup.filter _ (by decide)) (List.mem_filter.mpr ⟨hn, ha⟩) v
    have hup' : t.linkIsUp n = true := by rw [ht]; exact hup
    have hsend : (sync t n).link n = (t.link n).ctlSent (t.ctlFrame n 0x05 (leBytes 8 t.time.dev)) := by
      simp only [sync, State.ctlSend_of_up hup', State.link_setLink]
    rw [hdev]
    refine (congrArg Link.down (hlink.trans hsend)).trans ?_
    rw [State.ctlFrame, hsame, ht]
    rfl
  · rw [hframe]
    rfl

/-- Settles O18: each deadline moves the clock to its instant and acts there; `State.miss_spec` has what a miss leaves. -/
theorem stageDeadlinesComplete : Obligations.StageDeadlinesComplete := fun _ =>
  ⟨fun _ _ _ _ hk ha hr hf => stageResend_completes hk ha hr hf, fun _ _ _ hk ha hr => ackDeadline_completes hk ha hr,
    fun _ _ _ _ _ hx hp => stageDiscard_completes hx hp, fun hmode hany => syncSend_completes hmode hany⟩

end Sys2Proof.Machine
end
section
namespace Sys2Proof.Machine

/-! ### Clocks and supplies (R44, R60, R475, R476, R481, R482) -/

theorem State.regsBut_trans {s t u : State} {l l' : List Fld} (h : s.regsBut t l) (h' : t.regsBut u l') : s.regsBut u (l ++ l') := by
  intro g hg hoff
  exact (h' g hg fun f hf => hoff f (List.mem_append_right l hf)).trans (h g hg fun f hf => hoff f (List.mem_append_left l' hf))

/-- What of the supplies outlasts the activations: all but the parking asked for, and the mark of an activation cut short. -/
def Power.lasting (p : Power) : Power := { p with park := 0, parkStop := false, nonAtomic := false }

theorem State.abandon_power (s : State) (ts : Nat) : (s.abandon ts).power.lasting = s.power.lasting ∧
    ((s.abandon ts).power.park = s.power.park ∨ (s.abandon ts).power.park = 0) := by
  have hend (m : Nat) (u : State) : (if m = 0 then ((u.rollback m).qRestore m).each (taskNums.filter fun t => bit m t) fun s t => s.dropAct t
      else (((u.rollback m).qRestore m).each (taskNums.filter fun t => bit m t) fun s t => s.dropAct t).taskBoundary.schedule).power = u.power := by
    split
    · exact (State.Still.trans (by simp) (State.dropActs_still ..)).2
    · exact (State.Still.trans (by simp) (t := ((u.rollback m).qRestore m).each (taskNums.filter fun t => bit m t) fun s t => s.dropAct t) (by simp)).2
  unfold State.abandon
  dsimp only
  rw [hend]
  split_ifs <;> simp [Power.lasting, State.parkCancel]

theorem State.givenUp_power (s : State) (reason detail : Nat) (stop : Option (Nat × Nat)) :
    (s.givenUp reason detail stop).power.lasting = s.power.lasting ∧ (s.givenUp reason detail stop).power.park = 0 := by
  unfold State.givenUp
  obtain ⟨hlasting, hpark⟩ := ({ s with boot := { s.boot with step := if s.mode = mBoot then 0 else s.boot.step } } : State).parkCancel.abandon_power s.actMask
  simp only [State.recordSafe_power]
  exact ⟨hlasting, hpark.elim id id⟩

/-- R61. While the module drives, SAFE is asked for at the next commit point: the mode holds until then. -/
theorem State.enterSafe_asks {s : State} (hd : s.driving = true) (hc : s.power.crossAt = none) (hr : s.modeReq = none) (reason detail : Nat) :
    (s.enterSafe reason detail).modeReq = some { mode := mSafe, trig := 0x80 + reason, reason, detail } ∧
      (s.enterSafe reason detail).mode = s.mode ∧ clocksOf (s.enterSafe reason detail).regs = clocksOf s.regs := by
  have hmode : s.mode = mActive ∨ s.mode = mMaint := by simpa [State.driving] using hd
  have hheld : s.safeHeld = false := by
    unfold State.safeHeld
    rw [hr]
    rcases hmode with h | h <;> rw [h] <;> rfl
  obtain ⟨-, hsame, -⟩ := s.givenUp_level reason detail none
  have hquiet := (s.givenUp_quiet reason detail none).2
  have hcross : (s.givenUp reason detail none).power.crossAt = none := (congrArg Power.crossAt (s.givenUp_power reason detail none).1).trans hc
  have hboot : (s.givenUp reason detail none).mode ≠ mBoot := by
    intro h
    rw [show (s.givenUp reason detail none).mode = s.mode from hsame] at h
    rcases hmode with h' | h' <;> simp [h'] at h
  rw [State.enterSafe_eq, hheld, if_neg (by simp), if_neg (by simp [hcross, hboot])]
  have hstage := State.stageSafe_still
    { s.givenUp reason detail none with modeReq := some { mode := mSafe, trig := 0x80 + reason, reason, detail } }
  have hregs : (State.stageSafe { s.givenUp reason detail none with
      modeReq := some { mode := mSafe, trig := 0x80 + reason, reason, detail } }).regs = (s.givenUp reason detail none).regs := by
    unfold State.stageSafe
    exact (congrArg State.regs (foldl_links (fun s m => s.onlyLink_stageTo m _) _ _) :)
  exact ⟨hstage.steady.modeReq, hstage.steady.mode.trans hsame, by rw [hregs, hquiet]⟩

theorem State.fget_of_clocks {s t : State} (h : clocksOf t.regs = clocksOf s.regs) {g : Fld}
    (hg : g.addr ∈ quietAddrs) : t.fget g = s.fget g := by
  have := congrFun h g.addr
  simp only [clocksOf, hg, if_true] at this
  simp only [State.fget, this]

theorem State.fbit_of_clocks {s t : State} (h : clocksOf t.regs = clocksOf s.regs) {g : Fld}
    (hg : g.addr ∈ quietAddrs) : t.fbit g = s.fbit g :=
  congrArg (decide <| · ≠ 0) (State.fget_of_clocks h hg)

/-- R44, R481. Load-switch die `x` goes on on its own oscillator. -/
def State.onLrc (s : State) (x : Nat) : State := (s.fon (Reg.LSW_STAT_ON_LRC x)).fon (Reg.LSW_FLAGS_LRC_SEEN x)

theorem State.onLrc_fget (s : State) (x : Nat) {g : Fld} (h : g.addr < 0x44000000) : (s.onLrc x).fget g = s.fget g :=
  (State.fget_fset_addr _ (by simp only [Reg.LSW_FLAGS_LRC_SEEN]; omega)).trans (State.fget_fset_addr _ (by simp only [Reg.LSW_STAT_ON_LRC]; omega))

theorem State.onLrc_marks {s : State} {x y : Nat} (h : x = y ∨ s.fbit (Reg.LSW_STAT_ON_LRC y) = true) :
    (s.onLrc x).fbit (Reg.LSW_STAT_ON_LRC y) = true := by
  have hstat : (s.fon (Reg.LSW_STAT_ON_LRC x)).fbit (Reg.LSW_STAT_ON_LRC y) = true := by
    by_cases hx : x = y
    · subst hx
      exact State.fbit_fon_same _ (Nat.le_refl 4)
    · have hy := h.resolve_left hx
      exact (State.fbit_fset_addr _ 1 (by simp only [Reg.LSW_STAT_ON_LRC]; omega)).trans hy
  exact (State.fbit_fset_addr _ 1 (by simp only [Reg.LSW_STAT_ON_LRC, Reg.LSW_FLAGS_LRC_SEEN]; omega)).trans hstat

theorem State.onLrcs_spec (l : List Nat) (s : State) :
    (∀ g : Fld, g.addr < 0x44000000 → (s.each l State.onLrc).fget g = s.fget g) ∧
      (∀ y, y ∈ l ∨ s.fbit (Reg.LSW_STAT_ON_LRC y) = true → (s.each l State.onLrc).fbit (Reg.LSW_STAT_ON_LRC y) = true) ∧
      s.each l State.onLrc = { s with regs := (s.each l State.onLrc).regs } := by
  unfold State.each
  induction l generalizing s with
  | nil => exact ⟨fun _ _ => rfl, fun y hy => by simpa using hy, rfl⟩
  | cons x l ih =>
    obtain ⟨hget, hmark, hframe⟩ := ih (s.onLrc x)
    refine ⟨fun g hg => (hget g hg).trans (s.onLrc_fget x hg), fun y hy => hmark y ?_, by rw [List.foldl_cons, hframe]; rfl⟩
    rcases hy with hy | hy
    · exact (List.mem_cons.mp hy).elim (fun h => .inr (State.onLrc_marks (.inl h.symm))) .inl
    · exact .inr (State.onLrc_marks (.inr hy))

/-- R44, R481. The registers of a lost reference. -/
def State.refLost (s : State) : State :=
  (((s.takeFree 16).2.fset Reg.CLK_STAT_REFCLK_OK 0).fon Reg.CLK_FLAGS_REFCLK_LOSS_SEEN).each
    (([0, 1] : List Nat).filter fun x => s.present (4 + x)) State.onLrc

theorem State.driving_not_park {s : State} (h : s.driving = true) : s.mode ≠ mPark := by
  intro hp
  simp [State.driving, hp, mPark, mActive, mMaint] at h

/-- R44, R481. A lost reference asks for SAFE, and the load-switch dies go on on their own oscillators. -/
theorem refclkLoss_completes {s : State} (hd : s.driving = true) (hc : s.power.crossAt = none) (hr : s.modeReq = none) :
    s.Does .refclkLoss fun t => t.fbit Reg.CLK_STAT_REFCLK_OK = false ∧ t.fbit Reg.CLK_FLAGS_REFCLK_LOSS_SEEN = true ∧
      (∃ d, t.modeReq = some { mode := mSafe, trig := 0x88, reason := 0x08, detail := d }) ∧ t.mode = s.mode ∧
      ∀ n : Lsw, s.fitted (4 + n) = true → s.present (4 + n) = true → t.fbit (Reg.LSW_STAT_ON_LRC n) = true := by
  have he : exec .refclkLoss s = .next (s.refLost.enterSafe 0x08 (s.takeFree 16).1) := if_neg (State.driving_not_park hd)
  obtain ⟨hget, hmark, hframe⟩ := State.onLrcs_spec (([0, 1] : List Nat).filter fun x => s.present (4 + x))
    (((s.takeFree 16).2.fset Reg.CLK_STAT_REFCLK_OK 0).fon Reg.CLK_FLAGS_REFCLK_LOSS_SEEN)
  have hmode : s.refLost.mode = s.mode := (hget Reg.MODE_STAT_MODE (by decide)).trans <|
    (State.fget_fset_addr _ (by decide)).trans (State.fget_fset_addr (s.takeFree 16).2 (by decide))
  have hok : s.refLost.fbit Reg.CLK_STAT_REFCLK_OK = false := (congrArg (decide <| · ≠ 0) (hget _ (by decide))).trans <|
    (State.fbit_fset_addr _ 1 (by decide)).trans (State.fbit_fput_same (b := false) _ (by decide))
  have hseen : s.refLost.fbit Reg.CLK_FLAGS_REFCLK_LOSS_SEEN = true := (congrArg (decide <| · ≠ 0) (hget _ (by decide))).trans <|
    State.fbit_fon_same _ (by decide)
  obtain ⟨hasks, hsame, hclocks⟩ := State.enterSafe_asks (s := s.refLost) (by rw [State.driving, hmode]; exact hd)
    ((congrArg (·.power.crossAt) hframe).trans hc) ((congrArg (·.modeReq) hframe).trans hr) 0x08 (s.takeFree 16).1
  refine ⟨_, he, ?_, ?_, ⟨_, hasks⟩, hsame.trans hmode, fun n _ hp => ?_⟩
  · exact (State.fbit_of_clocks hclocks (by decide)).trans hok
  · exact (State.fbit_of_clocks hclocks (by decide)).trans hseen
  · have hn : n.val ∈ ([0, 1] : List Nat).filter fun x => s.present (4 + x) := List.mem_filter.mpr ⟨by fin_cases n <;> decide, hp⟩
    exact (State.fbit_of_clocks hclocks (by fin_cases n <;> decide)).trans (hmark n (.inl hn))

/-- R44, R60. A PLL out of lock asks for SAFE. -/
theorem pllUnlock_completes {s : State} (hd : s.driving = true) (hc : s.power.crossAt = none) (hr : s.modeReq = none) (pll : Fin 8) :
    s.Does (.pllUnlock pll) fun t => bit (t.fget Reg.CLK_STAT_PLL_LOCK) pll = false ∧ t.fbit Reg.CLK_FLAGS_PLL_UNLOCK_SEEN = true ∧
      t.modeReq = some { mode := mSafe, trig := 0x88, reason := 0x08, detail := pll } ∧ t.mode = s.mode := by
  let u := (s.fset Reg.CLK_STAT_PLL_LOCK (putBit (s.fget Reg.CLK_STAT_PLL_LOCK) pll false)).fon Reg.CLK_FLAGS_PLL_UNLOCK_SEEN
  have he : exec (.pllUnlock pll) s = .next (u.enterSafe 0x08 pll) := if_neg (State.driving_not_park hd)
  have hmode : u.mode = s.mode := (State.fget_fset_addr _ (by decide)).trans (State.fget_fset_addr s (by decide))
  have hlock : bit (u.fget Reg.CLK_STAT_PLL_LOCK) pll = false := by
    have hget : u.fget Reg.CLK_STAT_PLL_LOCK = putBit (s.fget Reg.CLK_STAT_PLL_LOCK) pll false % 2 ^ 8 :=
      (State.fget_fset_addr _ (by decide)).trans (State.fget_fset_same s _ _)
    have hbit : bit (putBit (s.fget Reg.CLK_STAT_PLL_LOCK) pll false) pll = false := by simp [bit_putBit]
    rw [hget, bit, Nat.testBit_mod_two_pow]
    simp [bit] at hbit
    simp [hbit]
  obtain ⟨hasks, hsame, hclocks⟩ := State.enterSafe_asks (s := u) (by rw [State.driving, hmode]; exact hd) hc hr 0x08 pll
  refine ⟨_, he, ?_, ?_, hasks, hsame.trans hmode⟩
  · rw [State.fget_of_clocks hclocks (by decide)]
    exact hlock
  · exact (State.fbit_of_clocks hclocks (by decide)).trans (State.fbit_fon_same _ (by decide))

/-- R482. A failed crystal leaves the RC oscillator. -/
theorem xtalFail_completes (s : State) :
    s.Does .xtalFail fun t => t.fbit Reg.CLK_STAT_XTAL_OK = false ∧ t.fbit Reg.CLK_STAT_ON_RC = true ∧ t.fbit Reg.CLK_FLAGS_XTAL_FAIL = true ∧
      s.regsBut t [Reg.CLK_STAT_XTAL_OK, Reg.CLK_STAT_ON_RC, Reg.CLK_FLAGS_XTAL_FAIL] ∧ t = { s with regs := t.regs } := by
  have hbut := State.regsBut_trans (State.regsBut_trans (s.regsBut_fset Reg.CLK_STAT_XTAL_OK 0 (by decide))
    (State.regsBut_fset _ Reg.CLK_STAT_ON_RC 1 (by decide))) (State.regsBut_fset _ Reg.CLK_FLAGS_XTAL_FAIL 1 (by decide))
  refine ⟨_, rfl, ?_, ?_, State.fbit_fon_same _ (by decide), hbut, rfl⟩
  · exact (State.fbit_fset_addr _ 1 (by decide)).trans <| (State.fbit_fset_apart _ (by decide) (by decide) (by decide)).trans <|
      State.fbit_fput_same (b := false) _ (by decide)
  · exact (State.fbit_fset_addr _ 1 (by decide)).trans (State.fbit_fon_same _ (by decide))

/-- R476. The hold-up capacitance measured at a cold boot. -/
theorem vhuMeasured_completes {s : State} (us : Nat) (hm : s.mode = mBoot) (hc : s.boot.cold = true) :
    s.Does (.vhuMeasured us) fun t => t.fget Reg.VHU_CAP_CAP_UF = clip 12 (us * 3 / 80) ∧
      t.fbit Reg.VHU_CAP_VHU_WEAK = decide (us * 3 / 80 < 544) ∧ t.fbit Reg.VHU_CAP_MEASURED = true ∧
      s.regsBut t [Reg.VHU_CAP_CAP_UF, Reg.VHU_CAP_VHU_WEAK, Reg.VHU_CAP_MEASURED] ∧ t = { s with regs := t.regs } := by
  have he : exec (.vhuMeasured us) s = .next (((s.fset Reg.VHU_CAP_CAP_UF (clip 12 (us * 3 / 80))).fput Reg.VHU_CAP_VHU_WEAK
      (decide (us * 3 / 80 < 544))).fon Reg.VHU_CAP_MEASURED) := if_neg (by simp [hm, hc])
  have hbut := State.regsBut_trans (State.regsBut_trans (s.regsBut_fset Reg.VHU_CAP_CAP_UF (clip 12 (us * 3 / 80)) (by decide))
    (State.regsBut_fset _ Reg.VHU_CAP_VHU_WEAK (b2n (decide (us * 3 / 80 < 544))) (by decide))) (State.regsBut_fset _ Reg.VHU_CAP_MEASURED 1 (by decide))
  refine ⟨_, he, ?_, ?_, State.fbit_fon_same _ (by decide), hbut, rfl⟩
  · refine (State.fget_fset_apart _ (by decide) (by decide) (by decide)).trans <|
      (State.fget_fset_apart _ (by decide) (by decide) (by decide)).trans <| (State.fget_fset_same s _ _).trans (Nat.mod_eq_of_lt ?_)
    simp only [clip, Reg.VHU_CAP_CAP_UF]
    omega
  · exact (State.fbit_fset_apart _ (by decide) (by decide) (by decide)).trans (State.fbit_fput_same _ _ (by decide))

/-- R475. The claim and release lands follow VIO. -/
theorem ioSupplyValid_completes (s : State) (valid : Bool) :
    s.Does (.ioSupplyValid false valid) fun t => t.tap.vio = valid ∧ t.fbit Reg.MODE_STAT_CLAIM_OUT = (s.dup.claimOut && valid) ∧
      t.fbit Reg.DUP_STAT_REL_OUT = (s.dup.relAt.isSome && valid) ∧ t = { s with regs := t.regs, tap := { s.tap with vio := valid } } := by
  let u := ({ s with tap := { s.tap with vio := valid } } : State).fput Reg.MODE_STAT_CLAIM_OUT (s.dup.claimOut && valid)
  let v := if s.board.seatB then u.fput Reg.DUP_STAT_CLAIM_B_LAND (s.dup.claimOut && valid)
    else u.fput Reg.DUP_STAT_CLAIM_A_LAND (s.dup.claimOut && valid)
  have hv : v = { s with regs := v.regs, tap := { s.tap with vio := valid } } ∧ v.fbit Reg.MODE_STAT_CLAIM_OUT = u.fbit Reg.MODE_STAT_CLAIM_OUT := by
    simp only [v]
    split
    · exact ⟨rfl, State.fbit_fset_addr _ _ (by decide)⟩
    · exact ⟨rfl, State.fbit_fset_addr _ _ (by decide)⟩
  obtain ⟨hframe, hclaim⟩ := hv
  have he : exec (.ioSupplyValid false valid) s = .next (v.fput Reg.DUP_STAT_REL_OUT (s.dup.relAt.isSome && valid)) := by
    have hdup : v.dup = s.dup := by rw [hframe]
    rw [← hdup]
    rfl
  refine ⟨_, he, ?_, ?_, State.fbit_fput_same _ _ (by decide), ?_⟩
  · exact (congrArg (·.tap.vio) hframe :)
  · exact (State.fbit_fset_addr _ _ (by decide)).trans (hclaim.trans (State.fbit_fput_same _ _ (by decide)))
  · generalize v = v at hframe
    rw [hframe]
    rfl

/-- Settles O48: `State.enterSafe_asks` has what a failed clock asks for, and the other events write their registers alone. -/
theorem clocksComplete : Obligations.ClocksComplete := by
  intro s fails
  exact ⟨fun hd hc hr => ⟨refclkLoss_completes hd hc hr, pllUnlock_completes hd hc hr⟩, xtalFail_completes s,
    fun us hm hc => vhuMeasured_completes us hm hc, fun valid => ⟨_, rfl, rfl, rfl⟩, ioSupplyValid_completes s⟩

end Sys2Proof.Machine
end
section
namespace Sys2Proof.Machine

/-! ### Links come up, fall, and start over (R18, R24, R50) -/

/-- What the links hold of slot `n` on the way to its satellite, the orders of both ends, and whether it is measured. -/
def downsOf (l : List (Nat × Link)) (n : Nat) : List Frame × Nat × Nat × Bool :=
  ((mget {} l n).down, (mget {} l n).ctlRx, (mget {} l n).satRx, (mget {} l n).measuring)

/-- `t` is as `s` but for what its satellites have sent, and the registers and memories of the drives. -/
@[simp, reducible] def State.Answered (s t : State) : Prop := downsOf t.links = downsOf s.links ∧ t.sram = s.sram ∧ t.mram = s.mram

theorem State.Answered.refl (s : State) : s.Answered s := ⟨rfl, rfl, rfl⟩

theorem State.Answered.trans {s t u : State} (h : s.Answered t) (h' : t.Answered u) : s.Answered u :=
  ⟨h'.1.trans h.1, h'.2.1.trans h.2.1, h'.2.2.trans h.2.2⟩

@[simp] theorem foldl_answered {α : Type} {l : List α} {f : State → α → State} {s : State} (h : ∀ (s : State) x, s.Answered (f s x)) :
    s.Answered (l.foldl f s) := List.foldlRecOn l f (.refl s) fun u hu x _ => hu.trans (h u x)

@[simp] theorem State.satSend_answered (s : State) (n typ : Nat) (p : List Byte) : s.Answered (s.satSend n typ p) := by
  unfold State.satSend
  split
  · refine ⟨?_, rfl, rfl⟩
    funext m
    by_cases hm : m = n
    · subst hm
      simp [downsOf, State.setLink, mget_mset_same, State.link]
    · simp [downsOf, State.setLink, mget_mset_other hm]
  · exact .refl s

@[simp] theorem State.each_answered {l : List Nat} {f : State → Nat → State} {s : State} (h : ∀ (s : State) x, s.Answered (f s x)) :
    s.Answered (s.each l f) := foldl_answered h

@[simp] theorem ite_downsOf {c : Prop} [Decidable c] {a b : List (Nat × Link)} :
    downsOf (if c then a else b) = if c then downsOf a else downsOf b := apply_ite ..

@[simp] theorem State.ite_sram {c : Prop} [Decidable c] {a b : State} : (if c then a else b).sram = if c then a.sram else b.sram := apply_ite ..
@[simp] theorem State.ite_mram {c : Prop} [Decidable c] {a b : State} : (if c then a else b).mram = if c then a.mram else b.mram := apply_ite ..

@[simp] theorem State.setDoor_answered (s : State) (k : Nat) (d : Door) : s.Answered (s.setDoor k d) := by
  unfold State.setDoor State.doorView
  simp
@[simp] theorem State.modDoor_answered (s : State) (k : Nat) (f : Door → Door) : s.Answered (s.modDoor k f) := s.setDoor_answered k _
@[simp] theorem State.setLoad_answered (s : State) (x : Nat) (l : Load) : s.Answered (s.setLoad x l) := by
  unfold State.setLoad State.loadView
  simp
@[simp] theorem State.modLoad_answered (s : State) (x : Nat) (f : Load → Load) : s.Answered (s.modLoad x f) := s.setLoad_answered x _
@[simp] theorem State.setField_answered (s : State) (f : Nat) (x : Field) : s.Answered (s.setField f x) := by
  unfold State.setField State.fieldView
  simp
@[simp] theorem State.modField_answered (s : State) (f : Nat) (g : Field → Field) : s.Answered (s.modField f g) := s.setField_answered f _

@[simp] theorem State.sendDoorEvent_answered (s : State) (k ev : Nat) : s.Answered (s.sendDoorEvent k ev) := by
  unfold State.sendDoorEvent
  simp
@[simp] theorem State.sendLoadEvent_answered (s : State) (n c ev : Nat) : s.Answered (s.sendLoadEvent n c ev) := by
  unfold State.sendLoadEvent
  simp -implicitDefEqProofs
@[simp] theorem State.sendFieldEvent_answered (s : State) (f ev ix : Nat) (data : List Byte) : s.Answered (s.sendFieldEvent f ev ix data) := by
  unfold State.sendFieldEvent
  simp
@[simp] theorem State.sendEdge_answered (s : State) (f c : Nat) (level : Bool) (t : Nat) : s.Answered (s.sendEdge f c level t) := by
  unfold State.sendEdge
  simp

theorem State.flushHeld_answered (s : State) (n : Nat) : s.Answered (s.flushHeld n) := by
  unfold State.flushHeld
  split
  · exact .refl s
  · split
    · refine State.each_answered fun s k => ?_
      dsimp only
      split
      · split <;> simp
      · simp
    · split
      · refine State.Answered.trans ?_ (State.each_answered fun s c => ?_)
        · simp
        · split
          · dsimp only
            split <;> simp
          · simp
      · simp -implicitDefEqProofs

/-- R24. A measurement begins on the link of its slot, and leaves what stands there in the other direction. -/
theorem State.measure_spec (s : State) (n : Nat) : s.OnlyLink (s.measure n) n ∧ ((s.measure n).link n).measuring = true ∧
    ((s.measure n).link n).rtts = [] ∧ ((s.measure n).link n).up = (s.link n).up ∧ ((s.measure n).link n).ctlRx = (s.link n).ctlRx ∧
    ((s.measure n).link n).satTx = (s.link n).satTx ∧ ((s.measure n).link n).satRx = (s.link n).satRx ∧
    ((s.measure n).link n).lresetMiss = (s.link n).lresetMiss := by
  refine ⟨((s.onlyLink_setLink n _).trans (State.onlyLink_setLink _ n _)).trans (State.onlyLink_ctlSend ..), ?_⟩
  unfold State.measure State.sendProbe State.ctlSend
  dsimp only
  split <;> simp

/-- R24. On a link that is `UP` the first PROBE of a measurement goes out. -/
theorem State.measure_down {s : State} {n : Nat} (h : s.linkIsUp n = true) : ((s.measure n).link n).down =
    (s.link n).down ++ [s.ctlFrame n 0x0C (leBytes 4 (((s.link n).probeTag + 1) % 2 ^ 32))] := by
  unfold State.measure State.sendProbe
  dsimp only
  rw [State.ctlSend_of_up (by exact h)]
  simp [Link.ctlSent, State.ctlFrame]

/-- R18. What the link of slot `n` holds at the start: nothing on it, and the numbers at 0. -/
def Link.restarted (l : Link) : Link :=
  { l with down := [], up := [], ctlTx := 0, ctlRx := 0, satTx := 0, satRx := 0, ctlKept := [], satKept := [], ctlNaked := false, satNaked := false }

/-- R18, R24. A link reaches `UP`, and is measured. -/
theorem linkUp_completes {s : State} {n : Slot} (hn : n ≠ 0) (hup : s.linkIsUp n = false) (hp : s.present n = true) (hm : s.mode ≠ mPark)
    (hl : s.looped n = false) :
    s.Does (.linkUp n) fun t => t.linkIsUp n = true ∧ (t.link n).ctlRx = 0 ∧ (t.link n).satRx = 0 ∧ (t.link n).measuring = true ∧
      (t.link n).down = [({ typ := 0x0C, payload := leBytes 4 (((s.link n).probeTag + 1) % 2 ^ 32) } : Frame).seal] ∧ t.sram = s.sram ∧
      t.mram = s.mram := by
  have hn' : n.val ≠ 0 := fun h => hn (Fin.ext h)
  let u := (s.fon (Reg.LINK_STAT_UP n)).setLink n (s.link n).restarted
  have he : exec (.linkUp n) s = .next ((u.measure n).flushHeld n) := by
    simp only [exec, execLinkUp]
    rw [if_neg (by simp [hn', hup, hp, hm, hl])]
    rfl
  have huup : u.linkIsUp n = true := State.fbit_fon_same s (Nat.le_refl 0)
  have hulink : u.link n = (s.link n).restarted := State.link_setLink ..
  obtain ⟨honly, hmeas, -, -, hrx, -, hsrx, -⟩ := u.measure_spec n
  have hdown := State.measure_down huup
  have hflush := (u.measure n).flushHeld_answered n
  obtain ⟨hlinks, hsram, hmram⟩ := hflush
  have hlink := congrFun hlinks n
  simp only [downsOf, Prod.mk.injEq] at hlink
  obtain ⟨hd, hr, hs, hme⟩ := hlink
  have hlevel : u.Level ((u.measure n).flushHeld n) := ((u.measure_still n).trans ((u.measure n).flushHeld_still n)).level
  refine ⟨_, he, (hlevel.linkStat n.isLt rfl).trans huup, hr.trans (hrx.trans (by rw [hulink]; rfl)), hs.trans (hsrx.trans (by rw [hulink]; rfl)),
    hme.trans hmeas, hd.trans (hdown.trans ?_), hsram.trans ?_, hmram.trans ?_⟩
  · rw [State.ctlFrame, hulink]
    rfl
  · rw [honly.frame]
    rfl
  · rw [honly.frame]
    rfl

/-- R18. A link that falls loses what was on it. -/
theorem linkDown_completes {s : State} {n : Slot} (hup : s.linkIsUp n = true) :
    s.Does (.linkDown n) fun t => t.linkIsUp n = false ∧ (t.link n).down = [] ∧ (t.link n).up = [] ∧ (∀ m ≠ n.val, t.link m = s.link m) ∧
      s.regsBut t [Reg.LINK_STAT_UP n] ∧ t = { s with regs := t.regs, links := t.links } := by
  have he : exec (.linkDown n) s = .next (s.linkFall n) := by simp [exec, execLinkDown, hup]
  refine ⟨_, he, State.fbit_fput_same (b := false) s (Nat.le_refl 0), ?_, ?_, fun m hm => State.link_setLink_other _ hm,
    s.regsBut_fset _ 0 (Nat.le_refl 0), rfl⟩
  · exact (congrArg Link.down (State.link_setLink ..) :)
  · exact (congrArg Link.up (State.link_setLink ..) :)

/-- R18. A link that is down is retrained. -/
theorem linkRetrain_completes {s : State} {n : Slot} (hn : n ≠ 0) (hup : s.linkIsUp n = false) (hd : s.declared n = true) (hm : s.mode ≠ mPark) :
    s.Does (.linkRetrain n) fun t => (t.link n).ctlTx = 0 ∧ (t.link n).ctlRx = 0 ∧ (t.link n).satTx = 0 ∧ (t.link n).satRx = 0 ∧
      (∀ m ≠ n.val, t.link m = s.link m) ∧ t = { s with links := t.links } := by
  have hn' : n.val ≠ 0 := fun h => hn (Fin.ext h)
  have he : exec (.linkRetrain n) s = .next (s.setLink n (s.link n).restarted) := by
    simp only [exec, execLinkRetrain]
    rw [if_neg (by simp [hn', hup, hd, hm])]
    rfl
  refine ⟨_, he, ?_, ?_, ?_, ?_, fun m hm => State.link_setLink_other _ hm, rfl⟩ <;> rw [State.link_setLink] <;> rfl

/-- R50. A link reset starts over with its counters cleared; a participating die is marked for a miss. -/
theorem State.linkReset_spec (s : State) (n : Nat) :
    let t := s.linkReset n
    (t.link n).up = [] ∧ (t.link n).ctlRx = 0 ∧ (t.link n).satTx = 0 ∧ (t.link n).satRx = 0 ∧
      (t.link n).lresetMiss = ((s.link n).lresetMiss || s.admitted n) ∧ (∀ m ≠ n, t.link m = s.link m) ∧
      t.fget (Reg.LINK_ERR_CRC_ERRORS n) = 0 ∧ t.fget (Reg.LINK_ERR_DROPS n) = 0 ∧ t.fget (Reg.LINK_MISS_MISSED_COMMITS n) = 0 ∧
      t.fget (Reg.LINK_MISS_MISSED_INPUTS n) = 0 ∧ t = { s with regs := t.regs, live := t.live, capt := t.capt, links := t.links } := by
  let z (m : Nums) : Nums := mset 0 (mset 0 m (0x40020804 + n * 0x10) 0) (0x4002080C + n * 0x10) 0
  let u : State := { s.setLink n { (s.link n).restarted with lresetMiss := (s.link n).lresetMiss || s.admitted n } with
    regs := z s.regs, live := z s.live, capt := z s.capt }
  have heq : s.linkReset n = if (s.link n).measuring then u.measure n else u := rfl
  have hlink : u.link n = { (s.link n).restarted with lresetMiss := (s.link n).lresetMiss || s.admitted n } := (State.link_setLink .. :)
  have hothers (m : Nat) (hm : m ≠ n) : u.link m = s.link m := (State.link_setLink_other s hm :)
  have herr : mget 0 u.regs (0x40020804 + n * 0x10) = 0 := (mget_mset_other (by omega)).trans mget_mset_same
  have hmiss : mget 0 u.regs (0x4002080C + n * 0x10) = 0 := mget_mset_same
  have h : (u.measure n).regs = u.regs := by rw [(u.measure_spec n).1.frame]
  have hreg (v : State) (hv : v.regs = u.regs) : v.fget (Reg.LINK_ERR_CRC_ERRORS n) = 0 ∧ v.fget (Reg.LINK_ERR_DROPS n) = 0 ∧
      v.fget (Reg.LINK_MISS_MISSED_COMMITS n) = 0 ∧ v.fget (Reg.LINK_MISS_MISSED_INPUTS n) = 0 := by
    simp only [State.fget, hv, Reg.LINK_ERR_CRC_ERRORS, Reg.LINK_ERR_DROPS, Reg.LINK_MISS_MISSED_COMMITS, Reg.LINK_MISS_MISSED_INPUTS, herr, hmiss]
    decide
  dsimp only
  rw [heq]
  split
  · obtain ⟨honly, -, -, hup, hrx, htx, hsrx, hl⟩ := u.measure_spec n
    obtain ⟨hcrc, hdrops, hmc, hmi⟩ := hreg (u.measure n) (by rw [honly.frame])
    exact ⟨hup.trans (by rw [hlink]; rfl), hrx.trans (by rw [hlink]; rfl), htx.trans (by rw [hlink]; rfl), hsrx.trans (by rw [hlink]; rfl),
      hl.trans (by rw [hlink]), fun m hm => (honly.others m hm).trans (hothers m hm), hcrc, hdrops, hmc, hmi, by rw [honly.frame]; rfl⟩
  · obtain ⟨hcrc, hdrops, hmc, hmi⟩ := hreg u rfl
    exact ⟨by rw [hlink]; rfl, by rw [hlink]; rfl, by rw [hlink]; rfl, by rw [hlink]; rfl, by rw [hlink], hothers, hcrc, hdrops, hmc, hmi, rfl⟩

/-- R35. A latency that failed is measured again. -/
theorem latencyRemeasure_completes {s : State} {n : Slot} (hf : (s.link n).failSince.isSome = true) (hup : s.linkIsUp n = true)
    (hm : (s.link n).measuring = false) (hx : s.fbit (Reg.LINK_STAT_EXCLUDED n) = false) :
    s.Does (.latencyRemeasure n) fun t => (t.link n).measuring = true ∧ (t.link n).rtts = [] ∧
      (t.link n).down = (s.link n).down ++ [s.ctlFrame n 0x0C (leBytes 4 (((s.link n).probeTag + 1) % 2 ^ 32))] ∧
      (∀ m ≠ n.val, t.link m = s.link m) ∧ t = { s with links := t.links } := by
  have he : exec (.latencyRemeasure n) s = .next (s.measure n) := by simp [exec, execLatencyRemeasure, hf, hup, hm, hx]
  obtain ⟨honly, hmeas, hrtts, -⟩ := s.measure_spec n
  exact ⟨_, he, hmeas, hrtts, State.measure_down hup, honly.others, honly.frame⟩

theorem State.fbit_toMono (s : State) (t : Nat) (g : Fld) : (s.toMono t).fbit g = s.fbit g := rfl

/-- R35. A die whose measurements have failed for 60 s is excluded. -/
theorem latencyExclude_completes {s : State} {n : Slot} {at_ : Nat} (hf : (s.link n).failSince = some at_) (hb : s.mode ≠ mBoot)
    (hp : s.mode ≠ mPark) (hx : s.fbit (Reg.LINK_STAT_EXCLUDED n) = false) :
    s.Does (.latencyExclude n) fun t => t.fbit (Reg.LINK_STAT_EXCLUDED n) = true ∧ t.fbit (Reg.LINK_STAT_ADMITTED n) = false ∧
      t.fbit Reg.COMMIT_FLAGS_DIE_EXCLUDED = true ∧ at_ + 60000000000 ≤ t.time.mono := by
  have he : exec (.latencyExclude n) s = .next ((s.toMono (at_ + 60000000000)).exclude n 2) := by simp [exec, execLatencyExclude, hf, hb, hp]
  have hle := s.le_toMono (at_ + 60000000000)
  generalize hu : s.toMono (at_ + 60000000000) = u at he hle
  have hxu : u.fbit (Reg.LINK_STAT_EXCLUDED n) = false := by rw [← hu, State.fbit_toMono]; exact hx
  have hlevel := State.exclude_level hxu 2
  have hmono : (u.exclude n 2).time.mono = u.time.mono := u.exclude_mono n 2
  obtain ⟨hex, hadm, hflag, -⟩ := u.excludeMarked_spec n
  refine ⟨_, he, (hlevel.linkStat n.isLt rfl).trans hex, (hlevel.linkStat n.isLt rfl).trans hadm,
    (State.fbit_of_core hlevel.2 (by decide)).trans hflag, hle.trans_eq hmono.symm⟩

/-- R22. A register access without its answer for 20 µs ends with a timeout. -/
theorem regAccessTimeout_completes {s : State} {n : Slot} {at_ : Nat} {r : RegAcc} {q : List RegAcc} (hat : (s.link n).regAt = some at_)
    (hq : (s.link n).regQ = r :: q) (hr : r.req = 2) :
    s.Does (.regAccessTimeout n) fun t => (t.link n).regQ = q ∧ t.tap.tdo = leBytes 4 0 ++ leBytes 1 aTimeout ∧ at_ + 20000 ≤ t.time.mono ∧
      t = { s with time := t.time, power := t.power, links := t.links, tap := t.tap } := by
  have he : exec (.regAccessTimeout n) s = .next ((s.toMono (at_ + 20000)).regEnd n aTimeout 0) := by simp [exec, execRegAccessTimeout, hat]
  obtain ⟨hreg, htdo, -, -, hframe⟩ := State.regEnd_debug (s := s.toMono (at_ + 20000)) (n := n) (st := aTimeout) (v := 0) hq hr
  have htime := congrArg State.time hframe
  refine ⟨_, he, hreg, htdo, ?_, ?_⟩
  · rw [htime]
    exact s.le_toMono _
  · rw [hframe]
    rfl

end Sys2Proof.Machine
end
section
namespace Sys2Proof.Machine

/-! ### What the failure of a boot leaves in the registers (R58, R59) -/

/-- What registers `r` hold of a failed boot: its status, its detail, and the lock of the protection. -/
def bootOf (r : Nums) : Nat × Nat × Nat := (mget 0 r 0x40000100, mget 0 r 0x40000104, mget 0 r 0x40000180 % 2)

/-- `t` holds of a failed boot what `s` does. -/
@[simp, reducible] def State.Boots (s t : State) : Prop := bootOf t.regs = bootOf s.regs

theorem State.Level.boots {s t : State} (h : s.Level t) : s.Boots t := by
  have hstat := congrFun h.2 0x40000100
  have hdetail := congrFun h.2 0x40000104
  have hlock := congrFun h.2 0x40000180
  simp only [coreOf, coreAddr, Reg.PROT_STAT_PROT_LOCK, fieldOf] at hstat hdetail hlock
  norm_num at hstat hdetail hlock
  simp only [State.Boots, bootOf, hstat, hdetail, hlock]

theorem bootOf_mset {r : Nums} {a v : Nat} (h : a ∉ [0x40000100, 0x40000104, 0x40000180]) : bootOf (mset 0 r a v) = bootOf r := by
  simp only [List.mem_cons, List.not_mem_nil, or_false, not_or] at h
  obtain ⟨hstat, hdetail, hlock⟩ := h
  simp only [bootOf, mget_mset_other (Ne.symm hstat), mget_mset_other (Ne.symm hdetail), mget_mset_other (Ne.symm hlock)]

theorem State.fset_boots {s : State} {f : Fld} {v : Nat} (h : f.addr ∉ [0x40000100, 0x40000104, 0x40000180]) : s.Boots (s.fset f v) :=
  bootOf_mset h

theorem sub_and_mod_two (v m : Nat) (h : m % 2 = 0) : (v - (v &&& m)) % 2 = v % 2 := by
  have hle : v &&& m ≤ v := Nat.and_le_left
  have hmod : (v &&& m) % 2 = 0 := by
    rw [show (2 : Nat) = 2 ^ 1 from rfl, Nat.and_mod_two_pow]
    simp [h]
  omega

theorem bitsOf_eq_zero {fs : List FieldRow} {p : Acc → Bool} (h : ∀ f ∈ fs, p f.acc = false) : bitsOf fs p = 0 := by
  rw [bitsOf, List.filter_eq_nil_iff.mpr fun f hf => by simp [h f hf]]
  rfl

/-- R12. A register without a field that software writes takes no write. -/
theorem afterWrite_of_readOnly {fs : List FieldRow} (h : ∀ f ∈ fs, f.acc = .ro ∨ f.acc = .rc) (v w : Nat) : afterWrite fs v w = v := by
  have hrw : bitsOf fs (fun a => a == .rw) = 0 := bitsOf_eq_zero fun f hf => by rcases h f hf with h | h <;> rw [h] <;> rfl
  have hw1c : bitsOf fs (fun a => a == .w1c) = 0 := bitsOf_eq_zero fun f hf => by rcases h f hf with h | h <;> rw [h] <;> rfl
  simp [afterWrite, hrw, hw1c]

/-- R12. A register of read-only fields alone is not cleared by a read. -/
theorem afterRead_of_readOnly {fs : List FieldRow} (h : ∀ f ∈ fs, f.acc = .ro) (v : Nat) : afterRead fs v = v := by
  have hrc : bitsOf fs (fun a => a == .rc) = 0 := bitsOf_eq_zero fun f hf => by rw [h f hf]; rfl
  have hnone : (fs.filter fun f => f.acc == .rc) = [] := List.filter_eq_nil_iff.mpr fun f hf => by rw [h f hf]; decide
  simp [afterRead, hrc, hnone]

/-- Table 1.4. The registers of a failed boot are read-only, but for the count that a read of the protection's status clears. -/
theorem ctlFields_boot {a : Nat} {fs : List FieldRow} (ha : a ∈ [0x40000100, 0x40000104, 0x40000180]) (h : ctlFields a = some fs) :
    (∀ f ∈ fs, f.acc = .ro) ∨ a = 0x40000180 ∧ fs = [⟨0, 0, .ro, 0, false⟩, ⟨31, 16, .rc, 0, false⟩] := by
  simp only [List.mem_cons, List.not_mem_nil, or_false] at ha
  rcases ha with rfl | rfl | rfl
  · rw [← Option.some.inj ((rfl : ctlFields 0x40000100 = some _).symm.trans h)]
    exact .inl (by decide)
  · rw [← Option.some.inj ((rfl : ctlFields 0x40000104 = some _).symm.trans h)]
    exact .inl (by decide)
  · exact .inr ⟨rfl, (Option.some.inj ((rfl : ctlFields 0x40000180 = some _).symm.trans h)).symm⟩

theorem bootOf_mset_same {r : Nums} {a : Nat} : bootOf (mset 0 r a (mget 0 r a)) = bootOf r := by
  have h (b : Nat) : mget 0 (mset 0 r a (mget 0 r a)) b = mget 0 r b := by
    by_cases hb : b = a
    · rw [hb, mget_mset_same]
    · exact mget_mset_other hb
  simp only [bootOf, h]

/-- R12. A write leaves the registers of a failed boot. -/
theorem State.ctlWrite_boots (s : State) (a w : Nat) : s.Boots (s.ctlWrite a w).2 := by
  unfold State.ctlWrite
  split
  · rfl
  · split
    · next fs hfs =>
      by_cases ha : a ∈ [0x40000100, 0x40000104, 0x40000180]
      · have hro : ∀ f ∈ fs, f.acc = .ro ∨ f.acc = .rc := by
          rcases ctlFields_boot ha hfs with h | ⟨-, rfl⟩
          · exact fun f hf => .inl (h f hf)
          · decide
        dsimp only
        rw [afterWrite_of_readOnly hro]
        exact bootOf_mset_same
      · exact bootOf_mset ha
    · rfl

/-- R12. A read leaves the registers of a failed boot. -/
theorem State.ctlRead_boots (s : State) (a : Nat) : s.Boots (s.ctlRead a).2 := by
  unfold State.ctlRead
  split
  · rfl
  · split
    · rfl
    · split
      · next fs hfs =>
        by_cases ha : a ∈ [0x40000100, 0x40000104, 0x40000180]
        · dsimp only
          rcases ctlFields_boot ha hfs with h | ⟨rfl, rfl⟩
          · rw [afterRead_of_readOnly h]
            exact bootOf_mset_same
          · have hlock := sub_and_mod_two (mget 0 s.regs 0x40000180) 0xFFFF0000 rfl
            simp only [State.Boots, bootOf, mget_mset_same, mget_mset_other (show (0x40000100 : Nat) ≠ 0x40000180 by decide),
              mget_mset_other (show (0x40000104 : Nat) ≠ 0x40000180 by decide), Prod.mk.injEq, true_and]
            exact hlock
        · exact bootOf_mset ha
      · rfl

theorem State.fillWait_boots (s : State) (a : Nat) : s.Boots (s.fillWait a) := by
  unfold State.fillWait State.fillEnd
  split
  · split
    · exact State.fset_boots (s := s.toMono _) (by decide)
    · rfl
  · rfl

theorem State.regWrite_boots (s : State) (a w : Nat) : s.Boots (s.regWrite a w).2 := by
  have h := s.ctlWrite_boots a w
  unfold State.regWrite
  dsimp only
  split
  · exact (State.scopedResets_level ..).boots.trans h
  · split
    · exact (State.snapReq_still _).level.boots.trans h
    · split
      · exact (State.lbStart_still ..).level.boots.trans h
      · exact h

theorem State.objWrite_boots (s : State) (a w : Nat) : s.Boots (s.objWrite a w).2 := by
  unfold State.objWrite
  split
  · rfl
  · split
    · have h : s.Boots ((s.fillWait a).healed a) := ((s.fillWait a).healed_still a).level.boots.trans (s.fillWait_boots a)
      unfold State.memWrite
      dsimp only
      split
      · exact h
      · exact (State.outWrs_still ..).level.boots.trans h
    · exact s.regWrite_boots a w

theorem State.objRead_boots (s : State) (qp : Bool) (a : Nat) : s.Boots (s.objRead qp a).2.2 := by
  have h := s.fillWait_boots a
  have hread := s.ctlRead_boots a
  unfold State.objRead
  split
  · dsimp only
    split
    · exact (State.eccUe_still ..).level.boots.trans h
    · split
      · exact h
      · exact h
  · split
    · next heq => rw [heq] at hread; exact hread
    · next heq => rw [heq] at hread; exact hread

/-- R46. An access of the debug interface leaves the registers of a failed boot. -/
theorem State.dbgMem_boots (s : State) (addr : Nat) (wr : Option Word) : s.Boots (s.dbgMem addr wr) := by
  unfold State.dbgMem
  dsimp only
  split
  · rfl
  · split
    · rfl
    · split
      · exact (State.violation_still ..).level.boots
      · split
        · split
          · rfl
          · split
            · exact (State.regSubmit_still ..).level.boots
            · rfl
        · split
          · rfl
          · split
            · exact (State.regSubmit_still ..).level.boots
            · rfl
        · exact s.objWrite_boots ..
        · exact s.objRead_boots ..

theorem State.dbgWaited_boots (s : State) : s.Boots s.dbgWaited := by
  unfold State.dbgWaited
  exact List.foldlRecOn (motive := fun t => s.Boots t) s.tap.wait _ rfl fun t ht p _ => (t.dbgMem_boots p.1 p.2).trans ht

theorem State.setWin_boots (s : State) (q w : Nat) (e : Nat × Nat × Nat) : s.Boots (s.setWin q w e) := by
  have hbase (f : Fld) (hf : 0x40000200 ≤ f.addr) (u : State) (v : Nat) : u.Boots (u.fset f v) := by
    refine State.fset_boots ?_
    simp only [List.mem_cons, List.not_mem_nil, or_false]
    omega
  unfold State.setWin
  exact (hbase (Reg.WIN_ATTR_ATTR q w) (by simp only [Reg.WIN_ATTR_ATTR]; omega) _ _).trans <|
    (hbase (Reg.WIN_LIMIT_LIMIT q w) (by simp only [Reg.WIN_LIMIT_LIMIT]; omega) _ _).trans <|
    hbase (Reg.WIN_BASE_BASE q w) (by simp only [Reg.WIN_BASE_BASE]; omega) _ _

/-- R59. The windows are locked; the rest of what a failed boot shows stays. -/
theorem State.lockWindows_boots (s : State) :
    bootOf s.lockWindows.regs = (mget 0 s.regs 0x40000100, mget 0 s.regs 0x40000104, 1) := by
  have hlocked (u : State) (hu : s.Boots u) :
      bootOf ((u.fon Reg.PROT_STAT_PROT_LOCK).dbgWaited).regs = (mget 0 s.regs 0x40000100, mget 0 s.regs 0x40000104, 1) := by
    simp only [State.Boots, bootOf, Prod.mk.injEq] at hu
    obtain ⟨hstat, hdetail, -⟩ := hu
    have hlock : mget 0 (u.fon Reg.PROT_STAT_PROT_LOCK).regs 0x40000180 % 2 = 1 := by
      have : (u.fon Reg.PROT_STAT_PROT_LOCK).fget Reg.PROT_STAT_PROT_LOCK = 1 := State.fget_fset_same u Reg.PROT_STAT_PROT_LOCK 1
      simpa [State.fget, fieldOf, Reg.PROT_STAT_PROT_LOCK] using this
    refine (State.dbgWaited_boots _).trans ?_
    simp only [bootOf, hlock, ← hstat, ← hdetail]
    exact congrArg₂ (·, ·, 1) (mget_mset_other (by decide)) (mget_mset_other (by decide))
  unfold State.lockWindows
  dsimp only
  split
  · next i _ =>
    have hprot : s.Boots ((i.prot.zip (List.range 24)).foldl (fun s p => s.setWin (p.2 / 8) (p.2 % 8) p.1) s) :=
      List.foldlRecOn (motive := fun t => s.Boots t) _ _ rfl fun t ht p _ => (t.setWin_boots ..).trans ht
    split
    · exact hlocked _ ((State.setWin_boots ..).trans hprot)
    · exact hlocked _ hprot
  · exact hlocked _ (s.setWin_boots ..)

/-- R58, R59. What a failed boot shows, whatever comes of its record, its windows and the entry of SAFE. -/
theorem State.bootFail_spec (s : State) (step : Nat) (e : BootFail) :
    (s.bootFail step e).fget Reg.BOOT_STAT_FAIL_CODE = e.1 % 2 ^ 8 ∧ (s.bootFail step e).fget Reg.BOOT_STAT_FAIL_STEP = step % 2 ^ 4 ∧
      (s.bootFail step e).fget Reg.BOOT_DETAIL_DETAIL = e.2 % 2 ^ 32 ∧ (s.bootFail step e).fbit Reg.PROT_STAT_PROT_LOCK = true := by
  let u := ((s.fset Reg.BOOT_STAT_FAIL_CODE e.1).fset Reg.BOOT_STAT_FAIL_STEP step).fset Reg.BOOT_DETAIL_DETAIL e.2
  have hrec : u.Boots (u.progRecord e).flashClose := (u.progRecord_still e).level.boots
  have hlocked := (u.progRecord e).flashClose.lockWindows_boots
  have hafter (v : State) : v.Level (let t := if step < 10 then (v.enterSafe 0x01 e.1).cairnLoad else v.enterSafe 0x01 e.1
      t.cairnAll t.cairn.queue.length) := by
    dsimp only
    refine State.Level.trans ?_ (State.cairnAll_still ..).level
    split
    · exact (v.enterSafe_level ..).trans (State.cairnLoad_still _).level
    · exact v.enterSafe_level ..
  have hboot : bootOf (s.bootFail step e).regs = (mget 0 u.regs 0x40000100, mget 0 u.regs 0x40000104, 1) := by
    refine (hafter (u.progRecord e).flashClose.lockWindows.regrid).boots.trans (hlocked.trans ?_)
    simp only [State.Boots, bootOf, Prod.mk.injEq] at hrec
    rw [hrec.1, hrec.2.1]
  simp only [bootOf, Prod.mk.injEq] at hboot
  obtain ⟨hstat, hdetail, hlock⟩ := hboot
  refine ⟨?_, ?_, ?_, ?_⟩
  · refine (congrArg (fieldOf · 0 8) hstat).trans ?_
    exact (State.fget_fset_addr _ (g := Reg.BOOT_STAT_FAIL_CODE) (by decide)).trans <|
      (State.fget_fset_apart _ (by decide) (by decide) (by decide)).trans (State.fget_fset_same s _ _)
  · refine (congrArg (fieldOf · 8 4) hstat).trans ?_
    exact (State.fget_fset_addr _ (g := Reg.BOOT_STAT_FAIL_STEP) (by decide)).trans (State.fget_fset_same _ _ _)
  · refine (congrArg (fieldOf · 0 32) hdetail).trans ?_
    exact State.fget_fset_same _ Reg.BOOT_DETAIL_DETAIL _
  · simp [State.fbit, State.fget, fieldOf, Reg.PROT_STAT_PROT_LOCK, hlock]

/-- R24. A link that is not `UP` 40 ms into boot step 8 fails the boot. -/
theorem enumLinkTimeout_completes {s : State} {n : Slot} (hn : n ≠ 0) (hr : s.inReset = false) (hm : s.mode = mBoot) (hb : s.boot.step = 8)
    (hf : s.fitted n = true) (hd : s.declared n = true) (hup : s.linkIsUp n = false) :
    s.Does (.enumLinkTimeout n) fun t => t.fget Reg.BOOT_STAT_FAIL_CODE = fLinkBad ∧ t.fget Reg.BOOT_STAT_FAIL_STEP = 8 ∧
      t.fget Reg.BOOT_DETAIL_DETAIL = n ∧ t.fbit Reg.PROT_STAT_PROT_LOCK = true := by
  have hn' : n.val ≠ 0 := fun h => hn (Fin.ext h)
  have he : exec (.enumLinkTimeout n) s = .next ((s.toMono (s.boot.enumAt + 40000000)).bootFail 8 (fLinkBad, n)) := by
    simp [exec, execEnumLinkTimeout, hn', hr, hm, hb, hf, hd, hup]
  obtain ⟨hcode, hstep, hdetail, hlock⟩ := (s.toMono (s.boot.enumAt + 40000000)).bootFail_spec 8 (fLinkBad, n)
  exact ⟨_, he, hcode, hstep, hdetail.trans (Nat.mod_eq_of_lt (by omega)), hlock⟩

/-- Settles O12: `State.measure_spec` and `State.linkReset_spec` have what a link holds, `State.exclude_level` and `State.bootFail_spec` what an
exclusion and a failed boot show. -/
theorem linkStatesComplete : Obligations.LinkStatesComplete :=
  ⟨fun s n hn => ⟨fun hup _ hp hm hl => linkUp_completes hn hup hp hm hl, linkDown_completes, linkRetrain_completes hn, _,
      if_neg fun h => hn (Fin.ext h), s.linkReset_spec n⟩,
    fun _ _ hn => ⟨latencyRemeasure_completes, fun _ => latencyExclude_completes, fun _ _ _ => regAccessTimeout_completes,
      enumLinkTimeout_completes hn⟩⟩

end Sys2Proof.Machine
end
section
namespace Sys2Proof.Machine

/-! ### The fall of the Rope (R400, R418) -/

@[simp] theorem State.netSend_quiet (s : State) (p : Nat) (f : Sent) : s.Quiet (s.netSend p f) := by
  unfold State.netSend
  simp -implicitDefEqProofs
@[simp] theorem State.netTx_quiet (s : State) (p kind : Nat) (data : List Byte) : s.Quiet (s.netTx p kind data) := s.netSend_quiet ..
@[simp] theorem State.setSess_quiet (s : State) (x : Nat) (v : Option Sess) : s.Quiet (s.setSess x v) := by
  unfold State.setSess
  simp +decide
@[simp] theorem State.modSess_quiet (s : State) (x : Nat) (f : Sess → Sess) : s.Quiet (s.modSess x f) := by
  unfold State.modSess
  split <;> simp
@[simp] theorem State.closeSess_quiet (s : State) (x : Nat) : s.Quiet (s.closeSess x) := by
  unfold State.closeSess
  simp -implicitDefEqProofs +decide
@[simp] theorem State.replyTo_quiet (s : State) (x verb ctr status sub : Nat) (body : List Byte) :
    s.Quiet (s.replyTo x verb ctr status sub body) := by
  unfold State.replyTo
  split <;> simp -implicitDefEqProofs
@[simp] theorem State.replyNow_quiet (s : State) (x verb status sub : Nat) (body : List Byte) : s.Quiet (s.replyNow x verb status sub body) := by
  unfold State.replyNow
  split <;> simp -implicitDefEqProofs
@[simp] theorem State.chgReply_quiet (s : State) (x : Option Nat) (verb code : Nat) : s.Quiet (s.chgReply x verb code) := by
  unfold State.chgReply
  split <;> simp -implicitDefEqProofs
@[simp] theorem State.ropeSend_quiet (s : State) (typ : Nat) (p : List Byte) : s.Quiet (s.ropeSend typ p) := by
  unfold State.ropeSend
  simp -implicitDefEqProofs
@[simp] theorem State.sendChange_quiet (s : State) (kind point : Nat) (b : List Byte) : s.Quiet (s.sendChange kind point b) := by
  unfold State.sendChange State.ropeSendAll
  simp
@[simp] theorem State.setSlot_quiet (s : State) (i st : Nat) : s.Quiet (s.setSlot i st) := by
  unfold State.setSlot State.slotRegs
  simp +decide
@[simp] theorem State.swapRes_quiet (s : State) (code task reason : Nat) : s.Quiet (s.swapRes code task reason) := by
  unfold State.swapRes
  simp +decide
@[simp] theorem State.swapRecord_quiet (s : State) (code task : Nat) : s.Quiet (s.swapRecord code task) := s.record_quiet ..
@[simp] theorem State.loadEnd_quiet (s : State) (i code task reason : Nat) : s.Quiet (s.loadEnd i code task reason) := by
  unfold State.loadEnd
  simp -implicitDefEqProofs +decide
@[simp] theorem State.loadAbort_quiet (s : State) (code : Nat) : s.Quiet (s.loadAbort code) := by
  unfold State.loadAbort
  split <;> simp -implicitDefEqProofs

theorem State.trigger_quiet (s : State) {t : Nat} (ht : t < 24) : s.Quiet (s.trigger t) := by
  have hskip : (Reg.TASK_SKIP_MERGED t).addr ∉ quietAddrs := by
    simp only [Reg.TASK_SKIP_MERGED, quietAddrs, List.mem_cons, List.not_mem_nil, or_false]
    omega
  have hpend : (Reg.TASK_STAT_PENDING t).addr ∉ quietAddrs := by
    simp only [Reg.TASK_STAT_PENDING, quietAddrs, List.mem_cons, List.not_mem_nil, or_false]
    omega
  unfold State.trigger
  simp -implicitDefEqProofs +decide [hskip, hpend]

theorem State.peerEvent_quiet (s : State) (code : Nat) : s.Quiet (s.peerEvent code) :=
  foldl_quiet_mem fun _ ht s => s.trigger_quiet (List.mem_range'_1.1 (List.mem_filter.1 ht).1).2

theorem State.ropeUp_of_quiet {s t : State} (h : s.Quiet t) : t.ropeUp = s.ropeUp := State.fbit_of_clocks h.2 (by decide)

/-- R418. The peer's absence leaves the state of the Rope. -/
theorem State.peerSet_ropeUp (s : State) : (s.peerSet false).ropeUp = s.ropeUp := by
  unfold State.peerSet
  split
  · rfl
  · have hafter (u : State) : (((u.record cPEER_LOST []).loadAbort gPeerNoAck).peerEvent 1).ropeUp = u.ropeUp :=
      State.ropeUp_of_quiet <| ((u.record_quiet ..).trans (State.loadAbort_quiet ..)).trans (State.peerEvent_quiet ..)
    refine (hafter _).trans ?_
    exact (State.fbit_fset_apart _ (by decide) (by decide) (by decide)).trans <| (State.fbit_fset_addr _ _ (by decide)).trans <|
      (State.fbit_fset_addr _ _ (by decide)).trans (State.fbit_fset_apart _ (by decide) (by decide) (by decide))

/-- R400. The Rope that falls is down. -/
theorem State.ropeFall_ropeUp (s : State) : s.ropeFall.ropeUp = false := by
  have hstale (u : State) : u.belayStale.ropeUp = u.ropeUp := State.fbit_fset_apart _ (by decide) (by decide) (by decide)
  have hdown (u : State) : (((u.fset Reg.DUP_STAT_ROPE_UP 0).fset Reg.ROPE_LAT_LANE_LOCK 0).fset Reg.DUP_STAT_TIME_SYNC 0).ropeUp = false :=
    (State.fbit_fset_apart _ (by decide) (by decide) (by decide)).trans <| (State.fbit_fset_addr _ _ (by decide)).trans <|
      State.fbit_fput_same (b := false) _ (by decide)
  unfold State.ropeFall
  dsimp only
  exact ((State.peerSet_ropeUp _).trans (hstale _)).trans (hdown _)

/-- R400. The reset of the Rope: its numbers start over, and it is down. -/
theorem scopedResetRope_completes {s : State} (hm : s.mode ≠ mPark) :
    s.Does .scopedResetRope fun t => t.dup.txSeq = 0 ∧ t.dup.rxSeq = 0 ∧ t.dup.kept = [] ∧ t.ropeUp = false :=
  ⟨s.ropeReset, by simp [exec, execScopedResetRope, hm], rfl, rfl, rfl, s.ropeFall_ropeUp⟩

/-! ### The reset of a message bus controller (R354) -/

/-- `t` is as `s` but for the buffers, and the registers that are none of a controller's own. -/
structure State.BufsOnly (s t : State) : Prop where
  frame : t = { s with bufs := t.bufs, regs := t.regs }
  fget : ∀ g : Fld, g.addr % 0x1000 < 0x100 → t.fget g = s.fget g

theorem State.BufsOnly.refl (s : State) : s.BufsOnly s := ⟨rfl, fun _ _ => rfl⟩

theorem State.BufsOnly.trans {s t u : State} (h : s.BufsOnly t) (h' : t.BufsOnly u) : s.BufsOnly u :=
  ⟨by rw [h'.frame, h.frame], fun g hg => (h'.fget g hg).trans (h.fget g hg)⟩

theorem State.BufsOnly.fset {s t : State} (h : s.BufsOnly t) {f : Fld} (v : Nat) (hf : 0x100 ≤ f.addr % 0x1000) : s.BufsOnly (t.fset f v) :=
  ⟨by rw [h.frame]; rfl, fun g hg => (State.fget_fset_addr t (fun he => by rw [he] at hg; omega)).trans (h.fget g hg)⟩

theorem State.bufsOnly_setBuf (s : State) (k : Nat) (x : CBuf) : s.BufsOnly (s.setBuf k x) := by
  have hstat (lo hi : Nat) : 0x100 ≤ (Fld.mk (0x40030100 + k / 64 * 0x1000 + k % 64 * 0x8) hi lo).addr % 0x1000 := by
    dsimp only
    omega
  have hid : 0x100 ≤ (Reg.BUF_ID_ID (k / 64) (k % 64)).addr % 0x1000 := by
    dsimp only [Reg.BUF_ID_ID]
    omega
  have hbufs : s.BufsOnly { s with bufs := mset {} s.bufs k x } := ⟨rfl, fun _ _ => rfl⟩
  exact ((((((hbufs.fset _ (hstat 0 0)).fset _ (hstat 1 1)).fset _ (hstat 2 2)).fset _ (hstat 3 3)).fset _ (hstat 4 4)).fset _ (hstat 5 5)).fset _ hid

theorem State.buf_setBuf (s : State) (k : Nat) (x : CBuf) : (s.setBuf k x).buf k = x := mget_mset_same

theorem State.buf_setBuf_other (s : State) {k j : Nat} (x : CBuf) (h : j ≠ k) : (s.setBuf k x).buf j = s.buf j := mget_mset_other h

theorem State.BufsOnly.bufOn {s t : State} (h : s.BufsOnly t) (k : Nat) : t.bufOn k = s.bufOn k := by rw [h.frame]; rfl

theorem State.bufsOnly_canFailAll (s : State) (c r : Nat) (keepBus : Bool) : s.BufsOnly (s.canFailAll c r keepBus) := by
  unfold State.canFailAll State.each
  refine List.foldlRecOn (motive := fun t => s.BufsOnly t) _ _ (.refl s) fun t ht k _ => ?_
  split
  · exact ht.trans (t.bufsOnly_setBuf k _)
  · exact ht

/-- R354. Buffer `k` loses what it holds, where it is one of the image. -/
def State.bufEmptied (s : State) (k : Nat) : State :=
  if s.bufOn k then
    s.setBuf k { s.buf k with main := none, shadow := none, newest := none, aged := false, isNew := false, lost := false, wait := none }
  else s

/-- Buffer `k` holds no frame. -/
def State.bufEmpty (s : State) (k : Nat) : Prop := (s.buf k).main = none ∧ (s.buf k).isNew = false

theorem State.bufsOnly_bufEmptied (s : State) (k : Nat) : s.BufsOnly (s.bufEmptied k) := by
  unfold State.bufEmptied
  split
  · exact s.bufsOnly_setBuf k _
  · exact .refl s

theorem State.bufEmptied_empty {s : State} {j k : Nat} (h : k = j ∧ s.bufOn j = true ∨ s.bufEmpty j) : (s.bufEmptied k).bufEmpty j := by
  unfold State.bufEmptied
  by_cases hkj : k = j
  · subst hkj
    split
    · exact ⟨congrArg CBuf.main (s.buf_setBuf k _), congrArg CBuf.isNew (s.buf_setBuf k _)⟩
    · next hoff => exact h.resolve_left fun h => hoff h.2
  · have h := h.resolve_left fun h => hkj h.1
    split
    · exact ⟨(congrArg CBuf.main (s.buf_setBuf_other _ (Ne.symm hkj))).trans h.1, (congrArg CBuf.isNew (s.buf_setBuf_other _ (Ne.symm hkj))).trans h.2⟩
    · exact h

theorem State.bufsEmptied_spec (l : List Nat) (s : State) : s.BufsOnly (s.each l State.bufEmptied) ∧
    ∀ j, j ∈ l ∧ s.bufOn j = true ∨ s.bufEmpty j → (s.each l State.bufEmptied).bufEmpty j := by
  unfold State.each
  induction l generalizing s with
  | nil => exact ⟨.refl s, fun j hj => hj.resolve_left (by simp)⟩
  | cons k l ih =>
    obtain ⟨honly, hempty⟩ := ih (s.bufEmptied k)
    have hk := s.bufsOnly_bufEmptied k
    refine ⟨hk.trans honly, fun j hj => hempty j ?_⟩
    rcases hj with ⟨hj, hon⟩ | hj
    · rcases List.mem_cons.mp hj with rfl | hj
      · exact .inr (State.bufEmptied_empty (.inl ⟨rfl, hon⟩))
      · exact .inl ⟨hj, (hk.bufOn j).trans hon⟩
    · exact .inr (State.bufEmptied_empty (.inr hj))

theorem State.each_regs {f : State → Nat → State} (l : List Nat) (s : State) (hf : ∀ s k, f s k = { s with regs := (f s k).regs }) :
    s.each l f = { s with regs := (s.each l f).regs } := by
  unfold State.each
  induction l generalizing s with
  | nil => rfl
  | cons k l ih => rw [List.foldl_cons, ih (f s k), hf s k]

/-- R354. Controller `c` has failed what it was sending, and its buffers hold nothing. -/
def State.bufsReset (s : State) (c : Nat) : State := (s.canFailAll c 6 false).each ((List.range 64).map (c * 64 + ·)) State.bufEmptied

/-- R354. Controller `c` has left its bus. -/
def State.busLeft (s : State) (c : Nat) : State :=
  s.setCtl c { s.ctl c with joined := false, bus := none, exclusive := false, refs := 0, stopped := false, rxWin := 0, listenWait := false }

/-- R354. The registers of controller `c` and its counts of lost frames are cleared. -/
def State.ctlRegsCleared (s : State) (c : Nat) : State :=
  ({ s with regs := [0, 4, 0x10, 0x14, 0x18, 0x1C].foldl (fun m o => mset 0 m (0x40030000 + c * 0x1000 + o) 0) s.regs } : State).each (List.range 64)
    fun s b => s.fset (Reg.BUF_STAT_LOST_CNT c b) 0

theorem State.canReset_eq (s : State) (c : Nat) : s.canReset c =
    (((s.bufsReset c).busLeft c).ctlRegsCleared c).fset (Reg.CAN_STAT_LISTEN c) (((s.bufsReset c).busLeft c).fget (Reg.CAN_STAT_LISTEN c)) := rfl

theorem State.ctlRegsCleared_frame (s : State) (c : Nat) : s.ctlRegsCleared c = { s with regs := (s.ctlRegsCleared c).regs } := by
  unfold State.ctlRegsCleared
  exact State.each_regs _ _ fun _ _ => rfl

theorem State.bufsReset_spec (s : State) (c : Nat) : s.BufsOnly (s.bufsReset c) ∧
    ∀ b < 64, s.bufOn (c * 64 + b) = true → (s.bufsReset c).bufEmpty (c * 64 + b) := by
  have hfail := s.bufsOnly_canFailAll c 6 false
  obtain ⟨honly, hempty⟩ := State.bufsEmptied_spec ((List.range 64).map (c * 64 + ·)) (s.canFailAll c 6 false)
  exact ⟨hfail.trans honly, fun b hb hon =>
    hempty _ (.inl ⟨List.mem_map.mpr ⟨b, List.mem_range.mpr hb, rfl⟩, (hfail.bufOn _).trans hon⟩)⟩

/-- R354. The reset of a controller: it leaves its bus, its buffers are emptied, and of its registers the listen-only mode alone stays. -/
theorem State.canReset_spec (s : State) (c : Nat) :
    ((s.canReset c).ctl c).joined = false ∧ ((s.canReset c).ctl c).bus = none ∧ ((s.canReset c).ctl c).refs = 0 ∧
      (∀ b < 64, s.bufOn (c * 64 + b) = true → (s.canReset c).bufEmpty (c * 64 + b)) ∧
      (s.canReset c).fget (Reg.CAN_STAT_LISTEN c) = s.fget (Reg.CAN_STAT_LISTEN c) := by
  obtain ⟨honly, hempty⟩ := s.bufsReset_spec c
  have hlisten : (s.bufsReset c).fget (Reg.CAN_STAT_LISTEN c) = s.fget (Reg.CAN_STAT_LISTEN c) :=
    honly.fget _ (by simp only [Reg.CAN_STAT_LISTEN]; omega)
  rw [State.canReset_eq]
  generalize s.bufsReset c = u at hempty hlisten ⊢
  have hframe := (u.busLeft c).ctlRegsCleared_frame c
  generalize (u.busLeft c).ctlRegsCleared c = w at hframe ⊢
  have hctl : w.ctl c =
      { u.ctl c with joined := false, bus := none, exclusive := false, refs := 0, stopped := false, rxWin := 0, listenWait := false } := by
    rw [hframe]
    exact mget_mset_same
  have hbuf (k : Nat) : w.buf k = u.buf k := by rw [hframe]; rfl
  refine ⟨congrArg CCtl.joined hctl, congrArg CCtl.bus hctl, congrArg CCtl.refs hctl, fun b hb hon => ?_, ?_⟩
  · obtain ⟨hmain, hnew⟩ := hempty b hb hon
    exact ⟨(congrArg CBuf.main (hbuf _)).trans hmain, (congrArg CBuf.isNew (hbuf _)).trans hnew⟩
  · rw [State.fget_fset_same, show (u.busLeft c).fget (Reg.CAN_STAT_LISTEN c) = _ from hlisten]
    exact Nat.mod_eq_of_lt (s.fget_lt _)

/-- R354. The scoped reset of a message bus controller. -/
theorem scopedResetCan_completes {s : State} (c : Ctl) (hm : s.mode ≠ mPark) :
    s.Does (.scopedResetCan c) fun t => (t.ctl c).joined = false ∧ (t.ctl c).bus = none ∧ (t.ctl c).refs = 0 ∧
      (∀ b : Buf, s.bufOn (c.val * 64 + b) = true → (t.buf (c.val * 64 + b)).main = none ∧ (t.buf (c.val * 64 + b)).isNew = false) ∧
      t.fget (Reg.CAN_STAT_LISTEN c) = s.fget (Reg.CAN_STAT_LISTEN c) := by
  obtain ⟨hjoined, hbus, hrefs, hempty, hlisten⟩ := s.canReset_spec c
  exact ⟨_, by simp [exec, execScopedResetCan, hm], hjoined, hbus, hrefs, fun b hon => hempty b b.isLt hon, hlisten⟩

end Sys2Proof.Machine
end
section
namespace Sys2Proof.Machine

/-! ### The registers after a device reset (R62) -/

theorem mget_eq_default_or_mem {α : Type} (d : α) (l : List (Nat × α)) (k : Nat) : mget d l k = d ∨ (k, mget d l k) ∈ l := by
  induction l with
  | nil => exact .inl rfl
  | cons p l ih =>
    obtain ⟨a, v⟩ := p
    by_cases ha : a = k
    · subst ha
      simp [mget]
    · simp only [mget, ha, if_false, List.mem_cons]
      exact ih.imp id .inr

theorem modeOf_eq_mod (r : Nums) : modeOf r = mget 0 r 0x40000004 % 8 := by
  simp [modeOf, fieldOf, Reg.MODE_STAT_MODE]

theorem modeOf_satPart (r : Nums) : modeOf (satPart r) = 0 := by
  rw [modeOf_eq_mod]
  rcases mget_eq_default_or_mem 0 (satPart r) 0x40000004 with h | h
  · rw [h]
  · have := (List.mem_filter.mp h).2
    simp at this

/-- R62. The mode is no retained field. -/
theorem modeOf_keptPart (r : Nums) : modeOf (keptPart r) = 0 := by
  rw [modeOf_eq_mod]
  rcases mget_eq_default_or_mem 0 (keptPart r) 0x40000004 with h | h
  · rw [h]
  · obtain ⟨⟨a, v⟩, -, hp⟩ := List.mem_filterMap.mp h
    split at hp
    · next ha =>
      simp only [Option.some.injEq, Prod.mk.injEq] at hp
      omega
    · split at hp
      · next fs hfs =>
        split at hp
        · simp at hp
        · simp only [Option.some.injEq, Prod.mk.injEq] at hp
          obtain ⟨rfl, hv⟩ := hp
          have hkept : keptBits fs = 0x2200 := by
            rw [← Option.some.inj ((rfl : ctlFields 0x40000004 = some _).symm.trans hfs)]
            rfl
          rw [← hv, hkept, show (8 : Nat) = 2 ^ 3 from rfl, Nat.and_mod_two_pow]
          simp
      · simp at hp

/-- The reset values of rows that place none at an address leave it. -/
theorem mget_resetRows {rows : List RegRow} {a : Nat} (h : ∀ r ∈ rows, resetValue r.fields = 0 ∨ a ∉ r.addrs) (m : Nums) :
    mget 0 (resetRows rows m) a = mget 0 m a := by
  unfold resetRows
  refine List.foldlRecOn (motive := fun t => mget 0 t a = mget 0 m a) rows _ rfl fun t ht r hr => ?_
  split
  · exact ht
  · next hne =>
    have ha := (h r hr).resolve_left hne
    refine List.foldlRecOn (motive := fun t => mget 0 t a = mget 0 m a) r.addrs _ ht fun t ht b hb => ?_
    exact (mget_mset_other (by rintro rfl; exact ha hb)).trans ht

theorem modeOf_fldPut {m : Nums} {f : Fld} (v : Nat) (h : f.addr ≠ 0x40000004 ∨ 3 ≤ f.lo ∧ f.lo ≤ f.hi) : modeOf (fldPut m f v) = modeOf m := by
  let s : State := { State.reset with regs := m }
  rcases h with h | ⟨hlo, hf⟩
  · exact State.fget_fset_addr s (g := Reg.MODE_STAT_MODE) h.symm
  · exact State.fget_fset_bits s (g := Reg.MODE_STAT_MODE) (.inl hlo) (by decide) hf

theorem modeOf_boardRegs (b : Board) (m : Nums) : modeOf (boardRegs b m) = modeOf m := by
  unfold boardRegs
  simp only [List.foldl_cons, List.foldl_nil]
  repeat rw [modeOf_fldPut _ (by decide)]

theorem modeOf_resetRegs (b : Board) (por : Bool) (m : Nums) : modeOf (resetRegs b por m) = 0 := by
  have hrows : ∀ r ∈ ctlRows, resetValue r.fields = 0 ∨ 0x40000004 ∉ r.addrs := by decide +kernel
  rw [resetRegs, modeOf_boardRegs, modeOf_eq_mod, mget_resetRows hrows, ← modeOf_eq_mod]
  cases por
  · exact modeOf_keptPart m
  · exact modeOf_satPart m

/-! ### Device resets (R62 to R65, R77) -/

theorem mget_map {α : Type} (d : α) (f : α → α) (hf : f d = d) (l : List (Nat × α)) (k : Nat) :
    mget d (l.map fun p => (p.1, f p.2)) k = f (mget d l k) := by
  induction l with
  | nil => exact hf.symm
  | cons p l ih =>
    obtain ⟨a, v⟩ := p
    simp only [List.map_cons, mget]
    split
    · rfl
    · exact ih

/-- `t` is what a device reset of `s` leaves, at a `cold` boot or a warm one, but for the registers that name its cause. -/
structure State.Reborn (s t : State) (cold : Bool) : Prop where
  mode : t.mode = mBoot
  step : t.boot.step = 1
  coldBoot : t.boot.cold = cold
  eng : t.eng = {}
  sram : t.sram = s.sram
  mram : t.mram = s.mram
  sats : t.sats = s.sats
  doors : ∀ k, { t.door k with driftRec := (s.door k).driftRec } = s.door k
  loads : t.loads = s.loads
  fields : t.fields = s.fields
  board : t.board = s.board
  hold : t.power.hold = s.power.hold
  mono : t.time.mono = s.time.mono
  dev : t.time.dev = if cold then 0 else s.time.dev

/-- `t` is as `u` but for registers other than the mode, what the recorder holds, and the grids. -/
structure State.Relabelled (u t : State) : Prop where
  mode : t.mode = u.mode
  dev : t.time.dev = u.time.dev
  mono : t.time.mono = u.time.mono
  frame : t = { u with regs := t.regs, cairn := t.cairn, time := t.time }

theorem State.Relabelled.trans {s t u : State} (h : s.Relabelled t) (h' : t.Relabelled u) : s.Relabelled u :=
  ⟨h'.mode.trans h.mode, h'.dev.trans h.dev, h'.mono.trans h.mono, by rw [h'.frame, h.frame]⟩

theorem State.Relabelled.fset {s t : State} (h : s.Relabelled t) {f : Fld} (v : Nat) (hf : f.addr ≠ 0x40000004) : s.Relabelled (t.fset f v) :=
  ⟨(State.fget_fset_addr t (g := Reg.MODE_STAT_MODE) hf.symm).trans h.mode, h.dev, h.mono, by rw [h.frame]; rfl⟩

theorem State.Relabelled.cairn {s t : State} (h : s.Relabelled t) (c : Cairn) : s.Relabelled { t with cairn := c } :=
  ⟨h.mode, h.dev, h.mono, by rw [h.frame]⟩

theorem State.Records.relabelled {s t : State} (h : s.Records t) : s.Relabelled t := by
  obtain ⟨hframe, hget⟩ := h
  have htime : t.time = s.time := by rw [hframe]
  exact ⟨hget _ (by decide), by rw [htime], by rw [htime], by rw [hframe]⟩

theorem State.landViews_relabelled (s old : State) : s.Relabelled (s.landViews old) := by
  have hmode : (s.landViews old).mode = s.mode := (State.landViews_still s old).steady.mode
  refine ⟨hmode, ?_, ?_, ?_⟩ <;> unfold State.landViews <;> dsimp only <;> split <;> rfl

theorem State.resetLost_relabelled (s old : State) : s.Relabelled (s.resetLost old) := by
  have hrec (u : State) (code method gen task : Nat) : u.Records (u.chgRecord code method gen task) := u.records_record ..
  unfold State.resetLost
  split
  · exact ⟨rfl, rfl, rfl, rfl⟩
  · dsimp only
    split
    · split
      · exact ((hrec ..).trans (hrec ..)).relabelled
      · exact (hrec ..).relabelled
    · split
      · exact (hrec ..).relabelled
      · exact ⟨rfl, rfl, rfl, rfl⟩

theorem State.regrid_relabelled (s : State) : s.Relabelled s.regrid := ⟨rfl, rfl, rfl, rfl⟩

theorem State.Reborn.relabelled {s u t : State} {cold : Bool} (h : s.Reborn u cold) (h' : u.Relabelled t) : s.Reborn t cold := by
  obtain ⟨hmode, hdev, hmono, hframe⟩ := h'
  have hdoor (k : Nat) : t.door k = u.door k := by rw [hframe]; rfl
  exact {
    mode := hmode.trans h.mode
    step := by rw [hframe]; exact h.step
    coldBoot := by rw [hframe]; exact h.coldBoot
    eng := by rw [hframe]; exact h.eng
    sram := by rw [hframe]; exact h.sram
    mram := by rw [hframe]; exact h.mram
    sats := by rw [hframe]; exact h.sats
    doors := fun k => by rw [hdoor]; exact h.doors k
    loads := by rw [hframe]; exact h.loads
    fields := by rw [hframe]; exact h.fields
    board := by rw [hframe]; exact h.board
    hold := by rw [hframe]; exact h.hold
    mono := hmono.trans h.mono
    dev := hdev.trans h.dev }

/-- R62, Table 2.7. The restart of the boot ROM: what is reborn is shown the lands and the mode before, and records the boot. -/
theorem State.restart_eq (s : State) (prev trig : Nat) (cold por : Bool) : ∃ u : State,
    s.restart prev trig cold por = (State.resetLost { (u.landViews s).fset Reg.RESET_CAUSE_PREV_MODE (if por then 0 else prev) with
      cairn := { queue := [bootRecord (if por then 0 else prev) trig
        ((u.landViews s).fset Reg.RESET_CAUSE_PREV_MODE (if por then 0 else prev)).opCount] } } s).regrid ∧
    s.Reborn u cold ∧ (por = false → u.tap.pinLow = s.tap.pinLow) := by
  have hmode := modeOf_resetRegs s.board por s.regs
  unfold State.restart
  generalize resetRegs s.board por s.regs = r at hmode ⊢
  refine ⟨_, rfl, ?_, ?_⟩
  · cases cold
    · exact ⟨hmode, rfl, rfl, rfl, rfl, rfl, rfl, fun _ => rfl, rfl, rfl, rfl, rfl, rfl, rfl⟩
    · refine ⟨hmode, rfl, rfl, rfl, rfl, rfl, rfl, fun k => ?_, rfl, rfl, rfl, rfl, rfl, rfl⟩
      have hdoor := mget_map ({} : Door) (fun d => { d with driftRec := false }) rfl s.doors k
      exact (congrArg (fun d : Door => { d with driftRec := (s.door k).driftRec }) hdoor :)
  · rintro rfl
    cases cold <;> rfl

theorem State.restart_reborn (s : State) (prev trig : Nat) (cold por : Bool) : s.Reborn (s.restart prev trig cold por) cold ∧
    (por = false → (s.restart prev trig cold por).tap.pinLow = s.tap.pinLow) := by
  obtain ⟨u, hu, hreborn, hpin⟩ := s.restart_eq prev trig cold por
  have hland := (u.landViews_relabelled s).fset (if por then 0 else prev) (f := Reg.RESET_CAUSE_PREV_MODE) (by decide)
  have hfinal : u.Relabelled (s.restart prev trig cold por) := by
    rw [hu]
    exact ((hland.cairn _).trans (State.resetLost_relabelled ..)).trans (State.regrid_relabelled _)
  exact ⟨hreborn.relabelled hfinal, fun hp => by rw [hfinal.frame]; exact hpin hp⟩

/-- R62. A device reset: the boot starts, with its cause shown. Device time stands still in PARK alone. -/
theorem State.deviceReset_spec (s : State) (cause prev : Nat) (hc : cause ≤ 3) :
    s.Restarted (s.deviceReset cause prev) cause ∧ (s.deviceReset cause prev).boot.cold = decide (cause ≤ 1) ∧
      (s.deviceReset cause prev).board = s.board ∧ (s.deviceReset cause prev).power.hold = s.power.hold ∧
      (s.deviceReset cause prev).time.mono = s.time.mono ∧ (cause ≤ 1 → (s.deviceReset cause prev).time.dev = 0) ∧
      (cause ≠ 0 → (s.deviceReset cause prev).tap.pinLow = s.tap.pinLow) := by
  obtain ⟨u, hu, htime⟩ : ∃ u : State, (if s.mode = mPark then s.aonTime else s) = u ∧ ∃ d, u = { s with time := { s.time with dev := d } } := by
    split
    · exact ⟨_, rfl, _, rfl⟩
    · exact ⟨s, rfl, s.time.dev, rfl⟩
  obtain ⟨d, rfl⟩ := htime
  obtain ⟨hreborn, hpin⟩ :=
    State.restart_reborn { s with time := { s.time with dev := d } } prev trReset (decide (cause ≤ 1)) (cause == 0)
  let v := State.restart { s with time := { s.time with dev := d } } prev trReset (decide (cause ≤ 1)) (cause == 0)
  have heq : s.deviceReset cause prev = if prev = mPark ∧ cause ≠ 0 then
      (v.fset Reg.RESET_CAUSE_CAUSE (2 ^ cause)).fset Reg.PARK_STAT_WAKE_SRC 4 else v.fset Reg.RESET_CAUSE_CAUSE (2 ^ cause) := by
    unfold State.deviceReset
    rw [hu]
  have hself : v.Relabelled v := ⟨rfl, rfl, rfl, rfl⟩
  have hcause : (v.fset Reg.RESET_CAUSE_CAUSE (2 ^ cause)).fget Reg.RESET_CAUSE_CAUSE = 2 ^ cause := by
    rw [State.fget_fset_same]
    interval_cases cause <;> rfl
  have hfinal : v.Relabelled (s.deviceReset cause prev) ∧ (s.deviceReset cause prev).fget Reg.RESET_CAUSE_CAUSE = 2 ^ cause := by
    rw [heq]
    split
    · exact ⟨(hself.fset _ (by decide)).fset _ (by decide), (State.fget_fset_addr _ (by decide)).trans hcause⟩
    · exact ⟨hself.fset _ (by decide), hcause⟩
  obtain ⟨hlabel, hcause⟩ := hfinal
  obtain ⟨hmode, hstep, hcold, heng, hsram, hmram, hsats, hdoors, hloads, hfields, hboard, hhold, hmono, hdev⟩ := hreborn.relabelled hlabel
  refine ⟨⟨hmode, hstep, hcause, heng, hsram, hmram, hsats, hdoors, hloads, hfields⟩, hcold, hboard, hhold, hmono, fun h => ?_, fun h => ?_⟩
  · rw [hdev, if_pos (decide_eq_true h)]
  · rw [hlabel.frame]
    exact hpin (by simpa using h)

end Sys2Proof.Machine
end
section
namespace Sys2Proof.Machine

/-- R62. What a device reset leaves does not hang on the board, the registers, the time, the supplies or the test lands before it. -/
theorem State.Restarted.of_frame {s u t : State} {cause : Nat} (h : u.Restarted t cause)
    (hu : u = { s with board := u.board, regs := u.regs, time := u.time, power := u.power, tap := u.tap }) : s.Restarted t cause := by
  obtain ⟨hmode, hstep, hcause, heng, hsram, hmram, hsats, hdoors, hloads, hfields⟩ := h
  have hdoor (k : Nat) : u.door k = s.door k := by rw [hu]; rfl
  exact ⟨hmode, hstep, hcause, heng, hsram.trans (by rw [hu]), hmram.trans (by rw [hu]), hsats.trans (by rw [hu]),
    fun k => hdoor k ▸ hdoors k, hloads.trans (by rw [hu]), hfields.trans (by rw [hu])⟩

/-- R62. Power-on. -/
theorem por_completes (s : State) (b : Bool) :
    s.Does (.por b) fun t => s.Restarted t 0 ∧ t.boot.cold = true ∧ t.board.seatB = b ∧ t.time.dev = 0 := by
  obtain ⟨hrestarted, hcold, hboard, -, -, hdev, -⟩ :=
    State.deviceReset_spec { s with board := { s.board with seatB := b }, power := {} } 0 s.mode (by decide)
  exact ⟨_, rfl, hrestarted.of_frame rfl, hcold, (congrArg Board.seatB hboard :), hdev (by decide)⟩

/-- R77. The hold after a save ends. -/
theorem pfail_completes {s : State} (hh : s.power.hold = true) :
    s.Does .pfail fun t => s.Restarted t 1 ∧ t.boot.cold = true ∧ t.power.hold = false := by
  obtain ⟨hrestarted, hcold, -, hhold, -⟩ :=
    State.deviceReset_spec { s with power := { s.power with hold := false } } 1 (s.fget Reg.RESET_CAUSE_PREV_MODE) (by decide)
  refine ⟨_, ?_, hrestarted.of_frame rfl, hcold, hhold⟩
  simp [exec, execPfail, hh]

/-- R62, R63. The pin's reset is held until `RESET_N` returns high. -/
theorem pin_completes {s : State} (hpin : s.tap.pinLow = false) (hheld : s.tap.held = false) (hh : s.power.hold = false) :
    s.Does .pin fun t => s.Restarted t 2 ∧ t.boot.cold = false ∧ t.inReset = true := by
  obtain ⟨hrestarted, hcold, -, -, -, -, hlow⟩ :=
    State.deviceReset_spec { s with tap := { s.tap with pinLow := true } } 2 s.mode (by decide)
  refine ⟨_, ?_, hrestarted.of_frame rfl, hcold, ?_⟩
  · simp only [exec, execPin]
    rw [if_neg (by simp [hpin]), if_neg (by simp [hheld, hh])]
    rfl
  · simp [State.inReset, hlow (by decide)]

/-- R63. The release of the pin ends the hold. -/
theorem resetNRelease_completes {s : State} (hlow : s.tap.pinLow = true) :
    s.Does .resetNRelease fun t => t.tap.pinLow = false ∧ t.power.wdtAt = s.time.mono ∧ t = { s with tap := t.tap, power := t.power } :=
  ⟨_, congrArg Host.Outcome.next (if_pos hlow), rfl, rfl, rfl⟩

/-- R64, R99. The watchdog expires; in a boot it counts a loop. -/
theorem wdt_completes {s : State} (hm : s.mode ≠ mPark) (hr : s.inReset = false) :
    s.Does .wdt fun t => s.Restarted t 3 ∧ t.boot.cold = false ∧ s.power.wdtAt + s.wdtTime ≤ t.time.mono := by
  have hle := s.le_toMono (s.power.wdtAt + s.wdtTime)
  have hu : s.toMono (s.power.wdtAt + s.wdtTime) = { s with
      time := (s.toMono (s.power.wdtAt + s.wdtTime)).time, power := (s.toMono (s.power.wdtAt + s.wdtTime)).power } := rfl
  generalize hu' : s.toMono (s.power.wdtAt + s.wdtTime) = u at hle hu
  obtain ⟨v, hv, hframe, htime⟩ : ∃ v : State, (if u.mode = mBoot then u.fsat Reg.BOOT_STAT_BOOT_LOOPS else u) = v ∧
      v = { u with regs := v.regs } ∧ v.time = u.time := by
    split
    · exact ⟨_, rfl, rfl, rfl⟩
    · exact ⟨_, rfl, rfl, rfl⟩
  obtain ⟨hrestarted, hcold, -, -, hmono, -⟩ := v.deviceReset_spec 3 v.mode (by decide)
  refine ⟨_, ?_, hrestarted.of_frame (by rw [hframe, hu]), hcold, ?_⟩
  · simp only [exec, execWdt]
    rw [if_neg (by simp [hm, hr]), hu', hv]
  · rw [hmono, htime]
    exact hle

/-! ### A satellite whose own supply returns (R62, R229, R278) -/

theorem mget_filter {α : Type} (d : α) {p : Nat × α → Bool} {k : Nat} (h : ∀ v, p (k, v) = true) (l : List (Nat × α)) :
    mget d (l.filter p) k = mget d l k := by
  induction l with
  | nil => rfl
  | cons q l ih =>
    obtain ⟨a, v⟩ := q
    by_cases ha : a = k
    · subst ha
      simp [h, mget]
    · by_cases hq : p (a, v) = true
      · simp [hq, mget, ha, ih]
      · simp [hq, mget, ha, ih]

theorem mget_foldl_mset {k : Nat} (l : List (Nat × Nat)) (h : ∀ p ∈ l, p.1 ≠ k) (m : Nums) :
    mget 0 (l.foldl (fun m (p : Nat × Nat) => mset 0 m p.1 p.2) m) k = mget 0 m k :=
  List.foldlRecOn (motive := fun t => mget 0 t k = mget 0 m k) l _ rfl fun _ ht p hp => (mget_mset_other (h p hp).symm).trans ht

/-- R62. The registers of slot `n` at their reset values. -/
def State.satRegsReset (s : State) (n : Nat) : State :=
  let m := s.regs.filter fun p => decide (p.1 < satBase n) || decide (satBase n + 0x1000000 ≤ p.1)
  let r := (resetRows satRows []).filter fun p => decide (satBase n ≤ p.1) && decide (p.1 < satBase n + 0x1000000)
  { s with regs := r.foldl (fun m (p : Nat × Nat) => mset 0 m p.1 p.2) m }

/-- R62. The registers of the control die stay. -/
theorem State.satRegsReset_fbit (s : State) (n : Nat) {g : Fld} (hg : g.addr < 0x41000000) : (s.satRegsReset n).fbit g = s.fbit g := by
  have hbase : 0x41000000 ≤ satBase n := Nat.le_add_right ..
  have hmget : mget 0 (s.satRegsReset n).regs g.addr = mget 0 s.regs g.addr := by
    unfold State.satRegsReset
    refine (mget_foldl_mset _ (fun p hp => ?_) _).trans (mget_filter 0 (fun v => ?_) _)
    · have := (List.mem_filter.mp hp).2
      simp only [Bool.and_eq_true, decide_eq_true_eq] at this
      omega
    · have : g.addr < satBase n := by omega
      simp [this]
  unfold State.fbit State.fget
  rw [hmget]

/-- R62, R229, R278. The channels of the die of slot `n` as its supply leaves them: door channels from `HALTED`, load and field channels unused. -/
def State.dieRestarted (s : State) (n : Nat) : State :=
  if n ≤ 3 then
    let s := s.doorConfigured (n - 1)
    let s := s.each ([0, 1, 2, 3].map (4 * (n - 1) + ·)) fun s k => s.modDoor k fun d => { d with window := [], base := [], adap := [], learned := false }
    { s with ddies := mset {} s.ddies (n - 1) {} }
  else if n ≤ 5 then
    let s := s.each ((List.range 12).map (12 * (n - 4) + ·)) fun s x => s.setLoad x { tj := (s.load x).tj, offAt := s.time.mono }
    { s with ldies := mset {} s.ldies (n - 4) {} }
  else s.setField (n - 6) { vi := (s.fio (n - 6)).vi }

@[simp] theorem State.repause_answered (s : State) (k : Nat) : s.Answered (s.repause k) := by
  unfold State.repause
  dsimp only
  split <;> simp

@[simp] theorem State.doorConfigured_answered (s : State) (n : Nat) : s.Answered (s.doorConfigured n) := by
  unfold State.doorConfigured
  simp -implicitDefEqProofs

theorem State.dieRestarted_spec (s : State) (n : Nat) : s.Still (s.dieRestarted n) ∧ s.Answered (s.dieRestarted n) := by
  unfold State.dieRestarted
  split
  · simp
  · split <;> simp

/-- R62. A satellite whose own supply returns is unconfigured, and its link is down. -/
theorem diePowerUp_completes {s : State} {n : Slot} (hn : n ≠ 0) (hf : s.fitted n = true) :
    s.Does (.diePowerUp n) fun t => t.linkIsUp n = false ∧ t.sat n = { localAt := s.time.mono } ∧ (∀ m ≠ n.val, t.sat m = s.sat m) ∧
      t.sram = s.sram ∧ t.mram = s.mram := by
  have hn' : n.val ≠ 0 := fun h => hn (Fin.ext h)
  obtain ⟨u, hu, hup, hframe⟩ : ∃ u : State, (if s.linkIsUp n then s.linkFall n else s) = u ∧ u.linkIsUp n = false ∧
      u = { s with regs := u.regs, links := u.links } := by
    split
    · exact ⟨_, rfl, State.fbit_fput_same (b := false) s (Nat.le_refl 0), rfl⟩
    · next hdown => exact ⟨s, rfl, Bool.eq_false_of_not_eq_true hdown, rfl⟩
  obtain ⟨hstill, -, hsram, hmram⟩ := (u.satRegsReset n).dieRestarted_spec n
  have he : exec (.diePowerUp n) s = .next (((u.satRegsReset n).dieRestarted n).setSat n
      { localAt := ((u.satRegsReset n).dieRestarted n).time.mono }) := by
    simp only [exec, execDiePowerUp]
    rw [if_neg (by simp [hn', hf]), hu]
    rfl
  generalize (u.satRegsReset n).dieRestarted n = v at hstill hsram hmram he
  have hlevel := hstill.level
  have htime : v.time = s.time := hlevel.time.trans (by rw [State.satRegsReset, hframe])
  have hsats : v.sats = s.sats := hlevel.sats.trans (by rw [State.satRegsReset, hframe])
  refine ⟨_, he, ?_, ?_, fun m hm => ?_, ?_, ?_⟩
  · exact (hlevel.linkStat n.isLt rfl).trans ((u.satRegsReset_fbit n (by simp only [Reg.LINK_STAT_UP]; omega)).trans hup)
  · rw [State.sat_setSat, htime]
  · rw [State.sat_setSat_other _ hm]
    simp only [State.sat, hsats]
  · exact hsram.trans (by rw [State.satRegsReset, hframe])
  · exact hmram.trans (by rw [State.satRegsReset, hframe])

/-- Settles O20: `State.deviceReset_spec` has what a device reset leaves, and each scoped reset has a lemma of its own. -/
theorem resetsComplete : Obligations.ResetsComplete := by
  refine ⟨fun s => ⟨por_completes s, pfail_completes, pin_completes, wdt_completes, resetNRelease_completes,
    fun n hn hf => diePowerUp_completes hn hf⟩, fun s hm => ⟨fun c => scopedResetCan_completes c hm, ⟨s.qpReset, ?_, rfl, rfl⟩,
    scopedResetRope_completes hm, fun n hn => ?_⟩⟩
  · simp [exec, execScopedResetQp, hm]
  · obtain ⟨hup, hrx, htx, hsrx, -, hothers, -, -, -, -, hframe⟩ := s.linkReset_spec n
    have hn' : n.val ≠ 0 := fun h => hn (Fin.ext h)
    exact ⟨_, if_neg (not_or.mpr ⟨hn', hm⟩), hup, hrx, htx, hsrx, hothers, hframe⟩

end Sys2Proof.Machine
end
section
namespace Sys2Proof.Machine

/-! ### Event tasks made pending (R147) -/

/-- `t` is as `s` but for event tasks made pending, with the tasks' marks in the registers. -/
structure State.Triggered (s t : State) : Prop where
  frame : t = { s with regs := t.regs, eng := t.eng }
  mode : t.mode = s.mode
  on : ∀ u, t.taskOn u = s.taskOn u
  pend : ∀ u, bit s.eng.pend u = true → bit t.eng.pend u = true

theorem State.Triggered.refl (s : State) : s.Triggered s := ⟨rfl, rfl, fun _ => rfl, fun _ h => h⟩

/-- A mark of a task in the registers, other than its being enabled. -/
theorem State.Triggered.fset {s t : State} (h : s.Triggered t) {f : Fld} (v : Nat) (hf : f.lo ≤ f.hi) (hm : Reg.MODE_STAT_MODE.addr ≠ f.addr)
    (ho : ∀ u, (Reg.TASK_STAT_ENABLED u).apart f = true) : s.Triggered (t.fset f v) :=
  ⟨by rw [h.frame]; rfl, (State.fget_fset_addr t hm).trans h.mode, fun u => (State.fbit_fset_apart _ (ho u) (Nat.le_refl 0) hf).trans (h.on u), h.pend⟩

theorem State.trigger_triggered (s : State) {t : Nat} (ht : t < 24) : s.Triggered (s.trigger t) := by
  have hmode (f : Fld) (hf : 0x40020000 ≤ f.addr) : Reg.MODE_STAT_MODE.addr ≠ f.addr := by
    simp only [Reg.MODE_STAT_MODE]
    omega
  unfold State.trigger
  split
  · exact .refl s
  · split
    · refine ((State.Triggered.refl s).fset (f := Reg.TASK_SKIP_MERGED t) _ (by simp [Reg.TASK_SKIP_MERGED])
        (hmode _ (by simp only [Reg.TASK_SKIP_MERGED]; omega)) fun u => by simp [Fld.apart, Reg.TASK_STAT_ENABLED, Reg.TASK_SKIP_MERGED]).fset _
        (by decide) (hmode _ (by decide)) fun u => by simp [Fld.apart, Reg.TASK_STAT_ENABLED, Reg.SCHED_FLAGS_ET_MERGED]
    · have hpend : s.Triggered { s with eng := { s.eng with pend := putBit s.eng.pend t true } } :=
        ⟨rfl, rfl, fun _ => rfl, fun u hu => by simp [bit_putBit, hu]⟩
      exact hpend.fset _ (Nat.le_refl 3) (hmode _ (by simp only [Reg.TASK_STAT_PENDING]; omega)) fun u => by
        simp [Fld.apart, Reg.TASK_STAT_ENABLED, Reg.TASK_STAT_PENDING]

/-- R147. An enabled task becomes pending while the engine runs. -/
theorem State.trigger_pend {s : State} {t : Nat} (hon : s.taskOn t = true) (hr : s.running = true) (hc : s.power.crossAt = none) :
    bit (s.trigger t).eng.pend t = true := by
  unfold State.trigger
  rw [if_neg (by simp [hon, hr, hc])]
  split
  · assumption
  · exact (bit_putBit ..).trans (if_pos rfl)

theorem State.Triggered.running {s t : State} (h : s.Triggered t) : t.running = s.running := by
  unfold State.running State.driving
  rw [h.mode]

/-- R147. Of a list of tasks each one enabled becomes pending. -/
theorem State.triggers_pend {l : List Nat} (hl : ∀ t ∈ l, t < 24) {s : State} (hr : s.running = true) (hc : s.power.crossAt = none) {u : Nat}
    (hu : u ∈ l ∨ bit s.eng.pend u = true) (hon : s.taskOn u = true) : bit (s.each l fun s t => s.trigger t).eng.pend u = true := by
  unfold State.each
  induction l generalizing s with
  | nil => exact hu.resolve_left (by simp)
  | cons t l ih =>
    have htrig := s.trigger_triggered (hl t (by simp))
    refine ih (fun t ht => hl t (by simp [ht])) (htrig.running.trans hr) (show (s.trigger t).power.crossAt = none by rw [htrig.frame]; exact hc) ?_ ((htrig.on u).trans hon)
    rcases hu with hu | hu
    · exact (List.mem_cons.mp hu).elim (fun h => .inr (h ▸ State.trigger_pend (h ▸ hon) hr hc)) .inl
    · exact .inr (htrig.pend u hu)

/-- R147. An enabled event task that waits for an event of `kind` with its argument becomes pending. -/
theorem State.triggerAll_pend {s : State} {kind : Nat} {p : Nat → Bool} {u : Nat} (hr : s.running = true) (hc : s.power.crossAt = none)
    (hlo : 16 ≤ u) (hhi : u < 24) (hon : s.taskOn u = true) (hk : s.topoN 0x0202 u 3 1 0 = kind) (hp : p (s.topoN 0x0202 u 8 4 0) = true) :
    bit (s.triggerAll kind p).eng.pend u = true := by
  refine State.triggers_pend (fun t ht => (List.mem_range'_1.1 (List.mem_filter.1 ht).1).2) hr hc (.inl ?_) hon
  exact List.mem_filter.mpr ⟨List.mem_range'_1.mpr ⟨hlo, hhi⟩, by simp [hon, hk, hp]⟩

theorem State.doorEventIn_pend {s : State} {k ev u : Nat} (st cause safe : Nat) (hr : s.running = true) (hc : s.power.crossAt = none)
    (hlo : 16 ≤ u) (hhi : u < 24) (hon : s.taskOn u = true) (hk : s.topoN 0x0202 u 3 1 0 = 3) (ha : s.topoN 0x0202 u 8 4 0 % 16 = k)
    (he : s.topoN 0x0202 u 8 4 0 / 256 % 256 = ev ∨ s.topoN 0x0202 u 8 4 0 / 256 % 256 = 0xFF) :
    bit (s.doorEventIn k ev st cause safe).eng.pend u = true := by
  have hpend := State.triggerAll_pend (p := fun a => a % 16 == k && (a / 256 % 256 == ev || a / 256 % 256 == 0xFF)) hr hc hlo hhi hon hk
    (by simpa [ha] using he)
  unfold State.doorEventIn
  generalize s.triggerAll 3 (fun a => a % 16 == k && (a / 256 % 256 == ev || a / 256 % 256 == 0xFF)) = v at hpend ⊢
  have hmark : (if st = dHalted ∧ cause = zEgress then v.markRec k 4 0 else v).eng.pend = v.eng.pend := by
    split
    · exact (v.markRec_still ..).steady.pend
    · rfl
  dsimp only
  generalize (if st = dHalted ∧ cause = zEgress then v.markRec k 4 0 else v) = w at hmark ⊢
  split
  · rw [(w.dropPairs_still ..).steady.pend, hmark]
    exact hpend
  · rw [hmark]
    exact hpend

theorem State.loadEventIn_pend {s : State} {n c ev u : Nat} (p : List Byte) (hr : s.running = true) (hc : s.power.crossAt = none)
    (hlo : 16 ≤ u) (hhi : u < 24) (hon : s.taskOn u = true) (hk : s.topoN 0x0202 u 3 1 0 = 4) (he : ev = wTrip ∨ ev = wThermal ∨ ev = wDiag)
    (ha : s.topoN 0x0202 u 8 4 0 % 32 = 12 * n + c ∨ s.topoN 0x0202 u 8 4 0 % 32 = 31) : bit (s.loadEventIn n c ev p).eng.pend u = true := by
  have hpend := State.triggerAll_pend (p := fun a => a % 32 == 12 * n + c || a % 32 == 31) hr hc hlo hhi hon hk (by simpa using ha)
  unfold State.loadEventIn
  rw [if_pos he]
  exact (congrArg (bit · u) (State.recordFrom_still ..).steady.pend).trans hpend

theorem State.fieldEventIn_pend {s : State} {f c u : Nat} (level : Bool) (hr : s.running = true) (hc : s.power.crossAt = none)
    (hlo : 16 ≤ u) (hhi : u < 24) (hon : s.taskOn u = true) (hk : s.topoN 0x0202 u 3 1 0 = 2) (ha : s.topoN 0x0202 u 8 4 0 % 64 = 32 * f + c)
    (hb : bit (s.topoN 0x0202 u 8 4 0 / 256) (if level then 0 else 1) = true) : bit (s.fieldEventIn f c 1 level).eng.pend u = true := by
  unfold State.fieldEventIn
  rw [if_pos rfl]
  exact State.triggerAll_pend (p := fun a => a % 64 == 32 * f + c && bit (a / 256) (if level then 0 else 1)) hr hc hlo hhi hon hk
    (by simp [ha, hb])

/-- R147. An EVENT makes each enabled event task pending that waits for it. -/
theorem event_completes {s : State} {n : Slot} {f : Frame} {rest : List Frame} (h : s.UpNext n f rest) (ht : f.typ = 0x09)
    (hr : s.running = true) (hc : s.power.crossAt = none) :
    let b (i : Nat) : Nat := leAt f.payload i 1
    s.Does (.event n .ok) fun t => ∀ u, 16 ≤ u → u < 24 → s.taskOn u = true →
      let kind := s.topoN 0x0202 u 3 1 0
      let arg := s.topoN 0x0202 u 8 4 0
      (n.val ≤ 3 ∧ kind = 3 ∧ arg % 16 = 4 * (n - 1) + b 1 % 16 % 4 ∧ (arg / 256 % 256 = b 0 ∨ arg / 256 % 256 = 0xFF)) ∨
        (4 ≤ n.val ∧ n.val ≤ 5 ∧ kind = 4 ∧ (b 0 = wTrip ∨ b 0 = wThermal ∨ b 0 = wDiag) ∧ (arg % 32 = 12 * (n - 4) + b 1 % 16 ∨ arg % 32 = 31)) ∨
        (6 ≤ n.val ∧ kind = 2 ∧ b 0 = 1 ∧ arg % 64 = 32 * (n - 6) + b 1 % 32 ∧ bit (arg / 256) (if bit (b 2) 0 then 0 else 1) = true) →
      bit t.eng.pend u = true := by
  intro b
  let v := s.ctlGot n rest
  have he : exec (.event n .ok) s = .next (if n.val ≤ 3 then v.doorEventIn (4 * (n - 1) + b 1 % 16 % 4) (b 0) (b 2) (b 3) (b 7)
      else if n.val ≤ 5 then v.loadEventIn (n - 4) (b 1 % 16) (b 0) f.payload
      else v.fieldEventIn (n - 6) (b 1 % 32) (b 0) (bit (b 2) 0)) := congrArg Host.Outcome.next (h.ctlTake ht rfl _)
  refine ⟨_, he, fun u hlo hhi hon hcase => ?_⟩
  rcases hcase with ⟨hn, hk, ha, hev⟩ | ⟨hn, hn', hk, hev, ha⟩ | ⟨hn, hk, hev, ha, hb⟩
  · rw [if_pos hn]
    exact State.doorEventIn_pend _ _ _ hr hc hlo hhi hon hk ha hev
  · rw [if_neg (by omega), if_pos hn']
    exact State.loadEventIn_pend _ hr hc hlo hhi hon hk hev ha
  · rw [if_neg (by omega), if_neg (by omega), hev]
    exact State.fieldEventIn_pend _ hr hc hlo hhi hon hk ha hb

/-! ### Trace samples, profiles and ledger states (R240, R249, R461) -/

/-- R240. A trace sample goes into the ring of its channel. -/
theorem trace_completes {s : State} {n : Slot} {f : Frame} {rest : List Frame} (h : s.UpNext n f rest) (ht : f.typ = 0x0B)
    (hb : leAt f.payload 0 1 < 12) :
    let i := mget 0 (s.link n).traceNext (leAt f.payload 0 1)
    s.Does (.trace n .ok) fun t => s.Stored t (0x800000 + leAt f.payload 0 1 * 0x20000 + 16 * i) (sub_ f.payload 1 16) ∧
      mget 0 (t.link n).traceNext (leAt f.payload 0 1) = (i + 1) % 8192 ∧ t = { s with sram := t.sram, links := t.links } := by
  intro i
  let u := s.ctlGot n rest
  let k := leAt f.payload 0 1
  have he : exec (.trace n .ok) s = .next (State.setLink
      { u with sram := mput 0 u.sram (0x800000 + k * 0x20000 + 16 * mget 0 (u.link n).traceNext k) (sub_ f.payload 1 16) } n
      { u.link n with traceNext := mset 0 (u.link n).traceNext k ((mget 0 (u.link n).traceNext k + 1) % 8192) }) :=
    congrArg Host.Outcome.next (h.ctlTake ht (p := fun p => decide (leAt p 0 1 < 12)) (decide_eq_true hb) _)
  have hi : mget 0 (u.link n).traceNext k = i := by rw [State.ctlGot_link]
  rw [hi] at he
  refine ⟨_, he, ⟨mslice_mput, fun a ha => mget_mput_outside ha⟩, ?_, rfl⟩
  rw [State.link_setLink]
  exact mget_mset_same

theorem mslice_congr {α : Type} {d : α} {m m' : List (Nat × α)} {a n : Nat} (h : ∀ i < n, mget d m' (a + i) = mget d m (a + i)) :
    mslice d m' a n = mslice d m a n := by
  induction n generalizing a with
  | zero => rfl
  | succ n ih =>
    have hhead := h 0 (by omega)
    have htail := ih (a := a + 1) fun i hi => by have := h (i + 1) (by omega); rwa [show a + (i + 1) = a + 1 + i by omega] at this
    simp only [mslice, htail]
    exact congrArg (· :: _) hhead

/-- The header of the profile at `base` is written; the rest of SRAM is as in `m`. -/
def headerOnly (base : Nat) (m m' : Bytes) : Prop := ∀ a, a < base + 0x800 ∨ base + 0x810 ≤ a → mget 0 m' a = mget 0 m a

theorem headerOnly.mput {base : Nat} {m m' : Bytes} (h : headerOnly base m m') {o : Nat} {vs : List Byte} (ho : 0x800 ≤ o) (hv : o + vs.length ≤ 0x810) :
    headerOnly base m (mput 0 m' (base + o) vs) := fun a ha => (mget_mput_outside (by omega)).trans (h a ha)

theorem leBytes_length (n v : Nat) : (leBytes n v).length = n := by
  induction n generalizing v with
  | zero => rfl
  | succ n ih => simp [leBytes, ih]

/-- R249. A profile taken stands in its table, with its header beside it. -/
theorem State.profTake_sram (s : State) {k dir : Nat} (hdir : dir < 2) (adapted : Bool) (vals : List Byte) :
    let t := s.profTake k dir adapted vals
    let base := 0x980000 + k * 0x1000
    mslice 0 t.sram (base + (if adapted then 0x400 else 0) + dir * 0x200) (vals.take 512).length = vals.take 512 ∧
      (∀ a, a < base ∨ base + 0x1000 ≤ a → t.rd a = s.rd a) := by
  intro t base
  let lo := base + (if adapted then 0x400 else 0) + dir * 0x200
  let u : State := { s with sram := mput 0 s.sram lo (vals.take 512) }
  have hlen : (vals.take 512).length ≤ 512 := List.length_take_le ..
  have hhash : (u.geoHash k).length ≤ 4 := List.length_take_le ..
  have hhead : headerOnly base u.sram t.sram := by
    have hgeo : headerOnly base u.sram (mput 0 u.sram (base + 0x800) (u.geoHash k)) :=
      headerOnly.mput (fun _ _ => rfl) (by omega) (by omega)
    have hword {m : Bytes} (h : headerOnly base u.sram m) (o v : Nat) (ho : 0x800 ≤ o) (ho' : o ≤ 0x80C) :
        headerOnly base u.sram (mput 0 m (base + o) (leBytes 4 v)) := h.mput ho (by rw [leBytes_length]; omega)
    have hbyte {m : Bytes} (h : headerOnly base u.sram m) (v : Nat) : headerOnly base u.sram (mput 0 m (base + 0x80C) (leBytes 1 v)) :=
      h.mput (by omega) (by rw [leBytes_length]; omega)
    cases adapted
    · exact hbyte (hword (hword hgeo 0x804 _ (by omega) (by omega)) 0x808 _ (by omega) (by omega)) _
    · exact hbyte (hword hgeo 0x808 _ (by omega) (by omega)) _
  have hlo : base ≤ lo ∧ lo + 512 ≤ base + 0x800 := by
    simp only [lo]
    split <;> omega
  refine ⟨?_, fun a ha => ?_⟩
  · rw [mslice_congr fun i hi => hhead _ (by omega)]
    exact mslice_mput
  · exact (hhead a (by omega)).trans (mget_mput_outside (by omega))

/-- R249. The channel's profile is learned. -/
theorem State.profTake_learned (s : State) {k : Nat} (hk : k < 12) (dir : Nat) (adapted : Bool) (vals : List Byte) :
    bit ((s.profTake k dir adapted vals).fget Reg.PROF_STAT_LEARNED) k = true ∧ (s.profTake k dir adapted vals).mram = s.mram := by
  have hlearned (u : State) (l : Link) : bit (((u.fset Reg.PROF_STAT_LEARNED (putBit (u.fget Reg.PROF_STAT_LEARNED) k true)).setLink (chSlot k) l).fget
      Reg.PROF_STAT_LEARNED) k = true := by
    have hbit : bit (putBit (u.fget Reg.PROF_STAT_LEARNED) k true) k = true := by simp [bit_putBit]
    refine (congrArg (bit · k) (State.fget_fset_same u Reg.PROF_STAT_LEARNED _)).trans ?_
    unfold bit at hbit ⊢
    rw [Nat.testBit_mod_two_pow, hbit]
    simpa [Reg.PROF_STAT_LEARNED] using hk
  unfold State.profTake
  extract_lets base u₁ u₂ u₃ u₄ u₅
  exact ⟨hlearned u₄ _, by simp [u₅, u₄, u₃, u₂, u₁]⟩

theorem State.ropeSend_frame (s : State) (typ : Nat) (p : List Byte) : s.ropeSend typ p = { s with net := (s.ropeSend typ p).net, dup := (s.ropeSend typ p).dup } := by
  unfold State.ropeSend
  split <;> rfl

/-- R249. A profile goes into bank B2. -/
theorem profileFrame_completes {s : State} {n : Slot} {f : Frame} {rest : List Frame} (h : s.UpNext n f rest) (ht : f.typ = 0x0B)
    (hb : leAt f.payload 0 1 = 0xF0) (hk : leAt f.payload 1 1 < 12) :
    let p := f.payload
    let b (i : Nat) : Nat := leAt p i 1
    let base := 0x980000 + b 1 * 0x1000
    let lo := base + (if b 3 = 1 then 0x400 else 0) + b 2 % 2 * 0x200
    s.Does (.profileFrame n .ok) fun t => mslice 0 t.sram lo ((p.drop 4).take 512).length = (p.drop 4).take 512 ∧
      (∀ a, a < base ∨ base + 0x1000 ≤ a → t.rd a = s.rd a) ∧ bit (t.fget Reg.PROF_STAT_LEARNED) (b 1) = true ∧ t.mram = s.mram := by
  intro p b base lo
  let u := (s.ctlGot n rest).profTake (b 1) (b 2 % 2) (b 3 == 1) (p.drop 4)
  have he : exec (.profileFrame n .ok) s = .next (if u.driving && u.duplexNow then u.ropeSend 0x0E p else u) := by
    refine congrArg Host.Outcome.next ((h.ctlTake ht (p := fun p => leAt p 0 1 == 0xF0) (by simp [hb]) _).trans ?_)
    dsimp only
    rw [if_neg (by omega)]
  obtain ⟨htable, hrest⟩ := (s.ctlGot n rest).profTake_sram (k := b 1) (Nat.mod_lt (b 2) (by decide)) (b 3 == 1) (p.drop 4)
  obtain ⟨hlearned, hmram⟩ := (s.ctlGot n rest).profTake_learned hk (b 2 % 2) (b 3 == 1) (p.drop 4)
  simp only [beq_iff_eq] at htable
  have hframe : (if u.driving && u.duplexNow then u.ropeSend 0x0E p else u) = { u with
      net := (if u.driving && u.duplexNow then u.ropeSend 0x0E p else u).net
      dup := (if u.driving && u.duplexNow then u.ropeSend 0x0E p else u).dup } := by
    split
    · exact u.ropeSend_frame _ _
    · rfl
  refine ⟨_, he, ?_⟩
  rw [hframe]
  exact ⟨htable, hrest, hlearned, hmram⟩

theorem LRec.spent_isOpen (r : LRec) (st dt : Nat) : (r.spent st dt).isOpen = r.isOpen := by
  unfold LRec.spent
  split_ifs <;> rfl

theorem State.modDoor_ledger (s : State) (k : Nat) (f : Door → Door) : (s.modDoor k f).ledger = s.ledger := by
  unfold State.modDoor State.setDoor State.doorView
  simp

/-- R461. A state change of an open record other than into `LOCKED` goes into the record. -/
theorem State.ledgerChange_spec {s : State} {k st : Nat} (ho : (s.lrec k).isOpen = true) (hst : st ≠ dLocked) (t peak energy vdc : Nat) :
    let u := s.ledgerChange k st t peak energy vdc
    (u.lrec k).isOpen = true ∧ (u.lrec k).state = st ∧ (u.lrec k).at_ = t ∧ (∀ j ≠ k, u.lrec j = s.lrec j) ∧ u.sram = s.sram ∧ u.mram = s.mram := by
  obtain ⟨r, f, hr, hopen, hstate, hat⟩ : ∃ (r : LRec) (f : Door → Door), s.ledgerChange k st t peak energy vdc = (s.modDoor k f).setRec k r ∧
      r.isOpen = true ∧ r.state = st ∧ r.at_ = t := by
    unfold State.ledgerChange
    rw [if_neg (by simp [ho])]
    extract_lets old r₁ r₂ r₃ r₄ fl r₅ u
    have hspent : r₁.isOpen = true := (LRec.spent_isOpen ..).trans ho
    have h₂ : r₂.isOpen = true := by
      simp only [r₂]
      split <;> exact hspent
    have h₃ : r₃.isOpen = true := by
      simp only [r₃]
      split <;> exact h₂
    have h₄ : r₄.isOpen = true := by
      simp only [r₄]
      split <;> exact h₃
    rw [if_neg hst]
    exact ⟨r₅, _, rfl, h₄, rfl, rfl⟩
  obtain ⟨-, hsram, hmram⟩ := s.modDoor_answered k f
  have hsame : (((s.modDoor k f).setRec k r).lrec k) = r := mget_mset_same
  dsimp only
  rw [hr]
  refine ⟨by rw [hsame]; exact hopen, by rw [hsame]; exact hstate, by rw [hsame]; exact hat, fun j hj => ?_, hsram, hmram⟩
  exact (mget_mset_other hj).trans (congrArg (mget {} · j) (s.modDoor_ledger k f))

/-- R461. A ledger state goes into the open record. -/
theorem ledgerStateFrame_completes {s : State} {n : Slot} {f : Frame} {rest : List Frame} (h : s.UpNext n f rest) (ht : f.typ = 0x0B)
    (hb : leAt f.payload 0 1 = 0xF1) (hk : leAt f.payload 1 1 < 12) (hm : s.mode ≠ mStandby) (ho : (s.lrec (leAt f.payload 1 1)).isOpen = true)
    (hst : leAt f.payload 2 1 ≠ dLocked) :
    let p := f.payload
    let b (i : Nat) : Nat := leAt p i 1
    s.Does (.ledgerStateFrame n .ok) fun t => (t.lrec (b 1)).isOpen = true ∧ (t.lrec (b 1)).state = b 2 ∧ (t.lrec (b 1)).at_ = leAt p 3 5 ∧
      (∀ k ≠ b 1, t.lrec k = s.lrec k) ∧ t.sram = s.sram ∧ t.mram = s.mram := by
  intro p b
  have he : exec (.ledgerStateFrame n .ok) s =
      .next ((s.ctlGot n rest).ledgerChange (b 1) (b 2) (leAt p 3 5) (leAt p 8 2) (leAt p 10 2) (leAt p 12 2)) := by
    refine congrArg Host.Outcome.next ((h.ctlTake ht (p := fun p => leAt p 0 1 == 0xF1) (by simp [hb]) _).trans ?_)
    exact if_neg (not_or.mpr ⟨by omega, hm⟩)
  exact ⟨_, he, State.ledgerChange_spec (s := s.ctlGot n rest) ho hst ..⟩

end Sys2Proof.Machine
end
section
namespace Sys2Proof.Machine

/-! ### Input blocks outlast the filling of an image (R34, R137) -/

/-- `t` has the input blocks of `s`. -/
@[reducible] def State.Inputs (s t : State) : Prop := inputsOf t.links = inputsOf s.links

theorem State.Level.inputs {s t : State} (h : s.Level t) : s.Inputs t := h.1.2.2

theorem State.Inputs.trans {s t u : State} (h : s.Inputs t) (h' : t.Inputs u) : s.Inputs u := Eq.trans h' h

theorem State.clocks_links (s : State) (t n : Nat) : (s.clocks t n).links = s.links := by
  unfold State.clocks State.laneClocks
  dsimp only
  split <;> rfl

theorem State.chgBit_still (s : State) (base i : Nat) (b : Bool) : s.Still (s.chgBit base i b) := by
  unfold State.chgBit
  simp -implicitDefEqProofs

theorem State.chgBytes_still (s : State) (a : Nat) (l : List Byte) : s.Still (s.chgBytes a l) := by
  induction l generalizing s a with
  | nil => exact State.Still.refl s
  | cons v l ih =>
    unfold State.chgBytes
    refine State.Still.trans ?_ (ih ..)
    split <;> simp

theorem State.carryOne_still (old : State) (l : List (Nat × Nat × Nat × Nat)) (s : State) (e : Nat × Nat × Nat × Nat) :
    s.Still (old.carryOne l s e) := by
  unfold State.carryOne
  dsimp only
  split
  · split
    · exact (State.chgBit_still ..).trans (State.chgBit_still ..)
    · exact State.chgBytes_still ..
  · split
    · exact (State.chgBit_still ..).trans (State.chgBit_still ..)
    · exact State.chgBytes_still ..

theorem State.takeProgram_level (s : State) (t : Nat) : s.Level (s.takeProgram t).1 := by
  unfold State.takeProgram
  split
  · exact .refl s
  · extract_lets old new back e u v clocks w x y
    have hu : s.Level u := ⟨⟨rfl, rfl, rfl⟩, rfl⟩
    have hv : u.Level v := (State.Still.foldl (fun s e => State.carryOne_still _ _ s e) (.refl u)).level
    have hy : v.Level y := by
      simp only [y]
      split
      · exact .refl v
      · split <;> exact ⟨⟨rfl, rfl, rfl⟩, rfl⟩
    exact (hu.trans hv).trans hy

theorem State.answerQuery_level (s : State) (t : Nat) : s.Level (s.answerQuery t) := by
  unfold State.answerQuery
  split
  · extract_lets bad d u v
    have hu : s.Level u := ⟨⟨rfl, rfl, rfl⟩, rfl⟩
    have hv : s.Level v := hu.trans (State.ropeSend_still ..).level
    split
    · exact hv.trans (State.handover_level ..)
    · exact hv
  · exact .refl s

/-- R137, R156. The image of an activation is filled. -/
theorem State.fillAct_inputs (s : State) (t : Nat) : s.Inputs (s.fillAct t) := by
  unfold State.fillAct
  split
  · next a _ =>
    obtain ⟨p, hp, hlevel⟩ : ∃ p : State × Bool × Nat, (if a.swap then s.takeProgram t else (s, false, 0)) = p ∧ s.Level p.1 := by
      split
      · exact ⟨_, rfl, s.takeProgram_level t⟩
      · exact ⟨_, rfl, .refl s⟩
    obtain ⟨u, swapped, n⟩ := p
    rw [hp]
    dsimp only
    have hclocks : s.Inputs (if n = 0 then u else u.clocks t n) := by
      split
      · exact hlevel.inputs
      · exact (congrArg inputsOf (u.clocks_links t n)).trans hlevel.inputs
    generalize (if n = 0 then u else u.clocks t n) = v at hclocks ⊢
    have hbind (x : State) : x.Level ((x.entries 0x0203 t 16).foldl (fun s e => s.bindOne t (mget 0 a.sArea 0x10).toNat a e) x) :=
      (foldl_still fun s e => s.bindOne_still ..).level
    refine hclocks.trans (State.Level.inputs (.trans (.trans ?_ (State.answerQuery_level ..)) (State.preempt_level _)))
    exact hbind { v with sram := mclear (v.imgAt t) (v.imgLen t) v.sram }
  · rfl

theorem State.fillIfIn_inputs (s : State) (t : Nat) : s.Inputs (s.fillIfIn t) := by
  unfold State.fillIfIn
  split
  · split
    · exact s.fillAct_inputs t
    · rfl
  · rfl

/-- R20, R34. An INPUT block is taken for the sample point in hand. -/
theorem input_completes {s : State} {n : Slot} {f : Frame} {rest : List Frame} (h : s.UpNext n f rest) (ht : f.typ = 0x01)
    (hdue : (s.link n).inputDue = true) (hin : (s.link n).inputIn = false) :
    s.Does (.input n .ok) fun t => (t.link n).inputIn = true ∧ (t.link n).input = f.payload := by
  refine ⟨_, congrArg Host.Outcome.next ((h.ctlTake ht (p := fun _ => true) rfl _).trans (if_neg (by simp [hdue, hin]))), ?_⟩
  extract_lets ok u v w x y
  have hu : inputsOf u.links n = ((u.link n).inputDue, true, f.payload) := by
    simp only [inputsOf, u, State.setLink, mget_mset_same, State.link]
  have hv : u.Level v := by
    simp only [v]
    split
    · exact (State.stepActs_still ..).level
    · exact .refl u
  have hw : v.Level w := by
    simp only [w]
    split
    · exact (State.resumeRecs_still ..).level
    · exact .refl v
  have hx : w.Level x := by
    simp only [x]
    split
    · exact (State.stReadBack_still ..).level
    · split
      · exact (State.stLoads_still ..).level
      · exact .refl w
  have hy : x.Inputs y := by
    refine List.foldlRecOn (motive := fun t => x.Inputs t) _ _ rfl fun s hs t _ => hs.trans ?_
    split
    · split
      · rfl
      · exact (State.fillIfIn_inputs ..)
    · rfl
  have hinputs := congrFun ((((hv.trans hw).trans hx).inputs.trans hy).trans y.stageNow_still.level.inputs) n
  rw [hu] at hinputs
  simp only [inputsOf, Prod.mk.injEq] at hinputs
  obtain ⟨-, htaken, hinput⟩ := hinputs
  exact ⟨htaken, hinput⟩

/-- Settles O16: each report is taken in order by `State.UpNext.ctlTake` and acted on as its kind asks. -/
theorem controlReportsComplete : Obligations.ControlReportsComplete := by
  intro s n f rest _ h
  exact ⟨fun ht hr hc => event_completes h ht hr hc, fun ht hb => trace_completes h ht hb, fun ht hb hk => profileFrame_completes h ht hb hk,
    fun ht hb hk hm ho hst => ledgerStateFrame_completes h ht hb hk hm ho hst, fun ht hdue hin => input_completes h ht hdue hin⟩

end Sys2Proof.Machine
end
section
namespace Sys2Proof.Machine

/-! ### The coherent cycle: the view of a field die (R23, R317) -/

/-- R317. SAMPLE_LATCH marks the sample of a field die as due, to be taken from its field side. -/
theorem sampleLatch_field {s : State} {n : Slot} (hn : 6 ≤ n.val) (hdue : (s.link n).latchDue = true) (hs : s.time.sampled = false)
    (hp : s.present n = true) : exec (.sampleLatch n) s =
      .next ((s.setLink n { s.link n with latchDue := false }).modField (n - 6) fun x => { x with sampleDue := true }) := by
  have hs' : (s.setLink n { s.link n with latchDue := false }).time.sampled = false := hs
  have hp' : (s.setLink n { s.link n with latchDue := false }).present n = true := hp
  refine (if_neg (by simp [hdue]; omega)).trans ?_
  dsimp only
  generalize s.setLink n { s.link n with latchDue := false } = u at hs' hp' ⊢
  rw [hs', if_neg Bool.false_ne_true, if_neg (by simp [hp']), if_pos hn]

/-- Field die 1 is to latch, and its register of the field supply holds a reading that the die does not have. -/
def staleView : State :=
  ((({ State.reset with regs := [] } : State).fon (Reg.LINK_STAT_UP 7)).fset (Reg.FIO_VI_VI 1) 5).setLink 7 { latchDue := true }

/-- Refutes O17: at `staleView` SAMPLE_LATCH marks the sample of the field die as due by `State.modField`, which shows the die's state in its
registers anew, where the statement has every register unchanged. -/
theorem not_coherentCycleCompletes : ¬ Obligations.CoherentCycleCompletes := by
  intro h
  obtain ⟨-, hlatch, -⟩ := h.1 staleView
  have hdue : (staleView.link 7).latchDue = true := by decide +kernel
  have hp : staleView.present 7 = true := by decide +kernel
  have he := sampleLatch_field (s := staleView) (n := 7) (by decide) hdue rfl hp
  obtain ⟨t, ht, -, -, -, hframe⟩ := hlatch 7 (by decide) hdue hp (by decide +kernel)
  have hregs : t.regs = staleView.regs := (congrArg State.regs hframe :)
  have hview : mget 0 t.regs (Reg.FIO_VI_VI 1).addr = 0 := by
    rw [← Host.Outcome.next.inj (he.symm.trans ht)]
    decide +kernel
  have hstale : mget 0 staleView.regs (Reg.FIO_VI_VI 1).addr = 5 := by decide +kernel
  rw [hregs, hstale] at hview
  exact absurd hview (by decide)

end Sys2Proof.Machine
end

section
namespace Sys2Proof.Machine

/-! ### Power-on (R62, R97) -/

/-- Settles O56: the register file of the reset state is a closed term, as is the rest of it. -/
theorem resetIsInBoot : Obligations.ResetIsInBoot := by
  have hlinks : ∀ n : Slot, State.reset.linkIsUp n = false ∧ State.reset.admitted n = false := by decide +kernel
  have hmode : State.reset.mode = mBoot := by decide +kernel
  have hcause : State.reset.fget Reg.RESET_CAUSE_CAUSE = 1 := by decide +kernel
  exact ⟨hmode, rfl, rfl, hcause, rfl, rfl, rfl, hlinks, rfl, rfl⟩

/-! ### Device resets other than by the supply, the pin and the watchdog (R62) -/

/-- R62. A device reset by any source of Table 2.7 but a wake is the restart of the boot ROM, with its cause shown. Device time
is that of `s` unless the reset ends PARK. -/
theorem State.deviceReset_relabelled (s : State) {cause : Nat} (prev : Nat) (hc : cause ≤ 6) :
    ∃ d, (s.mode ≠ mPark → d = s.time.dev) ∧
      (State.restart { s with time := { s.time with dev := d } } prev trReset (decide (cause ≤ 1)) (cause == 0)).Relabelled (s.deviceReset cause prev) ∧
      (s.deviceReset cause prev).fget Reg.RESET_CAUSE_CAUSE = 2 ^ cause := by
  obtain ⟨d, hd, hu⟩ : ∃ d, (s.mode ≠ mPark → d = s.time.dev) ∧
      (if s.mode = mPark then s.aonTime else s) = { s with time := { s.time with dev := d } } := by
    split
    · next hm => exact ⟨_, absurd hm, rfl⟩
    · exact ⟨s.time.dev, fun _ => rfl, rfl⟩
  refine ⟨d, hd, ?_⟩
  let v := State.restart { s with time := { s.time with dev := d } } prev trReset (decide (cause ≤ 1)) (cause == 0)
  have heq : s.deviceReset cause prev = if prev = mPark ∧ cause ≠ 0 then
      (v.fset Reg.RESET_CAUSE_CAUSE (2 ^ cause)).fset Reg.PARK_STAT_WAKE_SRC 4 else v.fset Reg.RESET_CAUSE_CAUSE (2 ^ cause) := by
    unfold State.deviceReset
    rw [hu]
  have hcause : (v.fset Reg.RESET_CAUSE_CAUSE (2 ^ cause)).fget Reg.RESET_CAUSE_CAUSE = 2 ^ cause :=
    (State.fget_fset_same ..).trans (Nat.mod_eq_of_lt (Nat.pow_lt_pow_right (by decide) (Nat.lt_succ_of_le hc)))
  have hlabel : v.Relabelled (v.fset Reg.RESET_CAUSE_CAUSE (2 ^ cause)) := State.Relabelled.fset ⟨rfl, rfl, rfl, rfl⟩ _ (by decide)
  rw [heq]
  split
  · exact ⟨hlabel.fset _ (by decide), (State.fget_fset_addr _ (by decide)).trans hcause⟩
  · exact ⟨hlabel, hcause⟩

/-- R62. What a device reset leaves of `s`, but for the registers that name its cause. -/
theorem State.deviceReset_reborn (s : State) {cause : Nat} (prev : Nat) (hc : cause ≤ 6) :
    ∃ d, (s.mode ≠ mPark → d = s.time.dev) ∧
      State.Reborn { s with time := { s.time with dev := d } } (s.deviceReset cause prev) (decide (cause ≤ 1)) := by
  obtain ⟨d, hd, hlabel, -⟩ := s.deviceReset_relabelled prev hc
  exact ⟨d, hd, (State.restart_reborn ..).1.relabelled hlabel⟩

theorem State.deviceReset_restarted (s : State) {cause : Nat} (prev : Nat) (hc : cause ≤ 6) : s.Restarted (s.deviceReset cause prev) cause := by
  obtain ⟨d, -, hlabel, hcause⟩ := s.deviceReset_relabelled prev hc
  have hreborn := (State.restart_reborn ..).1.relabelled hlabel
  exact ⟨hreborn.mode, hreborn.step, hcause, hreborn.eng, hreborn.sram, hreborn.mram, hreborn.sats, hreborn.doors, hreborn.loads, hreborn.fields⟩

/-- R62, R492. A restart leaves the test access port as it holds the control die. -/
theorem State.restart_tap (s : State) (prev trig : Nat) (cold : Bool) : (s.restart prev trig cold false).tap =
    { s.tap with lb := none, task := 31, ctx := {}, act := none, wait := [], ranFrom := 0 } := by
  have hland (u : State) : (u.landViews s).tap = u.tap := by rw [(u.landViews_relabelled s).frame]
  have hlost (u : State) : (u.resetLost s).regrid.tap = u.tap := by rw [((u.resetLost_relabelled s).trans (State.regrid_relabelled _)).frame]
  unfold State.restart
  dsimp only
  rw [hlost]
  refine (hland _).trans ?_
  cases cold <;> rfl

/-! ### The test access port (R491 to R493) -/

theorem State.jtagReset_restarted (s : State) : s.Restarted s.jtagReset 6 := s.deviceReset_restarted _ (Nat.le_refl 6)

theorem State.jtagReset_held (s : State) : s.jtagReset.tap.held = s.tap.held := by
  obtain ⟨d, -, hlabel, -⟩ := s.deviceReset_relabelled (if s.inReset then s.fget Reg.RESET_CAUSE_PREV_MODE else s.mode) (Nat.le_refl 6)
  have htap := State.restart_tap { s with time := { s.time with dev := d } } (if s.inReset then s.fget Reg.RESET_CAUSE_PREV_MODE else s.mode) trReset
    false
  unfold State.jtagReset
  rw [hlabel.frame]
  exact (congrArg Tap.held htap :)

/-- R62. What a device reset leaves does not hang on the test access port. -/
theorem State.Restarted.tap {s t : State} {cause : Nat} (h : s.Restarted t cause) (x : Tap) : s.Restarted { t with tap := x } cause :=
  ⟨h.mode, h.step, h.cause, h.eng, h.sram, h.mram, h.sats, h.doors, h.loads, h.fields⟩

/-- R492. `t` is `s` with the test instruction `ir` selected, which shows `tdo` and holds the control die in reset. -/
structure State.Holds (s t : State) (ir : Nat) (tdo : List Byte) : Prop where
  ir : t.tap.ir = ir
  tdo : t.tap.tdo = tdo
  held : t.tap.held = true
  fresh : s.tap.held = false → s.Restarted t 6
  again : s.tap.held = true → t = { s with tap := t.tap }

/-- R491, R492. `t` is `s` with an instruction `ir` selected that is no test instruction: a control die that was held is reset and goes on. -/
structure State.Picks (s t : State) (ir : Nat) : Prop where
  ir : t.tap.ir = ir
  held : t.tap.held = false
  fresh : s.tap.held = true → s.Restarted t 6
  again : s.tap.held = false → t = { s with tap := t.tap }

theorem State.select_holds (s : State) {ir : Nat} (hir : testIr ir = true) (tdo : List Byte) : s.Holds (s.select ir tdo) ir tdo := by
  unfold State.select
  rw [if_pos hir]
  cases hheld : s.tap.held
  · exact ⟨rfl, rfl, rfl, fun _ => s.jtagReset_restarted.tap _, fun h => (nomatch hheld.symm.trans h)⟩
  · exact ⟨rfl, rfl, rfl, fun h => (nomatch hheld.symm.trans h), fun _ => rfl⟩

theorem State.select_picks (s : State) {ir : Nat} (hir : testIr ir = false) (tdo : List Byte) :
    s.Picks (s.select ir tdo) ir ∧ (s.select ir tdo).tap.tdo = tdo := by
  unfold State.select
  rw [hir]
  cases hheld : s.tap.held
  · exact ⟨⟨rfl, hheld, fun h => (nomatch hheld.symm.trans h), fun _ => rfl⟩, rfl⟩
  · exact ⟨⟨rfl, rfl, fun _ => s.jtagReset_restarted.tap _, fun h => (nomatch hheld.symm.trans h)⟩, rfl⟩

/-- The cells loaded and the bits shown change nothing of what holds. -/
theorem State.Holds.tap {s t : State} {ir : Nat} {tdo : List Byte} (h : s.Holds t ir tdo) (cells : List Byte) :
    s.Holds { t with tap := { t.tap with cells } } ir tdo where
  ir := h.ir
  tdo := h.tdo
  held := h.held
  fresh := fun hs => (h.fresh hs).tap _
  again := fun hs => by rw [h.again hs]

theorem State.Picks.tap {s t : State} {ir : Nat} (h : s.Picks t ir) {x : Tap} (hir : x.ir = ir) (hheld : x.held = false) : s.Picks { t with tap := x } ir where
  ir := hir
  held := hheld
  fresh := fun hs => (h.fresh hs).tap _
  again := fun hs => by rw [h.again hs]

/-- R492. While it holds, the control die is in reset. -/
theorem State.Holds.all {s t : State} {ir : Nat} {tdo : List Byte} (h : s.Holds t ir tdo) : t.tap.ir = ir ∧ t.tap.tdo = tdo ∧ t.tap.held = true ∧
    t.inReset = true ∧ (s.tap.held = false → s.Restarted t 6) ∧ (s.tap.held = true → t = { s with tap := t.tap }) :=
  ⟨h.ir, h.tdo, h.held, by simp [State.inReset, h.held], h.fresh, h.again⟩

theorem State.Picks.all {s t : State} {ir : Nat} (h : s.Picks t ir) : t.tap.ir = ir ∧ t.tap.held = false ∧
    (s.tap.held = true → s.Restarted t 6) ∧ (s.tap.held = false → t = { s with tap := t.tap }) := ⟨h.ir, h.held, h.fresh, h.again⟩

/-- R491. An instruction that shows its identification register. -/
theorem State.picks_idBytes (s : State) {ir : Nat} (hir : testIr ir = false) :
    let u := s.select ir []
    let t : State := { u with tap := { u.tap with tdo := u.idBytes } }
    s.Picks t ir ∧ t.tap.tdo = leBytes 4 (t.fget Reg.JTAG_ID_IDCODE) := by
  have h := (s.select_picks hir []).1
  exact ⟨h.tap h.ir h.held, rfl⟩

/-- R62. SYSRESET is one device reset, whether or not a test instruction was selected before it. -/
theorem sysreset_completes (s : State) : s.Does .sysreset fun t => s.Restarted t 6 ∧ t.tap.ir = 0x10 ∧ t.tap.held = false := by
  cases hheld : s.tap.held
  · have hreset : s.jtagReset.tap.held = false := s.jtagReset_held.trans hheld
    refine ⟨s.jtagReset.select 0x10 [0], by simp [exec, execSysreset, hheld], ?_⟩
    have h := (s.jtagReset.select_picks (ir := 0x10) rfl [0]).1
    rw [h.again hreset]
    exact ⟨s.jtagReset_restarted.tap _, h.ir, h.held⟩
  · refine ⟨s.select 0x10 [0], by simp [exec, execSysreset, hheld], ?_⟩
    have h := (s.select_picks (ir := 0x10) rfl [0]).1
    exact ⟨h.fresh hheld, h.ir, h.held⟩

/-! ### Fuse programming (R493) -/

/-- R493. The field `i` of FUSE_PROG is blank. -/
def Fuses.blank (f : Fuses) (i : Nat) : Bool := if i < 4 then (f.keyHash.getD i []).isEmpty else (f.secret.getD (i - 4) []).isEmpty

/-- R493. The fuses once field `i` is programmed with `value`, which reads back or not. -/
def Fuses.programmed (f : Fuses) (i : Nat) (value : List Byte) (readBack : Bool) : Fuses :=
  if i < 4 then { f with keyHash := f.keyHash.set i (bytes32 value), revoked := if readBack then f.revoked else putBit f.revoked i true }
  else { f with secret := f.secret.set (i - 4) (if readBack then bytes32 value else [0]) }

/-- FUSE_PROG is selected. -/
def State.atFuseProg (s : State) : State := { s with tap := { s.tap with ir := 0x31, tdo := [] } }

theorem exec_fuseProg {s : State} (field : Fin 6) (value : List Byte) (readBack vlOk : Bool) (hheld : s.tap.held = false) (hreset : s.inReset = false) :
    exec (.fuseProg field value readBack vlOk) s = .next (
      if s.mode ≠ mSafe ∨ s.fget Reg.SAFE_REASON_REASON ≠ 0x01 ∨ !vlOk ∨ !s.board.fuses.blank field then
        s.atFuseProg.fset Reg.FUSE_STAT_FUSE_RESULT 2
      else
        let b : Board := { s.board with fuses := s.board.fuses.programmed field value readBack }
        ({ s.atFuseProg with board := b, regs := boardRegs b s.regs }).fset Reg.FUSE_STAT_FUSE_RESULT (if readBack then 1 else 3)) := by
  show execFuseProg field value readBack vlOk s = _
  unfold execFuseProg
  rw [State.select_of_free [] rfl hheld]
  refine (if_neg (show ¬ s.atFuseProg.inReset = true from fun h => Bool.false_ne_true (hreset.symm.trans h))).trans ?_
  exact (apply_ite Host.Outcome.next ..).symm

theorem Fuses.blank_iff (f : Fuses) (i : Nat) :
    f.blank i = true ↔ if i < 4 then f.keyHash.getD i [] = [] else f.secret.getD (i - 4) [] = [] := by
  unfold Fuses.blank
  split <;> exact List.isEmpty_iff

/-- R493. Without its conditions FUSE_PROG programs nothing and shows it. -/
theorem fuseProg_refused {s : State} {field : Fin 6} {value : List Byte} {readBack vlOk : Bool} (hheld : s.tap.held = false)
    (hreset : s.inReset = false)
    (hmay : ¬ (s.mode = mSafe ∧ s.fget Reg.SAFE_REASON_REASON = 0x01 ∧ vlOk = true ∧ s.board.fuses.blank field = true)) :
    s.Does (.fuseProg field value readBack vlOk) fun t => t.fget Reg.FUSE_STAT_FUSE_RESULT = 2 ∧ s.regsBut t [Reg.FUSE_STAT_FUSE_RESULT] ∧
      t = { s with regs := t.regs, tap := t.tap } := by
  refine ⟨_, (exec_fuseProg field value readBack vlOk hheld hreset).trans (congrArg Host.Outcome.next (if_pos ?_)), State.fget_fset_same .., ?_, rfl⟩
  · by_contra hno
    simp only [not_or, not_not, Bool.not_eq_true', Bool.not_eq_false] at hno
    exact hmay hno
  · exact s.atFuseProg.regsBut_fset _ 2 (by decide)

/-- R493. Under its conditions FUSE_PROG programs the field, and shows whether it reads back. -/
theorem fuseProg_programs {s : State} {field : Fin 6} {value : List Byte} {readBack vlOk : Bool} (hheld : s.tap.held = false)
    (hreset : s.inReset = false)
    (hmay : s.mode = mSafe ∧ s.fget Reg.SAFE_REASON_REASON = 0x01 ∧ vlOk = true ∧ s.board.fuses.blank field = true) :
    s.Does (.fuseProg field value readBack vlOk) fun t => t.fget Reg.FUSE_STAT_FUSE_RESULT = (if readBack then 1 else 3) ∧
      t.board.fuses = s.board.fuses.programmed field value readBack ∧ t = { s with regs := t.regs, tap := t.tap, board := t.board } := by
  refine ⟨_, (exec_fuseProg field value readBack vlOk hheld hreset).trans (congrArg Host.Outcome.next (if_neg ?_)), ?_, rfl, rfl⟩
  · simp [hmay]
  · refine (State.fget_fset_same ..).trans ?_
    cases readBack <;> rfl

theorem exec_scanTest_open {s : State} (hlock : s.board.fuses.prodLock = false) : exec .scanTest s = .next (s.select 0x50 []) := by
  show execScanTest s = _
  unfold execScanTest
  rw [hlock]
  rfl

theorem exec_scanTest_locked {s : State} (hlock : s.board.fuses.prodLock = true) : exec .scanTest s = .next (s.select 0xFF [0]) := by
  show execScanTest s = _
  unfold execScanTest
  rw [hlock]
  rfl

/-- Settles O50: `State.select_holds` and `State.select_picks` have what a selection leaves, and the fuses change by `Fuses.programmed` alone. -/
theorem testPortCompletes : Obligations.TestPortCompletes := by
  intro s
  have hbypass := s.select_picks (ir := 0xFF) rfl [0]
  have hread := s.select_picks (ir := 0x30) rfl s.board.fuses.shown
  have hid := s.picks_idBytes (ir := 0x02) rfl
  refine ⟨fun cells capture => ⟨⟨_, rfl, ((s.select_holds (ir := 0x00) rfl capture).tap cells).all, rfl⟩, ?_⟩,
    ⟨_, rfl, (s.select_holds rfl [0]).all⟩, ⟨_, rfl, (s.select_holds rfl [0]).all⟩, fun _ => ⟨_, rfl, (s.select_holds rfl _).all⟩,
    fun _ => ⟨_, rfl, (s.select_holds rfl _).all⟩, fun hlock => ⟨_, exec_scanTest_open hlock, (s.select_holds rfl []).all⟩,
    fun hlock => ⟨_, exec_scanTest_locked hlock, hbypass.1.all, hbypass.2⟩, ⟨_, rfl, hbypass.1.all, hbypass.2⟩, ⟨_, rfl, hid.1.all, hid.2⟩,
    ⟨_, rfl, hid.1.all, hid.2⟩, ⟨_, rfl, hread.1.all, hread.2⟩, sysreset_completes s, fun field value readBack vlOk hheld hreset => ?_⟩
  · obtain ⟨hpick, htdo⟩ := s.select_picks (ir := 0x01) rfl capture
    exact ⟨_, rfl, (hpick.tap (x := { (s.select 0x01 capture).tap with cells }) hpick.ir hpick.held).all, htdo, rfl⟩
  · intro fuses blank may
    have hblank : may ↔ s.mode = mSafe ∧ s.fget Reg.SAFE_REASON_REASON = 0x01 ∧ vlOk = true ∧ s.board.fuses.blank field = true := by
      rw [s.board.fuses.blank_iff]
    refine ⟨fun hmay => fuseProg_refused hheld hreset fun h => hmay (hblank.mpr h), fun hmay hback _ _ => ?_, fun hmay hback => ?_⟩
    · subst hback
      obtain ⟨t, hexec, hresult, hfuses, hframe⟩ := fuseProg_programs (value := value) (readBack := true) hheld hreset (hblank.mp hmay)
      exact ⟨t, hexec, hresult, fun hlt => hfuses.trans (if_pos hlt), fun hge => hfuses.trans (if_neg (Nat.not_lt.mpr hge)), hframe⟩
    · subst hback
      obtain ⟨t, hexec, hresult, hfuses, -⟩ := fuseProg_programs (value := value) (readBack := false) hheld hreset (hblank.mp hmay)
      refine ⟨t, hexec, hresult, fun hlt => ?_⟩
      rw [hfuses, Fuses.programmed, if_pos hlt]
      exact (bit_putBit ..).trans (if_pos rfl)

end Sys2Proof.Machine
end

section
namespace Sys2Proof.Machine

/-! ### The cycle number of a program's record (R139, R451) -/

/-- The context of a lane whose `CR` is 1. -/
def crOn : Ctx := { cr := true }

/-- An activation of cycle 5. -/
def fifthCycle : Act := { cyc := 5, g := 1, at_ := 9, wait := 0, waitNet := false, ready := true, sArea := [], ctx := [crOn, crOn, crOn] }

/-- The module is ACTIVE, and three voting lanes run an activation under number 24, one beyond the 24 tasks. -/
def strayTask : State :=
  let s := (((({ State.reset with regs := [], cairn := {}, boot := {} } : State).fset Reg.MODE_STAT_MODE mActive).fset Reg.VOTE_STAT_LIVE 7).fset
    Reg.VOTE_STAT_VOTING 7)
  { s with eng := { s.eng with run := [some 24, none, none], acts := [(24, some fifthCycle)] } }

theorem strayTask_agree : strayTask.Agree 24 fifthCycle crOn where
  bound := by decide +kernel
  running := by decide +kernel
  free := rfl
  idle := rfl
  clear := by decide
  run := rfl
  act := rfl
  three := rfl
  some := by decide +kernel
  votes := by decide +kernel
  same := by decide +kernel
  empty := by decide +kernel

/-- The record that `WARN` raises there bears the reference cycle, as no task has that number. -/
theorem strayTask_warn_cycle {t : State} (h : exec (.warn 0 0) strayTask = .next t) : ∀ r ∈ t.cairn.queue, r.cyc = 0 := by
  have hrun : (match exec (.warn 0 0) strayTask with | .next u => u.cairn.queue.all fun r => r.cyc == 0 | _ => true) = true := by decide +kernel
  rw [h] at hrun
  simpa using hrun

/-- Refutes O23: at `strayTask` the record of `WARN` bears cycle 0, the reference cycle (R451), where the statement has the activation's, 5: the
statement bounds the number of the running task nowhere, and `State.stampCycle` takes the cycle of one of the 24 tasks alone. -/
theorem not_endAndEventsComplete : ¬ Obligations.EndAndEventsComplete := by
  intro h
  obtain ⟨-, hwarn, -⟩ := h strayTask 24 fifthCycle crOn 0 0 strayTask_agree
  have hok : wordOk 0x68 0 0 strayTask 24 = true := by decide +kernel
  have hroom : mget 0 strayTask.cairn.spent cUSER < (strayTask.rateOf cUSER).1 ∧ strayTask.cairn.queue.length < 256 := by decide +kernel
  obtain ⟨t, hexec, -, -, r, hqueue, -, -, -, hcyc⟩ := hwarn hok fun _ => hroom
  have hzero : r.cyc = 0 := strayTask_warn_cycle hexec r (by rw [hqueue]; exact List.mem_append_right _ (List.mem_singleton_self r))
  exact absurd (hcyc.symm.trans hzero) (by decide)

end Sys2Proof.Machine
end

section
namespace Sys2Proof.Machine

/-! ### The first boot steps (R97, R100, R432) -/

/-- R51. A mode change sets the mode. -/
theorem State.setMode_mode (s : State) {m : Nat} (hm : m < 8) (trig : Nat) : (s.setMode m trig).mode = m := by
  have hrec := (((s.fset Reg.MODE_STAT_MODE m).fmod Reg.MODE_STAT_MODE_SEQ).record_still cMODE_CHANGE
    (leBytes 1 s.mode ++ leBytes 1 m ++ leBytes 1 trig)).steady.mode
  calc (s.setMode m trig).mode = ((s.fset Reg.MODE_STAT_MODE m).fmod Reg.MODE_STAT_MODE_SEQ).mode := hrec
    _ = (s.fset Reg.MODE_STAT_MODE m).mode := State.fget_fset_apart _ (by decide) (by decide) (by decide)
    _ = m := (State.fget_fset_same ..).trans (Nat.mod_eq_of_lt hm)

/-- R60. -/
theorem State.nowSafe_mode (s : State) (reason detail trig : Nat) : (s.nowSafe reason detail trig).mode = mSafe := by
  have hstill : (s.setMode mSafe trig).Still (s.nowSafe reason detail trig) := by
    unfold State.nowSafe
    simp +decide
  exact hstill.steady.mode.trans (s.setMode_mode (by decide) trig)

/-- R61. From BOOT, SAFE is entered at once. -/
theorem State.enterSafe_boot {s : State} (hm : s.mode = mBoot) (hr : s.modeReq = none) (reason detail : Nat) (stop : Option (Nat × Nat)) :
    (s.enterSafe reason detail stop).mode = mSafe := by
  have hheld : s.safeHeld = false := by simp [State.safeHeld, hm, hr]
  obtain ⟨-, hmode, -⟩ := s.givenUp_level reason detail stop
  have hboot : (s.givenUp reason detail stop).mode = mBoot := hmode.trans hm
  rw [s.enterSafe_eq, hheld, hboot]
  simp [State.nowSafe_mode]

/-- `t` has the mode of `s`, the mode asked for, and the debug accesses that wait. -/
structure State.ModeKept (s t : State) : Prop where
  mode : t.mode = s.mode
  modeReq : t.modeReq = s.modeReq
  wait : t.tap.wait = s.tap.wait

theorem State.ModeKept.trans {s t u : State} (h : s.ModeKept t) (h' : t.ModeKept u) : s.ModeKept u :=
  ⟨h'.mode.trans h.mode, h'.modeReq.trans h.modeReq, h'.wait.trans h.wait⟩

theorem State.modeKept_fset (s : State) {f : Fld} (v : Nat) (h : f.addr ≠ 0x40000004) : s.ModeKept (s.fset f v) :=
  ⟨State.fget_fset_addr s (Ne.symm h), rfl, rfl⟩

theorem State.modeKept_setWin (s : State) (q w : Nat) (e : Nat × Nat × Nat) : s.ModeKept (s.setWin q w e) :=
  ((s.modeKept_fset e.1 (f := Reg.WIN_BASE_BASE q w) (by simp only [Reg.WIN_BASE_BASE]; omega)).trans
    (State.modeKept_fset _ e.2.1 (f := Reg.WIN_LIMIT_LIMIT q w) (by simp only [Reg.WIN_LIMIT_LIMIT]; omega))).trans
    (State.modeKept_fset _ e.2.2 (f := Reg.WIN_ATTR_ATTR q w) (by simp only [Reg.WIN_ATTR_ATTR]; omega))

/-- R105. With no debug access waiting, the lock of the windows leaves the mode. -/
theorem State.modeKept_lockWindows {s : State} (hw : s.tap.wait = []) : s.ModeKept s.lockWindows := by
  have hlocked {u : State} (h : s.ModeKept u) : s.ModeKept (u.fon Reg.PROT_STAT_PROT_LOCK).dbgWaited := by
    have hwait : u.tap.wait = [] := h.wait.trans hw
    have heq : (u.fon Reg.PROT_STAT_PROT_LOCK).dbgWaited = { u.fon Reg.PROT_STAT_PROT_LOCK with tap := { u.tap with wait := [] } } := by
      simp [State.dbgWaited, hwait]
    obtain ⟨hmode, hreq, -⟩ := u.modeKept_fset (f := Reg.PROT_STAT_PROT_LOCK) 1 (by decide)
    rw [heq]
    exact ⟨hmode.trans h.mode, hreq.trans h.modeReq, hw.symm⟩
  unfold State.lockWindows
  split
  · next i _ =>
    dsimp only
    have hprot : s.ModeKept ((i.prot.zip (List.range 24)).foldl (fun (s : State) (p : (Nat × Nat × Nat) × Nat) => s.setWin (p.2 / 8) (p.2 % 8) p.1) s) :=
      List.foldlRecOn (motive := fun t => s.ModeKept t) _ _ ⟨rfl, rfl, rfl⟩ fun t ht p _ => ht.trans (t.modeKept_setWin ..)
    split
    · exact hlocked (hprot.trans (State.modeKept_setWin ..))
    · exact hlocked hprot
  · exact hlocked (s.modeKept_setWin ..)

/-- R100. A step that fails leaves BOOT for SAFE. -/
theorem State.bootFail_mode {s : State} (hm : s.mode = mBoot) (hr : s.modeReq = none) (hw : s.tap.wait = []) (step : Nat) {e : BootFail}
    (he : e.1 ≠ fRange) : (s.bootFail step e).mode = mSafe := by
  let u := ((s.fset Reg.BOOT_STAT_FAIL_CODE e.1).fset Reg.BOOT_STAT_FAIL_STEP step).fset Reg.BOOT_DETAIL_DETAIL e.2
  have hu : s.ModeKept u := ((s.modeKept_fset _ (by decide)).trans (State.modeKept_fset _ _ (by decide))).trans (State.modeKept_fset _ _ (by decide))
  have hrec : u.progRecord e = u := if_neg fun h => he h.1
  have hclose : u.flashClose.mode = mBoot ∧ u.flashClose.modeReq = none := ⟨hu.mode.trans hm, hu.modeReq.trans hr⟩
  obtain ⟨hlmode, hlreq, -⟩ := State.modeKept_lockWindows (s := u.flashClose) (hu.wait.trans hw)
  have hlock : u.flashClose.lockWindows.regrid.mode = mBoot ∧ u.flashClose.lockWindows.regrid.modeReq = none :=
    ⟨hlmode.trans hclose.1, hlreq.trans hclose.2⟩
  have hsafe : (u.flashClose.lockWindows.regrid.enterSafe 0x01 e.1).mode = mSafe :=
    State.enterSafe_boot (hlock.1) (hlock.2) ..
  have hafter (v : State) : v.Still (let t := if step < 10 then v.cairnLoad else v
      t.cairnAll t.cairn.queue.length) := by
    dsimp only
    refine State.Still.trans ?_ (State.cairnAll_still ..)
    split
    · exact v.cairnLoad_still
    · exact .refl v
  have heq : s.bootFail step e = (let t := if step < 10 then (u.flashClose.lockWindows.regrid.enterSafe 0x01 e.1).cairnLoad
      else u.flashClose.lockWindows.regrid.enterSafe 0x01 e.1
      t.cairnAll t.cairn.queue.length) := by
    unfold State.bootFail
    simp only [show ((s.fset Reg.BOOT_STAT_FAIL_CODE e.1).fset Reg.BOOT_STAT_FAIL_STEP step).fset Reg.BOOT_DETAIL_DETAIL e.2 = u from rfl, hrec]
  rw [heq]
  exact (hafter _).steady.mode.trans hsafe

/-- R97. The time a step of the boot ROM takes has passed. -/
def State.bootClock (s : State) (us : Nat) : State :=
  let s := s.keepReady.advance (us * 1000)
  { s with boot := { s.boot with us := s.boot.us + us } }

/-- R433. The Keep banks are usable from `at_` on. -/
def State.keepUsable (s : State) (at_ : Nat) : State :=
  ({ s.toMono at_ with power := { (s.toMono at_).power with wakeAt := none } } : State).fset Reg.MEM_STAT_KEEP_WAIT 0

theorem State.keepReady_eq (s : State) : s.keepReady = match s.power.wakeAt with
  | some t => s.keepUsable (t + 1500000)
  | none => s := rfl

theorem State.keepUsable_spec (s : State) (at_ : Nat) : s.ModeKept (s.keepUsable at_) ∧
    (∀ g : Fld, g.addr ≠ Reg.MEM_STAT_KEEP_WAIT.addr → (s.keepUsable at_).fget g = s.fget g) ∧
    s.keepUsable at_ = { s with time := (s.keepUsable at_).time, power := (s.keepUsable at_).power, regs := (s.keepUsable at_).regs } := by
  let u : State := { s.toMono at_ with power := { (s.toMono at_).power with wakeAt := none } }
  exact ⟨⟨State.fget_fset_addr u (by decide), rfl, rfl⟩, fun g hg => State.fget_fset_addr u hg, rfl⟩

theorem State.keepReady_spec (s : State) : s.ModeKept s.keepReady ∧ (∀ g : Fld, g.addr ≠ Reg.MEM_STAT_KEEP_WAIT.addr → s.keepReady.fget g = s.fget g) ∧
    s.keepReady = { s with time := s.keepReady.time, power := s.keepReady.power, regs := s.keepReady.regs } := by
  rw [s.keepReady_eq]
  split
  · exact s.keepUsable_spec _
  · exact ⟨⟨rfl, rfl, rfl⟩, fun g _ => rfl, rfl⟩

/-- The time a step takes changes the clocks alone, and the mark of the Keep banks. -/
theorem State.bootClock_spec (s : State) (us : Nat) : s.ModeKept (s.bootClock us) ∧
    (∀ g : Fld, g.addr ≠ Reg.MEM_STAT_KEEP_WAIT.addr → (s.bootClock us).fget g = s.fget g) ∧
    s.bootClock us = { s with
      time := (s.bootClock us).time, power := (s.bootClock us).power, regs := (s.bootClock us).regs, boot := { s.boot with us := (s.bootClock us).boot.us } } := by
  obtain ⟨⟨hmode, hreq, hwait⟩, hget, hframe⟩ := s.keepReady_spec
  refine ⟨⟨hmode, hreq, hwait⟩, hget, ?_⟩
  unfold State.bootClock
  rw [hframe]
  rfl

/-- R97. What BOOT_STEP makes of the work of a step before the last but the eighth. -/
theorem exec_bootStep {s : State} (o : BootObs) (hreset : s.inReset = false) (hm : s.mode = mBoot) (hlo : 1 ≤ s.boot.step) (hhi : s.boot.step < 8) :
    exec (.bootStep o) s = .next (match (s.bootClock o.us).bootWork o with
      | (t, some e) => t.bootFail s.boot.step e
      | (t, none) => { t with boot := { t.boot with step := s.boot.step + 1 } }) := by
  have hstep : (s.bootClock o.us).boot.step = s.boot.step := by rw [(s.bootClock_spec o.us).2.2]
  show execBootStep o s = _
  unfold execBootStep
  rw [if_neg (by simp [hreset, hm]; omega)]
  show Host.Outcome.next (match (s.bootClock o.us).bootWork o with
      | (t, some e) => t.bootFail (s.bootClock o.us).boot.step e
      | (t, none) => if (s.bootClock o.us).boot.step = 12 then t.bootDone
        else { t with boot := { t.boot with step := (s.bootClock o.us).boot.step + 1 } }) = _
  have hlast : s.boot.step ≠ 12 := by omega
  simp only [hstep, if_neg hlast]

theorem State.bootClock_step (s : State) (us : Nat) : (s.bootClock us).boot.step = s.boot.step := by rw [(s.bootClock_spec us).2.2]

/-- R44, R97. Step 1 locks the clocks. -/
theorem bootStep_clocks {s : State} (o : BootObs) (hreset : s.inReset = false) (hm : s.mode = mBoot) (hstep : s.boot.step = 1) :
    s.Does (.bootStep o) fun t => t.boot.step = 2 ∧ t.fget Reg.CLK_STAT_PLL_LOCK = 0xFF ∧ t.fbit Reg.CLK_STAT_REFCLK_OK = true ∧
      t.sram = s.sram ∧ t.mram = s.mram := by
  let u := s.bootClock o.us
  let locked := (u.fset Reg.CLK_STAT_PLL_LOCK 0xFF).fon Reg.CLK_STAT_REFCLK_OK
  let xtal := locked.fput Reg.CLK_STAT_XTAL_OK !(u.fbit Reg.CLK_STAT_ON_RC)
  have hwork : u.bootWork o = (xtal.fput Reg.BOOT_STAT_COLD xtal.boot.cold, none) := by
    unfold State.bootWork
    rw [(s.bootClock_step o.us).trans hstep]
    rfl
  have hlock : locked.fget Reg.CLK_STAT_PLL_LOCK = 0xFF ∧ locked.fbit Reg.CLK_STAT_REFCLK_OK = true :=
    ⟨(State.fget_fset_apart _ (by decide) (by decide) (by decide)).trans (State.fget_fset_same ..), State.fbit_fon_same _ (by decide)⟩
  have hxtal (g : Fld) (hg : g = Reg.CLK_STAT_PLL_LOCK ∨ g = Reg.CLK_STAT_REFCLK_OK) :
      (xtal.fput Reg.BOOT_STAT_COLD xtal.boot.cold).fget g = locked.fget g := by
    rcases hg with rfl | rfl <;>
      exact (State.fget_fset_addr _ (by decide)).trans (State.fget_fset_apart _ (by decide) (by decide) (by decide))
  refine ⟨{ xtal.fput Reg.BOOT_STAT_COLD xtal.boot.cold with boot := { u.boot with step := s.boot.step + 1 } }, ?_, ?_, ?_, ?_, ?_, ?_⟩
  · rw [exec_bootStep o hreset hm (by omega) (by omega), hwork]
    rfl
  · exact congrArg (· + 1) hstep
  · exact (hxtal _ (.inl rfl)).trans hlock.1
  · exact (congrArg (decide <| · ≠ 0) (hxtal _ (.inr rfl)) :).trans hlock.2
  · exact (congrArg State.sram (s.bootClock_spec o.us).2.2 :)
  · exact (congrArg State.mram (s.bootClock_spec o.us).2.2 :)

theorem State.bootWork_rom {s : State} {o : BootObs} (hstep : s.boot.step = 2) : s.bootWork o =
    (s, if !o.romOk then some (fRom, 0) else if s.fget Reg.BOOT_STAT_BOOT_LOOPS = 3 then some (fLoop, 0) else none) := by
  unfold State.bootWork
  rw [hstep]
  rfl

/-- R97. Step 2 goes on with a good ROM and no boot loop. -/
theorem bootStep_rom {s : State} {o : BootObs} (hreset : s.inReset = false) (hm : s.mode = mBoot) (hstep : s.boot.step = 2)
    (hrom : o.romOk = true) (hloops : s.fget Reg.BOOT_STAT_BOOT_LOOPS ≠ 3) :
    s.Does (.bootStep o) fun t => t.boot.step = 3 ∧ t.sram = s.sram ∧ t.mram = s.mram := by
  let u := s.bootClock o.us
  obtain ⟨-, hget, hframe⟩ := s.bootClock_spec o.us
  have hwork : u.bootWork o = (u, none) := by
    have hgood : ¬ (s.bootClock o.us).fget Reg.BOOT_STAT_BOOT_LOOPS = 3 := by rwa [hget _ (by decide)]
    rw [State.bootWork_rom ((s.bootClock_step o.us).trans hstep), hrom, if_neg hgood]
    rfl
  refine ⟨{ u with boot := { u.boot with step := s.boot.step + 1 } }, ?_, congrArg (· + 1) hstep, ?_, ?_⟩
  · rw [exec_bootStep o hreset hm (by omega) (by omega), hwork]
  · exact (congrArg State.sram hframe :)
  · exact (congrArg State.mram hframe :)

/-- R100. Step 2 fails into SAFE with a bad ROM. -/
theorem bootStep_romBad {s : State} {o : BootObs} (hreset : s.inReset = false) (hm : s.mode = mBoot) (hstep : s.boot.step = 2)
    (hrom : o.romOk = false) (hr : s.modeReq = none) (hw : s.tap.wait = []) :
    s.Does (.bootStep o) fun t => t.mode = mSafe ∧ t.fget Reg.BOOT_STAT_FAIL_CODE = fRom ∧ t.fget Reg.BOOT_STAT_FAIL_STEP = 2 ∧
      t.fbit Reg.PROT_STAT_PROT_LOCK = true := by
  let u := s.bootClock o.us
  obtain ⟨⟨hmode, hreq, hwait⟩, -, -⟩ := s.bootClock_spec o.us
  have hwork : u.bootWork o = (u, some (fRom, 0)) := by
    rw [State.bootWork_rom ((s.bootClock_step o.us).trans hstep), hrom]
    rfl
  obtain ⟨hcode, hat, -, hlock⟩ := u.bootFail_spec s.boot.step (fRom, 0)
  refine ⟨u.bootFail s.boot.step (fRom, 0), ?_, ?_, hcode, hat.trans ?_, hlock⟩
  · rw [exec_bootStep o hreset hm (by omega) (by omega), hwork]
  · exact State.bootFail_mode (hmode.trans hm) (hreq.trans hr) (hwait.trans hw) _ (by decide)
  · rw [hstep]
    rfl

/-- R432. Step 3 of a cold boot zeroes the banks. -/
theorem bootStep_fill {s : State} {o : BootObs} (hreset : s.inReset = false) (hm : s.mode = mBoot) (hstep : s.boot.step = 3)
    (hcold : s.boot.cold = true) (hfail : o.mbistFail = 0) :
    s.Does (.bootStep o) fun t => t.boot.step = 4 ∧ (∀ a, t.rd a = 0) ∧ t.fget Reg.MEM_STAT_MBIST_PASS = 31 ∧ t.mram = s.mram := by
  let u := s.bootClock o.us
  obtain ⟨-, -, hframe⟩ := s.bootClock_spec o.us
  have hucold : u.boot.cold = true := (congrArg (·.boot.cold) hframe :).trans hcold
  let filled : State := { u with sram := [], mem := { u.mem with
    badB4 := [], bad := u.mem.bad.filter fun a => decide (0x10000000 ≤ a), fillAt := u.time.mono } }
  let passed := (filled.fset Reg.MEM_STAT_FILL_BUSY 31).fset Reg.MEM_STAT_MBIST_PASS 31
  have hwork : u.bootWork o = (passed, none) := by
    unfold State.bootWork
    rw [(s.bootClock_step o.us).trans hstep]
    show u.fillBanks o.mbistFail.toNat = _
    unfold State.fillBanks
    rw [hfail]
    simp only [hucold, if_true]
    rfl
  refine ⟨{ passed with boot := { u.boot with step := s.boot.step + 1 } }, ?_, congrArg (· + 1) hstep, fun a => rfl, ?_, ?_⟩
  · rw [exec_bootStep o hreset hm (by omega) (by omega), hwork]
    rfl
  · exact State.fget_fset_same (filled.fset Reg.MEM_STAT_FILL_BUSY 31) ..
  · exact (congrArg State.mram hframe :)

/-! ### The tick, the Topo shadow and the idle session (R51, R64, R96) -/

/-- `t` is as `s` but for its registers and links. -/
def State.Counts (s t : State) : Prop := t = { s with regs := t.regs, links := t.links }

theorem State.Counts.trans {s t u : State} (h : s.Counts t) (h' : t.Counts u) : s.Counts u := by
  unfold State.Counts at *
  rw [h', h]

theorem State.counts_missWindows (s : State) (l : List Nat) : s.Counts (s.each l fun s n => s.missWindow n) :=
  List.foldlRecOn (motive := fun t => s.Counts t) _ _ rfl fun _ ht _ _ => ht.trans rfl

/-- R168. The load of the last second is shown at the first tick of a new one. -/
def State.loadShown (s : State) : State :=
  let sec := s.time.dev / 1000000000
  if sec = s.eng.busySec then s
  else
    let pct := if sec = s.eng.busySec + 1 then min 100 (s.eng.busy / 2000000) else 0
    ({ s with eng := { s.eng with busy := 0, busySec := sec } }).fset Reg.SCHED_STAT_LOAD_PCT pct

/-- R64, R168. The housekeeping of a tick. -/
def State.ticked (s : State) : State :=
  let s := ((s.toDev ((s.time.dev / 250000 + 1) * 250000)).each satSlots fun s n => s.missWindow n).loadShown
  { s.probLeft with power := { s.power with wdtAt := s.time.mono } }

theorem State.loadShown_frame (s : State) : s.loadShown = { s with eng := s.loadShown.eng, regs := s.loadShown.regs } := by
  unfold State.loadShown
  dsimp only
  split
  · rfl
  · rfl

theorem State.probLeft_frame (s : State) : s.probLeft = { s with regs := s.probLeft.regs } := by
  unfold State.probLeft
  split
  · rfl
  · rfl

/-- The housekeeping of a tick leaves memory, and nothing of it takes time. -/
theorem State.ticked_spec (s : State) : s.ticked.power.wdtAt = s.ticked.time.mono ∧
    s.ticked.time = (s.toDev ((s.time.dev / 250000 + 1) * 250000)).time ∧ s.ticked.sram = s.sram ∧ s.ticked.mram = s.mram := by
  let u := s.toDev ((s.time.dev / 250000 + 1) * 250000)
  have hwindows : u.Counts (u.each satSlots fun s n => s.missWindow n) := u.counts_missWindows _
  unfold State.ticked
  generalize (s.toDev ((s.time.dev / 250000 + 1) * 250000)).each satSlots (fun s n => s.missWindow n) = v at hwindows ⊢
  dsimp only
  rw [v.loadShown.probLeft_frame, v.loadShown_frame, hwindows]
  exact ⟨rfl, rfl, State.toDev_sram .., State.toDev_mram ..⟩

/-- R64. The scheduler's tick restarts the watchdog, at the next multiple of 250 µs. -/
theorem schedulerTick_completes {s : State} (hreset : s.inReset = false) (hb : s.mode ≠ mBoot) (hp : s.mode ≠ mPark) :
    s.Does .schedulerTick fun t => t.power.wdtAt = t.time.mono ∧ t.time.dev = (s.time.dev / 250000 + 1) * 250000 ∧
      t.sram = s.sram ∧ t.mram = s.mram := by
  obtain ⟨hwdt, htime, hsram, hmram⟩ := s.ticked_spec
  refine ⟨s.ticked, congrArg Host.Outcome.next (if_neg (by simp [hb, hp, hreset])), hwdt, ?_, hsram, hmram⟩
  rw [htime]
  exact State.toDev_dev s (by omega)

/-- R96. The copy into the Topo shadow is marked valid at its end alone. -/
theorem shadowCopy_completes {s : State} (complete : Bool) {i : Image} (himg : s.boot.image = some i) (hfirst : s.boot.firstSample ≠ 0)
    (hp : s.mode ≠ mPark) (hfrom : s.fbit Reg.BOOT_STAT_FROM_SHADOW = false) (hold : s.shadowValid = false ∨ s.shadowBytes 32 32 ≠ i.hash) :
    s.Does (.shadowCopy complete) fun t => t.fbit Reg.SHADOW_STAT_VALID = complete ∧ t.fbit Reg.SHADOW_STAT_WRITING = !complete ∧
      mget 0 t.mram hdrBase = (if complete then 0xA5 else 0) ∧ t = { s with regs := t.regs, mram := t.mram } := by
  have hdue : (s.boot.firstSample == 0 || s.mode == mPark || s.fbit Reg.BOOT_STAT_FROM_SHADOW ||
      (s.shadowValid && s.shadowBytes 32 32 == i.hash)) = false := by
    have hcopy : (s.shadowValid && s.shadowBytes 32 32 == i.hash) = false := by rcases hold with h | h <;> simp [h]
    simp [hfirst, hp, hfrom, hcopy]
  have hmark (m : Bytes) (b : Byte) : mget 0 (mput 0 m hdrBase [b]) hdrBase = b := mget_mset_same
  cases complete
  · let u := s.mwN hdrBase 1 0
    refine ⟨(u.fset Reg.SHADOW_STAT_VALID 0).fon Reg.SHADOW_STAT_WRITING, ?_, ?_, State.fbit_fon_same _ (by decide), hmark s.mram 0, rfl⟩
    · show execShadowCopy false s = _
      unfold execShadowCopy
      rw [himg]
      exact congrArg Host.Outcome.next (if_neg (by rw [hdue]; decide))
    · exact (State.fbit_fset_apart _ (by decide) (by decide) (by decide)).trans (u.fbit_fput_same false (by decide))
  · let u := ((s.mwN hdrBase 1 0).mwBytes 0x10600000 s.boot.cont).mwN hdrBase 1 0xA5
    refine ⟨(u.fon Reg.SHADOW_STAT_VALID).fset Reg.SHADOW_STAT_WRITING 0, ?_, ?_, State.fbit_fput_same _ false (by decide), hmark _ 0xA5, rfl⟩
    · show execShadowCopy true s = _
      unfold execShadowCopy
      rw [himg]
      exact congrArg Host.Outcome.next (if_neg (by rw [hdue]; decide))
    · exact (State.fbit_fset_apart _ (by decide) (by decide) (by decide)).trans (State.fbit_fon_same _ (by decide))

/-- R51. An idle session in MAINTENANCE asks for ACTIVE. -/
theorem maintIdleTimeout_completes {s : State} (hm : s.mode = mMaint) (hr : s.modeReq = none) :
    s.Does .maintIdleTimeout fun t => t.modeReq = some { mode := mActive, trig := trIdle } ∧
      s.net.maintIdle + s.topoN 0x0101 0 4 2 600 * 1000000000 ≤ t.time.mono := by
  let u : State := { s.toMono (s.net.maintIdle + s.topoN 0x0101 0 4 2 600 * 1000000000) with modeReq := some { mode := mActive, trig := trIdle } }
  have hstages : u.Stages u.stageNow := u.stages_stageNow
  refine ⟨u.stageNow, congrArg Host.Outcome.next (if_neg (by simp [hm, hr])), ?_, ?_⟩
  · exact (congrArg State.modeReq hstages :)
  · rw [hstages]
    exact s.le_toMono _

/-! ### Checkpoints (R165, R166, R439) -/

theorem State.mrN_mwN_same (s : State) (a n v : Nat) : (s.mwN a n v).mrN a n = leNat (leBytes n v) := by
  have h := mslice_mput (d := 0) (m := s.mram) (a := a) (vs := leBytes n v)
  rw [leBytes_length] at h
  exact congrArg leNat h

theorem State.mwN_outside (s : State) (a n v : Nat) : s.sameMramOutside (s.mwN a n v) a n := fun _ ha =>
  mget_mput_outside (by rw [leBytes_length]; exact ha)

/-- R165, R439. A checkpoint is cut with the blocks of its slot, whose mark is cleared. -/
theorem State.ckCut_spec (s : State) (flags : Nat) :
    let t := s.ckCut flags
    (∃ c, t.eng.ckpt = some c ∧ c.slot = s.ckTarget ∧ c.gc = s.time.gc - 1 ∧ c.blks = s.eng.dirty.getD s.ckTarget 0) ∧
      t.fbit Reg.CKPT_STAT_BUSY = true ∧ t.mrN (ckHead s.ckTarget + 16380) 4 = 0 ∧
      s.sameMramOutside t (ckHead s.ckTarget + 16380) 4 ∧ t.sram = s.sram :=
  ⟨⟨_, rfl, rfl, rfl, rfl⟩, State.fbit_fon_same _ (by decide), s.mrN_mwN_same .., s.mwN_outside _ 4 0, rfl⟩

/-- R165, R166. A checkpoint that is due is cut, or deferred while an activation is non-atomic. -/
theorem checkpointCut_completes {s : State} (hno : s.eng.ckpt = none) (hrun : s.running = true) (hcross : s.power.crossAt = none)
    (hgc : 0 < s.time.gc) (hnew : s.fget Reg.CKPT_SEQ_SEQ = 0 ∨ s.fget Reg.CKPT_GRID_LO_GC_LO ≠ (s.time.gc - 1) % 2 ^ 32)
    (hpark : s.parkCut = false) (hdue : s.cutIsDue = true) :
    s.Does .checkpointCut fun t => (if s.fbit Reg.CKPT_STAT_NONATOMIC_RUN then t.eng.ckpt = none ∧ t.eng.cutDeferred = true
          ∧ t.mram = s.mram
        else (∃ c, t.eng.ckpt = some c ∧ c.slot = s.ckTarget ∧ c.gc = s.time.gc - 1 ∧ c.blks = s.eng.dirty.getD s.ckTarget 0) ∧
          t.fbit Reg.CKPT_STAT_BUSY = true ∧ t.mrN (ckHead s.ckTarget + 16380) 4 = 0 ∧
          s.sameMramOutside t (ckHead s.ckTarget + 16380) 4) ∧ t.sram = s.sram := by
  have hopen : (s.eng.ckpt.isSome || !s.running || s.power.crossAt.isSome || s.time.gc == 0 ||
      (s.fget Reg.CKPT_SEQ_SEQ != 0 && s.fget Reg.CKPT_GRID_LO_GC_LO == (s.time.gc - 1) % 2 ^ 32)) = false := by
    have hfresh : (s.fget Reg.CKPT_SEQ_SEQ != 0 && s.fget Reg.CKPT_GRID_LO_GC_LO == (s.time.gc - 1) % 2 ^ 32) = false := by
      rcases hnew with h | h
      · simp [h]
      · rw [beq_eq_false_iff_ne.mpr h, Bool.and_false]
    rw [hno, hrun, hcross, hfresh]
    simpa using Nat.pos_iff_ne_zero.mp hgc
  have hexec : exec .checkpointCut s = .next (if s.fbit Reg.CKPT_STAT_NONATOMIC_RUN then
      if s.eng.cutDeferred then s
      else (({ s with eng := { s.eng with cutDue := true, cutDeferred := true } } : State).fon Reg.SCHED_FLAGS_CKPT_DEFERRED).record cCKPT_DEFERRED []
      else s.ckCut 0) := by
    show execCheckpointCut s = _
    unfold execCheckpointCut
    rw [hopen, hpark, hdue]
    rfl
  refine ⟨_, hexec, ?_⟩
  cases hnon : s.fbit Reg.CKPT_STAT_NONATOMIC_RUN
  · obtain ⟨hcut, hbusy, hmark, hother, hsram⟩ := s.ckCut_spec 0
    exact ⟨⟨hcut, hbusy, hmark, hother⟩, hsram⟩
  · cases hdefer : s.eng.cutDeferred
    · simp [hno]
    · simp [hno, hdefer]

theorem nextGen_lt (g : Nat) : nextGen g < 2 ^ 32 := by
  unfold nextGen
  split
  · decide
  · exact Nat.mod_lt _ (by decide)

/-- R439. The registers of a slot written. -/
def State.ckShown (s : State) (c : Ckpt) (seq : Nat) : State :=
  let s := (s.fset Reg.CKPT_STAT_LAST_SLOT c.slot).fset Reg.CKPT_SEQ_SEQ seq
  ((s.fset Reg.CKPT_GRID_LO_GC_LO c.gc).fset Reg.CKPT_GRID_HI_GC_HI (c.gc / 2 ^ 32)).fmod Reg.CKPT_CNT_WRITTEN

theorem foldl_mram {α : Type} {f : State → α → State} (hf : ∀ s x, ∃ m, f s x = { s with mram := m }) (l : List α) (s : State) :
    ∃ m, l.foldl f s = { s with mram := m } :=
  List.foldlRecOn (motive := fun t : State => ∃ m, t = { s with mram := m }) _ _ ⟨_, rfl⟩ fun t ht x _ => by
    obtain ⟨m, rfl⟩ := ht
    obtain ⟨m', hm'⟩ := hf { s with mram := m } x
    exact ⟨m', hm'⟩

/-- R439. The mark of a slot is written last. -/
theorem State.ckWrite_eq (s : State) (c : Ckpt) : ∃ m,
    s.ckWrite c = State.ckShown (({ s with mram := m } : State).mwN (ckHead c.slot + 16380) 4 0xA5A5A5A5) c (nextGen (s.fget Reg.CKPT_SEQ_SEQ)) := by
  unfold State.ckWrite
  dsimp only
  generalize hv : List.foldl _ _ (blocksIn c.blks) = v
  have hframe : ∃ m, v = { s.mwN (ckHead c.slot + 16380) 4 0 with mram := m } := by
    rw [← hv]
    exact foldl_mram (fun _ _ => ⟨_, rfl⟩) _ _
  obtain ⟨m, rfl⟩ := hframe
  exact ⟨_, rfl⟩

theorem State.ckShown_spec (s : State) {c : Ckpt} (hc : c.slot < 4) {seq : Nat} (hseq : seq < 2 ^ 32) :
    (s.ckShown c seq).fget Reg.CKPT_STAT_LAST_SLOT = c.slot ∧ (s.ckShown c seq).fget Reg.CKPT_SEQ_SEQ = seq ∧
      s.ckShown c seq = { s with regs := (s.ckShown c seq).regs } := by
  have hgrid (g : Fld) (hg : g.addr ∉ [0x40020608, 0x4002060C, 0x40020610]) : (s.ckShown c seq).fget g =
      ((s.fset Reg.CKPT_STAT_LAST_SLOT c.slot).fset Reg.CKPT_SEQ_SEQ seq).fget g := by
    simp only [List.mem_cons, List.not_mem_nil, or_false, not_or] at hg
    obtain ⟨hlo, hhi, hcnt⟩ := hg
    exact (State.fget_fset_addr _ hcnt).trans ((State.fget_fset_addr _ hhi).trans (State.fget_fset_addr _ hlo))
  refine ⟨?_, ?_, rfl⟩
  · calc (s.ckShown c seq).fget Reg.CKPT_STAT_LAST_SLOT
      _ = ((s.fset Reg.CKPT_STAT_LAST_SLOT c.slot).fset Reg.CKPT_SEQ_SEQ seq).fget Reg.CKPT_STAT_LAST_SLOT := hgrid _ (by decide)
      _ = (s.fset Reg.CKPT_STAT_LAST_SLOT c.slot).fget Reg.CKPT_STAT_LAST_SLOT := State.fget_fset_addr _ (by decide)
      _ = c.slot := (State.fget_fset_same ..).trans (Nat.mod_eq_of_lt hc)
  · calc (s.ckShown c seq).fget Reg.CKPT_SEQ_SEQ
      _ = ((s.fset Reg.CKPT_STAT_LAST_SLOT c.slot).fset Reg.CKPT_SEQ_SEQ seq).fget Reg.CKPT_SEQ_SEQ := hgrid _ (by decide)
      _ = seq := (State.fget_fset_same ..).trans (Nat.mod_eq_of_lt hseq)

/-- R439. A slot written is valid, and shown as the last. -/
theorem State.ckWrite_spec (s : State) {c : Ckpt} (hc : c.slot < 4) :
    (s.ckWrite c).mrN (ckHead c.slot + 16380) 4 = 0xA5A5A5A5 ∧ (s.ckWrite c).fget Reg.CKPT_STAT_LAST_SLOT = c.slot ∧
      (s.ckWrite c).fget Reg.CKPT_SEQ_SEQ = nextGen (s.fget Reg.CKPT_SEQ_SEQ) ∧
      s.ckWrite c = { s with regs := (s.ckWrite c).regs, mram := (s.ckWrite c).mram } := by
  obtain ⟨m, hm⟩ := s.ckWrite_eq c
  have hmark := State.mrN_mwN_same { s with mram := m } (ckHead c.slot + 16380) 4 0xA5A5A5A5
  obtain ⟨hslot, hseq, hframe⟩ := State.ckShown_spec (({ s with mram := m } : State).mwN (ckHead c.slot + 16380) 4 0xA5A5A5A5) hc
    (nextGen_lt (s.fget Reg.CKPT_SEQ_SEQ))
  rw [← hm] at hslot hseq hframe
  have hmram : (s.ckWrite c).mram = (({ s with mram := m } : State).mwN (ckHead c.slot + 16380) 4 0xA5A5A5A5).mram := (congrArg State.mram hframe :)
  refine ⟨?_, hslot, hseq, hframe.trans ?_⟩
  · rw [State.mrN, hmram]
    exact hmark
  · rw [hmram]
    rfl

/-- R165. The copy of a checkpoint has ended: with it, the flush of a PARK entry. -/
theorem State.ckDone_spec (s : State) {c : Ckpt} (hc : c.slot < 4) :
    let t := s.ckDone c
    t.eng.ckpt = none ∧ t.time = s.time ∧ t.mrN (ckHead c.slot + 16380) 4 = 0xA5A5A5A5 ∧
      t.fget Reg.CKPT_STAT_LAST_SLOT = c.slot ∧ t.fget Reg.CKPT_SEQ_SEQ = nextGen (s.fget Reg.CKPT_SEQ_SEQ) ∧
        t.power.park = (if c.flags = 2 ∧ s.power.park = 1 then 2 else s.power.park) ∧ t.sram = s.sram := by
  obtain ⟨hmark, hslot, hseq, hframe⟩ := s.ckWrite_spec hc
  generalize hw : s.ckWrite c = w at hmark hslot hseq hframe
  have hpower : w.power = s.power := (congrArg State.power hframe :)
  have htime : w.time = s.time := (congrArg State.time hframe :)
  have hsram : w.sram = s.sram := (congrArg State.sram hframe :)
  have hdone : s.ckDone c = if c.flags = 2 ∧ s.power.park = 1 then
      { (({ w with eng := { w.eng with ckpt := none } } : State).fset Reg.CKPT_STAT_BUSY 0) with power := { w.power with park := 2 } }
      else ({ w with eng := { w.eng with ckpt := none } } : State).fset Reg.CKPT_STAT_BUSY 0 := by
    unfold State.ckDone
    rw [hw, ← hpower]
    rfl
  let v : State := ({ w with eng := { w.eng with ckpt := none } } : State).fset Reg.CKPT_STAT_BUSY 0
  have hvslot : v.fget Reg.CKPT_STAT_LAST_SLOT = c.slot := (State.fget_fset_apart _ (by decide) (by decide) (by decide)).trans hslot
  have hvseq : v.fget Reg.CKPT_SEQ_SEQ = nextGen (s.fget Reg.CKPT_SEQ_SEQ) := (State.fget_fset_addr _ (by decide)).trans hseq
  dsimp only
  rw [hdone]
  split
  · exact ⟨rfl, htime, hmark, hvslot, hvseq, rfl, hsram⟩
  · exact ⟨rfl, htime, hmark, hvslot, hvseq, congrArg Power.park hpower, hsram⟩

/-- R165, R439. The copy of a checkpoint ends. -/
theorem checkpointComplete_completes {s : State} {c : Ckpt} (hck : s.eng.ckpt = some c) (hc : c.slot < 4) (ns : Nat) :
    s.Does (.checkpointComplete ns) fun t => t.eng.ckpt = none ∧ t.time.mono = s.time.mono + ns ∧ t.mrN (ckHead c.slot + 16380) 4 = 0xA5A5A5A5 ∧
      t.fget Reg.CKPT_STAT_LAST_SLOT = c.slot ∧ t.fget Reg.CKPT_SEQ_SEQ = nextGen (s.fget Reg.CKPT_SEQ_SEQ) ∧
        t.power.park = (if c.flags = 2 ∧ s.power.park = 1 then 2 else s.power.park) ∧ t.sram = s.sram := by
  have hmono : (s.toMono (s.time.mono + ns)).time.mono = s.time.mono + ns := by
    show s.time.mono + (s.time.mono + ns - s.time.mono) = _
    omega
  have hexec : exec (.checkpointComplete ns) s = .next ((s.toMono (s.time.mono + ns)).ckDone c) := by
    show execCheckpointComplete ns s = _
    unfold execCheckpointComplete
    rw [hck]
  obtain ⟨hend, htime, hmark, hslot, hseq, hpark, hsram⟩ := (s.toMono (s.time.mono + ns)).ckDone_spec hc
  exact ⟨_, hexec, hend, (congrArg Time.mono htime).trans hmono, hmark, hslot, hseq, hpark, hsram⟩

/-- Settles O22, clause by clause; `State.bootClock_spec` has what the time of a boot step leaves, `State.ckWrite_spec` what a slot written holds. -/
theorem housekeepingCompletes : Obligations.HousekeepingCompletes := fun _ =>
  ⟨bootStep_clocks, fun _ => bootStep_rom, fun _ => bootStep_romBad, fun _ => bootStep_fill, schedulerTick_completes,
    fun complete _ => shadowCopy_completes complete, maintIdleTimeout_completes, checkpointCut_completes, fun _ => checkpointComplete_completes⟩

end Sys2Proof.Machine
end

section
namespace Sys2Proof.Machine

/-! ### The Rope link (R399) -/

/-- R399. A Rope frame has arrived without error. -/
def State.ropeGot (s : State) : State := { s with dup := { s.dup with rxSeq := (s.dup.rxSeq + 1) % 65536, naked := false } }

/-- R399. On an open link a frame without error is acted on. -/
theorem State.RopeOpen.take {s : State} (h : s.RopeOpen) (f lost : State → State) : s.ropeTake .ok f lost = f s.ropeGot := by
  unfold State.ropeTake
  rw [if_neg (by simp [h.up, h.clear, h.alive, h.run]), if_neg (by simp)]
  rfl

/-- R399. What a frame sent on a link that is `UP` leaves. -/
theorem State.ropeSend_of_up {s : State} (h : s.ropeUp = true) (typ : Nat) (p : List Byte) :
    s.ropeSend typ p = { s with
      net := { s.net with sent := s.net.sent ++ [({ chan := 4, kind := typ, data := p } : Sent)] }
      dup := { s.dup with txSeq := (s.dup.txSeq + 1) % 65536, kept := ((typ, s.dup.txSeq, p) :: s.dup.kept).take 16 } } := if_pos h

theorem State.RopeSent.trans {s t u : State} {fs gs : List (Nat × List Byte)} (h : s.RopeSent t fs) (h' : t.RopeSent u gs) :
    s.RopeSent u (fs ++ gs) := by
  unfold State.RopeSent at *
  rw [h', h, List.map_append, List.append_assoc]

/-- `t` is as `s` but for what has gone out on the Rope, whose frames are `fs`. -/
structure State.Ropes (s t : State) (fs : List (Nat × List Byte)) : Prop where
  sent : s.RopeSent t fs
  frame : t = { s with net := t.net, dup := { s.dup with txSeq := t.dup.txSeq, kept := t.dup.kept } }

theorem State.ropes_ropeSend {s : State} (h : s.ropeUp = true) (typ : Nat) (p : List Byte) : s.Ropes (s.ropeSend typ p) [(typ, p)] := by
  rw [State.ropeSend_of_up h]
  exact ⟨rfl, rfl⟩

theorem State.Ropes.trans {s t u : State} {fs gs : List (Nat × List Byte)} (h : s.Ropes t fs) (h' : t.Ropes u gs) : s.Ropes u (fs ++ gs) :=
  ⟨h.sent.trans h'.sent, by rw [h'.frame, h.frame]⟩

theorem State.Ropes.up {s t : State} {fs : List (Nat × List Byte)} (h : s.Ropes t fs) (hs : s.ropeUp = true) : t.ropeUp = true := by
  rw [h.frame]
  exact hs

theorem State.Ropes.fget {s t : State} {fs : List (Nat × List Byte)} (h : s.Ropes t fs) (g : Fld) : t.fget g = s.fget g := by rw [h.frame]; rfl

theorem State.Ropes.manifest {s t : State} {fs : List (Nat × List Byte)} (h : s.Ropes t fs) : t.dup.manifest = s.dup.manifest := by rw [h.frame]

theorem State.Ropes.only {s t : State} {fs : List (Nat × List Byte)} (h : s.Ropes t fs) : t = { s with net := t.net, dup := t.dup } := by
  rw [h.frame]

/-- R399. Frames sent one after the other on a link that is `UP`. -/
theorem State.ropes_foldl {α : Type} (typ : Nat) (d : α → List Byte) (l : List α) {s : State} (h : s.ropeUp = true) :
    s.Ropes (l.foldl (fun s x => s.ropeSend typ (d x)) s) (l.map fun x => (typ, d x)) := by
  induction l generalizing s with
  | nil => exact ⟨by simp [State.RopeSent], rfl⟩
  | cons x l ih =>
    have hsend := s.ropes_ropeSend h typ (d x)
    exact hsend.trans (ih (hsend.up h))

/-! ### The belay set at the standby (R406) -/

/-- R406. The standby holds no set and asks for a full one. -/
structure State.Asks (s t : State) : Prop where
  sent : s.RopeSent t [(0x03, [])]
  stale : t.dup.stale = true
  ok : t.fbit Reg.DUP_STAT_BELAY_OK = false

theorem State.asks_askFull {s : State} (h : s.ropeUp = true) : s.Asks s.askFull ∧ s.askFull = { s with regs := s.askFull.regs, dup := s.askFull.dup, net := s.askFull.net } := by
  have hup : s.belayStale.ropeUp = true := (State.fbit_fset_apart _ (by decide) (by decide) (by decide)).trans h
  unfold State.askFull
  rw [State.ropeSend_of_up hup]
  exact ⟨⟨rfl, rfl, State.fbit_fput_same _ false (by decide)⟩, rfl⟩

/-! ### Numbers as bytes (R15) -/

theorem leNat_lt (l : List Byte) : leNat l < 256 ^ l.length := by
  induction l with
  | nil => decide
  | cons b l ih =>
    have hb : b.toNat < 256 := b.isLt
    rw [leNat, List.length_cons, Nat.pow_succ]
    omega

theorem leNat_leBytes (n v : Nat) : leNat (leBytes n v) = v % 256 ^ n := by
  induction n generalizing v with
  | zero => exact (Nat.mod_one v).symm
  | succ n ih =>
    rw [leBytes, leNat, ih, BitVec.toNat_ofNat, show 256 ^ (n + 1) = 2 ^ 8 * 256 ^ n by rw [Nat.pow_succ']; rfl, Nat.mod_mul (a := 2 ^ 8)]
    rfl

theorem mslice_take {α : Type} {d : α} {m : List (Nat × α)} {a k n : Nat} (h : k ≤ n) : (mslice d m a n).take k = mslice d m a k := by
  induction k generalizing a n with
  | zero => rfl
  | succ k ih =>
    obtain ⟨n, rfl⟩ : ∃ n', n = n' + 1 := ⟨n - 1, by omega⟩
    rw [mslice, mslice, List.take_succ_cons, ih (by omega)]

/-- The first bytes of a run stand where it was written. -/
theorem leNat_mslice_mput {b : List Byte} {n : Nat} (h : n ≤ b.length) (m : Bytes) : leNat (mslice 0 (mput 0 m 0 b) 0 n) = leAt b 0 n := by
  rw [← mslice_take h, mslice_mput]
  rfl

theorem leAt_lt (l : List Byte) (off n : Nat) : leAt l off n < 256 ^ n :=
  (leNat_lt _).trans_le (Nat.pow_le_pow_right (by decide) (List.length_take_le ..))

theorem leAt_leBytes {n v : Nat} (h : v < 256 ^ n) : leAt (leBytes n v) 0 n = v := by
  have htake : sub_ (leBytes n v) 0 n = leBytes n v := List.take_of_length_le (by simp [leBytes_length])
  rw [leAt, htake, leNat_leBytes, Nat.mod_eq_of_lt h]

/-! ### What a set taken leaves (R238, R406 to R408) -/

/-- `t` holds the belay set of `s`: its generation, its bytes, and whether it stands. -/
structure State.Belayed (s t : State) : Prop where
  gen : t.fget Reg.BELAY_GEN_GEN = s.fget Reg.BELAY_GEN_GEN
  ok : t.fbit Reg.DUP_STAT_BELAY_OK = s.fbit Reg.DUP_STAT_BELAY_OK
  stale : t.dup.stale = s.dup.stale
  full : t.dup.full = s.dup.full
  set : t.dup.set = s.dup.set

theorem State.Belayed.refl (s : State) : s.Belayed s := ⟨rfl, rfl, rfl, rfl, rfl⟩

theorem State.Belayed.trans {s t u : State} (h : s.Belayed t) (h' : t.Belayed u) : s.Belayed u :=
  ⟨h'.gen.trans h.gen, h'.ok.trans h.ok, h'.stale.trans h.stale, h'.full.trans h.full, h'.set.trans h.set⟩

theorem State.belayed_fset (s : State) {f : Fld} (v : Nat) (h : f.addr ∉ [0x40050000, 0x40050010]) : s.Belayed (s.fset f v) := by
  simp only [List.mem_cons, List.not_mem_nil, or_false, not_or] at h
  obtain ⟨hstat, hgen⟩ := h
  exact ⟨State.fget_fset_addr s (Ne.symm hgen), s.fbit_fset_addr v (Ne.symm hstat), rfl, rfl, rfl⟩

theorem State.Belayed.fset {s t : State} (h : s.Belayed t) {f : Fld} (v : Nat) (hf : f.addr ∉ [0x40050000, 0x40050010]) : s.Belayed (t.fset f v) :=
  h.trans (t.belayed_fset v hf)

theorem State.belayed_record (s : State) (code : Nat) (data : List Byte) : s.Belayed (s.record code data) := by
  have h := s.records_record code data
  have hdup : (s.record code data).dup = s.dup := by simp
  exact ⟨h.fget _ (by decide), congrArg (decide <| · ≠ 0) (h.fget _ (by decide)), by rw [hdup], by rw [hdup], by rw [hdup]⟩

theorem State.belayed_trigger (s : State) {t : Nat} (ht : t < 24) : s.Belayed (s.trigger t) := by
  have hmerged : (Reg.TASK_SKIP_MERGED t).addr ∉ [0x40050000, 0x40050010] := by
    simp only [Reg.TASK_SKIP_MERGED, List.mem_cons, List.not_mem_nil, or_false]
    omega
  have hpend : (Reg.TASK_STAT_PENDING t).addr ∉ [0x40050000, 0x40050010] := by
    simp only [Reg.TASK_STAT_PENDING, List.mem_cons, List.not_mem_nil, or_false]
    omega
  unfold State.trigger
  split
  · exact .refl s
  · split
    · exact (s.belayed_fset _ hmerged).trans (State.belayed_fset _ _ (by decide))
    · refine State.Belayed.fset ?_ _ hpend
      exact ⟨rfl, rfl, rfl, rfl, rfl⟩

theorem State.belayed_peerEvent (s : State) (code : Nat) : s.Belayed (s.peerEvent code) := by
  refine State.Belayed.trans (t := { s with dup := { s.dup with evCode := code, evCount := (s.dup.evCount + 1) % 65536 } }) ⟨rfl, rfl, rfl, rfl, rfl⟩ ?_
  refine List.foldlRecOn (motive := fun t => State.Belayed _ t) _ _ (.refl _) fun t ht u hu => ht.trans (t.belayed_trigger ?_)
  exact (List.mem_range'_1.1 (List.mem_filter.1 hu).1).2

theorem State.belayed_ropeSend (s : State) (typ : Nat) (p : List Byte) : s.Belayed (s.ropeSend typ p) := by
  unfold State.ropeSend
  split
  · exact ⟨rfl, rfl, rfl, rfl, rfl⟩
  · exact .refl s

theorem State.belayed_links {s t : State} (h : t = { s with links := t.links }) : s.Belayed t := by
  rw [h]
  exact ⟨rfl, rfl, rfl, rfl, rfl⟩

/-- R238. The shadow registers are written over the links. -/
theorem State.sendShadow_frame (s : State) (k : Nat) : s.sendShadow k = { s with links := (s.sendShadow k).links } := by
  unfold State.sendShadow
  dsimp only
  split
  · rfl
  · exact ((State.queuesAt_regSubmit ..).trans (State.queuesAt_regSubmit ..)).frame

theorem State.sendShadows_frame (s : State) (l : List Nat) : s.each l State.sendShadow = { s with links := (s.each l State.sendShadow).links } :=
  List.foldlRecOn (motive := fun t : State => t = { s with links := t.links }) _ _ rfl fun t ht k _ => by
    rw [t.sendShadow_frame, ht]

/-- R408, R409. Output comparison leaves the set. -/
theorem State.belayed_compareTask (s : State) (t cyc : Nat) : s.Belayed (s.compareTask t cyc) := by
  unfold State.compareTask
  split
  · exact .refl s
  · dsimp only
    split
    · exact ⟨rfl, rfl, rfl, rfl, rfl⟩
    · split
      · exact ⟨rfl, rfl, rfl, rfl, rfl⟩
      · refine State.Belayed.trans ?_ (State.belayed_ropeSend ..)
        refine State.Belayed.trans ?_ (State.belayed_peerEvent ..)
        refine State.Belayed.trans ?_ (State.belayed_record ..)
        refine State.Belayed.fset ?_ _ (by decide)
        refine State.Belayed.fset ?_ _ (by decide)
        refine State.Belayed.fset ?_ _ (by decide)
        exact ⟨rfl, rfl, rfl, rfl, rfl⟩

/-- R406. The set `new` stands, under the generation it names. -/
structure State.Stands (t : State) (new : Bytes) (gen : Nat) : Prop where
  gen : t.fget Reg.BELAY_GEN_GEN = gen
  ok : t.fbit Reg.DUP_STAT_BELAY_OK = true
  stale : t.dup.stale = false
  set : t.dup.set = new

theorem State.Stands.belayed {s t : State} {new : Bytes} {gen : Nat} (h : s.Stands new gen) (h' : s.Belayed t) : t.Stands new gen :=
  ⟨h'.gen.trans h.gen, h'.ok.trans h.ok, h'.stale.trans h.stale, h'.set.trans h.set⟩

theorem State.belayTaken_stands (s : State) {new : Bytes} {gen : Nat} (hgen : leNat (mslice 0 new 0 4) = gen) (hlt : gen < 2 ^ 32) :
    (s.belayTaken new).Stands new gen ∧ (s.belayTaken new).dup.full = s.dup.full := by
  let u : State := { s with dup := { s.dup with set := new, stale := false }, sram := mput 0 s.sram 0xA80000 (mslice 0 new 0 0x10000) }
  let v := ((u.fset Reg.BELAY_GEN_GEN (leNat (mslice 0 new 0 4))).fset Reg.BELAY_SIZE_BYTES (leNat (mslice 0 new 16 4))).fon Reg.DUP_STAT_BELAY_OK
  have hv : v.Stands new gen := by
    refine ⟨?_, State.fbit_fon_same _ (by decide), rfl, rfl⟩
    calc v.fget Reg.BELAY_GEN_GEN
      _ = ((u.fset Reg.BELAY_GEN_GEN (leNat (mslice 0 new 0 4))).fset Reg.BELAY_SIZE_BYTES (leNat (mslice 0 new 16 4))).fget Reg.BELAY_GEN_GEN :=
        State.fget_fset_addr _ (by decide)
      _ = (u.fset Reg.BELAY_GEN_GEN (leNat (mslice 0 new 0 4))).fget Reg.BELAY_GEN_GEN := State.fget_fset_addr _ (by decide)
      _ = gen := (State.fget_fset_same ..).trans (by rw [hgen]; exact Nat.mod_eq_of_lt hlt)
  have hsent := State.belayed_links (v.sendShadows_frame (List.range 12))
  have hfull : v.dup.full = s.dup.full := rfl
  rw [show s.belayTaken new = v.each (List.range 12) State.sendShadow from rfl]
  exact ⟨hv.belayed hsent, hsent.full.trans hfull⟩

/-- R409. A resynchronisation leaves the set. -/
theorem State.belayed_resynced (s : State) : s.Belayed s.resynced := by
  have hcount {t : State} (h : s.Belayed t) : s.Belayed ((((t.fsat Reg.CMP_CNT_RESYNCS).fset Reg.CMP_STAT_RESYNC_HOUR (clip 8 t.dup.resyncAt.length)).fon
      Reg.DUP_FLAGS_RESYNC_SEEN).record cBELAY_RESYNC []) := by
    refine State.Belayed.trans ?_ (State.belayed_record ..)
    refine State.Belayed.fset ?_ _ (by decide)
    refine State.Belayed.fset ?_ _ (by decide)
    exact h.fset _ (by decide)
  unfold State.resynced
  dsimp only
  split
  · refine State.Belayed.trans ?_ (State.belayed_record ..)
    refine State.Belayed.fset ?_ _ (by decide)
    exact hcount ⟨rfl, rfl, rfl, rfl, rfl⟩
  · exact hcount ⟨rfl, rfl, rfl, rfl, rfl⟩

/-! ### The commands of the belay set (R69, R249, R406 to R409) -/

theorem pieces_ne_nil (n f : Nat) (l : List Byte) : pieces n (f + 1) l ≠ [] := by
  unfold pieces
  split <;> simp

/-- R406. The active module answers a request with a whole set under a new generation. -/
theorem belayReq_completes {s : State} (h : s.RopeOpen) (hd : s.driving = true) :
    s.Does (.belayReq .ok) fun t => t.fget Reg.BELAY_GEN_GEN = nextGen (s.fget Reg.BELAY_GEN_GEN) ∧ t.dup.manifest = [] ∧
      (∃ fs, fs ≠ [] ∧ s.RopeSent t fs ∧ ∀ f ∈ fs, f.1 = 0x04) ∧ t = { s with regs := t.regs, dup := t.dup, net := t.net } := by
  let gen := nextGen (s.fget Reg.BELAY_GEN_GEN)
  let g := s.ropeGot
  let new := g.belayHead gen (64 + g.belayBody.length) ++ g.belayBody
  let u : State := { g with dup := { g.dup with set := mput 0 [] 0 new, manifest := [] } }
  let v := (u.fset Reg.BELAY_GEN_GEN gen).fset Reg.BELAY_SIZE_BYTES new.length
  let l := (pieces 2040 (new.length + 1) new).zip (List.range (new.length + 1))
  let d (p : List Byte × Nat) : List Byte := leBytes 4 gen ++ leBytes 4 (2040 * p.2) ++ p.1
  have hexec : exec (.belayReq .ok) s = .next (l.foldl (fun s p => s.ropeSend 0x04 (d p)) v) :=
    congrArg Host.Outcome.next ((h.take ..).trans (if_neg (by simp [show s.ropeGot.driving = true from hd])))
  have hup : v.ropeUp = true :=
    ((State.fbit_fset_addr _ _ (by decide)).trans (State.fbit_fset_addr u _ (by decide))).trans h.up
  have hgen : v.fget Reg.BELAY_GEN_GEN = gen :=
    (State.fget_fset_addr _ (by decide)).trans ((State.fget_fset_same ..).trans (Nat.mod_eq_of_lt (nextGen_lt _)))
  have hl : l ≠ [] := by
    have hp : 0 < (pieces 2040 (new.length + 1) new).length := List.length_pos_iff.mpr (pieces_ne_nil _ _ _)
    refine List.ne_nil_of_length_pos ?_
    rw [List.length_zip, List.length_range]
    omega
  have hropes := State.ropes_foldl 0x04 d l hup
  refine ⟨_, hexec, ?_, ?_, ⟨l.map fun p => (0x04, d p), by simpa using hl, hropes.sent, fun f hf => ?_⟩, ?_⟩
  · exact (hropes.fget _).trans hgen
  · exact hropes.manifest
  · obtain ⟨p, -, rfl⟩ := List.mem_map.mp hf
    rfl
  · generalize List.foldl _ v l = w at hropes
    rw [hropes.only]
    rfl

/-- R409. A query waits for its task. -/
theorem cmpQuery_completes {s : State} (h : s.RopeOpen) (u : Task) (y : Word) (m : BitVec 256) (hd : s.driving = true) :
    s.Does (.cmpQuery .ok u y m) fun t => (u.val, m.toNat, y.toNat) ∈ t.dup.asked ∧ t = { s with dup := t.dup } := by
  refine ⟨_, congrArg Host.Outcome.next ((h.take ..).trans (if_neg (by simp [show s.ropeGot.driving = true from hd]))), ?_, rfl⟩
  exact List.mem_append_right _ (List.mem_singleton_self _)

/-- What is asked of `t` in a standby that asks for a full set. -/
theorem State.RopeOpen.asks {s t : State} (h : s.RopeOpen) (hframe : t = { s with mram := t.mram, dup := t.dup }) :
    (s.RopeSent t.askFull [(0x03, [])] ∧ t.askFull.dup.stale = true ∧ t.askFull.fbit Reg.DUP_STAT_BELAY_OK = false ∧ t.askFull.sram = s.sram) := by
  have hup : t.ropeUp = true := by
    rw [hframe]
    exact h.up
  obtain ⟨⟨hsent, hstale, hok⟩, hask⟩ := State.asks_askFull hup
  have hnet : t.net = s.net := by rw [hframe]
  have hsram : t.askFull.sram = s.sram := by
    rw [hask, hframe]
  exact ⟨by rwa [State.RopeSent, hnet] at hsent, hstale, hok, hsram⟩

/-- `t` is as `s` but for MRAM. -/
def State.MramOnly (s t : State) : Prop := ∃ m, t = { s with mram := m }

theorem State.MramOnly.trans {s t u : State} (h : s.MramOnly t) (h' : t.MramOnly u) : s.MramOnly u := by
  obtain ⟨m, rfl⟩ := h
  obtain ⟨m', rfl⟩ := h'
  exact ⟨m', rfl⟩

theorem State.mramOnly_mwN (s : State) (a n v : Nat) : s.MramOnly (s.mwN a n v) := ⟨_, rfl⟩

theorem State.mramOnly_mwBytes (s : State) (a : Nat) (l : List Byte) : s.MramOnly (s.mwBytes a l) := ⟨_, rfl⟩

/-- R441. The belay log takes a payload into MRAM alone. -/
theorem State.mramOnly_belayLog (s : State) (p : List Byte) : s.MramOnly (s.belayLog p) :=
  ((s.mramOnly_mwBytes ..).trans (State.mramOnly_mwBytes ..)).trans (State.mramOnly_mwN ..)

/-- R406, R408. A delta, once it stands in the log. -/
def State.deltaTaken (s : State) (p : List Byte) : State :=
  if s.dup.stale || leAt p 4 4 != s.fget Reg.BELAY_GEN_GEN then (if s.dup.full.isSome then s else s.askFull)
  else
    let man := (List.range (leAt p 18 1)).map fun i => (leAt p (20 + 8 * i) 1, leAt p (24 + 8 * i) 4)
    let at_ := 20 + 8 * man.length
    let blocks := (List.range ((p.length - at_) / 68)).map fun i => (leAt p (at_ + 68 * i) 2, sub_ p (at_ + 68 * i + 4) 64)
    let new := blocks.foldl (fun (m : Bytes) (b : Nat × List Byte) => mput 0 m (64 * b.1) b.2) s.dup.set
    let s := s.belayTaken (mput 0 new 0 (leBytes 4 (leAt p 0 4)))
    if s.compares then man.foldl (fun (s : State) (m : Nat × Nat) => s.compareTask m.1 m.2) s else s

theorem exec_belayDelta {s : State} (h : s.RopeOpen) (hm : s.mode = mStandby) (p : List Byte) :
    ∃ m, exec (.belayDelta .ok p) s = .next (State.deltaTaken { s.ropeGot with mram := m } p) := by
  have hm' : ¬ s.ropeGot.mode ≠ mStandby := not_not_intro hm
  obtain ⟨m, hlog⟩ := s.ropeGot.mramOnly_belayLog p
  refine ⟨m, ?_⟩
  rw [← hlog]
  exact congrArg Host.Outcome.next ((h.take ..).trans (if_neg hm'))

theorem State.deltaTaken_follows {s : State} {p : List Byte} (hstale : s.dup.stale = false) (hgen : leAt p 4 4 = s.fget Reg.BELAY_GEN_GEN) :
    ∃ new, (s.deltaTaken p).Stands new (leAt p 0 4) := by
  unfold State.deltaTaken
  rw [if_neg (by simp [hstale, hgen])]
  extract_lets man at_ blocks old v
  have hfirst : leNat (mslice 0 (mput 0 old 0 (leBytes 4 (leAt p 0 4))) 0 4) = leAt p 0 4 :=
    (leNat_mslice_mput (by rw [leBytes_length]) _).trans (leAt_leBytes (leAt_lt ..))
  obtain ⟨hv, -⟩ := s.belayTaken_stands hfirst (leAt_lt ..)
  refine ⟨_, hv.belayed ?_⟩
  split
  · exact List.foldlRecOn (motive := fun t => v.Belayed t) _ _ (.refl v) fun t ht m _ => ht.trans (t.belayed_compareTask ..)
  · exact .refl v

/-- R406, R408. A delta that follows the generation is taken. -/
theorem belayDelta_follows {s : State} (h : s.RopeOpen) (hm : s.mode = mStandby) {p : List Byte} (hstale : s.dup.stale = false)
    (hgen : leAt p 4 4 = s.fget Reg.BELAY_GEN_GEN) :
    s.Does (.belayDelta .ok p) fun t => t.fget Reg.BELAY_GEN_GEN = leAt p 0 4 ∧ t.fbit Reg.DUP_STAT_BELAY_OK = true ∧ t.dup.stale = false := by
  obtain ⟨m, hexec⟩ := exec_belayDelta h hm p
  obtain ⟨new, hstands⟩ := State.deltaTaken_follows (s := { s.ropeGot with mram := m }) hstale hgen
  exact ⟨_, hexec, hstands.gen, hstands.ok, hstands.stale⟩

/-- R406. A delta that does not follow is asked for anew. -/
theorem belayDelta_asks {s : State} (h : s.RopeOpen) (hm : s.mode = mStandby) {p : List Byte}
    (hgap : s.dup.stale = true ∨ leAt p 4 4 ≠ s.fget Reg.BELAY_GEN_GEN) (hfull : s.dup.full = none) :
    s.Does (.belayDelta .ok p) fun t =>
      s.RopeSent t [(0x03, [])] ∧ t.dup.stale = true ∧ t.fbit Reg.DUP_STAT_BELAY_OK = false ∧ t.sram = s.sram := by
  obtain ⟨m, hexec⟩ := exec_belayDelta h hm p
  have hask : State.deltaTaken { s.ropeGot with mram := m } p = State.askFull { s.ropeGot with mram := m } := by
    have hopen : (s.dup.stale || leAt p 4 4 != s.fget Reg.BELAY_GEN_GEN) = true := by
      rcases hgap with hs | hg
      · simp [hs]
      · simp [hg]
    exact (if_pos hopen).trans (if_neg (by simp [State.ropeGot, hfull]))
  rw [hask] at hexec
  exact ⟨_, hexec, h.asks rfl⟩

/-- R406. A frame of a full set, once it stands in the log. -/
def State.fullTaken (s : State) (gen : Word) (off : Nat) (bytes : List Byte) (last : Bool) : State :=
  let got : Option Bytes :=
    if off = 0 then some (mput 0 [] 0 bytes)
    else
      match s.dup.full with
      | some (g, n, b) => if g = gen.toNat ∧ n = off then some (mput 0 b off bytes) else none
      | none => none
  match got with
  | none => s.askFull
  | some b =>
    if !last then { s with dup := { s.dup with full := some (gen.toNat, off + bytes.length, b) } }
    else
      let s := { s with dup := { s.dup with full := none } }
      let s := s.belayTaken b
      if s.dup.resyncWait then s.resynced else s

theorem exec_belayFull {s : State} (h : s.RopeOpen) (hm : s.mode = mStandby) (g : Word) (o : Nat) (b : List Byte) (l : Bool) :
    ∃ m, exec (.belayFull .ok g o b l) s = .next (State.fullTaken { s.ropeGot with mram := m } g o b l) := by
  have hm' : ¬ s.ropeGot.mode ≠ mStandby := not_not_intro hm
  obtain ⟨m, hlog⟩ := s.ropeGot.mramOnly_belayLog (leBytes 4 g.toNat ++ leBytes 4 o ++ b)
  refine ⟨m, ?_⟩
  rw [← hlog]
  exact congrArg Host.Outcome.next ((h.take ..).trans (if_neg hm'))

/-- R406. The first frame of a full set of several. -/
theorem belayFull_first {s : State} (h : s.RopeOpen) (hm : s.mode = mStandby) (g : Word) (b : List Byte) :
    s.Does (.belayFull .ok g 0 b false) fun t => t.dup.full = some (g.toNat, b.length, mput 0 [] 0 b) ∧ t.net = s.net ∧ t.sram = s.sram := by
  obtain ⟨m, hexec⟩ := exec_belayFull h hm g 0 b false
  refine ⟨_, hexec, ?_, rfl, rfl⟩
  show some (g.toNat, 0 + b.length, mput 0 [] 0 b) = _
  rw [Nat.zero_add]

theorem State.fullTaken_whole (s : State) (g : Word) (b : List Byte) : s.fullTaken g 0 b true =
    let t := State.belayTaken { s with dup := { s.dup with full := none } } (mput 0 [] 0 b)
    if t.dup.resyncWait then t.resynced else t := by
  unfold State.fullTaken
  simp only [if_true, Bool.not_true, Bool.false_eq_true, if_false]

/-- R406. A full set of one frame is taken. -/
theorem belayFull_whole {s : State} (h : s.RopeOpen) (hm : s.mode = mStandby) (g : Word) {b : List Byte} (hb : 4 ≤ b.length) :
    s.Does (.belayFull .ok g 0 b true) fun t => t.fget Reg.BELAY_GEN_GEN = leAt b 0 4 ∧ t.fbit Reg.DUP_STAT_BELAY_OK = true ∧
      t.dup.stale = false ∧ t.dup.full = none ∧ t.dup.set = mput 0 [] 0 b := by
  obtain ⟨m, hexec⟩ := exec_belayFull h hm g 0 b true
  rw [State.fullTaken_whole] at hexec
  let v : State := { s.ropeGot with mram := m, dup := { s.ropeGot.dup with full := none } }
  obtain ⟨hw, hfull⟩ := v.belayTaken_stands (leNat_mslice_mput hb []) (leAt_lt ..)
  generalize v.belayTaken (mput 0 [] 0 b) = w at hexec hw hfull
  have hsynced : w.Belayed (if w.dup.resyncWait then w.resynced else w) := by
    split
    · exact w.belayed_resynced
    · exact .refl w
  have hstands := hw.belayed hsynced
  exact ⟨_, hexec, hstands.gen, hstands.ok, hstands.stale, hsynced.full.trans hfull, hstands.set⟩

/-- R406. A frame of a full set that is not its first is asked for anew. -/
theorem belayFull_asks {s : State} (h : s.RopeOpen) (hm : s.mode = mStandby) (g : Word) {o : Nat} (b : List Byte) (l : Bool) (ho : o ≠ 0)
    (hfull : s.dup.full = none) :
    s.Does (.belayFull .ok g o b l) fun t =>
      s.RopeSent t [(0x03, [])] ∧ t.dup.stale = true ∧ t.fbit Reg.DUP_STAT_BELAY_OK = false ∧ t.sram = s.sram := by
  obtain ⟨m, hexec⟩ := exec_belayFull h hm g o b l
  have hask : State.fullTaken { s.ropeGot with mram := m } g o b l = State.askFull { s.ropeGot with mram := m } := by
    unfold State.fullTaken
    simp only [if_neg ho, State.ropeGot, hfull]
  rw [hask] at hexec
  exact ⟨_, hexec, h.asks rfl⟩

/-! ### Profiles (R249, R407) -/

/-- What is sent on a link leaves the profiles that wait for their copy. -/
theorem State.ctlSend_profDue (s : State) (n typ : Nat) (p : List Byte) : ((s.ctlSend n typ p).link n).profDue = (s.link n).profDue := by
  unfold State.ctlSend
  split
  · rw [State.link_setLink]
  · rfl

theorem State.regSend_profDue (s : State) (n : Nat) : ((s.regSend n).link n).profDue = (s.link n).profDue := by
  unfold State.regSend
  dsimp only
  split
  · rw [State.link_setLink]
    split
    · exact s.ctlSend_profDue ..
    · exact s.ctlSend_profDue ..
  · rfl

/-- R249. The profiles go out over the link of their die. -/
theorem State.sendProfiles_spec (s : State) (n : Nat) :
    ((s.sendProfiles n).link n).profDue = (s.link n).profDue ∧ s.sendProfiles n = { s with links := (s.sendProfiles n).links } := by
  unfold State.sendProfiles
  dsimp only
  split
  · exact ⟨rfl, rfl⟩
  · refine ⟨(State.regSend_profDue ..).trans (by rw [State.link_setLink]), ?_⟩
    rw [(State.queuesAt_regSend ..).frame]
    rfl

theorem mget_of_mslice {α : Type} {d : α} {m : List (Nat × α)} {vs : List α} {a i : Nat} (h : mslice d m a vs.length = vs) (hi : i < vs.length) :
    mget d m (a + i) = vs[i] := by
  induction vs generalizing a i with
  | nil => exact absurd hi (Nat.not_lt_zero _)
  | cons v vs ih =>
    obtain ⟨hhead, htail⟩ := List.cons.inj h
    cases i with
    | zero => exact hhead
    | succ i =>
      rw [show a + (i + 1) = a + 1 + i by omega]
      exact ih htail (Nat.lt_of_succ_lt_succ hi)

theorem State.profTake_due (s : State) (k dir : Nat) (adapted : Bool) (vals : List Byte) :
    bit ((s.profTake k dir adapted vals).link (chSlot k)).profDue (k % 4) = true := by
  unfold State.profTake
  extract_lets
  rw [State.link_setLink]
  simp [bit_putBit]

/-- R249, R407. A profile that the active module stored is stored at the standby. -/
theorem profile_completes {s : State} (h : s.RopeOpen) (hm : s.mode = mStandby) (k : DCh) (dir adapted : Bool) (b : List Byte) :
    s.Does (.profile .ok k dir adapted b) fun t => bit (t.fget Reg.PROF_STAT_LEARNED) k = true ∧
      bit (t.link (chSlot k)).profDue (k.val % 4) = true ∧
      (∀ i, i < min 512 b.length → t.rd (0x980000 + k * 0x1000 + (if adapted then 0x400 else 0) + b2n dir * 0x200 + i) = b.getD i 0) ∧
      s.sameOutside t (0x980000 + k * 0x1000) 0x1000 ∧ t.mram = s.mram := by
  let u := s.ropeGot.profTake k (b2n dir) adapted b
  have hm' : ¬ s.ropeGot.mode ≠ mStandby := not_not_intro hm
  have hexec : exec (.profile .ok k dir adapted b) s = .next (if u.linkIsUp (chSlot k) then u.sendProfiles (chSlot k) else u) :=
    congrArg Host.Outcome.next ((h.take ..).trans (if_neg hm'))
  have hdir : b2n dir < 2 := by cases dir <;> decide
  obtain ⟨htable, hrest⟩ := s.ropeGot.profTake_sram (k := k.val) hdir adapted b
  obtain ⟨hlearned, hmram⟩ := s.ropeGot.profTake_learned k.isLt (b2n dir) adapted b
  have hdue := s.ropeGot.profTake_due k (b2n dir) adapted b
  have hsent : ((if u.linkIsUp (chSlot k) then u.sendProfiles (chSlot k) else u).link (chSlot k)).profDue = (u.link (chSlot k)).profDue ∧
      (if u.linkIsUp (chSlot k) then u.sendProfiles (chSlot k) else u) =
        { u with links := (if u.linkIsUp (chSlot k) then u.sendProfiles (chSlot k) else u).links } := by
    split
    · exact u.sendProfiles_spec _
    · exact ⟨rfl, rfl⟩
  generalize (if u.linkIsUp (chSlot k) then u.sendProfiles (chSlot k) else u) = t at hexec hsent
  obtain ⟨hprof, hframe⟩ := hsent
  refine ⟨t, hexec, ?_, by rw [hprof]; exact hdue, fun i hi => ?_, ?_, ?_⟩
  · rw [hframe]
    exact hlearned
  · have hlen : i < (b.take 512).length := by rw [List.length_take]; exact hi
    have hbyte := mget_of_mslice htable hlen
    rw [hframe]
    refine hbyte.trans ?_
    rw [List.getElem_take, List.getD_eq_getElem]
  · rw [hframe]
    exact hrest
  · rw [hframe]
    exact hmram

/-! ### Verdicts, the alarm and the park commit (R69, R409) -/

/-- R409. The query in hand has ended. -/
def State.queryEnded (s : State) : State := { s with dup := { s.dup with query := none } }

theorem exec_cmpVerdict {s : State} (h : s.RopeOpen) (hm : s.mode = mStandby) {u : Task} (d : Bool) (y : Word) {y' at_ : Nat}
    (hq : s.dup.query = some (u.val, y', at_)) : exec (.cmpVerdict .ok u d y) s =
      .next (if !d && (s.healthy && s.fbit Reg.DUP_STAT_PEER_HEALTHY) then s.ropeGot.queryEnded.resolveAgree else s.ropeGot.queryEnded) := by
  have hq' : s.ropeGot.dup.query = some (u.val, y', at_) := hq
  have hm' : ¬ (u.val ≠ u.val ∨ s.ropeGot.mode ≠ mStandby) := fun ho => ho.elim (· rfl) (· hm)
  show execCmpVerdict .ok u d y s = _
  unfold execCmpVerdict
  rw [h.take]
  simp only [hq']
  rw [if_neg hm']
  rfl

/-- R409. A verdict against the standby, or with a module not healthy, ends the query. -/
theorem cmpVerdict_ends {s : State} (h : s.RopeOpen) (hm : s.mode = mStandby) {u : Task} {d : Bool} (y : Word) {y' at_ : Nat}
    (hq : s.dup.query = some (u.val, y', at_)) (hd : d = true ∨ (s.healthy && s.fbit Reg.DUP_STAT_PEER_HEALTHY) = false) :
    s.Does (.cmpVerdict .ok u d y) fun t => t.dup = { s.dup with query := none, rxSeq := (s.dup.rxSeq + 1) % 65536, naked := false } ∧
      t = { s with dup := t.dup } := by
  refine ⟨s.ropeGot.queryEnded, (exec_cmpVerdict h hm d y hq).trans (congrArg Host.Outcome.next (if_neg ?_)), rfl, rfl⟩
  rcases hd with hd | hd <;> simp [hd]

/-- Table 14.5. A full set is asked for, and taken once it is in. -/
theorem State.resolveAgree_spec {s : State} (h : s.RopeOpen) {t : State} (hframe : t = { s with time := t.time, power := t.power, dup := t.dup }) :
    t.resolveAgree.dup.resyncWait = true ∧ t.resolveAgree.dup.query = t.dup.query ∧
      (s.RopeSent t.resolveAgree [(0x03, [])] ∧ t.resolveAgree.dup.stale = true ∧ t.resolveAgree.fbit Reg.DUP_STAT_BELAY_OK = false ∧
        t.resolveAgree.sram = s.sram) ∧ t.resolveAgree.time = t.time ∧
      t.resolveAgree = { t with regs := t.resolveAgree.regs, dup := t.resolveAgree.dup, net := t.resolveAgree.net } := by
  have hup : t.ropeUp = true := by
    rw [hframe]
    exact h.up
  have hnet : t.net = s.net := by rw [hframe]
  have hsram : t.sram = s.sram := by rw [hframe]
  let u : State := { t with dup := { t.dup with resyncWait := true } }
  have hbelay : u.belayStale.ropeUp = true := (State.fbit_fset_apart _ (by decide) (by decide) (by decide)).trans hup
  have heq : t.resolveAgree = u.belayStale.ropeSend 0x03 [] := rfl
  rw [heq, State.ropeSend_of_up hbelay]
  refine ⟨rfl, rfl, ⟨?_, rfl, State.fbit_fput_same _ false (by decide), hsram⟩, rfl, rfl⟩
  rw [State.RopeSent, ← hnet]
  rfl

/-- R409. A verdict that agrees with the standby, both modules healthy, asks for a full set. -/
theorem cmpVerdict_asks {s : State} (h : s.RopeOpen) (hm : s.mode = mStandby) {u : Task} {d : Bool} (y : Word) {y' at_ : Nat}
    (hq : s.dup.query = some (u.val, y', at_)) (hd : d = false) (hown : s.healthy = true) (hpeer : s.fbit Reg.DUP_STAT_PEER_HEALTHY = true) :
    s.Does (.cmpVerdict .ok u d y) fun t => t.dup.query = none ∧ t.dup.resyncWait = true ∧
      (s.RopeSent t [(0x03, [])] ∧ t.dup.stale = true ∧ t.fbit Reg.DUP_STAT_BELAY_OK = false ∧ t.sram = s.sram) ∧
      t = { s with regs := t.regs, dup := t.dup, net := t.net } := by
  obtain ⟨hwait, hquery, hask, -, hframe⟩ := State.resolveAgree_spec h (t := s.ropeGot.queryEnded) rfl
  exact ⟨_, (exec_cmpVerdict h hm d y hq).trans (congrArg Host.Outcome.next (if_pos (by simp [hd, hown, hpeer]))), hquery, hwait, hask, hframe⟩

/-- R409. No verdict has come up to `due`. -/
def State.verdictLate (s : State) (due : Nat) : State := (s.toMono due).queryEnded.resolveAgree

theorem execCmpVerdictTimeout_eq (s : State) : execCmpVerdictTimeout s = .next (match s.dup.query with
  | some (_, _, at_) => if s.mode ≠ mStandby then s else s.verdictLate (at_ + 100000000)
  | none => s) := rfl

theorem State.verdictLate_spec {s : State} (h : s.RopeOpen) (due : Nat) :
    (s.verdictLate due).dup.query = none ∧ (s.verdictLate due).dup.resyncWait = true ∧
      (s.RopeSent (s.verdictLate due) [(0x03, [])] ∧ (s.verdictLate due).dup.stale = true ∧
        (s.verdictLate due).fbit Reg.DUP_STAT_BELAY_OK = false ∧ (s.verdictLate due).sram = s.sram) ∧ due ≤ (s.verdictLate due).time.mono := by
  obtain ⟨hwait, hquery, hask, htime, -⟩ := State.resolveAgree_spec h (t := (s.toMono due).queryEnded) rfl
  refine ⟨hquery, hwait, hask, ?_⟩
  rw [State.verdictLate, htime]
  exact s.le_toMono due

/-- R409. 100 ms without a verdict count as one that agrees. -/
theorem cmpVerdictTimeout_completes {s : State} (h : s.RopeOpen) (hm : s.mode = mStandby) {t' y' at_ : Nat}
    (hq : s.dup.query = some (t', y', at_)) :
    s.Does .cmpVerdictTimeout fun t => t.dup.query = none ∧ t.dup.resyncWait = true ∧
      (s.RopeSent t [(0x03, [])] ∧ t.dup.stale = true ∧ t.fbit Reg.DUP_STAT_BELAY_OK = false ∧ t.sram = s.sram) ∧
      at_ + 100000000 ≤ t.time.mono := by
  refine ⟨s.verdictLate (at_ + 100000000), (execCmpVerdictTimeout_eq s).trans ?_, State.verdictLate_spec h _⟩
  rw [hq]
  exact congrArg Host.Outcome.next (if_neg (not_not_intro hm))

/-- R69. The peer names the park commit. -/
theorem park_completes {s : State} (h : s.RopeOpen) (hm : s.mode = mStandby) (n : BitVec 16) :
    s.Does (.park .ok n) fun t => t.power.park = 3 ∧ t.power.parkNum < 65536 ∧ t = { s with power := t.power, dup := t.dup } := by
  have hm' : ¬ s.ropeGot.mode ≠ mStandby := not_not_intro hm
  refine ⟨_, congrArg Host.Outcome.next ((h.take ..).trans (if_neg hm')), rfl, ?_, rfl⟩
  have hnum (c : Prop) [Decidable c] (i : Int) : (if c then n.toNat else unsgn 16 i) < 65536 := by
    split
    · exact n.isLt
    · have hpos : 0 ≤ i % (2 ^ 16 : Nat) := Int.emod_nonneg _ (by decide)
      have hlt : i % (2 ^ 16 : Nat) < (2 ^ 16 : Nat) := Int.emod_lt_of_pos _ (by decide)
      unfold unsgn
      omega
  exact hnum ..

theorem State.le_toDev (s : State) (t : Nat) : t ≤ (s.toDev t).time.dev := by
  by_cases h : t ≤ s.time.dev
  · rwa [State.toDev_past s h]
  · rw [State.toDev_dev s (by omega)]

/-- R409. The alarm of resynchronisations has ended at `due`. -/
def State.alarmEnded (s : State) (due : Nat) : State :=
  (({ s.toDev due with dup := { (s.toDev due).dup with resyncAt := [] } }).fset Reg.DUP_FLAGS_CMP_ALARM 0).fset Reg.CMP_STAT_RESYNC_HOUR 0

theorem execResyncAlarmClear_eq (s : State) : execResyncAlarmClear s =
    .next (if !s.fbit Reg.DUP_FLAGS_CMP_ALARM then s else s.alarmEnded (s.dup.resyncAt.headD 0 + 3600000000000)) := rfl

theorem State.alarmEnded_spec (s : State) (due : Nat) :
    (s.alarmEnded due).fbit Reg.DUP_FLAGS_CMP_ALARM = false ∧ (s.alarmEnded due).fget Reg.CMP_STAT_RESYNC_HOUR = 0 ∧
      due ≤ (s.alarmEnded due).time.dev ∧ (s.alarmEnded due).dup = { s.dup with resyncAt := [] } ∧
      s.alarmEnded due = { s with
        time := (s.alarmEnded due).time, power := (s.alarmEnded due).power, regs := (s.alarmEnded due).regs, dup := (s.alarmEnded due).dup } := by
  have hreach := s.le_toDev due
  have hframe : s.toDev due = { s with time := (s.toDev due).time, power := (s.toDev due).power } := by
    unfold State.toDev
    split
    · rfl
    · rfl
  unfold State.alarmEnded
  generalize s.toDev due = u at hreach hframe
  refine ⟨?_, State.fget_fset_same .., hreach, ?_, ?_⟩
  · exact (State.fbit_fset_addr _ _ (by decide)).trans (State.fbit_fput_same _ false (by decide))
  · rw [hframe]
    rfl
  · rw [hframe]
    rfl

/-- R409. An hour without a resynchronisation ends the alarm. -/
theorem resyncAlarmClear_completes {s : State} (halarm : s.fbit Reg.DUP_FLAGS_CMP_ALARM = true) :
    s.Does .resyncAlarmClear fun t => t.fbit Reg.DUP_FLAGS_CMP_ALARM = false ∧ t.fget Reg.CMP_STAT_RESYNC_HOUR = 0 ∧
      s.dup.resyncAt.headD 0 + 3600000000000 ≤ t.time.dev ∧ t.dup = { s.dup with resyncAt := [] } ∧
      t = { s with time := t.time, power := t.power, regs := t.regs, dup := t.dup } :=
  ⟨s.alarmEnded (s.dup.resyncAt.headD 0 + 3600000000000),
    (execResyncAlarmClear_eq s).trans (congrArg Host.Outcome.next (if_neg (by simp [halarm]))), s.alarmEnded_spec _⟩

/-- Settles O44: `State.RopeOpen.take` has what a frame taken does, `State.Belayed` what leaves the set, and each command has a lemma of its own. -/
theorem belayCompletes : Obligations.BelayCompletes := fun _ h =>
  ⟨belayReq_completes h, fun u y m => cmpQuery_completes h u y m, fun hm =>
    ⟨fun _ => belayDelta_follows h hm, fun _ => belayDelta_asks h hm, belayFull_first h hm, fun g _ => belayFull_whole h hm g,
      fun g _ b l => belayFull_asks h hm g b l, profile_completes h hm,
      fun _ _ y _ _ hq => ⟨cmpVerdict_ends h hm y hq, cmpVerdict_asks h hm y hq, cmpVerdictTimeout_completes h hm hq⟩, park_completes h hm⟩,
    resyncAlarmClear_completes⟩

end Sys2Proof.Machine
end

section
namespace Sys2Proof.Machine

/-! ### What leaves the commit number (R28) -/

/-- `t` has the commit number's register of `s`. -/
structure State.Counted (s t : State) : Prop where
  kept : mget 0 t.regs 0x40020880 = mget 0 s.regs 0x40020880

theorem State.Counted.of_regs {s t : State} (h : t.regs = s.regs) : s.Counted t := ⟨by rw [h]⟩
theorem State.Counted.refl (s : State) : s.Counted s := ⟨rfl⟩
theorem State.Counted.trans {s t u : State} (h : s.Counted t) (h' : t.Counted u) : s.Counted u := ⟨h'.kept.trans h.kept⟩
theorem State.Level.counted {s t : State} (h : s.Level t) : s.Counted t := ⟨(congrFun h.2 0x40020880 :)⟩
theorem State.Still.counted {s t : State} (h : s.Still t) : s.Counted t := h.level.counted
theorem State.Counted.still {s t u : State} (h : s.Counted t) (h' : t.Still u) : s.Counted u := h.trans h'.level.counted
theorem State.Counted.level {s t u : State} (h : s.Counted t) (h' : t.Level u) : s.Counted u := h.trans h'.counted
theorem State.Counted.fset {s t : State} (h : s.Counted t) {f : Fld} (hf : f.addr ≠ 0x40020880) (v : Nat) : s.Counted (t.fset f v) :=
  h.trans ⟨mget_mset_other (Ne.symm hf)⟩
theorem State.Counted.ite {s t u : State} {c : Prop} [Decidable c] (h : s.Counted t) (h' : s.Counted u) : s.Counted (if c then t else u) := by
  split
  · exact h
  · exact h'
theorem State.Counted.foldl {α : Type} {l : List α} {f : State → α → State} {s t : State} (h : s.Counted t)
    (hf : ∀ x ∈ l, ∀ s : State, s.Counted (f s x)) : s.Counted (l.foldl f t) :=
  List.foldlRecOn (motive := fun t => s.Counted t) _ _ h fun t ht x hx => ht.trans (hf x hx t)
theorem State.Counted.each {l : List Nat} {f : State → Nat → State} {s t : State} (h : s.Counted t)
    (hf : ∀ x ∈ l, ∀ s : State, s.Counted (f s x)) : s.Counted (t.each l f) := h.foldl hf

theorem State.Counted.fget {s t : State} (h : s.Counted t) : t.fget Reg.COMMIT_NUM_CCOUNT = s.fget Reg.COMMIT_NUM_CCOUNT :=
  congrArg (fieldOf · 0 16) h.kept

/-! The changes under way (R204 to R207). -/

@[simp] theorem State.nativeAbort_still (s : State) (code detail : Nat) : s.Still (s.nativeAbort code detail) := by
  unfold State.nativeAbort State.nativeEnd State.nativeRes State.ringState
  split <;> simp -implicitDefEqProofs +decide
@[simp] theorem State.switchAbort_still (s : State) (code detail : Nat) : s.Still (s.switchAbort code detail) := by
  unfold State.switchAbort
  split
  · split <;> simp -implicitDefEqProofs +decide
  · simp
@[simp] theorem State.revertAbort_still (s : State) (code detail : Nat) : s.Still (s.revertAbort code detail) := by
  unfold State.revertAbort
  split <;> simp -implicitDefEqProofs +decide
@[simp] theorem State.changeAbort_still (s : State) (detail : Nat) : s.Still (s.changeAbort detail) := by
  unfold State.changeAbort
  simp

/-! The message bus (R334 to R355). -/

@[simp] theorem State.canListen_still (s : State) (c : Nat) : s.Still (s.canListen c) := by
  unfold State.canListen
  simp -implicitDefEqProofs +decide [Reg.CAN_STAT_LISTEN]
@[simp] theorem State.canArm_still (s : State) (k : Nat) : s.Still (s.canArm k) := by
  unfold State.canArm
  simp -implicitDefEqProofs +decide
@[simp] theorem State.canContent_still (s : State) (k : Nat) (m : CanMsg) (transmit : Bool) : s.Still (s.canContent k m transmit) := by
  unfold State.canContent
  simp -implicitDefEqProofs +decide
@[simp] theorem State.canCancel_still (s : State) (k p : Nat) : s.Still (s.canCancel k p) := by
  unfold State.canCancel State.canWithdraw
  dsimp only
  split
  · simp
  · split <;> simp -implicitDefEqProofs +decide [Reg.CAN_FLAGS_CANCEL_LATE]
@[simp] theorem State.canRequest_still (s : State) (g obj code : Nat) (w : List Nat) : s.Still (s.canRequest g obj code w) := by
  unfold State.canRequest State.canRecover
  simp -implicitDefEqProofs +decide [Reg.CAN_STAT_RECOVERING]

/-! The door dies (R231, R238). -/

@[simp] theorem State.doorEvent_still (s : State) (k ev : Nat) : s.Still (s.doorEvent k ev) := by
  unfold State.doorEvent
  simp -implicitDefEqProofs +decide
theorem State.watch_still (s : State) (k : Nat) {f : State → State} (h : s.Still (f s)) : s.Still (s.watch k f) := by
  refine h.trans ?_
  unfold State.watch State.proofCheck State.plaus
  simp -implicitDefEqProofs +decide
@[simp] theorem State.setShadow_still (s : State) (n : Nat) (b : Bool) : s.Still (s.setShadow n b) := by
  unfold State.setShadow
  split
  · exact .refl s
  · refine State.Still.each (fun s k => ?_) (by simp -implicitDefEqProofs +decide [Reg.DRV_MODE_SHADOW, Reg.DRV_STAT_SHADOW])
    split
    · unfold State.gatesOff State.shadowTake
      simp -implicitDefEqProofs +decide
    · exact s.watch_still k (by simp -implicitDefEqProofs +decide)

/-! The load switches and the field supplies (R293, R323). -/

@[simp] theorem State.loadTo_still (s : State) (x st cause : Nat) : s.Still (s.loadTo x st cause) := by
  unfold State.loadTo
  simp
@[simp] theorem State.loadCause_still (s : State) (x cause : Nat) : s.Still (s.loadCause x cause) := by
  unfold State.loadCause
  simp -implicitDefEqProofs +decide [Reg.LSW_CH_FLT_CAUSES]
@[simp] theorem State.loadEvent_still (s : State) (x ev : Nat) : s.Still (s.loadEvent x ev) := by
  unfold State.loadEvent
  simp -implicitDefEqProofs +decide
@[simp] theorem State.enterTripped_still (s : State) (x cause : Nat) : s.Still (s.enterTripped x cause) := by
  unfold State.enterTripped
  simp -implicitDefEqProofs +decide [Reg.LSW_CH_CNT_TRIPS, Reg.LSW_FLAGS_TRIP_SEEN]
@[simp] theorem State.turnOn_still (s : State) (x : Nat) : s.Still (s.turnOn x) := by
  unfold State.turnOn
  simp -implicitDefEqProofs +decide
@[simp] theorem State.turnOnAgain_still (s : State) (x : Nat) : s.Still (s.turnOnAgain x) := by
  unfold State.turnOnAgain
  dsimp only
  split <;> simp -implicitDefEqProofs +decide
@[simp] theorem State.restarted_still (s : State) (x : Nat) (thermal : Bool) : s.Still (s.restarted x thermal) := by
  unfold State.restarted
  simp -implicitDefEqProofs +decide [Reg.LSW_CH_CNT_RESTARTS]
@[simp] theorem State.offRows_still (s : State) (x : Nat) : s.Still (s.offRows x) := by
  unfold State.offRows
  simp -implicitDefEqProofs +decide
@[simp] theorem State.deferredRow_still (s : State) (x : Nat) : s.Still (s.deferredRow x) := by
  unfold State.deferredRow
  simp -implicitDefEqProofs +decide
@[simp] theorem State.backFrom_still (s : State) (x : Nat) : s.Still (s.backFrom x) := by
  unfold State.backFrom
  split <;> simp -implicitDefEqProofs +decide
@[simp] theorem State.standOff_still (s : State) (x : Nat) : s.Still (s.standOff x) := by
  unfold State.standOff
  simp -implicitDefEqProofs +decide
@[simp] theorem State.firstRow_still (s : State) (x : Nat) (held : List Nat) : s.Still (s.firstRow x held) := by
  unfold State.firstRow State.releaseCh State.trip
  cases held <;> simp -implicitDefEqProofs +decide
@[simp] theorem State.setStby_still (s : State) (n : Nat) (b : Bool) : s.Still (s.setStby n b) := by
  refine State.Still.each (fun s x => ?_) (by simp -implicitDefEqProofs +decide [Reg.LSW_MODE_STBY, Reg.LSW_STAT_STBY])
  unfold State.loadRows
  simp -implicitDefEqProofs +decide
@[simp] theorem State.setFioStby_still (s : State) (f : Nat) (b : Bool) : s.Still (s.setFioStby f b) := by
  unfold State.setFioStby
  simp -implicitDefEqProofs +decide [Reg.FIO_MODE_STBY, Reg.FIO_STAT_STBY]

/-! The parts of a commit point (R23, R51, R69, R389). -/

@[simp] theorem State.refuseLate_still (s : State) (x verb sub : Nat) : s.Still (s.refuseLate x verb sub) := by
  unfold State.refuseLate
  simp -implicitDefEqProofs +decide
@[simp] theorem State.standBy_still (s : State) (n : Nat) (b : Bool) : s.Still (s.standBy n b) := by
  unfold State.standBy
  simp -implicitDefEqProofs
@[simp] theorem State.holdStep_still (s : State) (k : Nat) (h : Hold) : s.Still (s.holdStep k h) := by
  unfold State.holdStep
  dsimp only
  split
  · split
    · split <;> simp
    · simp
  · simp
  · simp
@[simp] theorem State.replyCommit_still (s : State) : s.Still s.replyCommit := by
  unfold State.replyCommit
  refine State.Still.foldl (fun s p => ?_) (by simp)
  split <;> simp
@[simp] theorem State.endMaint_still (s : State) : s.Still s.endMaint := by
  unfold State.endMaint
  extract_lets holds net t u
  have hu : s.Still u := State.Still.each (fun s c => by simp [Reg.CAN_STAT_LOOP]) (by simp [t])
  split
  · split
    · exact hu
    · have hidle : u.Still ((u.fset Reg.LB_STAT_RESULT 6).fset Reg.LB_STAT_BUSY 0) := by simp +decide
      exact hu.trans hidle
  · exact hu
@[simp] theorem State.takeoverEnd_still (s : State) (done : List Ended) : s.Still (s.takeoverEnd done) := by
  unfold State.takeoverEnd
  split
  · dsimp only
    split <;> simp +decide
  · simp
@[simp] theorem State.resyncTo_still (s : State) (n : Nat) (out : Bytes) : s.Still (s.resyncTo n out) := by
  unfold State.resyncTo
  simp
@[simp] theorem State.resyncAgain_still (s : State) (n : Nat) : s.Still (s.resyncAgain n) := by
  unfold State.resyncAgain State.sendResync
  simp

theorem State.carriedDie_counted (s : State) {n : Nat} (hn : n < 8) : s.Counted (s.carriedDie n) := by
  unfold State.carriedDie
  extract_lets l sync back t u
  have ht : s.Counted t := .ite (.refl s) (.of_regs rfl)
  have hu : s.Counted u := .ite ((ht.fset (by simp only [Reg.LINK_STAT_ORPHAN]; omega) 0).fset (by simp only [Reg.LINK_STAT_ADMITTED]; omega) 1) ht
  exact .ite (hu.still (State.standBy_still ..)) hu

theorem State.setPark_counted (s : State) : s.Counted s.setPark := by
  unfold State.setPark
  extract_lets t u v power time w
  have ht : s.Counted t := ((State.Counted.refl s).fset (by decide) _).fset (by decide) _
  have hu : s.Counted u := ht.each fun n hn s => by
    have hn := satSlots_lt hn
    have hmark (f : Fld) (hf : f.addr = 0x40020800 + n * 0x10) : f.addr ≠ 0x40020880 := by omega
    refine (State.Counted.fset ?_ (hmark (Reg.LINK_STAT_UP n) rfl) _).fset (hmark (Reg.LINK_STAT_ADMITTED n) rfl) _
    exact .of_regs rfl
  have hv : s.Counted v := hu.each fun c _ s => (s.setCtl_still ..).counted
  have hw : s.Counted w := hv.trans (.of_regs rfl)
  exact hw.still (State.cairnAll_still ..)

theorem State.changeMode_counted (s : State) (r : ModeReq) : s.Counted (s.changeMode r) := by
  unfold State.changeMode
  extract_lets old src t u safe took active listening dup driving kept
  have ht : s.Counted t := .of_regs rfl
  have hu : s.Counted u := .ite (ht.still (State.endMaint_still ..)) ht
  have hsafe : s.Counted safe := (hu.level (State.nowSafe_level ..)).still (State.changeAbort_still ..)
  have hlistening : s.Counted listening := (hu.level (State.setMode_level ..)).each fun c _ s =>
    .fset (s.setCtl_still ..).counted (show 0x40030000 + c * 0x1000 ≠ 0x40020880 by omega) 0
  have hdriving : s.Counted driving := hlistening.trans (.of_regs rfl)
  have hkept : s.Counted kept := hu.level (State.setMode_level ..)
  refine .ite (hsafe.each fun c _ s => .ite (State.canListen_still ..).counted (.refl s)) (.ite (.ite ?_ hdriving) (.ite ?_ hkept))
  · exact ((hdriving.fset (by decide) 1).still (State.fsat_still (by decide))).level (State.peerEvent_level ..)
  · exact hkept.trans (.of_regs rfl)

theorem State.takeModeReq_counted (s : State) : s.Counted s.takeModeReq := by
  unfold State.takeModeReq
  split
  · split
    · dsimp only
      split
      · refine State.Counted.trans ?_ (State.refuseLate_still ..).counted
        exact .of_regs rfl
      · exact .of_regs rfl
    · exact .ite (s.changeMode_counted _) (.refl s)
  · exact .refl s

theorem State.commitEnded_counted (s : State) : s.Counted s.commitEnded := by
  unfold State.commitEnded
  extract_lets done eng t u power v dup w
  have ht : s.Counted t := .of_regs rfl
  have hu : s.Counted u := ht.still (State.takeoverEnd_still ..)
  have hv : s.Counted v := .ite (hu.trans (.of_regs rfl)) hu
  have hw : s.Counted w := .ite (hv.trans (.of_regs rfl)) hv
  exact .ite hw (hw.foldl fun e _ s => .foldl (.refl s) fun r _ s => (State.canRequest_still ..).counted)

theorem State.parkCommit_counted (s : State) (num : Nat) : s.Counted (s.parkCommit num) :=
  .ite ((((State.Counted.refl s).level (State.setMode_level ..)).still (State.changeAbort_still ..)).still (State.setClaim_still ..) |>.trans
    (State.setPark_counted _)) (.refl s)

theorem State.holdsStep_counted (s : State) : s.Counted s.holdsStep := by
  unfold State.holdsStep
  extract_lets t net
  have ht : s.Counted t := State.Counted.each (.refl s) fun k _ s => by
    split
    · exact .ite (State.holdStep_still ..).counted (.refl s)
    · exact .refl s
  clear_value t
  exact ht.trans (.of_regs rfl)

end Sys2Proof.Machine
end

section
namespace Sys2Proof.Machine

/-! ### COMMIT goes on through misses (R27, R31, R36) -/

/-- `t` sends COMMIT as `s` does: it has the commit number of `s`, its mode or SAFE, and its marks of the power-fail save. -/
structure State.Commits (s t : State) : Prop where
  counted : s.Counted t
  mode : t.mode = s.mode ∨ t.mode = mSafe
  committed : t.power.committed = s.power.committed
  hold : t.power.hold = s.power.hold

theorem State.Commits.refl (s : State) : s.Commits s := ⟨.refl s, .inl rfl, rfl, rfl⟩
theorem State.Commits.trans {s t u : State} (h : s.Commits t) (h' : t.Commits u) : s.Commits u where
  counted := h.counted.trans h'.counted
  mode := h'.mode.elim (fun hm => hm ▸ h.mode) .inr
  committed := h'.committed.trans h.committed
  hold := h'.hold.trans h.hold
theorem State.Still.commits {s t : State} (h : s.Still t) : s.Commits t := ⟨h.counted, .inl h.steady.mode, congrArg Power.committed h.2, congrArg Power.hold h.2⟩
/-- What leaves the registers and the marks of the save. -/
theorem State.Commits.of_regs {s t : State} (h : t.regs = s.regs) (hc : t.power.committed = s.power.committed) (hh : t.power.hold = s.power.hold) :
    s.Commits t := ⟨.of_regs h, .inl (by rw [State.mode, State.fget, h]; rfl), hc, hh⟩
theorem State.Commits.still {s t u : State} (h : s.Commits t) (h' : t.Still u) : s.Commits u := h.trans h'.commits
theorem State.commits_fset (s : State) {f : Fld} (hf : f.addr ≠ 0x40020880) (hm : f.addr ≠ 0x40000004) (v : Nat) : s.Commits (s.fset f v) :=
  ⟨.fset (.refl s) hf v, .inl (State.fget_fset_addr s (Ne.symm hm)), rfl, rfl⟩
theorem State.Commits.ite {s t u : State} {c : Prop} [Decidable c] (h : s.Commits t) (h' : s.Commits u) : s.Commits (if c then t else u) := by
  split
  · exact h
  · exact h'
theorem State.Commits.foldl {α : Type} {l : List α} {f : State → α → State} {s t : State} (h : s.Commits t)
    (hf : ∀ (s : State), ∀ x ∈ l, s.Commits (f s x)) : s.Commits (l.foldl f t) :=
  List.foldlRecOn (motive := fun t => s.Commits t) _ _ h fun t ht x hx => ht.trans (hf t x hx)

/-- R27. A state that sends COMMIT still does. -/
theorem State.Commits.commits {s t : State} (h : s.Commits t) (hs : s.commits = true) : t.commits = true := by
  rcases h.mode with hm | hm
  · simpa [State.commits, State.running, State.driving, h.committed, h.hold, hm] using hs
  · simp [State.commits, h.committed, h.hold] at hs ⊢
    simp [hm, hs]

theorem State.enterSafe_commits (s : State) (reason detail : Nat) (stop : Option (Nat × Nat)) : s.Commits (s.enterSafe reason detail stop) := by
  obtain ⟨hlevel, hmode, -⟩ := s.givenUp_level reason detail stop
  have hpower := (s.givenUp_power reason detail stop).1
  have hgiven : s.Commits (s.givenUp reason detail stop) :=
    ⟨hlevel.counted, .inl hmode, (congrArg Power.committed hpower :), (congrArg Power.hold hpower :)⟩
  rw [State.enterSafe_eq]
  refine .ite (.refl s) (.ite ?_ ?_)
  · exact ⟨hgiven.counted.level (State.nowSafe_level ..), .inr (State.nowSafe_mode ..), by rw [State.nowSafe_power, hgiven.committed],
      by rw [State.nowSafe_power, hgiven.hold]⟩
  · refine State.Commits.trans ?_ (State.stageSafe_still _).commits
    exact hgiven.trans (.of_regs rfl rfl rfl)

theorem State.handover_commits (s : State) (cause : Nat) : s.Commits (s.handover cause) := by
  refine .ite (.refl s) (.ite ?_ ?_)
  · exact State.Still.commits (by simp +decide)
  · exact (s.commits_fset (by decide) (by decide) _).trans (State.enterSafe_commits ..)

theorem State.exclude_commits (s : State) {n : Nat} (hn : n < 8) (cause : Nat) : s.Commits (s.exclude n cause) := by
  have hmark (f : Fld) (hf : f.addr = 0x40020800 + n * 0x10) : f.addr ≠ 0x40020880 ∧ f.addr ≠ 0x40000004 := by omega
  obtain ⟨hexcluded, hexcluded'⟩ := hmark (Reg.LINK_STAT_EXCLUDED n) rfl
  obtain ⟨hadmitted, hadmitted'⟩ := hmark (Reg.LINK_STAT_ADMITTED n) rfl
  have hrec : s.Commits ((s.excludeMarked n).recordFrom cDIE_EXCLUDED n 31 (leBytes 1 n ++ leBytes 1 cause)) :=
    (((s.commits_fset hexcluded hexcluded' 1).trans (State.commits_fset _ hadmitted hadmitted' 0)).trans
      (State.commits_fset _ (by decide) (by decide) 1)).still (State.recordFrom_still ..)
  rw [State.exclude_eq]
  exact .ite (.refl s) (.ite (hrec.trans (State.handover_commits ..)) hrec)

theorem State.miss_commits (s : State) {n : Nat} (hn : n < 8) (cause : Nat) : s.Commits (s.miss n cause) := by
  have hmark (f : Fld) (hf : f.addr = 0x40020800 + n * 0x10) : f.addr ≠ 0x40020880 ∧ f.addr ≠ 0x40000004 := by omega
  obtain ⟨hadmitted, hadmitted'⟩ := hmark (Reg.LINK_STAT_ADMITTED n) rfl
  obtain ⟨happlied, happlied'⟩ := hmark (Reg.LINK_STAT_APPLIED n) rfl
  obtain ⟨horphan, horphan'⟩ := hmark (Reg.LINK_STAT_ORPHAN n) rfl
  obtain ⟨hmiss, hmiss'⟩ := hmark (Reg.LINK_STAT_MISS_60S n) rfl
  have hmarked : s.Commits (s.missMarked n) :=
    (((s.commits_fset hadmitted hadmitted' 0).trans (State.commits_fset _ happlied happlied' 0)).trans
      (State.commits_fset _ horphan horphan' 1)).trans (State.commits_fset _ (by decide) (by decide) 1)
  have hrec : s.Commits (((s.missMarked n).lsat (Reg.LINK_MISS_MISSED_COMMITS n)).recordFrom cDIE_MISS n 31 (leBytes 1 n ++ leBytes 1 cause)) :=
    hmarked.still (by simp)
  have hmissed : s.Commits (s.missed n cause) := hrec.trans (by
    unfold State.missed State.missClosed
    dsimp only
    split <;> exact .of_regs rfl rfl rfl)
  have hwindow : s.Commits ((s.missed n cause).missWindow n) := by
    refine hmissed.trans (State.Commits.trans ?_ (State.commits_fset _ hmiss hmiss' _))
    exact .of_regs rfl rfl rfl
  rw [State.miss_eq]
  exact .ite (hwindow.trans (State.exclude_commits _ hn 1)) hwindow

theorem State.toDev_commits (s : State) (t : Nat) : s.Commits (s.toDev t) := .ite (.refl s) (.of_regs rfl rfl rfl)
theorem State.captureRanges_commits (s : State) : s.Commits s.captureRanges := .ite (.of_regs rfl rfl rfl) (.refl s)

theorem State.emitCommit_commits (s : State) : s.Commits s.emitCommit := by
  unfold State.emitCommit
  refine .ite (.refl s) ?_
  extract_lets t u out v w time dup
  have ht : s.Commits t := (s.toDev_commits _).trans (State.captureRanges_commits _)
  have hu : s.Commits u := ht.foldl fun s n hn => by
    have hn := satSlots_lt (List.mem_of_mem_filter hn)
    dsimp only
    split_ifs
    · exact s.miss_commits hn 5
    · exact s.miss_commits hn 2
    · exact s.miss_commits hn 1
    · exact .refl s
  have hv : s.Commits v := hu.foldl fun s n _ => .of_regs rfl rfl rfl
  have hw : s.Commits w := .ite (hv.trans (.of_regs rfl rfl rfl)) hv
  exact hw.trans (.of_regs rfl rfl rfl)

/-- R23, R28. The commit point counts one commit on. -/
theorem State.commitPoint_count {s : State} (h : s.commits = true) :
    s.commitPoint.fget Reg.COMMIT_NUM_CCOUNT = (s.fget Reg.COMMIT_NUM_CCOUNT + 1) % 65536 := by
  unfold State.commitPoint
  extract_lets t u num carried v w x
  have ht := s.emitCommit_commits
  have hcount : u.fget Reg.COMMIT_NUM_CCOUNT = s.fget Reg.COMMIT_NUM_CCOUNT := (ht.trans (State.toDev_commits _ _)).counted.fget
  have himage : (u.commitImage num carried).fget Reg.COMMIT_NUM_CCOUNT = (s.fget Reg.COMMIT_NUM_CCOUNT + 1) % 65536 :=
    (State.fget_fset_same ..).trans (by rw [← hcount]; exact Nat.mod_mod ..)
  have hv : (u.commitImage num carried).Counted v := State.Counted.each (.refl _) fun n hn s =>
    s.carriedDie_counted (satSlots_lt (List.mem_of_mem_filter hn))
  have hw : (u.commitImage num carried).Counted w :=
    ((((hv.trans v.takeModeReq_counted).trans (State.commitEnded_counted _)).trans (State.parkCommit_counted _ _)).trans
      (State.holdsStep_counted _)).still (State.replyCommit_still _)
  have hx : (u.commitImage num carried).Counted x := hw.foldl fun n _ s => (State.resyncAgain_still ..).counted
  rw [if_neg (by simp [show t.commits = true from ht.commits h])]
  exact (hx.still (State.stageNow_still _)).fget.trans himage

end Sys2Proof.Machine
end

section
namespace Sys2Proof.Machine

/-! ### What outlasts the activations that are given up (R74, R157) -/

/-- The power-fail warning that registers `r` hold. -/
def warnOf (r : Nums) : Nat := fieldOf (mget 0 r Reg.PF_STAT_PF_WARN.addr) 1 1

/-- `t` has the power-fail warning of `s`, and its activations. -/
@[simp, reducible] def State.Warned (s t : State) : Prop := warnOf t.regs = warnOf s.regs ∧ t.eng.acts = s.eng.acts

theorem State.Warned.trans {s t u : State} (h : s.Warned t) (h' : t.Warned u) : s.Warned u := ⟨h'.1.trans h.1, h'.2.trans h.2⟩
theorem State.Warned.act {s t : State} (h : s.Warned t) (u : Nat) : t.act u = s.act u := congrArg (mget none · u) h.2

@[simp] theorem ite_warnOf {c : Prop} [Decidable c] {a b : Nums} : warnOf (if c then a else b) = if c then warnOf a else warnOf b := apply_ite ..
@[simp] theorem Engine.ite_acts {c : Prop} [Decidable c] {a b : Engine} : (if c then a else b).acts = if c then a.acts else b.acts := apply_ite ..

theorem foldl_warned_mem {α : Type} {l : List α} {f : State → α → State} {s : State} (h : ∀ x ∈ l, ∀ s : State, s.Warned (f s x)) :
    s.Warned (l.foldl f s) :=
  List.foldlRecOn (motive := fun t => s.Warned t) _ _ ⟨rfl, rfl⟩ fun t ht x hx => ht.trans (h x hx t)
@[simp] theorem foldl_warned {α : Type} {l : List α} {f : State → α → State} {s : State} (h : ∀ (s : State) x, s.Warned (f s x)) :
    s.Warned (l.foldl f s) := foldl_warned_mem fun x _ s => h s x
@[simp] theorem State.each_warned {l : List Nat} {f : State → Nat → State} {s : State} (h : ∀ (s : State) x, s.Warned (f s x)) :
    s.Warned (s.each l f) := foldl_warned h

@[simp] theorem State.fset_warned {s : State} {f : Fld} {v : Nat} (h : f.addr ≠ 0x40000014) : s.Warned (s.fset f v) :=
  ⟨State.fget_fset_addr (g := Reg.PF_STAT_PF_WARN) s (Ne.symm h), rfl⟩
@[simp] theorem State.fput_warned {s : State} {f : Fld} {v : Bool} (h : f.addr ≠ 0x40000014) : s.Warned (s.fput f v) := State.fset_warned h
@[simp] theorem State.fon_warned {s : State} {f : Fld} (h : f.addr ≠ 0x40000014) : s.Warned (s.fon f) := State.fset_warned h
@[simp] theorem State.fsat_warned {s : State} {f : Fld} {n : Nat} (h : f.addr ≠ 0x40000014) : s.Warned (s.fsat f n) := State.fset_warned h

@[simp] theorem State.record_warned (s : State) (code : Nat) (data : List Byte) : s.Warned (s.record code data) := by
  obtain ⟨hframe, hget⟩ := s.records_record code data
  exact ⟨hget Reg.PF_STAT_PF_WARN (by decide), by rw [hframe]⟩

@[simp] theorem State.preserve_warned (s : State) (b : Nat) : s.Warned (s.preserve b) := by
  unfold State.preserve State.ckAbandon
  split <;> simp -implicitDefEqProofs +decide
@[simp] theorem State.putBlk_warned (s : State) (b : Nat) (l : List Byte) : s.Warned (s.putBlk b l) := by
  unfold State.putBlk State.setDirty
  simp -implicitDefEqProofs
@[simp] theorem State.rollback_warned (s : State) (ts : Nat) : s.Warned (s.rollback ts) := by
  unfold State.rollback
  simp -implicitDefEqProofs
@[simp] theorem State.qRestore_warned (s : State) (ts : Nat) : s.Warned (s.qRestore ts) := by
  unfold State.qRestore
  simp -implicitDefEqProofs
@[simp] theorem State.taskBoundary_warned (s : State) : s.Warned s.taskBoundary := by
  unfold State.taskBoundary State.retireLane State.setLaneState
  simp -implicitDefEqProofs +decide
@[simp] theorem State.schedule_warned (s : State) : s.Warned s.schedule := by
  have hsettle : s.Warned s.scSettle := by
    unfold State.scSettle
    split <;> simp -implicitDefEqProofs
  unfold State.schedule
  simp -implicitDefEqProofs +decide [hsettle.1, hsettle.2]
@[simp] theorem State.setBuf_warned (s : State) (k : Nat) (x : CBuf) : s.Warned (s.setBuf k x) := by
  have hstat (hi lo : Nat) : (Fld.mk (0x40030100 + k / 64 * 0x1000 + k % 64 * 0x8) hi lo).addr ≠ 0x40000014 := by
    dsimp only
    omega
  have hid : (Reg.BUF_ID_ID (k / 64) (k % 64)).addr ≠ 0x40000014 := by
    dsimp only [Reg.BUF_ID_ID]
    omega
  unfold State.setBuf
  dsimp only
  exact .trans (t := { s with bufs := mset {} s.bufs k x }) ⟨rfl, rfl⟩ <| .trans (State.fput_warned (hstat 0 0)) <|
    .trans (State.fput_warned (hstat 1 1)) <| .trans (State.fput_warned (hstat 2 2)) <| .trans (State.fput_warned (hstat 3 3)) <|
    .trans (State.fput_warned (hstat 4 4)) <| .trans (State.fput_warned (hstat 5 5)) (State.fset_warned hid)
@[simp] theorem State.canUnholdAll_warned (s : State) (t : Nat) : s.Warned (s.canUnholdAll t) := by
  refine State.each_warned fun s k => ?_
  unfold State.canUnhold
  dsimp only
  split
  · exact ⟨rfl, rfl⟩
  · split <;> simp
@[simp] theorem State.releaseLocks_warned (s : State) (t : Nat) : s.Warned (s.releaseLocks t) := by
  unfold State.releaseLocks
  split <;> simp

/-- R153. An activation dropped is gone, and the others stand. -/
theorem State.dropAct_spec (s : State) {t : Nat} (ht : t < 24) : warnOf (s.dropAct t).regs = warnOf s.regs ∧
    ∀ u, (s.dropAct t).act u = if u = t then none else s.act u := by
  have hrun : (Reg.TASK_STAT_ACTIVE_RUN t).addr ≠ 0x40000014 := by
    simp only [Reg.TASK_STAT_ACTIVE_RUN]
    omega
  have hfree : s.Warned ((s.releaseLocks t).canUnholdAll t) := by simp
  have hdrop : (((s.releaseLocks t).canUnholdAll t).setAct t none).Warned (s.dropAct t) := by
    unfold State.dropAct
    simp -implicitDefEqProofs +decide [hrun]
  refine ⟨hdrop.1.trans hfree.1, fun u => (hdrop.act u).trans ?_⟩
  by_cases hu : u = t
  · rw [if_pos hu, hu]
    exact mget_mset_same ..
  · rw [if_neg hu]
    exact (mget_mset_other hu).trans (hfree.act u)

theorem State.dropActs_spec (l : List Nat) (hl : ∀ t ∈ l, t < 24) (s : State) : warnOf (s.each l State.dropAct).regs = warnOf s.regs ∧
    ∀ u, (s.each l State.dropAct).act u = if u ∈ l then none else s.act u := by
  unfold State.each
  induction l generalizing s with
  | nil => exact ⟨rfl, fun u => (if_neg (by simp)).symm⟩
  | cons t l ih =>
    obtain ⟨hwarn, hact⟩ := ih (fun u hu => hl u (by simp [hu])) (s.dropAct t)
    obtain ⟨hwarn', hact'⟩ := s.dropAct_spec (hl t (by simp))
    refine ⟨hwarn.trans hwarn', fun u => ?_⟩
    rw [List.foldl_cons, hact, hact']
    by_cases hu : u = t <;> simp [hu]

theorem bit_actMask (s : State) {u : Nat} (hu : u < 24) : bit s.actMask u = (s.act u).isSome := by
  have hfold (l : List Nat) (m : Nat) : bit (l.foldl (fun m t => if (s.act t).isSome then putBit m t true else m) m) u =
      (bit m u || decide (u ∈ l) && (s.act u).isSome) := by
    induction l generalizing m with
    | nil => simp
    | cons t l ih =>
      rw [List.foldl_cons, ih]
      by_cases ht : u = t
      · subst ht
        cases hs : (s.act u).isSome <;> simp [bit_putBit]
      · cases hs : (s.act t).isSome <;> simp [bit_putBit, ht]
  rw [State.actMask, hfold]
  simp [taskNums, hu, bit]

/-- R153. The activations named are gone, the others stand, and so does the warning. -/
theorem State.abandon_spec (s : State) (ts : Nat) : warnOf (s.abandon ts).regs = warnOf s.regs ∧
    ∀ u < 24, (s.abandon ts).act u = if bit ts u then none else s.act u := by
  unfold State.abandon
  extract_lets m asked t power u v w
  have hu : s.Warned u := by
    dsimp only [u, power, t, State.parkCancel]
    split_ifs <;> exact ⟨rfl, rfl⟩
  have hv : s.Warned v := hu.trans ((u.rollback_warned m).trans (State.qRestore_warned _ _))
  obtain ⟨hwarn, hact⟩ := v.dropActs_spec (taskNums.filter fun t => bit m t) (fun t ht => List.mem_range.1 (List.mem_filter.1 ht).1)
  have hend : w.Warned (if m = 0 then w else w.taskBoundary.schedule) := by
    split
    · exact ⟨rfl, rfl⟩
    · exact w.taskBoundary_warned.trans (State.schedule_warned _)
  refine ⟨hend.1.trans (hwarn.trans hv.1), fun u hu => (hend.act u).trans ((hact u).trans ?_)⟩
  have hbit : bit m u = (bit ts u && (s.act u).isSome) := by
    rw [← bit_actMask s hu]
    exact Nat.testBit_and ..
  have hmem : u ∈ taskNums.filter (fun t => bit m t) ↔ bit ts u = true ∧ (s.act u).isSome = true := by
    simp [taskNums, hu, hbit]
  rw [hv.act]
  cases hs : s.act u <;> simp [hmem, hs]

/-- R153. Every activation is gone. -/
theorem State.abandon_all (s : State) {u : Nat} (hu : u < 24) : (s.abandon s.actMask).act u = none := by
  rw [(s.abandon_spec _).2 u hu, bit_actMask s hu]
  cases s.act u <;> rfl

end Sys2Proof.Machine
end

section
namespace Sys2Proof.Machine

/-! ### What a reply changes (R382 to R385) -/

/-- The registers of the sessions. -/
def sessionRegs : List Nat := [Reg.NET_STAT_SESS_OPEN.addr, Reg.AUTH_CNT_DEFERRED.addr]

/-- `t` differs from `s` in the sessions, what they send, and what counts them alone. -/
structure State.Speaks (s t : State) : Prop where
  frame : t = { s with regs := t.regs, live := t.live, net := t.net }
  fget : ∀ g : Fld, g.addr ∉ sessionRegs → t.fget g = s.fget g

theorem State.Speaks.refl (s : State) : s.Speaks s := ⟨rfl, fun _ _ => rfl⟩
theorem State.Speaks.trans {s t u : State} (h : s.Speaks t) (h' : t.Speaks u) : s.Speaks u :=
  ⟨by rw [h'.frame, h.frame], fun g hg => (h'.fget g hg).trans (h.fget g hg)⟩
theorem State.speaks_fset (s : State) {f : Fld} (v : Nat) (h : f.addr ∈ sessionRegs) : s.Speaks (s.fset f v) :=
  ⟨rfl, fun _ hg => State.fget_fset_addr s fun heq => hg (heq ▸ h)⟩
theorem State.speaks_net (s : State) (n : Net) : s.Speaks { s with net := n } := ⟨rfl, fun _ _ => rfl⟩

theorem State.speaks_setSess (s : State) (x : Nat) (v : Option Sess) : s.Speaks (s.setSess x v) :=
  (s.speaks_net _).trans (State.speaks_fset _ _ (by decide))
theorem State.speaks_modSess (s : State) (x : Nat) (f : Sess → Sess) : s.Speaks (s.modSess x f) := by
  unfold State.modSess
  split
  · exact s.speaks_setSess ..
  · exact .refl s
theorem State.speaks_netTx (s : State) (p kind : Nat) (data : List Byte) : s.Speaks (s.netTx p kind data) := by
  unfold State.netTx State.netSend
  split
  · exact ⟨rfl, fun _ _ => rfl⟩
  · exact .refl s
theorem State.speaks_replyTo (s : State) (x verb ctr status sub : Nat) (body : List Byte) : s.Speaks (s.replyTo x verb ctr status sub body) := by
  unfold State.replyTo
  split
  · dsimp only
    split
    · exact (s.speaks_modSess ..).trans (State.speaks_netTx ..)
    · exact s.speaks_netTx ..
  · exact .refl s
theorem State.speaks_closeSess (s : State) (x : Nat) : s.Speaks (s.closeSess x) := by
  unfold State.closeSess
  dsimp only
  split
  · exact ((s.speaks_setSess ..).trans (State.speaks_net ..)).trans (State.speaks_fset _ _ (by decide))
  · exact (s.speaks_setSess ..).trans (State.speaks_fset _ _ (by decide))
theorem State.speaks_replyNow (s : State) (x verb status sub : Nat) (body : List Byte) : s.Speaks (s.replyNow x verb status sub body) := by
  unfold State.replyNow
  split
  · dsimp only
    split
    · exact .refl s
    · have hreply := (s.speaks_modSess x fun v => { v with waiting := mset 0 v.waiting verb 0 }).trans
        (State.speaks_replyTo _ x verb (mget 0 (‹Sess›).waiting verb - 1) status sub body)
      split
      · exact hreply.trans (State.speaks_closeSess ..)
      · exact hreply
  · exact .refl s

/-! ### The power-fail warning (R74, R157, R417) -/

/-- `t` has the power-fail warning of `s`, its engine, and the state of its supplies. -/
structure State.Alerts (s t : State) : Prop where
  warned : s.Warned t
  ckpt : t.eng.ckpt = s.eng.ckpt
  power : t.power = s.power

theorem State.Alerts.refl (s : State) : s.Alerts s := ⟨⟨rfl, rfl⟩, rfl, rfl⟩
theorem State.Alerts.trans {s t u : State} (h : s.Alerts t) (h' : t.Alerts u) : s.Alerts u :=
  ⟨h.warned.trans h'.warned, h'.ckpt.trans h.ckpt, h'.power.trans h.power⟩
theorem State.alerts_fset (s : State) {f : Fld} (v : Nat) (h : f.addr ≠ 0x40000014) : s.Alerts (s.fset f v) := ⟨State.fset_warned h, rfl, rfl⟩
theorem State.Alerts.of_frame {s t : State} (hr : t.regs = s.regs) (he : t.eng = s.eng) (hp : t.power = s.power) : s.Alerts t :=
  ⟨⟨congrArg warnOf hr, congrArg Engine.acts he⟩, congrArg Engine.ckpt he, hp⟩
theorem State.Records.alerts {s t : State} (h : s.Records t) : s.Alerts t :=
  ⟨⟨h.fget Reg.PF_STAT_PF_WARN (by decide), by rw [h.frame]⟩, by rw [h.frame], by rw [h.frame]⟩
theorem State.Speaks.alerts {s t : State} (h : s.Speaks t) : s.Alerts t :=
  ⟨⟨h.fget Reg.PF_STAT_PF_WARN (by decide), by rw [h.frame]⟩, by rw [h.frame], by rw [h.frame]⟩

theorem State.chgReply_alerts (s : State) (x : Option Nat) (verb code : Nat) : s.Alerts (s.chgReply x verb code) := by
  unfold State.chgReply
  split
  · split <;> exact (State.speaks_replyNow ..).alerts
  · exact .refl s

theorem State.trigger_alerts (s : State) {t : Nat} (ht : t < 24) : s.Alerts (s.trigger t) := by
  have hskip : (Reg.TASK_SKIP_MERGED t).addr ≠ 0x40000014 ∧ (Reg.TASK_STAT_PENDING t).addr ≠ 0x40000014 := by
    simp only [Reg.TASK_SKIP_MERGED, Reg.TASK_STAT_PENDING]
    omega
  unfold State.trigger
  split
  · exact .refl s
  · split
    · exact (s.alerts_fset _ hskip.1).trans (State.alerts_fset _ _ (by decide))
    · refine State.Alerts.trans ?_ (State.alerts_fset _ _ hskip.2)
      exact ⟨⟨rfl, rfl⟩, rfl, rfl⟩

theorem State.triggerAll_alerts (s : State) (kind : Nat) (p : Nat → Bool) : s.Alerts (s.triggerAll kind p) :=
  List.foldlRecOn (motive := fun t => s.Alerts t) _ _ (.refl s) fun t ht _ hx =>
    ht.trans (t.trigger_alerts (List.mem_range'_1.1 (List.mem_filter.1 hx).1).2)

theorem State.alerts_fset₃ (s : State) {f g h : Fld} (v w x : Nat) (hf : f.addr ≠ 0x40000014) (hg : g.addr ≠ 0x40000014) (hh : h.addr ≠ 0x40000014) :
    s.Alerts (((s.fset f v).fset g w).fset h x) :=
  ((s.alerts_fset v hf).trans (State.alerts_fset _ w hg)).trans (State.alerts_fset _ x hh)

theorem State.nativeAbort_alerts (s : State) (code detail : Nat) : s.Alerts (s.nativeAbort code detail) := by
  unfold State.nativeAbort State.nativeEnd State.nativeRes
  split
  · refine State.Alerts.trans ?_ (State.chgReply_alerts ..)
    refine State.Alerts.trans ?_ (State.records_record ..).alerts
    refine State.Alerts.trans ?_ (State.alerts_fset₃ _ _ _ _ (by decide) (by decide) (by decide))
    refine State.Alerts.trans ?_ (State.alerts_fset₃ _ _ _ _ (by decide) (by decide) (by decide))
    exact .of_frame rfl rfl rfl
  · exact .refl s

theorem State.swapRecord_alerts (s : State) (code task : Nat) : s.Alerts (s.swapRecord code task) := (s.records_record ..).alerts

/-- R183. The end of a switch or of a return shown, recorded and answered. -/
theorem State.swapEnd_alerts (s : State) (st code detail verb : Nat) (x : Option Nat) :
    s.Alerts ((((((s.fset Reg.CHG_STAT_SWAP_STATE st).fset Reg.S_LO_S_LO 0).fset Reg.S_HI_S_HI 0).swapRes code 0 detail).swapRecord
      cCHG_REFUSED 0).chgReply x verb code) := by
  refine State.Alerts.trans ?_ (State.chgReply_alerts ..)
  refine State.Alerts.trans ?_ (State.swapRecord_alerts ..)
  exact (State.alerts_fset₃ _ _ _ _ (by decide) (by decide) (by decide)).trans
    (State.alerts_fset₃ _ _ _ _ (by decide) (by decide) (by decide))

theorem State.switchAbort_alerts (s : State) (code detail : Nat) : s.Alerts (s.switchAbort code detail) := by
  unfold State.switchAbort
  split
  · extract_lets t x chg u
    have ht : s.Alerts t := by
      simp only [t]
      split <;> exact .of_frame rfl rfl rfl
    have hu : t.Alerts u := .of_frame rfl rfl rfl
    exact (ht.trans hu).trans (u.swapEnd_alerts ..)
  · exact .refl s

theorem State.revertAbort_alerts (s : State) (code detail : Nat) : s.Alerts (s.revertAbort code detail) := by
  unfold State.revertAbort
  split
  · extract_lets x chg t
    have ht : s.Alerts t := .of_frame rfl rfl rfl
    exact ht.trans (t.swapEnd_alerts ..)
  · exact .refl s

theorem State.changeAbort_alerts (s : State) (detail : Nat) : s.Alerts (s.changeAbort detail) :=
  ((s.nativeAbort_alerts ..).trans (State.switchAbort_alerts ..)).trans (State.revertAbort_alerts ..)

theorem State.setClaim_alerts (s : State) (b : Bool) : s.Alerts (s.setClaim b) := by
  unfold State.setClaim
  extract_lets t u dup v w
  have hu : s.Alerts u := by
    have ht : s.Alerts t := s.alerts_fset _ (by decide)
    simp only [u]
    split <;> exact ht.trans (State.alerts_fset _ _ (by decide))
  have hv : s.Alerts v := hu.trans (.of_frame rfl rfl rfl)
  split
  · exact hv
  · exact (hv.trans (State.alerts_fset _ 0 (by decide))).trans (.of_frame rfl rfl rfl)

/-- R74. The state that the warning finds, once its activations are given up. -/
def State.warnStart (s : State) : State :=
  let s := { s with power := { s.power with
    crossAt := some (s.time.mono - 20000), vlOk := false, park := if s.power.park = 4 then 4 else 0, parkStop := false } }
  let s := s.fon Reg.PF_STAT_PF_WARN
  s.abandon s.actMask

/-- R74. A checkpoint being written stops without its mark. -/
def State.warnCkpt (s : State) : State :=
  match s.eng.ckpt with
  | some c => ({ s with eng := { s.eng with
      ckpt := none, dirty := s.eng.dirty.set c.slot (s.eng.dirty.getD c.slot 0 ||| c.blks) } }).fset Reg.CKPT_STAT_BUSY 0
  | none => s

theorem State.warnStart_spec (s : State) : s.warnStart.power.crossAt = some (s.time.mono - 20000) ∧ s.warnStart.power.vlOk = false ∧
    s.warnStart.fbit Reg.PF_STAT_PF_WARN = true ∧ ∀ u < 24, s.warnStart.act u = none := by
  unfold State.warnStart
  extract_lets power t u
  obtain ⟨hpower, -⟩ := u.abandon_power u.actMask
  refine ⟨(congrArg Power.crossAt hpower :), (congrArg Power.vlOk hpower :), ?_, fun n hn => u.abandon_all hn⟩
  exact (congrArg (decide <| · ≠ 0) (u.abandon_spec u.actMask).1 :).trans (State.fbit_fon_same t (by decide))

theorem State.warnCkpt_spec (s : State) : s.Warned s.warnCkpt ∧ s.warnCkpt.eng.ckpt = none ∧ s.warnCkpt.power = s.power := by
  unfold State.warnCkpt
  split
  · exact ⟨State.Warned.trans (by exact ⟨rfl, rfl⟩) (State.fset_warned (by decide)), rfl, rfl⟩
  · exact ⟨⟨rfl, rfl⟩, ‹_›, rfl⟩

/-- R74, R157, R417. The warning starts the save. -/
theorem pfWarn_completes {s : State} (hcross : s.power.crossAt = none) (hhold : s.power.hold = false) :
    s.Does .pfWarn fun t => t.power.crossAt = some (s.time.mono - 20000) ∧ t.power.vlOk = false ∧ t.fbit Reg.PF_STAT_PF_WARN = true ∧
      t.eng.ckpt = none ∧ ∀ u < 24, t.act u = none := by
  let u := (s.warnStart.warnCkpt.triggerAll 7 fun _ => true).changeAbort 5
  have he : exec .pfWarn s = .next (if u.dup.claim.isSome && u.mode == mStandby then u.setClaim false else u) := by
    show execPfWarn s = _
    unfold execPfWarn
    rw [if_neg (by simp [hcross, hhold])]
    rfl
  obtain ⟨hat, hvl, hwarn, hact⟩ := s.warnStart_spec
  obtain ⟨hkept, hckpt, hpower⟩ := s.warnStart.warnCkpt_spec
  have halert : s.warnStart.warnCkpt.Alerts (if u.dup.claim.isSome && u.mode == mStandby then u.setClaim false else u) := by
    have hu : s.warnStart.warnCkpt.Alerts u := (State.triggerAll_alerts ..).trans (State.changeAbort_alerts ..)
    split
    · exact hu.trans (State.setClaim_alerts ..)
    · exact hu
  refine ⟨_, he, ?_, ?_, ?_, halert.ckpt.trans hckpt, fun n hn => ?_⟩
  · rw [halert.power, hpower, hat]
  · rw [halert.power, hpower, hvl]
  · exact (congrArg (decide <| · ≠ 0) (halert.warned.1.trans hkept.1) :).trans hwarn
  · rw [halert.warned.act, hkept.act, hact n hn]

end Sys2Proof.Machine
end

section
namespace Sys2Proof.Machine

/-! ### PARK and its wakes (R69 to R72, R433) -/

/-- R69. In simplex the park commit is the next one. -/
theorem parkEntry_completes {s : State} (hpark : s.power.park = 2) (hm : s.mode = mActive) (hsimplex : s.duplexNow = false) :
    s.Does .parkEntry fun t => t.power.park = 3 ∧ t.power.parkNum = (s.fget Reg.COMMIT_NUM_CCOUNT + 1) % 65536 ∧ t = { s with power := t.power } := by
  let num := (s.fget Reg.COMMIT_NUM_CCOUNT + (if s.duplexNow then 4 else 1)) % 65536
  let t : State := { s with power := { s.power with park := 3, parkNum := num } }
  have hnum : num = (s.fget Reg.COMMIT_NUM_CCOUNT + 1) % 65536 := by simp only [num, hsimplex, Bool.false_eq_true, if_false]
  have he : exec .parkEntry s = .next (if t.duplexNow then t.ropeSend 0x08 (leBytes 2 num) else t) := by
    show execParkEntry s = _
    unfold execParkEntry
    rw [if_neg (by simp [hpark, hm])]
  have hfalse : ¬ t.duplexNow = true := fun h => Bool.false_ne_true (hsimplex.symm.trans h)
  exact ⟨t, he.trans (congrArg Host.Outcome.next (if_neg hfalse)), rfl, hnum, rfl⟩

/-- `t` is what a wake by `src` leaves of `s`. -/
structure State.Woken (s t : State) (src : Nat) : Prop where
  mode : t.mode = mBoot
  step : t.boot.step = 1
  wake : t.boot.wake = true
  src : t.fget Reg.PARK_STAT_WAKE_SRC = src
  keep : t.fbit Reg.MEM_STAT_KEEP_WAIT = true
  lanes : t.laneState = s.laneState
  sram : t.sram = s.sram
  mram : t.mram = s.mram
  mono : t.time.mono = s.time.mono

/-- R70, R72. A wake of `s` at the device time of `w`. -/
def State.wakeFrom (s w : State) (src : Nat) : State :=
  let lanes := (s.laneState, s.fget Reg.VOTE_STAT_LIVE, s.fget Reg.VOTE_STAT_VOTING)
  let mark := s.fget Reg.PARK_MARK_MARK
  let t := w.restart mPark trWake false false
  let u := ((t.setLaneState lanes.1).fset Reg.VOTE_STAT_LIVE lanes.2.1).fset Reg.VOTE_STAT_VOTING lanes.2.2
  let v := ((u.fset Reg.PARK_MARK_MARK mark).fset Reg.PARK_STAT_WAKE_SRC src).fon Reg.MEM_STAT_KEEP_WAIT
  { v with boot := { v.boot with wake := true }, power := { v.power with wakeAt := some v.time.mono } }

theorem State.wakeBy_eq (s : State) (src : Nat) : ∃ d, s.wakeBy src = s.wakeFrom { s with time := { s.time with dev := d } } src := ⟨_, rfl⟩

/-- R70, R72. A wake is a warm restart, in which the lane state stands. -/
theorem State.wakeFrom_woken (s : State) (d : Nat) {src : Nat} (hsrc : src < 4) :
    s.Woken (s.wakeFrom { s with time := { s.time with dev := d } } src) src := by
  unfold State.wakeFrom
  extract_lets lanes mark time t u v boot power
  have hborn : State.Reborn { s with time := { s.time with dev := d } } t false := (State.restart_reborn _ mPark trWake false false).1
  have hstat (g : Fld) (hg : g.addr = 0x40000004) : v.fget g = (t.fset Reg.MODE_STAT_LANE s.laneState).fget g := by
    have hoff {f : Fld} (hf : f.addr ≠ 0x40000004) : g.addr ≠ f.addr := by rw [hg]; exact Ne.symm hf
    iterate 5 refine (State.fget_fset_addr _ (hoff (by decide))).trans ?_
    exact State.fget_fset_addr _ (hoff (by decide))
  have hframe : v = { t with regs := v.regs } := rfl
  have hwake : v.fget Reg.PARK_STAT_WAKE_SRC = src :=
    (State.fget_fset_addr _ (by decide)).trans ((State.fget_fset_same ..).trans (Nat.mod_eq_of_lt (by simp only [Reg.PARK_STAT_WAKE_SRC]; omega)))
  have hkeep : v.fbit Reg.MEM_STAT_KEEP_WAIT = true := State.fbit_fon_same _ (by decide)
  clear_value v t
  have hlane : s.laneState < 2 ^ 2 := Nat.mod_lt _ (by decide)
  exact {
    mode := (hstat Reg.MODE_STAT_MODE rfl).trans ((State.fget_fset_apart t (by decide) (by decide) (by decide)).trans hborn.mode)
    step := (congrArg (·.boot.step) hframe :).trans hborn.step
    wake := rfl
    src := hwake
    keep := hkeep
    lanes := (hstat Reg.MODE_STAT_LANE rfl).trans ((State.fget_fset_same t ..).trans (Nat.mod_eq_of_lt hlane))
    sram := (congrArg State.sram hframe :).trans hborn.sram
    mram := (congrArg State.mram hframe :).trans hborn.mram
    mono := (congrArg (·.time.mono) hframe :).trans hborn.mono }

theorem State.wakeBy_woken (s : State) {src : Nat} (hsrc : src < 4) : s.Woken (s.wakeBy src) src := by
  obtain ⟨d, hd⟩ := s.wakeBy_eq src
  exact hd ▸ s.wakeFrom_woken d hsrc

theorem State.Woken.all {s t : State} {src : Nat} (h : s.Woken t src) : t.mode = mBoot ∧ t.boot.step = 1 ∧ t.boot.wake = true ∧
    t.fget Reg.PARK_STAT_WAKE_SRC = src ∧ t.fbit Reg.MEM_STAT_KEEP_WAIT = true ∧ t.laneState = s.laneState ∧ t.sram = s.sram ∧ t.mram = s.mram :=
  ⟨h.mode, h.step, h.wake, h.src, h.keep, h.lanes, h.sram, h.mram⟩

/-- R70. The wake timer ends PARK at `due`. -/
def State.timerWake (s : State) (due : Nat) : State := (s.toMono due).wakeBy 3

theorem execAonWake_eq (s : State) : execAonWake s = .next (if s.wakeOn 2 && s.topoN 0x0102 0 2 4 0 != 0 then
    s.timerWake (s.power.parkAt + s.topoN 0x0102 0 2 4 0 * 1000000000) else s) := rfl

theorem State.timerWake_spec (s : State) (due : Nat) : (∃ u : State, u.Woken (s.timerWake due) 3 ∧ u.laneState = s.laneState ∧ u.sram = s.sram ∧
    u.mram = s.mram) ∧ due ≤ (s.timerWake due).time.mono := by
  have hwoken := (s.toMono due).wakeBy_woken (src := 3) (by decide)
  exact ⟨⟨_, hwoken, rfl, rfl, rfl⟩, hwoken.mono ▸ s.le_toMono due⟩

/-- R70, R72, R433. The wakes and the Keep banks. -/
theorem wakes_complete (s : State) :
    let woken (t : State) (src : Nat) : Prop := t.mode = mBoot ∧ t.boot.step = 1 ∧ t.boot.wake = true ∧ t.fget Reg.PARK_STAT_WAKE_SRC = src ∧
      t.fbit Reg.MEM_STAT_KEEP_WAIT = true ∧ t.laneState = s.laneState ∧ t.sram = s.sram ∧ t.mram = s.mram
    (s.wakeOn 0 = true → s.Does .wake fun t => woken t 1) ∧
    (∀ c : Ctl, s.wakeOn 1 = true → bit (s.topoN 0x0102 0 1 1 0) c = true → s.Does (.canWake c) fun t => woken t 2) ∧
    (s.wakeOn 2 = true → s.topoN 0x0102 0 2 4 0 ≠ 0 →
      s.Does .aonWake fun t => woken t 3 ∧ s.power.parkAt + s.topoN 0x0102 0 2 4 0 * 1000000000 ≤ t.time.mono) := by
  refine ⟨fun hon => ⟨s.wakeBy 1, ?_, (s.wakeBy_woken (by decide)).all⟩, fun c hon hc => ⟨s.wakeBy 2, ?_, (s.wakeBy_woken (by decide)).all⟩,
    fun hon ht => ?_⟩
  · exact congrArg Host.Outcome.next (if_pos hon)
  · exact congrArg Host.Outcome.next (if_pos (by rw [hon, hc]; rfl))
  · obtain ⟨⟨u, hwoken, hlane, hsram, hmram⟩, hdue⟩ := s.timerWake_spec (s.power.parkAt + s.topoN 0x0102 0 2 4 0 * 1000000000)
    refine ⟨_, (execAonWake_eq s).trans (congrArg Host.Outcome.next (if_pos (by simp [hon, ht]))), ?_, hdue⟩
    exact hlane ▸ hsram ▸ hmram ▸ hwoken.all

/-- R433. -/
theorem keepBanksReady_completes {s : State} {at_ : Nat} (hat : s.power.wakeAt = some at_) :
    s.Does .keepBanksReady fun t => t.fbit Reg.MEM_STAT_KEEP_WAIT = false ∧ t.power.wakeAt = none ∧ at_ + 1500000 ≤ t.time.mono ∧
      t = { s with time := t.time, power := t.power, regs := t.regs } := by
  have he : exec .keepBanksReady s = .next (s.keepUsable (at_ + 1500000)) := by
    show Host.Outcome.next s.keepReady = _
    rw [s.keepReady_eq, hat]
  generalize at_ + 1500000 = due at he ⊢
  exact ⟨_, he, State.fbit_fput_same (b := false) _ (by decide), rfl, s.le_toMono due, (s.keepUsable_spec due).2.2⟩

end Sys2Proof.Machine
end

section
namespace Sys2Proof.Machine

/-! ### The save of a power failure (R73 to R77, R149, R417) -/

/-- R149, R160. The power-fail task `u` is given up at `due`. -/
def State.pfCut (s : State) (u due : Nat) : State := (((s.toMono due).abandon (2 ^ u)).etAbandoned u).pfDone

theorem State.pfCut_spec (s : State) {u : Nat} (hu : u < 24) (due : Nat) :
    (s.pfCut u due).act u = none ∧ (s.pfCut u due).power.taskRun = false ∧ due ≤ (s.pfCut u due).time.mono := by
  have hmono := s.le_toMono due
  unfold State.pfCut
  generalize s.toMono due = v at hmono ⊢
  have htime : (v.abandon (2 ^ u)).time = v.time := (v.abandon_steady _).level.time
  have hact : (v.abandon (2 ^ u)).act u = none := by
    rw [(v.abandon_spec _).2 u hu]
    simp [bit]
  have hframe := (State.records_recordFrom ((v.abandon (2 ^ u)).fon Reg.SCHED_FLAGS_ET_ABANDON) cET_ABANDON 0 u (leBytes 1 u)).frame
  refine ⟨?_, rfl, ?_⟩
  · exact (congrArg (·.act u) hframe :).trans hact
  · exact hmono.trans_eq ((congrArg (·.time.mono) hframe :).trans (congrArg Time.mono htime)).symm

theorem execPfTaskDeadline_eq {s : State} {u : Nat} {a : Act}
    (hu : (taskNums.find? fun t => match s.act t with | some a => a.pf | none => false) = some u) (ha : s.act u = some a) :
    execPfTaskDeadline s = .next (s.pfCut u (a.at_ + 100000)) := by
  unfold execPfTaskDeadline
  split
  · next t ht =>
    obtain rfl : t = u := Option.some.inj (ht.symm.trans hu)
    rw [ha]
    rfl
  · next hnone => exact (nomatch hnone.symm.trans hu)

/-- R74, R149. The power-fail task is given up at its deadline. -/
theorem pfTaskDeadline_completes {s : State} {u : Nat} {a : Act}
    (hu : (taskNums.find? fun t => match s.act t with | some a => a.pf | none => false) = some u) (ha : s.act u = some a) :
    s.Does .pfTaskDeadline fun t => t.act u = none ∧ t.power.taskRun = false ∧ a.at_ + 100000 ≤ t.time.mono :=
  ⟨_, execPfTaskDeadline_eq hu ha, s.pfCut_spec (List.mem_range.1 (List.mem_of_find?_eq_some hu)) _⟩

/-- R73. The status follows VL. -/
theorem vlLow_completes (s : State) (vl : BitVec 16) :
    s.Does (.vlLow vl) fun t => t.fbit Reg.PF_STAT_VL_LOW = decide (vl.toNat < 1080) ∧ s.regsBut t [Reg.PF_STAT_VL_LOW] ∧
      t = { s with regs := t.regs } :=
  ⟨_, rfl, State.fbit_fput_same _ _ (by decide), s.regsBut_fset _ _ (by decide), rfl⟩

/-- R157, R417. The power-fail commit is the last. -/
theorem pfCommit_completes {s : State} (hcross : s.power.crossAt.isSome = true) (hcommits : s.commits = true) (hwait : s.pfWait = false)
    (hended : ∀ e ∈ s.eng.ended, e.out = true) :
    s.Does .pfCommit fun t => t.power.committed = true ∧ t.commits = false ∧
      t.fget Reg.COMMIT_NUM_CCOUNT = (s.fget Reg.COMMIT_NUM_CCOUNT + 1) % 65536 := by
  have he : exec .pfCommit s = .next { s.commitPoint with power := { s.commitPoint.power with
      committed := true, claimDue := s.commitPoint.driving && s.commitPoint.dup.claimOut } } := by
    show execPfCommit s = _
    unfold execPfCommit
    have hany : s.eng.ended.any (fun e => !e.out) = false := List.any_eq_false.mpr fun e h => by simp [hended e h]
    rw [hcommits, hwait, hany, Option.isNone_eq_false_iff.mpr hcross]
    rfl
  refine ⟨_, he, rfl, ?_, State.commitPoint_count hcommits⟩
  simp [State.commits]

/-- R417. A claim withdrawn asserts nothing. -/
theorem State.setClaim_false (s : State) : (s.setClaim false).dup.claimOut = false ∧ (s.setClaim false).fbit Reg.MODE_STAT_CLAIM_OUT = false := by
  have hout : (s.fput Reg.MODE_STAT_CLAIM_OUT (false && s.tap.vio)).fbit Reg.MODE_STAT_CLAIM_OUT = false := State.fbit_fput_same _ _ (by decide)
  unfold State.setClaim
  extract_lets t u dup v w
  have hu : u.fbit Reg.MODE_STAT_CLAIM_OUT = false := by
    simp only [u]
    split <;> exact (State.fbit_fset_addr _ _ (by decide)).trans hout
  exact ⟨rfl, (State.fbit_fset_addr _ _ (by decide)).trans hu⟩

theorem execPfClaimWithdraw_eq {s : State} (hdue : s.power.claimDue = true) : ∃ at_, execPfClaimWithdraw s =
    .next (State.setClaim { s.toMono at_ with power := { (s.toMono at_).power with claimDue := false } } false) :=
  ⟨_, congrArg Host.Outcome.next (if_pos hdue)⟩

/-- R417. The claim is withdrawn. -/
theorem pfClaimWithdraw_completes {s : State} (hdue : s.power.claimDue = true) :
    s.Does .pfClaimWithdraw fun t => t.power.claimDue = false ∧ t.dup.claimOut = false ∧ t.fbit Reg.MODE_STAT_CLAIM_OUT = false := by
  obtain ⟨at_, he⟩ := execPfClaimWithdraw_eq hdue
  exact ⟨_, he, by rw [State.setClaim_power], State.setClaim_false _⟩

end Sys2Proof.Machine
end

section
namespace Sys2Proof.Machine

/-! ### The record of a save through the reset that ends it (R62, R77) -/

theorem mem_mdel {α : Type} [DecidableEq α] {m : List (Nat × α)} {k : Nat} {p : Nat × α} (h : p ∈ mdel k m) : p.1 ≠ k := by
  rw [mdel_eq_filter] at h
  simpa using (List.mem_filter.mp h).2

/-- A map set at `k` has no other value there. -/
theorem mset_only {α : Type} [DecidableEq α] (d : α) (m : List (Nat × α)) (k : Nat) (v : α) : ∀ p ∈ mset d m k v, p.1 = k → p.2 = v := by
  have hcons (t : List (Nat × α)) (ht : ∀ p ∈ t, p.1 ≠ k) : ∀ p ∈ mcons d k v t, p.1 = k → p.2 = v := by
    intro p hp hk
    unfold mcons at hp
    split at hp
    · exact absurd hk (ht p hp)
    · rcases List.mem_cons.mp hp with rfl | hp
      · rfl
      · exact absurd hk (ht p hp)
  induction m with
  | nil => exact hcons [] (by simp)
  | cons q t ih =>
    obtain ⟨a, w⟩ := q
    unfold mset
    split
    · refine hcons _ fun p hp => ?_
      rcases List.mem_cons.mp hp with rfl | hp
      · dsimp only; omega
      · exact mem_mdel hp
    · split
      · exact hcons _ fun p hp => mem_mdel hp
      · intro p hp hk
        rcases List.mem_cons.mp hp with rfl | hp
        · exact absurd hk.symm ‹_›
        · exact ih p hp hk

theorem mem_mget {α : Type} (d : α) {l : List (Nat × α)} {p : Nat × α} (h : p ∈ l) : (p.1, mget d l p.1) ∈ l := by
  induction l with
  | nil => simp at h
  | cons q t ih =>
    obtain ⟨a, v⟩ := q
    by_cases ha : a = p.1
    · simp [mget, ha]
    · have hp : p ∈ t := (List.mem_cons.mp h).resolve_left (by rintro rfl; exact ha rfl)
      simp only [mget, ha, if_false]
      exact List.mem_cons_of_mem _ (ih hp)

/-- R62. What a register of the control die retains. -/
theorem mget_keptPart {r : Nums} {a : Nat} {fs : List FieldRow} (ha : a < 0x41000000) (hfs : ctlFields a = some fs)
    (hr : ∀ p ∈ r, p.1 = a → p.2 = mget 0 r a) : mget 0 (keptPart r) a = mget 0 r a &&& keptBits fs := by
  have hkept (p : Nat × Nat) (hp : p ∈ keptPart r) (hk : p.1 = a) : p.2 = mget 0 r a &&& keptBits fs := by
    obtain ⟨q, hq, hsome⟩ := List.mem_filterMap.mp hp
    split at hsome
    · obtain rfl := Option.some.inj hsome
      omega
    · split at hsome
      · next fs' hfs' =>
        split at hsome
        · simp at hsome
        · obtain rfl := Option.some.inj hsome
          obtain rfl := Option.some.inj (hfs.symm.trans (hk ▸ hfs'))
          exact congrArg (· &&& keptBits fs) (hr q hq hk)
      · simp at hsome
  rcases mget_eq_default_or_mem 0 (keptPart r) a with h | h
  · by_contra hne
    rw [h] at hne
    have hmem : (a, mget 0 r a) ∈ r := (mget_eq_default_or_mem 0 r a).resolve_left fun h0 => hne (by simp [h0])
    have hput : (a, mget 0 r a &&& keptBits fs) ∈ keptPart r := by
      refine List.mem_filterMap.mpr ⟨_, hmem, ?_⟩
      rw [if_neg (by dsimp only; omega)]
      dsimp only
      rw [hfs]
      exact if_neg (Ne.symm hne)
    have := hkept _ (mem_mget 0 hput) rfl
    rw [h] at this
    exact hne this
  · exact hkept _ h rfl

/-- R12, R62. The register of the power-fail save retains the record of the save. -/
theorem mget_resetRegs_save (b : Board) {r : Nums} (hr : ∀ p ∈ r, p.1 = 0x40000014 → p.2 = mget 0 r 0x40000014) :
    mget 0 (resetRegs b false r) 0x40000014 = mget 0 r 0x40000014 &&& 0xFFFF001C := by
  have hrows : ∀ r ∈ ctlRows, resetValue r.fields = 0 ∨ 0x40000014 ∉ r.addrs := by decide +kernel
  have hput (m : Nums) {f : Fld} (v : Nat) (hf : f.addr ≠ 0x40000014) : mget 0 (fldPut m f v) 0x40000014 = mget 0 m 0x40000014 :=
    mget_mset_other (Ne.symm hf)
  unfold resetRegs boardRegs
  simp only [List.foldl_cons, List.foldl_nil]
  repeat rw [hput _ _ (by decide)]
  rw [mget_resetRows hrows, if_neg Bool.false_ne_true,
    mget_keptPart (fs := [⟨0, 0, .ro, 0, false⟩, ⟨1, 1, .ro, 0, false⟩, ⟨2, 2, .ro, 0, true⟩, ⟨3, 3, .ro, 0, true⟩, ⟨4, 4, .ro, 0, true⟩, ⟨31, 16, .ro, 0, true⟩]) (by decide) (by decide +kernel) hr]
  rfl

/-- R187. The changes that a reset loses are recorded. -/
theorem State.records_resetLost (s old : State) : s.Records (s.resetLost old) := by
  have hself : s.Records s := ⟨rfl, fun _ _ => rfl⟩
  have hrec (u : State) (code method gen task : Nat) : u.Records (u.chgRecord code method gen task) := u.records_record ..
  unfold State.resetLost
  split
  · exact hself
  · dsimp only
    split
    · split
      · exact (hrec ..).trans (hrec ..)
      · exact hrec ..
    · split
      · exact hrec ..
      · exact hself

/-- R62, R77. A restart other than a power-on retains the record of the save. -/
theorem State.restart_save (s : State) (prev trig : Nat) (cold : Bool) {g : Fld} (hg : g.addr = 0x40000014) :
    (s.restart prev trig cold false).fget g = fieldOf (mget 0 (resetRegs s.board false s.regs) 0x40000014) g.lo (g.hi + 1 - g.lo) := by
  have hoff {f : Fld} (hf : f.addr ≠ 0x40000014) : g.addr ≠ f.addr := by rw [hg]; exact Ne.symm hf
  have hland (u : State) : (u.landViews s).fget g = u.fget g := by
    unfold State.landViews
    dsimp only
    refine (State.fget_fset_addr _ (hoff (by decide))).trans ?_
    split <;> exact (State.fget_fset_addr _ (hoff (by decide))).trans (State.fget_fset_addr _ (hoff (by decide)))
  have hlost (u : State) : (u.resetLost s).fget g = u.fget g := (u.records_resetLost s).fget g (by rw [hg]; decide)
  have hregs : mget 0 (resetRegs s.board false s.regs) g.addr = mget 0 (resetRegs s.board false s.regs) 0x40000014 := by rw [hg]
  unfold State.restart
  generalize resetRegs s.board false s.regs = r at hregs ⊢
  dsimp only
  refine Eq.trans (hlost _) (Eq.trans (State.fget_fset_addr _ (hoff (by decide))) ((hland _).trans ?_))
  rw [← hregs]
  cases cold <;> rfl

/-- R77. The record of a save in `s`: whether it was complete. -/
structure State.SaveShown (s : State) (complete : Bool) : Prop where
  saved : s.fbit Reg.PF_STAT_SAVED = complete
  aborted : s.fbit Reg.PF_STAT_SAVE_ABORTED = !complete

/-- A bit retained. -/
theorem fieldOf_saveBits {v i : Nat} (h : Nat.testBit 0xFFFF001C i = true) : fieldOf (v &&& 0xFFFF001C) i 1 = fieldOf v i 1 := by
  have hbit (x : Nat) : fieldOf x i 1 = (x.testBit i).toNat := (Nat.toNat_testBit x i).symm
  rw [hbit, hbit, Nat.testBit_and, h, Bool.and_true]

theorem State.restart_saveBit {s : State} (hr : ∀ p ∈ s.regs, p.1 = 0x40000014 → p.2 = mget 0 s.regs 0x40000014) (prev trig : Nat) (cold : Bool) {i : Nat}
    (h : Nat.testBit 0xFFFF001C i = true) : (s.restart prev trig cold false).fbit ⟨0x40000014, i, i⟩ = s.fbit ⟨0x40000014, i, i⟩ := by
  have hget := s.restart_save prev trig cold (g := ⟨0x40000014, i, i⟩) rfl
  rw [mget_resetRegs_save s.board hr] at hget
  simp only [Nat.add_sub_cancel_left] at hget
  unfold State.fbit
  rw [hget, fieldOf_saveBits h]
  simp [State.fget]

/-- R62, R77. A device reset by the supply retains the record of the save. -/
theorem State.deviceReset_saveBit {s : State} (hr : ∀ p ∈ s.regs, p.1 = 0x40000014 → p.2 = mget 0 s.regs 0x40000014) {i : Nat}
    (h : Nat.testBit 0xFFFF001C i = true) : (s.deviceReset 1).fbit ⟨0x40000014, i, i⟩ = s.fbit ⟨0x40000014, i, i⟩ := by
  obtain ⟨d, hu⟩ : ∃ d, (if s.mode = mPark then s.aonTime else s) = { s with time := { s.time with dev := d } } := by
    split
    · exact ⟨_, rfl⟩
    · exact ⟨s.time.dev, rfl⟩
  have hrestart := State.restart_saveBit (s := { s with time := { s.time with dev := d } }) hr s.mode trReset true h
  have hoff {f : Fld} (hf : f.addr ≠ 0x40000014) : (Fld.mk 0x40000014 i i).addr ≠ f.addr := Ne.symm hf
  unfold State.deviceReset
  rw [hu]
  dsimp only
  split
  · exact (State.fbit_fset_addr _ _ (hoff (by decide))).trans ((State.fbit_fset_addr _ _ (hoff (by decide))).trans hrestart)
  · exact (State.fbit_fset_addr _ _ (hoff (by decide))).trans hrestart

theorem State.deviceReset_save {s : State} {complete : Bool} (h : s.SaveShown complete)
    (hr : ∀ p ∈ s.regs, p.1 = 0x40000014 → p.2 = mget 0 s.regs 0x40000014) : (s.deviceReset 1).SaveShown complete :=
  ⟨(State.deviceReset_saveBit hr (i := 2) (by decide)).trans h.saved, (State.deviceReset_saveBit hr (i := 4) (by decide)).trans h.aborted⟩

/-- R77. What the hold after a save leaves of `s`. -/
theorem State.pfHold_spec (s : State) (us : Nat) (complete : Bool) : (s.pfHold us complete).SaveShown complete ∧ (s.pfHold us complete).mode = mBoot ∧
    (s.pfHold us complete).power.hold = true ∧ (s.pfHold us complete).sats = s.sats ∧ (s.pfHold us complete).sram = s.sram ∧
    (s.pfHold us complete).time.mono = s.time.mono := by
  unfold State.pfHold
  extract_lets t u power
  generalize hv : ({ u with power := { power with hold := true, peerHold := u.fbit Reg.DUP_STAT_REL_IN } } : State) = v
  have hshown : v.SaveShown complete := by
    have hu {g : Fld} (hg : g = Reg.PF_STAT_SAVED ∨ g = Reg.PF_STAT_SAVE_ABORTED) : u.fbit g = t.fbit g := by
      rcases hg with rfl | rfl <;> exact (State.fbit_fset_apart _ (by decide) (by decide) (by decide)).trans
        (State.fbit_fset_apart _ (by decide) (by decide) (by decide))
    rw [← hv]
    constructor
    · exact (hu (.inl rfl)).trans ((State.fbit_fset_apart _ (by decide) (by decide) (by decide)).trans (State.fbit_fput_same s _ (by decide)))
    · exact (hu (.inr rfl)).trans (State.fbit_fput_same _ _ (by decide))
  have hframe : v = { s with regs := v.regs, power := v.power } := by
    rw [← hv]
    rfl
  have hregs : ∀ p ∈ v.regs, p.1 = 0x40000014 → p.2 = mget 0 v.regs 0x40000014 := by
    rw [← hv]
    intro p hp hk
    exact (mset_only 0 _ _ _ p hp hk).trans mget_mset_same.symm
  obtain ⟨d, -, hborn⟩ := v.deviceReset_reborn (cause := 1) v.mode (by decide)
  have hhold : v.power.hold = true := by rw [← hv]
  exact ⟨State.deviceReset_save hshown hregs, hborn.mode, hborn.hold.trans hhold, hborn.sats.trans (congrArg State.sats hframe :),
    hborn.sram.trans (congrArg State.sram hframe :), hborn.mono.trans (congrArg (·.time.mono) hframe :)⟩

end Sys2Proof.Machine
end

section
namespace Sys2Proof.Machine

/-! ### The end of a save (R74, R75, R77) -/

theorem State.ckTarget_lt (s : State) : s.ckTarget < 4 := by
  unfold State.ckTarget
  split <;> omega

theorem State.pfFlush_sats (s : State) : s.pfFlush.sats = s.sats := by
  unfold State.pfFlush
  extract_lets eng t u slot
  have hu : u.sats = s.sats := (t.abandon_steady t.actMask).level.sats
  split
  · exact hu
  · obtain ⟨-, -, -, hframe⟩ := State.ckWrite_spec (s := u) (c := ⟨slot, _, _, _, _, _, _, _⟩) u.ckTarget_lt
    exact (congrArg State.sats hframe :).trans hu

theorem State.closeRec_sats (s : State) (k : Nat) (r : LRec) : (s.closeRec k r).sats = s.sats := by
  unfold State.closeRec State.saveLedger State.setRec
  simp

theorem State.pfRecords_sats (s : State) (us : Nat) : (s.pfRecords us).sats = s.sats := by
  unfold State.pfRecords
  extract_lets t u r v
  have ht : t.sats = s.sats := by
    simp only [t]
    split
    · exact s.cairnLoad_still.level.sats
    · rfl
  have hv : v.sats = s.sats :=
    ((State.lastWords_still ..).level.sats.trans ((State.cairnPut_still ..).level.sats.trans (State.cairnAll_still ..).level.sats)).trans ht
  refine List.foldlRecOn (motive := fun (w : State) => w.sats = s.sats) _ _ hv fun w hw k _ => ?_
  dsimp only
  split
  · exact (w.closeRec_sats ..).trans hw
  · exact hw

theorem State.opSave_sats (s : State) : s.opSave.sats = s.sats := rfl

theorem State.inReset_of_hold {s : State} (h : s.power.hold = true) : s.inReset = true := by simp [State.inReset, h]

/-- R74. The save ends after `us`. -/
def State.saveEnd (s : State) (us : Nat) : State := ((s.pfFlush).pfRecords (clip 16 us)).opSave.pfHold us true

theorem State.saveEnd_spec (s : State) (us : Nat) : (s.saveEnd us).SaveShown true ∧ (s.saveEnd us).mode = mBoot ∧
    (s.saveEnd us).power.hold = true ∧ (s.saveEnd us).sats = s.sats := by
  obtain ⟨hshown, hmode, hheld, hsats, -, -⟩ := ((s.pfFlush).pfRecords (clip 16 us)).opSave.pfHold_spec us true
  exact ⟨hshown, hmode, hheld, by rw [saveEnd, hsats, State.opSave_sats, State.pfRecords_sats, State.pfFlush_sats]⟩

theorem execSaved_eq (s : State) : execSaved s = .next (match s.power.crossAt with
  | none => s
  | some at_ => if s.power.hold || (s.running && !s.power.committed) then s else s.saveEnd ((s.time.mono - at_) / 1000)) := rfl

/-- R74, R77. The save completes. -/
theorem saved_completes {s : State} (hcross : s.power.crossAt.isSome = true) (hhold : s.power.hold = false)
    (hdone : s.running = true → s.power.committed = true) :
    s.Does .saved fun t => t.mode = mBoot ∧ t.inReset = true ∧ t.power.hold = true ∧ t.fbit Reg.PF_STAT_SAVED = true ∧
      t.fbit Reg.PF_STAT_SAVE_ABORTED = false ∧ t.sats = s.sats := by
  obtain ⟨at_, hat⟩ := Option.isSome_iff_exists.mp hcross
  have hwait : ¬ (s.power.hold || (s.running && !s.power.committed)) = true := by
    cases hr : s.running
    · simp [hhold]
    · simp [hhold, hdone hr]
  have he : exec .saved s = .next (s.saveEnd ((s.time.mono - at_) / 1000)) := by
    show execSaved s = _
    rw [execSaved_eq, hat]
    exact congrArg Host.Outcome.next (if_neg hwait)
  obtain ⟨hshown, hmode, hheld, hsats⟩ := s.saveEnd_spec ((s.time.mono - at_) / 1000)
  exact ⟨_, he, hmode, State.inReset_of_hold hheld, hheld, hshown.saved, hshown.aborted, hsats⟩

/-- R75. The save is given up at `due`; `at_` is the crossing. -/
def State.saveCut (s : State) (at_ due : Nat) : State :=
  let s := s.toMono due
  let s := if s.power.nonAtomic || s.mode == mBoot || s.mode == mPark then s else s.mwN (ckHead s.ckTarget + 16380) 4 0
  s.pfHold ((s.time.mono - at_) / 1000) false

theorem execSaveAborted_eq (s : State) : execSaveAborted s = .next (match s.power.crossAt with
  | none => s
  | some at_ => s.saveCut at_ (at_ + 2000000)) := rfl

theorem State.saveCut_spec (s : State) (at_ due : Nat) : (s.saveCut at_ due).SaveShown false ∧ (s.saveCut at_ due).mode = mBoot ∧
    (s.saveCut at_ due).power.hold = true ∧ due ≤ (s.saveCut at_ due).time.mono ∧ (s.saveCut at_ due).sram = s.sram := by
  unfold State.saveCut
  extract_lets t u
  have hu : u.time = t.time ∧ u.sram = t.sram := by
    simp only [u]
    split <;> exact ⟨rfl, rfl⟩
  obtain ⟨hshown, hmode, hheld, -, hsram, hmono⟩ := u.pfHold_spec ((u.time.mono - at_) / 1000) false
  refine ⟨hshown, hmode, hheld, ?_, hsram.trans hu.2⟩
  rw [hmono, hu.1]
  exact s.le_toMono due

/-- R75. The save is aborted. -/
theorem saveAborted_completes {s : State} {at_ : Nat} (hat : s.power.crossAt = some at_) :
    s.Does .saveAborted fun t => t.mode = mBoot ∧ t.inReset = true ∧ t.power.hold = true ∧ t.fbit Reg.PF_STAT_SAVED = false ∧
      t.fbit Reg.PF_STAT_SAVE_ABORTED = true ∧ at_ + 2000000 ≤ t.time.mono ∧ t.sram = s.sram := by
  have he : exec .saveAborted s = .next (s.saveCut at_ (at_ + 2000000)) := by
    show execSaveAborted s = _
    rw [execSaveAborted_eq, hat]
  obtain ⟨hshown, hmode, hheld, hdue, hsram⟩ := s.saveCut_spec at_ (at_ + 2000000)
  exact ⟨_, he, hmode, State.inReset_of_hold hheld, hheld, hshown.saved, hshown.aborted, hdue, hsram⟩

/-- Settles O21: a wake is a warm restart (`State.wakeFrom_woken`), the last commit counts one on (`State.commitPoint_count`), and the reset
that ends a save retains its record (`State.pfHold_spec`). -/
theorem parkAndPowerFailComplete : Obligations.ParkAndPowerFailComplete := by
  refine ⟨fun s => ?_, fun s => ⟨vlLow_completes s, pfWarn_completes, fun u a => pfTaskDeadline_completes, pfCommit_completes,
    pfClaimWithdraw_completes, saved_completes, fun at_ => saveAborted_completes⟩⟩
  obtain ⟨hwake, hcan, htimer⟩ := wakes_complete s
  exact ⟨parkEntry_completes, hwake, hcan, htimer, fun at_ => keepBanksReady_completes⟩

end Sys2Proof.Machine
end

section
namespace Sys2Proof.Machine

/-! ### A request taken in its session (R380 to R386) -/

/-- The registers of the sessions and of the requests answered. -/
def verbRegs : List Nat := [Reg.NET_STAT_SESS_OPEN.addr, Reg.AUTH_CNT_DEFERRED.addr, Reg.VERB_CNT_ACCEPTED.addr]

/-- `t` is `s` with session `x` holding `w`, the frames `out` sent, and the registers of the sessions counting. -/
structure State.Heard (s t : State) (x : Nat) (w : Sess) (out : List Sent) : Prop where
  frame : t = { s with regs := t.regs, live := t.live, net := t.net }
  fget : ∀ g : Fld, g.addr ∉ verbRegs → t.fget g = s.fget g
  net : t.net = { s.net with sess := t.net.sess, maintIdle := t.net.maintIdle, sent := t.net.sent }
  sess : t.sess x = some w
  others : ∀ y, y ≠ x → t.sess y = s.sess y
  sent : t.net.sent = s.net.sent ++ out

section
variable {s t u : State} {x : Nat} {v w : Sess} {out : List Sent}

theorem State.heard_self (h : s.sess x = some w) : s.Heard s x w [] :=
  ⟨rfl, fun _ _ => rfl, rfl, h, fun _ _ => rfl, (List.append_nil _).symm⟩

theorem State.Heard.fset (h : s.Heard t x w out) {f : Fld} (hf : f.addr ∈ verbRegs) (n : Nat) : s.Heard (t.fset f n) x w out where
  frame := by rw [h.frame]; rfl
  fget := fun g hg => (State.fget_fset_addr t (g := g) fun heq => hg (by rw [heq]; exact hf)).trans (h.fget g hg)
  net := h.net
  sess := h.sess
  others := h.others
  sent := h.sent

theorem State.Heard.setSess (h : s.Heard t x w out) (v : Sess) : s.Heard (t.setSess x (some v)) x v out := by
  refine State.Heard.fset (t := { t with net := { t.net with sess := mset none t.net.sess x (some v) } }) ?_ (by decide) _
  exact {
    frame := by rw [h.frame]
    fget := h.fget
    net := by rw [h.net]
    sess := mget_mset_same
    others := fun y hy => (mget_mset_other hy).trans (h.others y hy)
    sent := h.sent }

theorem State.Heard.modSess (h : s.Heard t x w out) (f : Sess → Sess) : s.Heard (t.modSess x f) x (f w) out := by
  unfold State.modSess
  rw [h.sess]
  exact h.setSess _

theorem State.Heard.idle (h : s.Heard t x w out) (n : Nat) : s.Heard { t with net := { t.net with maintIdle := n } } x w out :=
  ⟨by rw [h.frame], h.fget, by rw [h.net], h.sess, h.others, h.sent⟩

theorem State.Heard.accepted (h : s.Heard t x w out) : s.Heard t.accepted x w out := h.fset (by decide) _

theorem State.Heard.replyLater (h : s.Heard t x w out) (verb : Nat) :
    s.Heard (t.replyLater x verb) x { w with waiting := mset 0 w.waiting verb (w.last + 1), reply := [] } out := h.modSess _

theorem State.Heard.setDeferred (h : s.Heard t x w out) (d : Option (Waiting × Nat)) :
    s.Heard (t.setDeferred x d) x { w with deferred := d } out := (h.modSess _).fset (by decide) _

theorem State.Heard.portUp (h : s.Heard t x w out) (p : Nat) : t.portUp p = s.portUp p := by
  have hlink := h.fget (Reg.PORT_STAT_LINK p) (by simp [verbRegs, Reg.PORT_STAT_LINK, Reg.NET_STAT_SESS_OPEN, Reg.AUTH_CNT_DEFERRED, Reg.VERB_CNT_ACCEPTED]; omega)
  have hmode := h.fget Reg.MODE_STAT_MODE (by decide)
  unfold State.portUp State.mode State.fbit
  rw [hlink, hmode, h.frame]
  rfl

theorem State.Heard.netTx (h : s.Heard t x w out) {p : Nat} (hp : s.portUp p = true) (kind : Nat) (data : List Byte) :
    s.Heard (t.netTx p kind data) x w (out ++ [{ chan := p, kind, data }]) := by
  have hup : t.portUp p = true := (h.portUp p).trans hp
  unfold State.netTx State.netSend
  rw [if_pos hup]
  exact {
    frame := by rw [h.frame]; rfl
    fget := h.fget
    net := by rw [h.net]; rfl
    sess := h.sess
    others := h.others
    sent := (congrArg (· ++ _) h.sent).trans (List.append_assoc ..) }

/-- R382, R384. A reply goes out on the port of the session, and is stored where it answers the last request. -/
theorem State.Heard.replyTo (h : s.Heard t x w out) (hp : s.portUp w.port = true) (verb ctr status sub : Nat) (body : List Byte) :
    ∃ r, s.Heard (t.replyTo x verb ctr status sub body) x { w with reply := r }
      (out ++ [{ chan := w.port, kind := 2, data := verbReply w.key verb x ctr status sub body }]) := by
  unfold State.replyTo
  rw [h.sess]
  dsimp only
  split
  · exact ⟨verbReply w.key verb x ctr status sub body, (h.modSess fun v => { v with reply := verbReply w.key verb x ctr status sub body }).netTx hp 2 _⟩
  · exact ⟨w.reply, h.netTx hp 2 _⟩

theorem State.Heard.reply (h : s.Heard t x w out) (hp : s.portUp w.port = true) (verb status sub : Nat) (body : List Byte) :
    ∃ r, s.Heard (t.reply x verb status sub body) x { w with reply := r }
      (out ++ [{ chan := w.port, kind := 2, data := verbReply w.key verb x w.last status sub body }]) := by
  unfold State.reply
  rw [h.sess]
  exact h.replyTo hp ..

/-- R385. A reply held back goes out once, where the session waits for it. -/
theorem State.Heard.replyNow (h : s.Heard t x w out) (hp : s.portUp w.port = true) (hopen : w.closing = false) {verb : Nat}
    (hwait : mget 0 w.waiting verb ≠ 0) (status sub : Nat) (body : List Byte) :
    ∃ r, s.Heard (t.replyNow x verb status sub body) x { w with waiting := mset 0 w.waiting verb 0, reply := r }
      (out ++ [{ chan := w.port, kind := 2, data := verbReply w.key verb x (mget 0 w.waiting verb - 1) status sub body }]) := by
  obtain ⟨r, hr⟩ := (h.modSess fun v => { v with waiting := mset 0 v.waiting verb 0 }).replyTo hp verb (mget 0 w.waiting verb - 1) status sub body
  refine ⟨r, ?_⟩
  unfold State.replyNow
  rw [h.sess]
  dsimp only
  rw [if_neg hwait, if_neg (by simp [hopen])]
  exact hr

theorem State.modSess_sess (h : s.sess x = some w) (f : Sess → Sess) :
    (s.modSess x f).sess x = some (f w) ∧ ∀ y, y ≠ x → (s.modSess x f).sess y = s.sess y := by
  have hmod := (State.heard_self h).modSess f
  exact ⟨hmod.sess, hmod.others⟩

theorem State.netTx_sess (s : State) (p kind : Nat) (data : List Byte) (y : Nat) : (s.netTx p kind data).sess y = s.sess y := by
  unfold State.netTx State.netSend
  split <;> rfl

/-- R385. What `replyNow` leaves of the sessions, one that stays open among them. -/
theorem State.replyNow_sess (h : s.sess x = some w) (hopen : w.closing = false) (verb status sub : Nat) (body : List Byte) :
    (∃ w', (s.replyNow x verb status sub body).sess x = some w' ∧ w'.deferred = w.deferred) ∧
      ∀ y, y ≠ x → (s.replyNow x verb status sub body).sess y = s.sess y := by
  obtain ⟨hwait, hothers⟩ := State.modSess_sess h fun v => { v with waiting := mset 0 v.waiting verb 0 }
  unfold State.replyNow
  rw [h]
  dsimp only
  split
  · exact ⟨⟨w, h, rfl⟩, fun _ _ => rfl⟩
  · rw [if_neg (by simp [hopen])]
    unfold State.replyTo
    rw [hwait]
    dsimp only
    split
    · obtain ⟨hreply, hothers'⟩ := State.modSess_sess hwait fun v => { v with reply := verbReply w.key verb x (mget 0 w.waiting verb - 1) status sub body }
      exact ⟨⟨_, (State.netTx_sess ..).trans hreply, rfl⟩, fun y hy => (State.netTx_sess ..).trans ((hothers' y hy).trans (hothers y hy))⟩
    · exact ⟨⟨_, (State.netTx_sess ..).trans hwait, rfl⟩, fun y hy => (State.netTx_sess ..).trans (hothers y hy)⟩

/-! ### The order in which a request is handled (R381 to R385) -/

theorem State.portUp_mode {p : Nat} (h : s.portUp p = true) : s.mode ≠ mBoot ∧ s.mode ≠ mPark := by
  unfold State.portUp at h
  simp at h
  exact ⟨h.1.2, h.2⟩

/-- R381 to R385. A request that `State.Takes` describes is acted on in its session. -/
theorem State.Takes.heard {h : VerbHdr} {x : Fin 4} {verb maskBit : Nat} {body : List Byte} (ht : s.Takes h x v verb maskBit body) :
    ∃ t, s.Heard t x { v with last := h.ctr.toNat, idleAt := s.time.mono, port := h.port.val, reply := [] } [] ∧
      ∀ (fmt : Bool) go, fmt = true → s.verbTake h verb maskBit body fmt go = go t x := by
  obtain ⟨halive, hport, htakes, hid, hheld, ⟨hform, hlen⟩, htag, ⟨hnew, hctr⟩, hrole, hmay, hfree, hopen⟩ := ht
  let u := (s.netRx h.port).modSess x fun v => { v with last := h.ctr.toNat, idleAt := s.time.mono, port := h.port.val, reply := [] }
  let t := if u.net.maintSess = some x.val then { u with net := { u.net with maintIdle := u.time.mono } } else u
  have hrx : s.Heard (s.netRx h.port) x v [] := ⟨rfl, fun _ _ => rfl, rfl, hheld, fun _ _ => rfl, (List.append_nil _).symm⟩
  have hu := hrx.modSess fun v => { v with last := h.ctr.toNat, idleAt := s.time.mono, port := h.port.val, reply := [] }
  have ht : s.Heard t x { v with last := h.ctr.toNat, idleAt := s.time.mono, port := h.port.val, reply := [] } [] := by
    simp only [t]
    split
    · exact hu.idle _
    · exact hu
  have htopo (a b c d e : Nat) : t.topoN a b c d e = s.topoN a b c d e := by rw [ht.frame]; rfl
  obtain ⟨hboot, hpark⟩ := State.portUp_mode hport
  refine ⟨t, ht, fun fmt go hfmt => ?_⟩
  subst hfmt
  have hbody : verbBody h body = body := if_neg (by simp [hform])
  have hgo : (if h.badLen || !true || decide (1024 < (verbBody h body).length) then t.reply x verb rFormat 0 []
      else if maskBit < 16 ∧ !bit (t.topoN 0x0B01 v.role 2 2 0x0053) maskBit then t.refuse x verb 0x06
      else if !bit (t.topoN 0x0B01 v.role 1 1 4) h.port then t.refuse x verb 0x07
      else if v.deferred.isSome then t.refuse x verb 0x0C
      else go t x) = go t x := by
    rw [htopo, htopo, if_neg (by simp [hform, hbody, hlen]), if_neg ?_, if_neg (by simp [hmay]), if_neg (by simp [hfree])]
    rintro ⟨hlt, hbit⟩
    have hrole := hrole.resolve_left (by omega)
    simp [hrole] at hbit
  unfold State.verbTake
  rw [if_neg (by simp [halive, hboot, hpark, hport])]
  dsimp only
  have hverb : (s.netRx h.port).verbPort h.port = true := htakes
  rw [hid, if_neg (by simp [hverb]), show (s.netRx h.port).sess x = some v from hheld]
  dsimp only
  rw [if_neg (by simp [hbody, htag]), if_neg (by omega), if_neg (by omega), if_neg (show ¬ h.ctr.toNat = 0xFFFFFFFF by omega)]
  exact hgo

end

end Sys2Proof.Machine
end

section
namespace Sys2Proof.Machine

/-! ### What the agreement check looks at (R385 to R389) -/

section
variable {s t : State} {x : Nat} {v w : Sess} {out : List Sent}

theorem State.Heard.mode (h : s.Heard t x w out) : t.mode = s.mode := h.fget Reg.MODE_STAT_MODE (by decide)

theorem State.Heard.fbit (h : s.Heard t x w out) {g : Fld} (hg : g.addr ∉ verbRegs) : t.fbit g = s.fbit g :=
  congrArg (decide <| · ≠ 0) (h.fget g hg)

theorem State.Heard.topoN (h : s.Heard t x w out) (a b c d e : Nat) : t.topoN a b c d e = s.topoN a b c d e := by rw [h.frame]; rfl

theorem State.Heard.link (h : s.Heard t x w out) (n : Nat) : t.link n = s.link n := by rw [h.frame]; rfl

theorem State.Heard.chanIn (h : s.Heard t x w out) (k i : Nat) : t.chanIn k i = s.chanIn k i := by rw [h.frame]; rfl

theorem State.Heard.holds (h : s.Heard t x w out) : t.net.holds = s.net.holds := by rw [h.net]

theorem State.Heard.dieValid (h : s.Heard t x w out) {n : Nat} (hn : n < 1024) : t.dieValid n = s.dieValid n := by
  have hoff {g : Fld} (hg : g.addr = 0x40020800 + n * 0x10) : g.addr ∉ verbRegs := by
    simp [verbRegs, Reg.NET_STAT_SESS_OPEN, Reg.AUTH_CNT_DEFERRED, Reg.VERB_CNT_ACCEPTED]
    omega
  have hadmitted : t.admitted n = s.admitted n := h.fbit (g := Reg.LINK_STAT_ADMITTED n) (hoff rfl)
  unfold State.dieValid
  rw [hadmitted, h.fbit (g := Reg.LINK_STAT_ORPHAN n) (hoff rfl), h.link]

theorem State.Heard.tractionOff (h : s.Heard t x w out) : t.tractionOff = s.tractionOff := by
  have hhalf (i : Nat) : t.halfOut i = s.halfOut i := by rw [h.frame]; rfl
  have hbound {i o : Nat} (ho : s.halfOut i = some o) : o < 256 := by
    have hbyte (off d : Nat) (hd : d < 256) : s.ilN off 1 d < 256 := by
      unfold State.ilN State.topoN
      split
      · exact leAt_lt ..
      · exact hd
    unfold State.halfOut at ho
    split at ho
    · simp at ho
    · split at ho
      · exact Option.some.inj ho ▸ hbyte 3 0 (by decide)
      · exact Option.some.inj ho ▸ hbyte 4 31 (by decide)
      · split at ho
        · simp at ho
        · exact Option.some.inj ho ▸ hbyte 5 0xFF (by decide)
      · split at ho
        · simp at ho
        · exact Option.some.inj ho ▸ hbyte 6 0xFF (by decide)
  have hback (i : Nat) : t.backNow i = s.backNow i := by
    unfold State.backNow
    rw [hhalf]
    split
    · next o ho =>
      have := hbound ho
      rw [h.dieValid (by omega), h.link]
    · rfl
  unfold State.tractionOff
  rw [hback, hback]

theorem State.Heard.needMaint (h : s.Heard t x w out) (hm : s.mode = mMaint) : t.needMaint = none := by
  unfold State.needMaint
  rw [h.mode, hm]
  rfl

/-- R389. A run may start on channel `k` now. -/
def State.mayRun (s : State) (k : Nat) : Prop := s.mode = mMaint ∧ s.ilRole k = 1 ∧ s.dieValid (chSlot k) = true ∧ mget none s.net.holds k = none

theorem State.Heard.agreeRun (h : s.Heard t x w out) {k : Nat} (hk : k < 12) (hrun : s.mayRun k) : t.agreeRun k =
    if [dLocked, dReleased, dOpen, dHalted].contains (s.chanIn k 0) then .accept
    else if inMotion (s.chanIn k 0) || s.chanIn k 0 == dReversing then .defer
    else .refuse 0x09 := by
  obtain ⟨hm, hrole, hvalid, hhold⟩ := hrun
  have hrole' : t.ilRole k = 1 := (h.topoN ..).trans hrole
  have hslot : chSlot k < 1024 := by
    unfold chSlot
    omega
  unfold State.agreeRun
  rw [h.needMaint hm]
  simp [h.chanIn, hrole', h.dieValid hslot, hvalid, h.holds, hhold]

/-- R457. CLEAR_CAIRN is accepted while no other session reads. -/
theorem State.Heard.agreeClear_accept (h : s.Heard t x w out) (hm : s.mode = mMaint)
    (hread : ∀ y < 4, y ≠ x → ∀ w, s.sess y = some w → w.reading = false) : t.agreeClear x = .accept := by
  unfold State.agreeClear
  rw [h.needMaint hm]
  refine if_neg fun hany => ?_
  obtain ⟨y, hy, hy'⟩ := List.any_eq_true.mp hany
  obtain ⟨hmem, hne⟩ := List.mem_filter.mp hy
  have hne : y ≠ x := by simpa using hne
  have hlt : y < 4 := by
    simp at hmem
    omega
  rw [h.others y hne] at hy'
  split at hy'
  · next w hw => simp [hread y hlt hne w hw] at hy'
  · simp at hy'

theorem State.Heard.agreeClear_defer (h : s.Heard t x w out) (hm : s.mode = mMaint) {y : Nat} (hy : y < 4) (hne : y ≠ x) {w : Sess}
    (hw : s.sess y = some w) (hread : w.reading = true) : t.agreeClear x = .defer := by
  unfold State.agreeClear
  rw [h.needMaint hm]
  refine if_pos (List.any_eq_true.mpr ⟨y, List.mem_filter.mpr ⟨?_, by simpa using hne⟩, ?_⟩)
  · simp
    omega
  · rw [h.others y hne, hw]
    exact hread

end

end Sys2Proof.Machine
end

section
namespace Sys2Proof.Machine

/-! ### The recorder cleared (R457) -/

theorem State.portUp_congr {s t : State} {p : Nat} (hboot : t.boot = s.boot) (htap : t.tap = s.tap) (hmode : t.mode = s.mode)
    (hlink : t.fbit (Reg.PORT_STAT_LINK p) = s.fbit (Reg.PORT_STAT_LINK p)) : t.portUp p = s.portUp p := by
  have hon : t.portOn p = s.portOn p := by
    unfold State.portOn State.topoN State.topo?
    rw [hboot]
  have hloop : t.loopsIn 3 p = s.loopsIn 3 p := by
    unfold State.loopsIn
    rw [htap]
  unfold State.portUp
  rw [hon, hloop, hlink, hmode]

/-- `t` is `s` with its recorder cleared but for the record of the clearing. -/
structure State.Cleared (s t : State) : Prop where
  fill : t.fget Reg.CAIRN_STAT_FILL = 1
  full : t.fbit Reg.CAIRN_STAT_FULL = false
  empty : ∀ a, cairnMain + 32 ≤ a → a < cairnMain + 32 * 16320 → mget 0 t.mram a = 0
  outside : s.sameMramOutside t cairnMain (32 * 16320)
  sram : t.sram = s.sram

/-- R457. The recorder of `s` cleared, with the record of the role that cleared it. -/
def State.cairnEmptied (s : State) (x : Nat) : State :=
  let fill := s.fget Reg.CAIRN_STAT_FILL
  let role := match s.sess x with | some v => v.role | none => 0xFF
  let s := { s with mram := mclear cairnMain (32 * 16320) s.mram }
  let s := (s.fset Reg.CAIRN_STAT_FILL 0).fset Reg.CAIRN_STAT_FULL 0
  s.cairnPut { sev := severity cCAIRN_CLEARED, slot := 0, code := cCAIRN_CLEARED, task := 31, opSec := s.opSec
               frac := s.opCount % 65536, suppr := 0, cyc := s.refCycle, data := leBytes 2 fill ++ leBytes 1 role }

theorem State.cairnClear_eq (s : State) (x : Nat) : s.cairnClear x = (s.cairnEmptied x).replyNow x vClearCairn rDone 0 [] := rfl

theorem State.recBytes_length (s : State) (r : CRec) : (s.recBytes r).length = 32 := by
  simp [State.recBytes, leBytes_length]

/-- R449. A record put into an empty recorder takes its first place. -/
theorem State.cairnPut_first {s : State} (h : s.fget Reg.CAIRN_STAT_FILL = 0) (r : CRec) :
    s.cairnPut r = ((s.mwBytes cairnMain (s.recBytes r)).fset Reg.CAIRN_STAT_FILL 1).fmod Reg.CAIRN_CNT_WRITTEN := by
  unfold State.cairnPut
  rw [h]
  rfl

theorem State.cairnEmptied_spec (s : State) (x : Nat) : s.Cleared (s.cairnEmptied x) ∧
    (∀ g : Fld, g.addr < 0x40060000 → (s.cairnEmptied x).fget g = s.fget g) ∧
    s.cairnEmptied x = { s with regs := (s.cairnEmptied x).regs, mram := (s.cairnEmptied x).mram } := by
  unfold State.cairnEmptied
  extract_lets fill role t u
  have hfill : u.fget Reg.CAIRN_STAT_FILL = 0 := (State.fget_fset_apart _ (by decide) (by decide) (by decide)).trans (State.fget_fset_same ..)
  rw [State.cairnPut_first hfill]
  generalize hb : u.recBytes _ = b
  have hlen : b.length = 32 := by rw [← hb, State.recBytes_length]
  refine ⟨⟨?_, ?_, fun a hlo hhi => ?_, fun a ha => ?_, rfl⟩, fun g hg => ?_, rfl⟩
  · exact (State.fget_fset_addr _ (by decide)).trans (State.fget_fset_same ..)
  · exact (State.fbit_fset_addr _ _ (by decide)).trans ((State.fbit_fset_apart _ (by decide) (by decide) (by decide)).trans
      (State.fbit_fput_same (b := false) _ (by decide)))
  · exact (mget_mput_outside (.inr (by omega))).trans (mget_mclear.trans (if_pos (by omega)))
  · exact (mget_mput_outside (by omega)).trans (mget_mclear.trans (if_neg (by omega)))
  · have hoff {f : Fld} (hf : 0x40060000 ≤ f.addr) : g.addr ≠ f.addr := by omega
    exact (State.fget_fset_addr _ (hoff (by decide))).trans ((State.fget_fset_addr _ (hoff (by decide))).trans
      ((State.fget_fset_addr _ (hoff (by decide))).trans (State.fget_fset_addr t (hoff (by decide)))))

theorem State.Cleared.speaks {s t u : State} (h : s.Cleared t) (h' : t.Speaks u) : s.Cleared u := by
  have hsram : u.sram = t.sram := by rw [h'.frame]
  have hmram : u.mram = t.mram := by rw [h'.frame]
  exact ⟨(h'.fget Reg.CAIRN_STAT_FILL (by decide)).trans h.fill, (congrArg (decide <| · ≠ 0) (h'.fget Reg.CAIRN_STAT_FULL (by decide)) :).trans h.full,
    fun a hlo hhi => hmram ▸ h.empty a hlo hhi, fun a ha => hmram ▸ h.outside a ha, hsram.trans h.sram⟩

theorem State.Cleared.of_mems {s u t : State} (h : u.Cleared t) (hsram : u.sram = s.sram) (hmram : u.mram = s.mram) : s.Cleared t :=
  ⟨h.fill, h.full, h.empty, fun a ha => hmram ▸ h.outside a ha, h.sram.trans hsram⟩

end Sys2Proof.Machine
end

section
namespace Sys2Proof.Machine

/-! ### Verbs that act at once or wait (R386, R457) -/

section
variable {s a b t : State} {x : Nat} {v w : Sess} {out : List Sent}

/-- R386. A verb accepted is deferred no longer. -/
theorem State.Heard.mayAct (h : s.Heard a x w out) : s.Heard (a.setDeferred x none).accepted x { w with deferred := none } out :=
  (h.setDeferred none).accepted

/-- R386. A verb deferred waits from now on. -/
theorem State.Heard.mayWait (h : s.Heard a x w out) (hfree : w.deferred = none) (verb : Nat) (i : Waiting) (act : State → State) :
    s.Heard (a.mayDefer x verb i .defer act) x { w with deferred := some (i, s.time.mono) } out := by
  have htime : a.time.mono = s.time.mono := by rw [h.frame]
  have heq : a.mayDefer x verb i .defer act = a.setDeferred x (some (i, s.time.mono)) := by
    unfold State.mayDefer
    rw [h.sess]
    dsimp only
    rw [hfree, ← htime]
  rw [heq]
  exact h.setDeferred _

/-- R457. CLEAR_CAIRN accepted clears the recorder. -/
theorem State.Heard.clear_accepted (h : s.Heard a x w out) (hm : s.mode = mMaint)
    (hread : ∀ y < 4, y ≠ x → ∀ w, s.sess y = some w → w.reading = false) :
    ∃ c, s.Heard c x { w with deferred := none } out ∧ a.clearDecide x .clearCairn = c.cairnClear x ∧ s.Cleared (c.cairnClear x) := by
  refine ⟨_, h.mayAct, ?_, ?_⟩
  · unfold State.clearDecide
    rw [h.agreeClear_accept hm hread]
    rfl
  · have hact := h.mayAct
    generalize (a.setDeferred x none).accepted = c at hact ⊢
    have hsram : c.sram = s.sram := by rw [hact.frame]
    have hmram : c.mram = s.mram := by rw [hact.frame]
    rw [State.cairnClear_eq]
    exact ((c.cairnEmptied_spec x).1.speaks (State.speaks_replyNow ..)).of_mems hsram hmram

/-- R457. The reply to CLEAR_CAIRN. -/
theorem State.Heard.cairnClear_replied (h : s.Heard a x w out) {p : Fin 4} (hport : w.port = p) (hup : s.portUp p = true) (hopen : w.closing = false)
    (hwait : mget 0 w.waiting vClearCairn ≠ 0) :
    (∃ r, (a.cairnClear x).sess x = some { w with waiting := mset 0 w.waiting vClearCairn 0, reply := r }) ∧
      (∀ y, y ≠ x → (a.cairnClear x).sess y = s.sess y) ∧ (a.cairnClear x).net.sent = s.net.sent ++ out ++
        [{ chan := p, kind := 2, data := verbReply w.key vClearCairn x (mget 0 w.waiting vClearCairn - 1) rDone 0 [] }] := by
  obtain ⟨-, hget, hframe⟩ := a.cairnEmptied_spec x
  rw [State.cairnClear_eq]
  generalize a.cairnEmptied x = d at hget hframe ⊢
  have hsess (y : Nat) : d.sess y = a.sess y := by rw [hframe]; rfl
  have hdup : d.portUp w.port = true := by
    have hlink : (Reg.PORT_STAT_LINK p).addr < 0x40060000 := by
      simp only [Reg.PORT_STAT_LINK]
      omega
    rw [hport, State.portUp_congr (by rw [hframe]) (by rw [hframe]) (hget Reg.MODE_STAT_MODE (by decide)) (congrArg (decide <| · ≠ 0) (hget _ hlink)),
      h.portUp]
    exact hup
  obtain ⟨r, hr⟩ := (State.heard_self ((hsess x).trans h.sess)).replyNow hdup hopen hwait rDone 0 []
  refine ⟨⟨r, hr.sess⟩, fun y hy => (hr.others y hy).trans ((hsess y).trans (h.others y hy)), hr.sent.trans ?_⟩
  rw [hport, show d.net.sent = a.net.sent by rw [hframe], h.sent]
  rfl

end

/-- R386. Session `x` of `t` waits with the verb `i` since now; nothing else is different. -/
def State.Waits (s t : State) (x : Nat) (i : Waiting) : Prop := ∃ w : Sess, s.Heard t x { w with deferred := some (i, s.time.mono) } []

theorem State.Heard.kept {s t : State} {x : Nat} {w : Sess} {out : List Sent} (h : s.Heard t x w out) :
    t.sram = s.sram ∧ t.mram = s.mram ∧ t.mode = s.mode := ⟨by rw [h.frame], by rw [h.frame], h.mode⟩

theorem State.Waits.all {s t : State} {x : Nat} {i : Waiting} (h : s.Waits t x i) :
    (∃ w, t.sess x = some w ∧ w.deferred = some (i, s.time.mono)) ∧ t.net.sent = s.net.sent ∧ t.net.holds = s.net.holds ∧
      t.sram = s.sram ∧ t.mram = s.mram ∧ t.mode = s.mode := by
  obtain ⟨w, hw⟩ := h
  exact ⟨⟨_, hw.sess, rfl⟩, by simpa using hw.sent, hw.holds, hw.kept⟩

/-- R383. Session `w` of `t` has taken the request of `h`. -/
theorem State.taken_of {s t : State} {h : VerbHdr} {x : Fin 4} {v w : Sess} (hx : t.sess x = some w)
    (hw : w.last = h.ctr.toNat ∧ w.idleAt = s.time.mono ∧ w.key = v.key ∧ w.role = v.role ∧ w.port = h.port.val)
    (hothers : ∀ y, y ≠ x.val → t.sess y = s.sess y) : s.Taken t h x v :=
  ⟨⟨w, hx, hw⟩, fun y hy => hothers y fun heq => hy (Fin.ext heq)⟩

theorem clearCairn_completes {s : State} {h : VerbHdr} {x : Fin 4} {v : Sess} (ht : s.Takes h x v vClearCairn 5 []) (hm : s.mode = mMaint)
    (hread : ∀ y < 4, y ≠ x.val → ∀ w, s.sess y = some w → w.reading = false) :
    s.Does (.clearCairn h) fun t => s.Taken t h x v ∧ s.Cleared t ∧ s.Replied t h x v vClearCairn rDone 0 [] := by
  obtain ⟨a, ha, hgo⟩ := ht.heard
  obtain ⟨c, hc, heq, hcleared⟩ := (ha.replyLater vClearCairn).clear_accepted hm hread
  have hwaiting : mget 0 (mset 0 v.waiting vClearCairn (h.ctr.toNat + 1)) vClearCairn = h.ctr.toNat + 1 := mget_mset_same
  obtain ⟨⟨r, hsess⟩, hothers, hsent⟩ := hc.cairnClear_replied (p := h.port) rfl ht.port ht.open_ (hwaiting.trans_ne (by omega))
  refine ⟨c.cairnClear x, congrArg Host.Outcome.next ((hgo _ _ rfl).trans heq), State.taken_of hsess ⟨rfl, rfl, rfl, rfl, rfl⟩ hothers, hcleared, ?_⟩
  rw [hwaiting, List.append_nil] at hsent
  exact hsent

theorem clearCairn_waits {s : State} {h : VerbHdr} {x : Fin 4} {v : Sess} (ht : s.Takes h x v vClearCairn 5 []) (hm : s.mode = mMaint) {y : Nat} (hy : y < 4)
    (hne : y ≠ x.val) {w : Sess} (hw : s.sess y = some w) (hread : w.reading = true) :
    s.Does (.clearCairn h) fun t => s.Waits t x .clearCairn := by
  obtain ⟨a, ha, hgo⟩ := ht.heard
  have hb := ha.replyLater vClearCairn
  refine ⟨_, congrArg Host.Outcome.next (hgo _ _ rfl), ?_⟩
  unfold State.clearDecide
  rw [hb.agreeClear_defer hm hy hne hw hread]
  exact ⟨_, hb.mayWait ht.free ..⟩

end Sys2Proof.Machine
end

section
namespace Sys2Proof.Machine

/-! ### Runs of door tests and learning (R386, R389) -/

/-- R389. Channel `k` of `t` holds the run of `cmd` that session `x` has begun with `verb` in `s`; memories and mode stand. -/
structure State.RunBegun (s t : State) (x k verb cmd : Nat) : Prop where
  hold : ∃ g, mget none t.net.holds k = some g ∧ g.cmd = cmd ∧ g.from_ = s.chanIn k 0 ∧ g.sess = some (x, verb) ∧
    g.seq = ((mget 0 (s.link (chSlot k)).sentOut (16 * (k % 4) + 1)).toNat + 1) % 256
  kept : t.sram = s.sram ∧ t.mram = s.mram ∧ t.mode = s.mode

section
variable {s a : State} {x k : Nat} {w : Sess} {out : List Sent}

/-- R389. A run begun is held, and its session is as it was. -/
theorem State.Heard.runStart (h : s.Heard a x w out) (verb k cmd : Nat) :
    s.RunBegun (a.runStart x verb k cmd) x k verb cmd ∧ (a.runStart x verb k cmd).sess x = some w := by
  unfold State.runStart
  extract_lets seq hold
  generalize hb : ({ a with net := { a.net with holds := mset none a.net.holds k (some hold) } } : State) = b
  have hstages : b.Stages b.stageNow := b.stages_stageNow
  have hnet : b.stageNow.net = b.net := by rw [hstages]
  have hhold : mget none b.net.holds k = some hold := by
    rw [← hb]
    exact mget_mset_same
  have hmode : b.stageNow.mode = s.mode := by
    have hmode' : b.mode = s.mode := by rw [← hb]; exact h.mode
    rw [← hmode', State.mode, State.fget, hstages.regs]
    rfl
  refine ⟨⟨⟨hold, by rw [hnet]; exact hhold, rfl, h.chanIn k 0, rfl, ?_⟩, ?_, ?_, hmode⟩, ?_⟩
  · simp only [hold, seq]
    rw [h.link]
  · rw [hstages.sram, ← hb]
    exact h.kept.1
  · rw [hstages.mram, ← hb]
    exact h.kept.2.1
  · rw [State.sess, hnet, ← hb]
    exact h.sess

/-- R389. A start on a channel that stands still begins its run. -/
theorem State.Heard.run_accepted (h : s.Heard a x w out) (hk : k < 12) (hrun : s.mayRun k) (hstill : s.chanIn k 0 ∈ [dLocked, dReleased, dOpen, dHalted])
    (verb : Nat) (i : Waiting) : s.RunBegun (a.runDecide x verb k i) x k verb (if verb = vLearn then 6 else 5) ∧
      (a.runDecide x verb k i).sess x = some { w with deferred := none } := by
  unfold State.runDecide
  rw [h.agreeRun hk hrun, if_pos (by simpa using hstill)]
  exact h.mayAct.runStart ..

/-- R386. A start on a reversing channel waits. -/
theorem State.Heard.run_deferred (h : s.Heard a x w out) (hfree : w.deferred = none) (hk : k < 12) (hrun : s.mayRun k)
    (hmoves : s.chanIn k 0 = dReversing) (verb : Nat) (i : Waiting) :
    s.Heard (a.runDecide x verb k i) x { w with deferred := some (i, s.time.mono) } out := by
  unfold State.runDecide
  rw [h.agreeRun hk hrun, hmoves]
  exact h.mayWait hfree ..

/-- R389. An abort takes the place of the run that is held. -/
theorem State.Heard.run_aborted (h : s.Heard a x w out) (hm : s.mode = mMaint) {g : Hold} (hg : mget none s.net.holds k = some g) (hphase : g.phase ≤ 1)
    {verb : Nat} (hcmd : g.cmd = if verb = vLearn then 6 else 5) : s.RunBegun (a.runAbort x verb k) x k verb 3 := by
  unfold State.runAbort
  rw [h.needMaint hm, h.holds, hg]
  dsimp only
  rw [if_pos ⟨hphase, hcmd⟩]
  exact ((h.accepted.replyLater verb).runStart verb k 3).1

end

/-- R389. The commands of a door test on channel `ch`. -/
theorem doorTest_completes {s : State} {h : VerbHdr} {x : Fin 4} {v : Sess} {ch : Byte} (hch : ch.toNat < 12) :
    (s.Takes h x v vDoorTest 8 [ch, 0] → s.mayRun ch.toNat → s.chanIn ch.toNat 0 ∈ [dLocked, dReleased, dOpen, dHalted] →
      s.Does (.doorTestStart h ch) fun t => s.RunBegun t x ch.toNat vDoorTest 5) ∧
    (s.Takes h x v vDoorTest 8 [ch, 0] → s.mayRun ch.toNat → s.chanIn ch.toNat 0 = dReversing →
      s.Does (.doorTestStart h ch) fun t => s.Waits t x (.run false ch.toNat)) ∧
    (∀ g, s.Takes h x v vDoorTest 8 [ch, 1] → s.mode = mMaint → mget none s.net.holds ch.toNat = some g → g.phase ≤ 1 → g.cmd = 5 →
      s.Does (.doorTestAbort h ch) fun t => s.RunBegun t x ch.toNat vDoorTest 3) := by
  refine ⟨fun ht hrun hstill => ?_, fun ht hrun hmoves => ?_, fun g ht hm hg hphase hcmd => ?_⟩ <;> obtain ⟨a, ha, hgo⟩ := ht.heard
  · exact ⟨_, congrArg Host.Outcome.next (hgo _ _ (decide_eq_true hch)), ((ha.replyLater _).run_accepted hch hrun hstill ..).1⟩
  · exact ⟨_, congrArg Host.Outcome.next (hgo _ _ (decide_eq_true hch)), _, (ha.replyLater _).run_deferred ht.free hch hrun hmoves ..⟩
  · exact ⟨_, congrArg Host.Outcome.next (hgo _ _ (decide_eq_true hch)), ha.run_aborted hm hg hphase hcmd⟩

/-- R389. The commands of a learning run on channel `ch`. -/
theorem learnProfile_completes {s : State} {h : VerbHdr} {x : Fin 4} {v : Sess} {ch : Byte} (hch : ch.toNat < 12) :
    (s.Takes h x v vLearn 9 [ch, 0] → s.mayRun ch.toNat → s.chanIn ch.toNat 0 ∈ [dLocked, dReleased, dOpen, dHalted] →
      s.Does (.learnProfileStart h ch) fun t => s.RunBegun t x ch.toNat vLearn 6) ∧
    (s.Takes h x v vLearn 9 [ch, 0] → s.mayRun ch.toNat → s.chanIn ch.toNat 0 = dReversing →
      s.Does (.learnProfileStart h ch) fun t => s.Waits t x (.run true ch.toNat)) ∧
    (∀ g, s.Takes h x v vLearn 9 [ch, 1] → s.mode = mMaint → mget none s.net.holds ch.toNat = some g → g.phase ≤ 1 → g.cmd = 6 →
      s.Does (.learnProfileAbort h ch) fun t => s.RunBegun t x ch.toNat vLearn 3) := by
  refine ⟨fun ht hrun hstill => ?_, fun ht hrun hmoves => ?_, fun g ht hm hg hphase hcmd => ?_⟩ <;> obtain ⟨a, ha, hgo⟩ := ht.heard
  · exact ⟨_, congrArg Host.Outcome.next (hgo _ _ (decide_eq_true hch)), ((ha.replyLater _).run_accepted hch hrun hstill ..).1⟩
  · exact ⟨_, congrArg Host.Outcome.next (hgo _ _ (decide_eq_true hch)), _, (ha.replyLater _).run_deferred ht.free hch hrun hmoves ..⟩
  · exact ⟨_, congrArg Host.Outcome.next (hgo _ _ (decide_eq_true hch)), ha.run_aborted hm hg hphase hcmd⟩

end Sys2Proof.Machine
end

section
namespace Sys2Proof.Machine

/-! ### Verbs whose reply waits for the commit (R51, R53, R388) -/

/-- What a verb whose reply waits for the commit leaves of `s`. -/
structure State.AtCommit (s t : State) (x verb : Nat) (w : Sess) : Prop where
  sess : ∃ n, t.sess x = some { w with waiting := n, reply := [] }
  others : ∀ y, y ≠ x → t.sess y = s.sess y
  due : (x, verb) ∈ t.net.atCommit
  modeReq : t.modeReq = s.modeReq
  maintSess : t.net.maintSess = s.net.maintSess
  forces : t.net.forces = s.net.forces
  kept : t.sram = s.sram ∧ t.mram = s.mram ∧ t.mode = s.mode

/-- R385. The reply `DONE` of a session goes out at the next commit point. -/
theorem State.doneAtCommit_staged {s : State} {x : Nat} {w : Sess} (h : s.sess x = some w) (verb : Nat) :
    s.AtCommit (s.doneAtCommit x verb).stageNow x verb w := by
  have hlater := (State.heard_self h).replyLater verb
  unfold State.doneAtCommit
  generalize s.replyLater x verb = a at hlater ⊢
  dsimp only
  generalize hb : ({ a with net := { a.net with atCommit := a.net.atCommit ++ [(x, verb)] } } : State) = b
  have hstages : b.Stages b.stageNow := b.stages_stageNow
  have hnet : b.stageNow.net = b.net := by rw [hstages]
  have hmode : b.mode = s.mode := by rw [← hb]; exact hlater.mode
  have hreq : b.modeReq = s.modeReq := by rw [← hb, hlater.frame]
  refine ⟨⟨mset 0 w.waiting verb (w.last + 1), ?_⟩, fun y hy => ?_, ?_, ?_, ?_, ?_, ?_, ?_, ?_⟩
  · rw [State.sess, hnet, ← hb]
    exact hlater.sess
  · rw [State.sess, hnet, ← hb]
    exact hlater.others y hy
  · rw [hnet, ← hb]
    simp
  · rw [hstages]
    exact hreq
  · rw [hnet, ← hb, hlater.net]
  · rw [hnet, ← hb, hlater.net]
  · rw [hstages.sram, ← hb]
    exact hlater.kept.1
  · rw [hstages.mram, ← hb]
    exact hlater.kept.2.1
  · rw [← hmode, State.mode, State.fget, hstages.regs]
    rfl

/-- R53. SET_MODE enter. -/
theorem setModeEnter_completes {s : State} {h : VerbHdr} {x : Fin 4} {v : Sess} (ht : s.Takes h x v vSetMode 7 [1]) (hm : s.mode = mActive)
    (hreq : s.modeReq = none) (hpark : s.power.park = 0) (hzero : s.fbit Reg.IL_STAT_ZS_PROVEN = true) (hoff : s.tractionOff = true) :
    s.Does (.setModeEnter h) fun t => s.Taken t h x v ∧ t.modeReq = some { mode := mMaint, trig := trEnter } ∧ t.net.maintSess = some x.val ∧
      (x.val, vSetMode) ∈ t.net.atCommit ∧ t.sram = s.sram ∧ t.mram = s.mram ∧ t.mode = s.mode := by
  obtain ⟨a, ha, hgo⟩ := ht.heard
  have hagree : a.agreeEnter = .accept := by
    have hareq : a.modeReq = none := by rw [ha.frame]; exact hreq
    have hapark : a.power.park = 0 := by rw [ha.frame]; exact hpark
    unfold State.agreeEnter
    rw [ha.mode, hm, hareq, hapark, ha.fbit (g := Reg.IL_STAT_ZS_PROVEN) (by decide), hzero, ha.tractionOff, hoff]
    rfl
  have hact := ha.accepted
  generalize hb : a.accepted = b at hact
  let c : State := { b with
    modeReq := some { mode := mMaint, trig := trEnter }, net := { b.net with maintIdle := b.time.mono, maintSess := some x.val } }
  have hdone := State.doneAtCommit_staged (s := c) hact.sess vSetMode
  obtain ⟨⟨n, hsess⟩, hothers, hdue, hmode, hmaint, -, hkept⟩ := hdone
  refine ⟨(c.doneAtCommit x vSetMode).stageNow, ?_, State.taken_of hsess ⟨rfl, rfl, rfl, rfl, rfl⟩ fun y hy => (hothers y hy).trans (hact.others y hy),
    hmode, hmaint, hdue, hkept.1.trans hact.kept.1, hkept.2.1.trans hact.kept.2.1, hkept.2.2.trans hact.kept.2.2⟩
  refine congrArg Host.Outcome.next ((hgo _ _ rfl).trans ?_)
  rw [hagree]
  simp only [State.agreed, hb]
  rfl

/-- R51. SET_MODE leave. -/
theorem setModeLeave_completes {s : State} {h : VerbHdr} {x : Fin 4} {v : Sess} (ht : s.Takes h x v vSetMode 7 [2]) (hm : s.mode = mMaint)
    (hreq : s.modeReq = none) :
    s.Does (.setModeLeave h) fun t => s.Taken t h x v ∧ t.modeReq = some { mode := mActive, trig := trLeave } ∧
      (x.val, vSetMode) ∈ t.net.atCommit ∧ t.sram = s.sram ∧ t.mram = s.mram ∧ t.mode = s.mode := by
  obtain ⟨a, ha, hgo⟩ := ht.heard
  have hareq : a.modeReq = none := by rw [ha.frame]; exact hreq
  have hact := ha.accepted
  generalize hb : a.accepted = b at hact
  let c : State := { b with modeReq := some { mode := mActive, trig := trLeave } }
  obtain ⟨⟨n, hsess⟩, hothers, hdue, hmode, -, -, hkept⟩ := State.doneAtCommit_staged (s := c) hact.sess vSetMode
  refine ⟨(c.doneAtCommit x vSetMode).stageNow, ?_, State.taken_of hsess ⟨rfl, rfl, rfl, rfl, rfl⟩ fun y hy => (hothers y hy).trans (hact.others y hy),
    hmode, hdue, hkept.1.trans hact.kept.1, hkept.2.1.trans hact.kept.2.1, hkept.2.2.trans hact.kept.2.2⟩
  refine congrArg Host.Outcome.next ((hgo _ _ rfl).trans ?_)
  rw [ha.mode, hm, hareq]
  simp only [State.agreed, hb]
  rfl

/-- R388. A load output is forced from the commit on. -/
theorem forceLoad_completes {s : State} {h : VerbHdr} {x : Fin 4} {v : Sess} {num value : Byte} (ht : s.Takes h x v vForce 10 [1, num, value, 0])
    (hm : s.mode = mMaint) (hvalue : value.toNat ≤ 2) (hnum : num.toNat < 24) (hfit : s.fitted (4 + num.toNat / 12) = true)
    (htopo : s.topo? 0x0501 num.toNat ≠ none) (hslave : s.topoN 0x0501 num.toNat 10 1 0 ≠ 2) :
    s.Does (.forceOutput h 1 num value) fun t => s.Taken t h x v ∧ (x.val, vForce) ∈ t.net.atCommit ∧ (t.sram = s.sram ∧ t.mram = s.mram ∧ t.mode = s.mode) ∧
      mget 0 t.net.forces num.toNat = (if value = 2 then 0 else value.toNat + 1) := by
  obtain ⟨a, ha, hgo⟩ := ht.heard
  have hagree : a.agreeForce 1 num.toNat = .accept := by
    have hfit' : a.fitted (4 + num.toNat / 12) = true := by rw [ha.frame]; exact hfit
    have htopo' : a.topo? 0x0501 num.toNat ≠ none := by rw [ha.frame]; exact htopo
    unfold State.agreeForce
    rw [ha.needMaint hm]
    dsimp only
    rw [if_pos rfl, hfit', ha.topoN, if_neg]
    simp [hslave, Option.isNone_iff_eq_none, htopo']
  have hact := ha.accepted
  generalize hb : a.accepted = b at hact
  let c : State := { b with net := { b.net with forces := mset 0 b.net.forces num.toNat (if value.toNat = 2 then 0 else value.toNat + 1) } }
  obtain ⟨⟨n, hsess⟩, hothers, hdue, -, -, hforces, hkept⟩ := State.doneAtCommit_staged (s := c) hact.sess vForce
  refine ⟨(c.doneAtCommit x vForce).stageNow, ?_, State.taken_of hsess ⟨rfl, rfl, rfl, rfl, rfl⟩ fun y hy => (hothers y hy).trans (hact.others y hy),
    hdue, ⟨hkept.1.trans hact.kept.1, hkept.2.1.trans hact.kept.2.1, hkept.2.2.trans hact.kept.2.2⟩, ?_⟩
  · refine congrArg Host.Outcome.next ((hgo _ _ ?_).trans ?_)
    · simp [hnum, hvalue]
    · show a.agreed x vForce (a.agreeForce 1 num.toNat) _ = _
      rw [hagree]
      simp only [State.agreed, hb]
      rfl
  · have htwo : value = 2 ↔ value.toNat = 2 := by bv_omega
    rw [hforces]
    simp only [htwo]
    exact mget_mset_same

/-! ### Verbs answered at once (R62, R346, R353) -/

/-- R385. The reply to a request, out of a state in which registers alone have changed since it was taken. -/
theorem State.Heard.answered {s a c : State} {x : Nat} {w : Sess} (h : s.Heard a x w []) (hc : c = { a with regs := c.regs })
    (hup : c.portUp w.port = true) (verb : Nat) : ∃ r, (c.reply x verb rDone 0 []).sess x = some { w with reply := r } ∧
      (∀ y, y ≠ x → (c.reply x verb rDone 0 []).sess y = s.sess y) ∧
      (c.reply x verb rDone 0 []).net.sent = s.net.sent ++ [{ chan := w.port, kind := 2, data := verbReply w.key verb x w.last rDone 0 [] }] ∧
      (∀ g : Fld, g.addr ∉ verbRegs → (c.reply x verb rDone 0 []).fget g = c.fget g) ∧
      c.reply x verb rDone 0 [] = { s with
        regs := (c.reply x verb rDone 0 []).regs, live := (c.reply x verb rDone 0 []).live, net := (c.reply x verb rDone 0 []).net } := by
  have hsess (y : Nat) : c.sess y = a.sess y := by rw [hc]; rfl
  have hnet : c.net = a.net := by rw [hc]
  obtain ⟨r, hr⟩ := (State.heard_self ((hsess x).trans h.sess)).reply hup verb rDone 0 []
  refine ⟨r, hr.sess, fun y hy => (hr.others y hy).trans ((hsess y).trans (h.others y hy)), ?_, hr.fget, ?_⟩
  · rw [hr.sent, hnet, h.sent, List.append_nil]
    rfl
  · rw [hr.frame, hc, h.frame]

/-- R359. A port stands up whatever is written to the registers of the message bus. -/
theorem State.portUp_fset {s : State} {f : Fld} (hf : 0x40030000 ≤ f.addr ∧ f.addr < 0x40034000) (n p : Nat) : (s.fset f n).portUp p = s.portUp p := by
  refine State.portUp_congr rfl rfl (State.fget_fset_addr s (g := Reg.MODE_STAT_MODE) ?_) (State.fbit_fset_addr s n ?_)
  · simp only [Reg.MODE_STAT_MODE]
    omega
  · simp only [Reg.PORT_STAT_LINK]
    omega

/-- R353. The loop-back of a controller is forced at once. -/
theorem forceLoop_completes {s : State} {h : VerbHdr} {x : Fin 4} {v : Sess} {num value : Byte} (ht : s.Takes h x v vForce 10 [3, num, value, 0])
    (hm : s.mode = mMaint) (hvalue : value.toNat ≤ 2) (hnum : num.toNat < 4) (hon : s.canOn num.toNat = true) :
    s.Does (.forceOutput h 3 num value) fun t => s.Taken t h x v ∧ t.fget (Reg.CAN_STAT_LOOP num.toNat) = value.toNat ∧
      s.Replied t h x v vForce rDone 0 [] ∧ t = { s with regs := t.regs, live := t.live, net := t.net } := by
  obtain ⟨a, ha, hgo⟩ := ht.heard
  have hagree : a.agreeForce 3 num.toNat = .accept := by
    have hon' : a.canOn num.toNat = true := by rw [ha.frame]; exact hon
    unfold State.agreeForce
    rw [ha.needMaint hm]
    simp [hon']
  have hloop : 0x40030000 ≤ (Reg.CAN_STAT_LOOP num.toNat).addr ∧ (Reg.CAN_STAT_LOOP num.toNat).addr < 0x40034000 := by
    simp only [Reg.CAN_STAT_LOOP]
    omega
  obtain ⟨r, hsess, hothers, hsent, hget, hframe⟩ := ha.accepted.answered (c := a.accepted.fset (Reg.CAN_STAT_LOOP num.toNat) value.toNat) rfl
    ((State.portUp_fset hloop ..).trans ((ha.accepted.portUp _).trans ht.port)) vForce
  refine ⟨_, ?_, State.taken_of hsess ⟨rfl, rfl, rfl, rfl, rfl⟩ hothers, ?_, hsent, hframe⟩
  · refine congrArg Host.Outcome.next ((hgo _ _ ?_).trans ?_)
    · simp [hnum, hvalue]
    · show a.agreed x vForce (a.agreeForce 3 num.toNat) _ = _
      rw [hagree]
      rfl
  · refine (hget _ ?_).trans ((State.fget_fset_same ..).trans (Nat.mod_eq_of_lt ?_))
    · simp [verbRegs, Reg.CAN_STAT_LOOP, Reg.NET_STAT_SESS_OPEN, Reg.AUTH_CNT_DEFERRED, Reg.VERB_CNT_ACCEPTED]
      omega
    · simp only [Reg.CAN_STAT_LOOP]
      omega

/-- R346. Recovery from bus-off begins. -/
theorem busoffRecover_completes {s : State} {h : VerbHdr} {x : Fin 4} {v : Sess} {c : Byte} (ht : s.Takes h x v vBusoff 11 [c]) (hc : c.toNat < 4)
    (hd : s.driving = true) (hoff : s.fget (Reg.CAN_STAT_ERR_STATE c.toNat) = 2) (hidle : s.fbit (Reg.CAN_STAT_RECOVERING c.toNat) = false) :
    s.Does (.busoffRecover h c) fun t => s.Taken t h x v ∧ t.fbit (Reg.CAN_STAT_RECOVERING c.toNat) = true ∧
      s.Replied t h x v vBusoff rDone 0 [] ∧ t = { s with regs := t.regs, live := t.live, net := t.net } := by
  obtain ⟨a, ha, hgo⟩ := ht.heard
  have haddr {g : Fld} (hg : g.addr = 0x40030000 + c.toNat * 0x1000) : g.addr ∉ verbRegs := by
    simp [verbRegs, Reg.NET_STAT_SESS_OPEN, Reg.AUTH_CNT_DEFERRED, Reg.VERB_CNT_ACCEPTED]
    omega
  have hrec : 0x40030000 ≤ (Reg.CAN_STAT_RECOVERING c.toNat).addr ∧ (Reg.CAN_STAT_RECOVERING c.toNat).addr < 0x40034000 := by
    simp only [Reg.CAN_STAT_RECOVERING]
    omega
  have hstandby : s.mode ≠ mStandby := by
    intro hm
    simp [State.driving, hm, mStandby, mActive, mMaint] at hd
  have hdriving : a.driving = true := by
    unfold State.driving
    rw [ha.mode]
    exact hd
  have hoff' : a.fget (Reg.CAN_STAT_ERR_STATE c.toNat) = 2 := (ha.fget _ (haddr rfl)).trans hoff
  have hidle' : a.fbit (Reg.CAN_STAT_RECOVERING c.toNat) = false := (ha.fbit (haddr rfl)).trans hidle
  have hrecover : a.accepted.canRecover c.toNat = a.accepted.fon (Reg.CAN_STAT_RECOVERING c.toNat) :=
    if_pos ((ha.accepted.fget _ (haddr rfl)).trans hoff)
  obtain ⟨r, hsess, hothers, hsent, hget, hframe⟩ := ha.accepted.answered (c := a.accepted.fon (Reg.CAN_STAT_RECOVERING c.toNat)) rfl
    ((State.portUp_fset hrec ..).trans ((ha.accepted.portUp _).trans ht.port)) vBusoff
  refine ⟨_, ?_, State.taken_of hsess ⟨rfl, rfl, rfl, rfl, rfl⟩ hothers, ?_, hsent, hframe⟩
  · refine congrArg Host.Outcome.next ((hgo _ _ (decide_eq_true hc)).trans ?_)
    dsimp only
    rw [ha.mode, if_neg hstandby, hdriving, hoff', hidle']
    exact congrArg (fun u : State => u.reply x vBusoff rDone 0 []) hrecover
  · exact (congrArg (decide <| · ≠ 0) (hget _ (haddr rfl))).trans (State.fbit_fon_same _ (Nat.le_refl 2))

/-- R62, R385. The reset of the device is due at the commit point. -/
theorem reset_completes {s : State} {h : VerbHdr} {x : Fin 4} {v : Sess} (ht : s.Takes h x v vReset 12 [])
    (hsafe : s.mode ≠ mActive ∨ s.fbit Reg.IL_STAT_ZS_PROVEN = true) :
    s.Does (.reset h) fun t => s.Taken t h x v ∧ t.net.resetDue = true ∧ s.Replied t h x v vReset rDone 0 [] ∧
      t = { s with regs := t.regs, live := t.live, net := t.net } := by
  obtain ⟨a, ha, hgo⟩ := ht.heard
  obtain ⟨r, hsess, hothers, hsent, -, hframe⟩ := ha.accepted.answered (c := a.accepted) rfl ((ha.accepted.portUp _).trans ht.port) vReset
  generalize hu : a.accepted.reply x vReset rDone 0 [] = u at hsess hothers hsent hframe
  refine ⟨{ u with net := { u.net with resetDue := true } }, ?_, State.taken_of hsess ⟨rfl, rfl, rfl, rfl, rfl⟩ hothers, rfl, hsent, by rw [hframe]⟩
  refine congrArg Host.Outcome.next ((hgo _ _ rfl).trans ?_)
  dsimp only
  rw [ha.mode, ha.fbit (g := Reg.IL_STAT_ZS_PROVEN) (by decide), if_neg]
  · simp only [State.agreed, hu]
  · rintro ⟨hm, hno⟩
    rcases hsafe with hsafe | hsafe
    · exact hsafe hm
    · simp [hsafe] at hno

theorem State.toDev_frame (s : State) (t : Nat) : s.toDev t = { s with time := (s.toDev t).time, power := (s.toDev t).power } := by
  unfold State.toDev
  split <;> rfl

/-- R62. The reset of a RESET verb. -/
theorem verbReset_completes {s : State} (hdue : s.net.resetDue = true) (halive : s.inReset = false) (hm : s.mode ≠ mPark) :
    s.Does .verbReset fun t => s.Restarted t 5 ∧ t.boot.cold = false ∧ commitPt s.time.gc ≤ t.time.dev := by
  have hreach := s.le_toDev (commitPt s.time.gc)
  have he : exec .verbReset s = .next ((s.toDev (commitPt s.time.gc)).deviceReset 5) :=
    congrArg Host.Outcome.next (if_neg (by simp [hdue, halive, hm]))
  have hframe := s.toDev_frame (commitPt s.time.gc)
  generalize s.toDev (commitPt s.time.gc) = u at he hreach hframe
  have hmode : u.mode ≠ mPark := by rw [hframe]; exact hm
  obtain ⟨d, hd, hborn⟩ := u.deviceReset_reborn (cause := 5) u.mode (by decide)
  refine ⟨_, he, (u.deviceReset_restarted _ (by decide)).of_frame (by rw [hframe]), hborn.coldBoot, ?_⟩
  rw [hborn.dev]
  exact hreach.trans_eq (hd hmode).symm

end Sys2Proof.Machine
end

section
namespace Sys2Proof.Machine

/-! ### Deferred verbs taken up again (R386) -/

section
variable {s : State} {x : Fin 4} {v : Sess}

theorem State.cairnClear_open {a : State} {x : Nat} {w : Sess} (h : a.sess x = some w) (hopen : w.closing = false) :
    ∃ w', (a.cairnClear x).sess x = some w' ∧ w'.deferred = w.deferred := by
  obtain ⟨-, -, hframe⟩ := a.cairnEmptied_spec x
  have hsess : (a.cairnEmptied x).sess x = some w := by rw [hframe]; exact h
  exact (State.replyNow_sess hsess hopen vClearCairn rDone 0 []).1

/-- R386, R457. A deferred CLEAR_CAIRN is taken up. -/
theorem deferResolve_clears {at_ : Nat} (hv : s.sess x = some v) (hopen : v.closing = false) (hdef : v.deferred = some (.clearCairn, at_))
    (hm : s.mode = mMaint) (hread : ∀ y < 4, y ≠ x.val → ∀ w, s.sess y = some w → w.reading = false) :
    s.Does (.deferResolve x) fun t => s.Cleared t ∧ ∃ w, t.sess x = some w ∧ w.deferred = none := by
  obtain ⟨c, hc, heq, hcleared⟩ := (State.heard_self hv).clear_accepted hm hread
  refine ⟨c.cairnClear x, ?_, hcleared, State.cairnClear_open hc.sess hopen⟩
  show execDeferResolve x s = _
  unfold execDeferResolve
  rw [hv]
  dsimp only
  rw [hdef]
  exact congrArg Host.Outcome.next heq

/-- R386, R389. A deferred start is taken up. -/
theorem deferResolve_runs {at_ : Nat} (hv : s.sess x = some v) {learn : Bool} {k : Nat} (hk : k < 12) (hdef : v.deferred = some (.run learn k, at_))
    (hrun : s.mayRun k) (hstill : s.chanIn k 0 ∈ [dLocked, dReleased, dOpen, dHalted]) :
    s.Does (.deferResolve x) fun t => s.RunBegun t x k (if learn then vLearn else vDoorTest) (if learn then 6 else 5) ∧
      ∃ w, t.sess x = some w ∧ w.deferred = none := by
  obtain ⟨hbegun, hsess⟩ := (State.heard_self hv).run_accepted hk hrun hstill (if learn then vLearn else vDoorTest) (.run learn k)
  refine ⟨_, ?_, ?_, ⟨_, hsess, rfl⟩⟩
  · show execDeferResolve x s = _
    unfold execDeferResolve
    rw [hv]
    dsimp only
    rw [hdef]
  · cases learn <;> exact hbegun

theorem State.speaks_setDeferred (s : State) (x : Nat) (d : Option (Waiting × Nat)) : s.Speaks (s.setDeferred x d) :=
  (s.speaks_modSess ..).trans (State.speaks_fset _ _ (by decide))

/-- R386, R398. A late refusal is counted, and the session stays; of the rest it changes the recorder's queue, the sessions and their registers. -/
theorem State.refuseLate_spec {s : State} {x : Nat} {v : Sess} (hv : s.sess x = some v) (hopen : v.closing = false) (verb sub : Nat) :
    (∃ w, (s.refuseLate x verb sub).sess x = some w ∧ w.deferred = v.deferred) ∧
      (s.refuseLate x verb sub).fget Reg.VERB_CNT_REFUSED = min 65535 (s.fget Reg.VERB_CNT_REFUSED + 1) ∧
      (s.refuseLate x verb sub).mode = s.mode ∧
      ∃ t : State, s.refuseLate x verb sub = { s with regs := t.regs, live := t.live, net := t.net, cairn := t.cairn } := by
  unfold State.refuseLate
  extract_lets role u
  have hcounted : ((s.fsat Reg.VERB_CNT_REFUSED).fon Reg.NET_FLAGS_REFUSE_SEEN).Records u := State.records_record ..
  have hspeaks := u.speaks_replyNow x verb rAgree sub []
  have hsess : u.sess x = some v := by rw [hcounted.frame]; exact hv
  refine ⟨(State.replyNow_sess hsess hopen ..).1, ?_, ?_, u.replyNow x verb rAgree sub [], ?_⟩
  · rw [hspeaks.fget _ (by decide), hcounted.fget _ (by decide), State.fon, State.fget_fset_addr _ (by decide), State.fsat, State.fget_fset_same,
      min_comm]
    exact Nat.mod_eq_of_lt (by simp [Reg.VERB_CNT_REFUSED])
  · exact (hspeaks.fget Reg.MODE_STAT_MODE (by decide)).trans ((hcounted.fget Reg.MODE_STAT_MODE (by decide)).trans
      ((State.fget_fset_addr _ (by decide)).trans (State.fget_fset_addr _ (by decide))))
  · generalize u.replyNow x verb rAgree sub [] = t at hspeaks ⊢
    clear_value u
    rw [hspeaks.frame, hcounted.frame]
    rfl

/-- R386. The verb that session `x` has deferred is refused at `due`. -/
def State.deferEnd (s : State) (x verb due : Nat) : State := ((s.toMono due).setDeferred x none).refuseLate x verb 0x0B

theorem State.deferEnd_spec {x : Nat} (hv : s.sess x = some v) (hopen : v.closing = false) (verb due : Nat) :
    (∃ w, (s.deferEnd x verb due).sess x = some w ∧ w.deferred = none) ∧ due ≤ (s.deferEnd x verb due).time.mono ∧
      (s.deferEnd x verb due).fget Reg.VERB_CNT_REFUSED = min 65535 (s.fget Reg.VERB_CNT_REFUSED + 1) ∧
      (s.deferEnd x verb due).sram = s.sram ∧ (s.deferEnd x verb due).mram = s.mram ∧ (s.deferEnd x verb due).mode = s.mode := by
  have hreach := s.le_toMono due
  have hcount : (s.toMono due).fget Reg.VERB_CNT_REFUSED = s.fget Reg.VERB_CNT_REFUSED := rfl
  have hkept : (s.toMono due).sram = s.sram ∧ (s.toMono due).mram = s.mram ∧ (s.toMono due).mode = s.mode := ⟨rfl, rfl, rfl⟩
  have hself := State.heard_self (s := s.toMono due) hv
  unfold State.deferEnd
  generalize s.toMono due = u at hreach hcount hkept hself ⊢
  have hfree := hself.setDeferred none
  have hspeaks := u.speaks_setDeferred x none
  generalize u.setDeferred x none = a at hfree hspeaks
  obtain ⟨hsess, hrefused, hmode, c, hframe⟩ := State.refuseLate_spec hfree.sess hopen verb 0x0B
  obtain ⟨hsram, hmram, hmode'⟩ := hkept
  obtain ⟨hsram', hmram', hmode''⟩ := hfree.kept
  refine ⟨hsess, ?_, ?_, ?_, ?_, hmode.trans (hmode''.trans hmode')⟩
  · rw [hframe, hspeaks.frame]
    exact hreach
  · rw [hrefused, hspeaks.fget _ (by decide), hcount]
  · rw [hframe]
    exact hsram'.trans hsram
  · rw [hframe]
    exact hmram'.trans hmram

/-- R386. A deferred verb times out. -/
theorem deferTimeout_completes {x : Fin 4} {i : Waiting} {at_ : Nat} (hv : s.sess x = some v) (hopen : v.closing = false)
    (hdef : v.deferred = some (i, at_)) :
    s.Does (.deferTimeout x) fun t => (∃ w, t.sess x = some w ∧ w.deferred = none) ∧ at_ + s.topoN 0x0806 0 8 2 10000 * 1000000 ≤ t.time.mono ∧
      t.fget Reg.VERB_CNT_REFUSED = min 65535 (s.fget Reg.VERB_CNT_REFUSED + 1) ∧ t.sram = s.sram ∧ t.mram = s.mram ∧ t.mode = s.mode := by
  refine ⟨s.deferEnd x (deferredVerb i) (at_ + s.topoN 0x0806 0 8 2 10000 * 1000000), ?_, State.deferEnd_spec hv hopen ..⟩
  show execDeferTimeout x s = _
  unfold execDeferTimeout
  rw [hv]
  dsimp only
  rw [hdef]
  rfl

end

end Sys2Proof.Machine
end

section
namespace Sys2Proof.Machine

theorem State.Does.imp {s : State} {c : Instr} {p q : State → Prop} (h : s.Does c p) (hpq : ∀ t, p t → q t) : s.Does c q := by
  obtain ⟨t, ht, hp⟩ := h
  exact ⟨t, ht, hpq t hp⟩

theorem State.Cleared.all {s t : State} (h : s.Cleared t) : t.fget Reg.CAIRN_STAT_FILL = 1 ∧ t.fbit Reg.CAIRN_STAT_FULL = false ∧
    (∀ a, cairnMain + 32 ≤ a → a < cairnMain + 32 * 16320 → mget 0 t.mram a = 0) ∧ s.sameMramOutside t cairnMain (32 * 16320) ∧ t.sram = s.sram :=
  ⟨h.fill, h.full, h.empty, h.outside, h.sram⟩

theorem State.RunBegun.all {s t : State} {x k verb cmd : Nat} (h : s.RunBegun t x k verb cmd) :
    (∃ g, mget none t.net.holds k = some g ∧ g.cmd = cmd ∧ g.from_ = s.chanIn k 0 ∧ g.sess = some (x, verb) ∧
      g.seq = ((mget 0 (s.link (chSlot k)).sentOut (16 * (k % 4) + 1)).toNat + 1) % 256) ∧ t.sram = s.sram ∧ t.mram = s.mram ∧ t.mode = s.mode :=
  ⟨h.hold, h.kept⟩

/-- A statement of every other session that reads, over the numbers of the sessions. -/
theorem State.none_reads {s : State} {x : Fin 4} (h : ∀ y : Fin 4, y ≠ x → ¬ ∃ w, s.sess y = some w ∧ w.reading = true) :
    ∀ y < 4, y ≠ x.val → ∀ w, s.sess y = some w → w.reading = false := fun y hy hne w hw =>
  Bool.eq_false_iff.mpr fun hread => h ⟨y, hy⟩ (fun heq => hne (congrArg Fin.val heq)) ⟨w, hw, hread⟩

/-- Settles O40: each verb is taken in its session, the agreement check accepts it there, and what it then does reaches the state. -/
theorem actingVerbsComplete : Obligations.ActingVerbsComplete := by
  unfold Obligations.ActingVerbsComplete
  intro s h x v reads kept cleared waits held still moves
  refine ⟨fun ht hm => ⟨fun hno => ?_, ?_⟩, fun ht hm hreq hpark hzero hoff => setModeEnter_completes ht hm hreq hpark hzero hoff,
    fun ht hm hreq => setModeLeave_completes ht hm hreq, fun ch hch => ?_, fun kind num value ht hm hvalue => ⟨?_, ?_⟩,
    fun c ht hc hd hoff hidle => busoffRecover_completes ht hc hd hoff hidle, fun ht hsafe => reset_completes ht hsafe,
    fun hdue halive hm => verbReset_completes hdue halive hm, fun i at_ hv hopen hdef => ⟨?_, ?_, deferTimeout_completes hv hopen hdef⟩⟩
  · exact (clearCairn_completes ht hm (State.none_reads hno)).imp fun t ⟨htaken, hcleared, hreply⟩ => ⟨htaken, hcleared.all, hreply⟩
  · rintro ⟨y, hne, w, hw, hread⟩
    exact (clearCairn_waits ht hm y.isLt (fun heq => hne (Fin.ext heq)) hw hread).imp fun t hwaits => hwaits.all
  · obtain ⟨hstart, hwait, habort⟩ := doorTest_completes (s := s) (h := h) (x := x) (v := v) hch
    obtain ⟨hstart', hwait', habort'⟩ := learnProfile_completes (s := s) (h := h) (x := x) (v := v) hch
    refine ⟨fun ht ⟨hm, hrole, hdie, hfree, hin⟩ => ?_, fun ht ⟨hm, hrole, hdie, hfree, hin⟩ => ?_, fun ht ⟨hm, hrole, hdie, hfree, hin⟩ => ?_,
      fun ht ⟨hm, hrole, hdie, hfree, hin⟩ => ?_, fun g hm hg hphase => ⟨fun ht hcmd => ?_, fun ht hcmd => ?_⟩⟩
    · exact (hstart ht ⟨hm, hrole, hdie, hfree⟩ hin).imp fun t hrun => hrun.all
    · exact (hwait ht ⟨hm, hrole, hdie, hfree⟩ hin).imp fun t hwaits => hwaits.all
    · exact (hstart' ht ⟨hm, hrole, hdie, hfree⟩ hin).imp fun t hrun => hrun.all
    · exact (hwait' ht ⟨hm, hrole, hdie, hfree⟩ hin).imp fun t hwaits => hwaits.all
    · exact (habort g ht hm hg hphase hcmd).imp fun t hrun => hrun.all
    · exact (habort' g ht hm hg hphase hcmd).imp fun t hrun => hrun.all
  · rintro rfl hnum hon
    exact forceLoop_completes ht hm hvalue hnum hon
  · rintro rfl hnum hfit htopo hslave
    exact forceLoad_completes ht hm hvalue hnum hfit htopo hslave
  · rintro rfl hm hno
    exact (deferResolve_clears hv hopen hdef hm (State.none_reads hno)).imp fun t ⟨hcleared, hfree⟩ => ⟨hcleared.all, hfree⟩
  · rintro learn k hk rfl ⟨hm, hrole, hdie, hfree, hin⟩
    exact (deferResolve_runs hv hk hdef ⟨hm, hrole, hdie, hfree⟩ hin).imp fun t ⟨hrun, hdone⟩ => ⟨hrun.hold, hrun.kept, hdone⟩

end Sys2Proof.Machine
end
